-- ==== Sys2Proof/Word.lean ====
section
/-! DEFINITION. The words of the Skoper NS-9 (01 R17, R22, R23; 03 R70). -/

namespace Sys2Proof

/-- A byte of memory. -/
abbrev Byte := BitVec 8
/-- A lane register, an instruction word or a signature: 32 bits. -/
abbrev Word := BitVec 32
/-- A uniform register or a virtual address: 64 bits. -/
abbrev DWord := BitVec 64
/-- One bit per lane of a warp: ACTIVE, predicates, STRAND. -/
abbrev Mask := BitVec 32
/-- The four registers or 32 payload bytes of a majority operation. -/
abbrev Payload := BitVec 256

end Sys2Proof
end

