-- ==== Sys2Proof/Config.lean ====
section
/-! DEFINITION. The values the manual leaves open: constants without a body, of which nothing can be proved (logs 6, 8,
32 to 35). A step applies a counter of the state (env.free) to them, so that each use may differ. -/

namespace Sys2Proof.Config

/-- Picks among the values R21 allows a register to hold (log 6). -/
opaque freeNat : Nat → Nat
/-- A choice the manual leaves to timing: whether a fetch-cache line is still held (R205, log 8). -/
opaque freeBool : Nat → Bool
/-- A byte whose place in a record the manual does not give (R388, log 32). -/
opaque freeByte : Nat → BitVec 8
/-- A word the manual calls unpredictable (log 38). -/
opaque freeWord : Nat → BitVec 32
/-- A 64-bit value the manual does not state (logs 38, 43). -/
opaque freeDWord : Nat → BitVec 64
/-- The clock from which a write, or a byte of one that is not single-copy atomic, is seen by an agent that nothing has
ordered after it: by the write's number, the byte's key and the agent's number (R296 to R301, log 7). -/
opaque arrival : Nat → Nat → Nat → Nat
/-- Whether a reduction takes its place in coherence order before a write that nothing orders before it: by their numbers
(R299, R322, log 7). -/
opaque overtakes : Nat → Nat → Bool
/-- Whether an access in a clock is translated by a changed page-table entry as it was, of which no invalidation has
completed (R372, log 79). -/
opaque usesOld : Nat → Nat → Bool
/-- The partitions' PA windows the boot sets: partition, base, size (R392, R393, log 36). -/
opaque partWindows : List (Nat × Nat × Nat)
/-- The windows the security core grants host DMA at boot: base, size (R393, log 36). -/
opaque hostWindows : List (Nat × Nat)
/-- SHA-384 of a body (R392, log 33). -/
opaque sha384 : List (BitVec 8) → List (BitVec 8)
/-- Whether an ECDSA P-384 signature of header bytes verifies (R392, log 33). -/
opaque ecdsaVerifies : List (BitVec 8) → List (BitVec 8) → Bool
/-- Whether an LMS signature of header bytes verifies under the key fused for an image kind (R392, log 33). -/
opaque lmsVerifies : Nat → List (BitVec 8) → List (BitVec 8) → Bool
/-- The identity key's signature of an attestation report under both algorithms (R392, log 33). -/
opaque attestSign : List (BitVec 8) → List (BitVec 8)
/-- The keyed mark of a luma tile: +1 or -1 for each pixel, from the payload, the tile and the pixel (R394, log 34). -/
opaque markPlus : BitVec 64 → Nat → Nat → Bool
/-- The share of clocks a quadrant or engine may issue in, per judgement (R395, log 35). -/
opaque issueShare : Nat → Nat

end Sys2Proof.Config
end

