-- ==== Sys2Proof/Syntax.lean ====
section
/-! DEFINITION. The instructions and events of the Skoper NS-9: one constructor per row of spec/opcode_table.json.
An encoded row keeps its word's fields raw, as 03_word_formats_and_opcode_map.md names them; an event row names
what it acts on (the table gives events no operands: those here are the model's own, log 1). -/

namespace Sys2Proof

/-- An ordinary access of an agent outside the clusters: a read of a number of bytes, a write of bytes (R341), one whose
data are poisoned (R384), another device's release of bytes after its fence of the domain (R303), a send of a number of bytes over an Ultra Ethernet port (R394), or a seed handed to a request
(R390). -/
inductive Access where
  | read (size : Nat)
  | write (bytes : List (BitVec 8))
  | poisoned (bytes : List (BitVec 8))
  | published (bytes : List (BitVec 8))
  | send (port size : Nat)
  | seed (request : Nat) (seed : BitVec 64)
  deriving DecidableEq, Repr

/-- When a pre-emption saves its context: within a number of microseconds, 0 for the context's own deadline (R265), or
at an instruction's address (R330). -/
inductive SaveTime where
  | within (us : Nat)
  | reaching (pc : BitVec 64)
  deriving DecidableEq, Repr

/-- A stack that returns to service, and the place it takes (R374). -/
structure StackMove where
  stack : Nat
  place : Nat
  deriving DecidableEq, Repr

/-- A context and a buffer of the second tier that holds its recorded capture (R390, R391). -/
structure Recording where
  ctx : Nat
  buffer : Nat
  length : Nat
  deriving DecidableEq, Repr

/-- A launch of a context. -/
structure LaunchRef where
  ctx : Nat
  launch : Nat
  deriving DecidableEq, Repr

/-- A request's logit kernel: its record's cell, the clocks it has run for (none: it has taken an exception), and the
budget the request names (R344). -/
structure KernelRun where
  cell : Nat
  ran : Option Nat
  budget : Option Nat
  deriving DecidableEq, Repr

/-- Where a debugger's break is: the address of a context at which it is set, or the slot of a split that has reached it
(R313, R321). -/
inductive BreakPlace where
  | address (ctx : Nat) (addr : BitVec 64)
  | split (slot : Nat)
  deriving DecidableEq, Repr

/-- What a debugger freeze names (R260). -/
inductive FreezeScope where
  | warp
  | crew
  | context
  deriving DecidableEq, Repr

/-- A configuration write of firmware, judged against the Breakwater limits (R393). -/
inductive Limit where
  /-- An attempt on key storage or the fuse block. -/
  | keyStorage
  /-- A page-table entry at a physical address (R370, R372). -/
  | pageEntry (pa : Nat) (value : BitVec 64)
  /-- The package power cap in watts. -/
  | packageCap (watts : Nat)
  /-- The power cap of a die in watts. -/
  | dieCap (die watts : Nat)
  /-- The majority shape: copies per set. -/
  | majorityShape (copies : Nat)
  /-- A host DMA window, which only the security core grants. -/
  | hostWindow (base size : Nat)
  /-- A context's quota: ceiling, warp slots, cluster mask, deadline and TAPENG (R333, R351). -/
  | quota (ctx ceiling slots : Nat) (mask : BitVec 32) (deadline tapeng : Nat)
  deriving DecidableEq, Repr

/-- One instruction or event of spec/opcode_table.json. -/
inductive Instr where
  /-- BRA (R145): Conditional branch by predicate and sense, dividing the split when lanes disagree. -/
  | bra (p : BitVec 3) (s : BitVec 1) (d : BitVec 20)
  /-- JMPK (R146): Jumps lanes that pass the guard to the uniform target in k[a]. -/
  | jmpk (a : BitVec 6)
  /-- CALL (R148): Slides the register window, writes the return address into x62/x63 and jumps to a displacement
  target. -/
  | call (c : BitVec 4) (d : BitVec 20)
  /-- CALLK (R148): Call through a uniform target register with a window slide. -/
  | callk (a : BitVec 6) (c : BitVec 4)
  /-- SRCV (R147): Sets the split's pending reconvergence point and mask. -/
  | srcv (d : BitVec 24)
  /-- SLEEP (R154): Makes the split wait until CYCLE reaches its issue value plus k[a]. -/
  | sleep (a : BitVec 6)
  /-- SETM (R155): Writes the whole MODE register from an 18-bit immediate. -/
  | setm (m : BitVec 18)
  /-- SETG (R155): Writes only the GUARD and SENSE fields of MODE. -/
  | setg (s : BitVec 1) (g : BitVec 3)
  /-- SIGCHK (R157): Compares SIG[23:0] with the immediate, clears SIG and raises SIGMIS on a mismatch. -/
  | sigchk (i : BitVec 24)
  /-- TRAP (R165): Raises a software trap cause 0x20-0x3F with a 16-bit value. -/
  | trap (v : BitVec 16) (c : BitVec 8)
  /-- ROLE (R158): Exchanges the warp's priority, allotment and entry with a role record and continues at its entry. -/
  | role (a : BitVec 6)
  /-- DISPQ (R150): Enqueues each participating lane as a work item on the cluster's callee queue and waits for all
  results. -/
  | dispq (a : BitVec 6)
  /-- CJOIN (R159): Moves the warp from its crew into another crew of the same launch and cluster. -/
  | cjoin (d : BitVec 6) (a : BitVec 6)
  /-- CLEAVE (R159): Moves the warp out of its crew into a new crew of one. -/
  | cleave (d : BitVec 6)
  /-- BARA (R161): Participating lanes arrive at a named barrier and the split continues. -/
  | bara (a : BitVec 6) (b : BitVec 6)
  /-- BARW (R161): The split waits while any of its participating lanes is pending at the barrier. -/
  | barw (a : BitVec 6) (b : BitVec 6)
  /-- BARS (R161): Participating lanes arrive at the barrier and the split then waits for the phase. -/
  | bars (a : BitVec 6) (b : BitVec 6)
  /-- SETRL (R163): Writes the warp's restart record: label address and snapshot of k1-k31. -/
  | setrl (d : BitVec 24)
  /-- SRD (R164): Reads a special register by id into an x or k register. -/
  | srd (d : BitVec 6) (k : BitVec 1) (i : BitVec 6)
  /-- SWR_MODE (R35): Writes MODE after its privilege and guard value checks. -/
  | swrMode (a : BitVec 6) (k : BitVec 1)
  /-- SWR_FFLAGS (R94): Writes FFLAGS once every earlier instruction of the warp has ORed its flags. -/
  | swrFflags (a : BitVec 6) (k : BitVec 1)
  /-- SWR_STRAND (R31): At level 1 ORs a mask into STRAND, stranding the lanes newly set and logging them. -/
  | swrStrand (a : BitVec 6) (k : BitVec 1)
  /-- SWR_SPILLB (R164): At level 1 moves the warp's spill area base when no spilled state lies in the old area. -/
  | swrSpillb (a : BitVec 6) (k : BitVec 1)
  /-- SWR_TRAPC (R35): At level 1 writes the warp's trap cause register. -/
  | swrTrapc (a : BitVec 6) (k : BitVec 1)
  /-- SWR_TRAPV (R35): At level 1 writes the warp's trap value register. -/
  | swrTrapv (a : BitVec 6) (k : BitVec 1)
  /-- SWR_TRAPPC (R251): At level 1 writes the resume address, checked for alignment and canonical form. -/
  | swrTrappc (a : BitVec 6) (k : BitVec 1)
  /-- SWR_OVT (R166): At level 1 writes the context's overflow table after the checks of OVTLD. -/
  | swrOvt (a : BitVec 6) (k : BitVec 1)
  /-- BKPT (R166): Stops the issuing split for the debugger with cause BKPT. -/
  | bkpt (i : BitVec 24)
  /-- OVTLD (R166): At level 1 loads the overflow table from k[a][11:0]. -/
  | ovtld (a : BitVec 6)
  /-- ADD (R96): Per-sub-element integer add with wrap or saturation. -/
  | add (d : BitVec 6) (a : BitVec 6) (b : BitVec 6) (u : BitVec 1)
  /-- SUB (R96): Per-sub-element integer subtract. -/
  | sub (d : BitVec 6) (a : BitVec 6) (b : BitVec 6) (u : BitVec 1)
  /-- MUL (R96): Per-sub-element integer multiply, low part. -/
  | mul (d : BitVec 6) (a : BitVec 6) (b : BitVec 6) (u : BitVec 1)
  /-- MULH (R96): Per-sub-element high half of the exact product. -/
  | mulh (d : BitVec 6) (a : BitVec 6) (b : BitVec 6) (u : BitVec 1)
  /-- MIN (R96): Per-sub-element integer minimum. -/
  | min (d : BitVec 6) (a : BitVec 6) (b : BitVec 6) (u : BitVec 1)
  /-- MAX (R96): Per-sub-element integer maximum. -/
  | max (d : BitVec 6) (a : BitVec 6) (b : BitVec 6) (u : BitVec 1)
  /-- ABS (R97): Per-sub-element signed absolute value. -/
  | abs (d : BitVec 6) (a : BitVec 6)
  /-- NEG (R97): Per-sub-element signed negation. -/
  | neg (d : BitVec 6) (a : BitVec 6)
  /-- AND (R98): Bitwise AND over 32 or 64 bits. -/
  | and (d : BitVec 6) (a : BitVec 6) (b : BitVec 6) (u : BitVec 1)
  /-- OR (R98): Bitwise OR over 32 or 64 bits. -/
  | or (d : BitVec 6) (a : BitVec 6) (b : BitVec 6) (u : BitVec 1)
  /-- XOR (R98): Bitwise XOR over 32 or 64 bits. -/
  | xor (d : BitVec 6) (a : BitVec 6) (b : BitVec 6) (u : BitVec 1)
  /-- ANDN (R98): Bitwise A AND NOT B. -/
  | andn (d : BitVec 6) (a : BitVec 6) (b : BitVec 6) (u : BitVec 1)
  /-- SHL (R99): Per-sub-element left shift with wrap or saturation. -/
  | shl (d : BitVec 6) (a : BitVec 6) (b : BitVec 6) (u : BitVec 1)
  /-- SHR (R99): Per-sub-element logical right shift. -/
  | shr (d : BitVec 6) (a : BitVec 6) (b : BitVec 6) (u : BitVec 1)
  /-- SAR (R99): Per-sub-element arithmetic right shift. -/
  | sar (d : BitVec 6) (a : BitVec 6) (b : BitVec 6) (u : BitVec 1)
  /-- ROL (R99): Per-sub-element left rotation by the count modulo the width. -/
  | rol (d : BitVec 6) (a : BitVec 6) (b : BitVec 6) (u : BitVec 1)
  /-- MAD (R100): Per-sub-element integer multiply-add, fitted once. -/
  | mad (d : BitVec 6) (a : BitVec 6) (b : BitVec 6) (c : BitVec 6)
  /-- SEL (R104): Selects x[a] or the b operand per lane by a predicate. -/
  | sel (d : BitVec 6) (a : BitVec 6) (b : BitVec 6) (u : BitVec 1) (n : BitVec 3)
  /-- CMP (R102): Integer compare of every sub-element, writing a predicate. -/
  | cmp (d : BitVec 6) (a : BitVec 6) (b : BitVec 6) (u : BitVec 1) (c : BitVec 5)
  /-- CMPI (R103): Integer compare with an immediate, writing a predicate. -/
  | cmpi (p : BitVec 3) (c : BitVec 3) (a : BitVec 6) (i : BitVec 12)
  /-- POPC (R105): Counts the ones of a 32-bit register. -/
  | popc (d : BitVec 6) (a : BitVec 6)
  /-- CLZ (R105): Counts the leading zeros of a 32-bit register. -/
  | clz (d : BitVec 6) (a : BitVec 6)
  /-- BREV (R105): Reverses the bits of a 32-bit register. -/
  | brev (d : BitVec 6) (a : BitVec 6)
  /-- PERM (R107): Builds each output byte or nibble from source bytes or nibbles steered by a selector. -/
  | perm (d : BitVec 6) (a : BitVec 6) (b : BitVec 6) (c : BitVec 6)
  /-- BFX (R106): Extracts a bit field, sign-extending under signed types. -/
  | bfx (d : BitVec 6) (a : BitVec 6) (n : BitVec 6) (p : BitVec 6)
  /-- BFI (R106): Inserts the low bits of x[a] into a field of x[d]. -/
  | bfi (d : BitVec 6) (a : BitVec 6) (n : BitVec 6) (p : BitVec 6)
  /-- MOVX (R108): Copies an x register per lane. -/
  | movx (d : BitVec 6) (a : BitVec 6)
  /-- MOVX_K (R108): Copies k[b][31:0] into x[d] in every participating lane. -/
  | movxK (d : BitVec 6) (b : BitVec 6)
  /-- MOVI (R108): Writes a sign-extended 18-bit immediate. -/
  | movi (d : BitVec 6) (i : BitVec 18)
  /-- MOVH (R108): Writes bits [31:14] from the immediate, keeping bits [13:0]. -/
  | movh (d : BitVec 6) (i : BitVec 18)
  /-- PMOV (R141): Collects a predicate over participating lanes into a k register mask. -/
  | pmov (d : BitVec 6) (a : BitVec 6)
  /-- PSET (R141): Sets a predicate per lane from the bits of a k register. -/
  | pset (d : BitVec 6) (a : BitVec 6)
  /-- PLOG (R79): Combines two predicates through a 4-bit truth table. -/
  | plog (d : BitVec 6) (a : BitVec 6) (b : BitVec 6) (t : BitVec 4)
  /-- ADDI (R101): Adds a sign-extended immediate. -/
  | addi (d : BitVec 6) (a : BitVec 6) (i : BitVec 12)
  /-- ANDI (R101): ANDs a zero-extended immediate. -/
  | andi (d : BitVec 6) (a : BitVec 6) (i : BitVec 12)
  /-- ORI (R101): ORs a zero-extended immediate. -/
  | ori (d : BitVec 6) (a : BitVec 6) (i : BitVec 12)
  /-- XORI (R101): XORs a zero-extended immediate. -/
  | xori (d : BitVec 6) (a : BitVec 6) (i : BitVec 12)
  /-- SHLI (R101): Left shift by an immediate count. -/
  | shli (d : BitVec 6) (a : BitVec 6) (n : BitVec 6)
  /-- SHRI (R101): Logical right shift by an immediate count. -/
  | shri (d : BitVec 6) (a : BitVec 6) (n : BitVec 6)
  /-- SARI (R101): Arithmetic right shift by an immediate count. -/
  | sari (d : BitVec 6) (a : BitVec 6) (n : BitVec 6)
  /-- MULI (R101): Multiplies by a sign-extended immediate. -/
  | muli (d : BitVec 6) (a : BitVec 6) (i : BitVec 12)
  /-- MINI (R101): Minimum with an immediate in the type's order. -/
  | mini (d : BitVec 6) (a : BitVec 6) (i : BitVec 12)
  /-- MAXI (R101): Maximum with an immediate in the type's order. -/
  | maxi (d : BitVec 6) (a : BitVec 6) (i : BitVec 12)
  /-- FADD (R109): Floating-point add rounded once per sub-element. -/
  | fadd (d : BitVec 6) (a : BitVec 6) (b : BitVec 6) (u : BitVec 1)
  /-- FSUB (R109): Floating-point subtract rounded once per sub-element. -/
  | fsub (d : BitVec 6) (a : BitVec 6) (b : BitVec 6) (u : BitVec 1)
  /-- FMUL (R109): Floating-point multiply rounded once per sub-element. -/
  | fmul (d : BitVec 6) (a : BitVec 6) (b : BitVec 6) (u : BitVec 1)
  /-- FMA (R110): Fused multiply-add rounded once per sub-element. -/
  | fma (d : BitVec 6) (a : BitVec 6) (b : BitVec 6) (c : BitVec 6)
  /-- FMIN (R111): Floating-point minimum with NaN and signed-zero rules. -/
  | fmin (d : BitVec 6) (a : BitVec 6) (b : BitVec 6) (u : BitVec 1)
  /-- FMAX (R111): Floating-point maximum with NaN and signed-zero rules. -/
  | fmax (d : BitVec 6) (a : BitVec 6) (b : BitVec 6) (u : BitVec 1)
  /-- FABS (R112): Clears sign bits of floating-point sub-elements. -/
  | fabs (d : BitVec 6) (a : BitVec 6)
  /-- FNEG (R112): Inverts sign bits of floating-point sub-elements. -/
  | fneg (d : BitVec 6) (a : BitVec 6)
  /-- FCMP (R113): Floating-point compare of every sub-element, writing a predicate. -/
  | fcmp (d : BitVec 6) (a : BitVec 6) (b : BitVec 6) (u : BitVec 1) (c : BitVec 5)
  /-- CVT (R118): Converts each sub-element from the source type to MODE.TYPE under MODE.RND. -/
  | cvt (d : BitVec 6) (a : BitVec 6) (s : BitVec 4)
  /-- CVTZ (R118): Converts each sub-element rounding towards zero. -/
  | cvtz (d : BitVec 6) (a : BitVec 6) (s : BitVec 4)
  /-- FRND (R114): Rounds each sub-element to an integral value in its format. -/
  | frnd (d : BitVec 6) (a : BitVec 6)
  /-- FCLS (R115): Writes a 4-bit class code per sub-element. -/
  | fcls (d : BitVec 6) (a : BitVec 6)
  /-- PACK (R119): Converts two registers into one of twice the element count. -/
  | pack (d : BitVec 6) (a : BitVec 6) (b : BitVec 6) (s : BitVec 4)
  /-- UNPK (R120): Widens one half of a register's sub-elements exactly. -/
  | unpk (d : BitVec 6) (a : BitVec 6) (h : BitVec 1) (s : BitVec 4)
  /-- RCP (R122): Computes the reciprocal by the table and Newton algorithm. -/
  | rcp (d : BitVec 6) (a : BitVec 6) (l : BitVec 4)
  /-- RSQ (R122): Computes the reciprocal square root. -/
  | rsq (d : BitVec 6) (a : BitVec 6) (l : BitVec 4)
  /-- LG2 (R122): Computes the base-2 logarithm. -/
  | lg2 (d : BitVec 6) (a : BitVec 6) (l : BitVec 4)
  /-- EX2 (R122): Computes the base-2 exponential. -/
  | ex2 (d : BitVec 6) (a : BitVec 6) (l : BitVec 4)
  /-- SIN (R122): Computes the sine by exact reduction and polynomial. -/
  | sin (d : BitVec 6) (a : BitVec 6) (l : BitVec 4)
  /-- COS (R122): Computes the cosine by exact reduction and polynomial. -/
  | cos (d : BitVec 6) (a : BitVec 6) (l : BitVec 4)
  /-- TANH (R122): Computes the hyperbolic tangent. -/
  | tanh (d : BitVec 6) (a : BitVec 6) (l : BitVec 4)
  /-- PPE (R123): Evaluates a piecewise-polynomial slot per lane. -/
  | ppe (d : BitVec 6) (a : BitVec 6) (l : BitVec 4) (s : BitVec 2)
  /-- PPLD (R124): Loads a piecewise-polynomial slot from memory, replacing it in one step at completion. -/
  | ppld (a : BitVec 6) (b : BitVec 6) (l : BitVec 4) (s : BitVec 2)
  /-- SHFL_FROM (R136): Each lane reads x[a] from the lane given by x[b]. -/
  | shflFrom (d : BitVec 6) (a : BitVec 6) (b : BitVec 6) (l : BitVec 4)
  /-- SHFL_ROT (R136): Each lane reads x[a] from lane (l + v) mod 32. -/
  | shflRot (d : BitVec 6) (a : BitVec 6) (b : BitVec 6) (l : BitVec 4)
  /-- SHFL_ROTN (R136): Each lane reads x[a] from lane (l - v) mod 32. -/
  | shflRotn (d : BitVec 6) (a : BitVec 6) (b : BitVec 6) (l : BitVec 4)
  /-- SHFL_XOR (R136): Each lane reads x[a] from lane l XOR v. -/
  | shflXor (d : BitVec 6) (a : BitVec 6) (b : BitVec 6) (l : BitVec 4)
  /-- VOTE_QUORUM (R137): Sets a predicate when the count of true lanes meets a threshold. -/
  | voteQuorum (d : BitVec 6) (a : BitVec 6) (b : BitVec 6) (l : BitVec 4)
  /-- VOTE_UNAN (R137): Sets a predicate when the source predicate is unanimous. -/
  | voteUnan (d : BitVec 6) (a : BitVec 6) (l : BitVec 4)
  /-- VOTE_MASK (R137): Writes the ballot of a predicate into a k register. -/
  | voteMask (d : BitVec 6) (a : BitVec 6) (l : BitVec 4)
  /-- VOTE_COUNT (R137): Writes the count of true lanes into a k register. -/
  | voteCount (d : BitVec 6) (a : BitVec 6) (l : BitVec 4)
  /-- REDX_ADD (R138): Sums x[a] over participating lanes into a k register. -/
  | redxAdd (d : BitVec 6) (a : BitVec 6) (l : BitVec 4)
  /-- REDX_MIN (R138): Minimum of x[a] over participating lanes into a k register. -/
  | redxMin (d : BitVec 6) (a : BitVec 6) (l : BitVec 4)
  /-- REDX_MAX (R138): Maximum of x[a] over participating lanes into a k register. -/
  | redxMax (d : BitVec 6) (a : BitVec 6) (l : BitVec 4)
  /-- ARGMX_MAX (R138): Writes the maximum value and lowest lane holding it. -/
  | argmxMax (d : BitVec 6) (a : BitVec 6) (l : BitVec 4)
  /-- ARGMX_MIN (R138): Writes the minimum value and lowest lane holding it. -/
  | argmxMin (d : BitVec 6) (a : BitVec 6) (l : BitVec 4)
  /-- SCAN_ADD_INCL (R139): Inclusive prefix sum over participating lanes. -/
  | scanAddIncl (d : BitVec 6) (a : BitVec 6) (l : BitVec 4)
  /-- SCAN_ADD_EXCL (R139): Exclusive prefix sum over participating lanes. -/
  | scanAddExcl (d : BitVec 6) (a : BitVec 6) (l : BitVec 4)
  /-- SCAN_MAX (R139): Inclusive prefix maximum over participating lanes. -/
  | scanMax (d : BitVec 6) (a : BitVec 6) (l : BitVec 4)
  /-- SCAN_MIN (R139): Inclusive prefix minimum over participating lanes. -/
  | scanMin (d : BitVec 6) (a : BitVec 6) (l : BitVec 4)
  /-- MATCH (R140): Gives each lane the rank, size and leader of its equal-value group. -/
  | matchLanes (d : BitVec 6) (a : BitVec 6) (l : BitVec 4)
  /-- X2K (R140): Copies x[a] of one lane into a k register. -/
  | x2k (d : BitVec 6) (a : BitVec 6) (b : BitVec 6) (l : BitVec 4)
  /-- KADD (R126): Uniform 64-bit add. -/
  | kadd (d : BitVec 6) (a : BitVec 6) (b : BitVec 6)
  /-- KSUB (R126): Uniform 64-bit subtract. -/
  | ksub (d : BitVec 6) (a : BitVec 6) (b : BitVec 6)
  /-- KMUL (R126): Uniform 64-bit multiply. -/
  | kmul (d : BitVec 6) (a : BitVec 6) (b : BitVec 6)
  /-- KAND (R126): Uniform 64-bit AND. -/
  | kand (d : BitVec 6) (a : BitVec 6) (b : BitVec 6)
  /-- KOR (R126): Uniform 64-bit OR. -/
  | kor (d : BitVec 6) (a : BitVec 6) (b : BitVec 6)
  /-- KXOR (R126): Uniform 64-bit XOR. -/
  | kxor (d : BitVec 6) (a : BitVec 6) (b : BitVec 6)
  /-- KSHL (R126): Uniform 64-bit left shift. -/
  | kshl (d : BitVec 6) (a : BitVec 6) (b : BitVec 6)
  /-- KSHR (R126): Uniform 64-bit logical right shift. -/
  | kshr (d : BitVec 6) (a : BitVec 6) (b : BitVec 6)
  /-- KADDI (R127): Uniform add of a sign-extended immediate. -/
  | kaddi (d : BitVec 6) (a : BitVec 6) (i : BitVec 12)
  /-- KMOVI (R127): Writes a sign-extended 18-bit immediate to a k register. -/
  | kmovi (d : BitVec 6) (i : BitVec 18)
  /-- KCAT (R127): Shifts k[d] left by 18 and ORs in the immediate. -/
  | kcat (d : BitVec 6) (i : BitVec 18)
  /-- KCMP (R128): Uniform compare writing 1 or 0. -/
  | kcmp (d : BitVec 6) (a : BitVec 6) (b : BitVec 6) (c : BitVec 5)
  /-- KSEL (R129): Uniform select by a selector k register. -/
  | ksel (d : BitVec 6) (a : BitVec 6) (b : BitVec 6) (f : BitVec 5)
  /-- KMIN (R130): Uniform signed 64-bit minimum. -/
  | kmin (d : BitVec 6) (a : BitVec 6) (b : BitVec 6)
  /-- KMIN_U (R130): Uniform unsigned 64-bit minimum. -/
  | kminU (d : BitVec 6) (a : BitVec 6) (b : BitVec 6)
  /-- KMAX (R130): Uniform signed 64-bit maximum. -/
  | kmax (d : BitVec 6) (a : BitVec 6) (b : BitVec 6)
  /-- KMAX_U (R130): Uniform unsigned 64-bit maximum. -/
  | kmaxU (d : BitVec 6) (a : BitVec 6) (b : BitVec 6)
  /-- LDB (R169): Loads one byte zero-extended per lane. -/
  | ldb (d : BitVec 6) (i : BitVec 6) (k : BitVec 5) (l : BitVec 4) (s : BitVec 2) (e : BitVec 1)
  /-- LDBS (R169): Loads one byte sign-extended per lane. -/
  | ldbs (d : BitVec 6) (i : BitVec 6) (k : BitVec 5) (l : BitVec 4) (s : BitVec 2) (e : BitVec 1)
  /-- LDH (R169): Loads a halfword zero-extended per lane. -/
  | ldh (d : BitVec 6) (i : BitVec 6) (k : BitVec 5) (l : BitVec 4) (s : BitVec 2) (e : BitVec 1)
  /-- LDHS (R169): Loads a halfword sign-extended per lane. -/
  | ldhs (d : BitVec 6) (i : BitVec 6) (k : BitVec 5) (l : BitVec 4) (s : BitVec 2) (e : BitVec 1)
  /-- LDW (R169): Loads a word per lane. -/
  | ldw (d : BitVec 6) (i : BitVec 6) (k : BitVec 5) (l : BitVec 4) (s : BitVec 2) (e : BitVec 1)
  /-- LDD (R169): Loads 8 bytes into a register pair per lane. -/
  | ldd (d : BitVec 6) (i : BitVec 6) (k : BitVec 5) (l : BitVec 4) (s : BitVec 2) (e : BitVec 1)
  /-- LDQ (R169): Loads 16 bytes into four registers per lane. -/
  | ldq (d : BitVec 6) (i : BitVec 6) (k : BitVec 5) (l : BitVec 4) (s : BitVec 2) (e : BitVec 1)
  /-- LDA (R170): Loads a word per lane with acquire at device scope. -/
  | lda (d : BitVec 6) (i : BitVec 6) (k : BitVec 5) (l : BitVec 4) (s : BitVec 2) (e : BitVec 1)
  /-- STB (R169): Stores one byte per lane. -/
  | stb (d : BitVec 6) (i : BitVec 6) (k : BitVec 5) (l : BitVec 4) (s : BitVec 2) (e : BitVec 1)
  /-- STH (R169): Stores a halfword per lane. -/
  | sth (d : BitVec 6) (i : BitVec 6) (k : BitVec 5) (l : BitVec 4) (s : BitVec 2) (e : BitVec 1)
  /-- STW (R169): Stores a word per lane. -/
  | stw (d : BitVec 6) (i : BitVec 6) (k : BitVec 5) (l : BitVec 4) (s : BitVec 2) (e : BitVec 1)
  /-- STD (R169): Stores 8 bytes from a register pair per lane. -/
  | std (d : BitVec 6) (i : BitVec 6) (k : BitVec 5) (l : BitVec 4) (s : BitVec 2) (e : BitVec 1)
  /-- STQ (R169): Stores 16 bytes from four registers per lane. -/
  | stq (d : BitVec 6) (i : BitVec 6) (k : BitVec 5) (l : BitVec 4) (s : BitVec 2) (e : BitVec 1)
  /-- STL (R170): Stores a word per lane with release at device scope. -/
  | stl (d : BitVec 6) (i : BitVec 6) (k : BitVec 5) (l : BitVec 4) (s : BitVec 2) (e : BitVec 1)
  /-- KLD (R171): Loads 8 bytes into a k register once per split. -/
  | kld (d : BitVec 6) (k : BitVec 5) (l : BitVec 4)
  /-- KST (R171): Stores a k register as 8 bytes once per split. -/
  | kst (d : BitVec 6) (k : BitVec 5) (l : BitVec 4)
  /-- ATADD (R172): Atomic add per lane returning the old value. -/
  | atadd (d : BitVec 6) (i : BitVec 6) (k : BitVec 5) (l : BitVec 4) (s : BitVec 2) (e : BitVec 1)
  /-- ATMIN (R172): Atomic minimum per lane. -/
  | atmin (d : BitVec 6) (i : BitVec 6) (k : BitVec 5) (l : BitVec 4) (s : BitVec 2) (e : BitVec 1)
  /-- ATMAX (R172): Atomic maximum per lane. -/
  | atmax (d : BitVec 6) (i : BitVec 6) (k : BitVec 5) (l : BitVec 4) (s : BitVec 2) (e : BitVec 1)
  /-- ATAND (R172): Atomic AND per lane. -/
  | atand (d : BitVec 6) (i : BitVec 6) (k : BitVec 5) (l : BitVec 4) (s : BitVec 2) (e : BitVec 1)
  /-- ATOR (R172): Atomic OR per lane. -/
  | ator (d : BitVec 6) (i : BitVec 6) (k : BitVec 5) (l : BitVec 4) (s : BitVec 2) (e : BitVec 1)
  /-- ATXOR (R172): Atomic XOR per lane. -/
  | atxor (d : BitVec 6) (i : BitVec 6) (k : BitVec 5) (l : BitVec 4) (s : BitVec 2) (e : BitVec 1)
  /-- ATXCH (R172): Atomic exchange per lane. -/
  | atxch (d : BitVec 6) (i : BitVec 6) (k : BitVec 5) (l : BitVec 4) (s : BitVec 2) (e : BitVec 1)
  /-- ATCAS (R173): Atomic compare-and-swap per lane on a register pair. -/
  | atcas (d : BitVec 6) (i : BitVec 6) (k : BitVec 5) (l : BitVec 4) (s : BitVec 2) (e : BitVec 1)
  /-- REDA (R174): Indivisible integer add to memory returning nothing. -/
  | reda (d : BitVec 6) (i : BitVec 6) (k : BitVec 5) (l : BitVec 4) (s : BitVec 2) (e : BitVec 1)
  /-- REDAF (R174): Indivisible floating-point add to memory returning nothing. -/
  | redaf (d : BitVec 6) (i : BitVec 6) (k : BitVec 5) (l : BitVec 4) (s : BitVec 2) (e : BitVec 1)
  /-- MLD (R178): Reads a majority cell from a majority of copies, writing back lagging copies. -/
  | mld (d : BitVec 6) (k : BitVec 5) (l : BitVec 4)
  /-- MST (R178): Stores a majority cell with the next tide, reporting stored or superseded. -/
  | mst (d : BitVec 6) (k : BitVec 5) (l : BitVec 4) (p : BitVec 3)
  /-- MCAS (R178): Compare-and-store on a majority cell over bytes 0-7. -/
  | mcas (d : BitVec 6) (e : BitVec 6) (k : BitVec 5) (l : BitVec 4) (p : BitVec 3)
  /-- FENCE (R180): Orders predecessor accesses of the named classes before successor accesses at a scope. -/
  | fence (p : BitVec 6) (s : BitVec 6) (c : BitVec 6)
  /-- CINV_L1 (R183): Writes back and invalidates a range in the core's L1. -/
  | cinvL1 (a : BitVec 6) (b : BitVec 6)
  /-- CINV_DIE (R183): Writes back and invalidates a range in L1 and the die cache. -/
  | cinvDie (a : BitVec 6) (b : BitVec 6)
  /-- FINV (R184): Invalidates the cluster's fetch-cache lines of a tensor. -/
  | finv (a : BitVec 6)
  /-- RNGDEF (R187): Binds, rebinds or unbinds a ring from a descriptor. -/
  | rngdef (r : BitVec 6) (b : BitVec 6)
  /-- CPY (R189): Adds a slice to a ring collective, or with KIND 1 asks to grow crew memory. -/
  | cpy (r : BitVec 6) (b : BitVec 6) (q : BitVec 2)
  /-- CPYM (R191): Adds a slice to a multicast collective reserving slots in every receiver's ring. -/
  | cpym (m : BitVec 6) (r : BitVec 6) (b : BitVec 6) (q : BitVec 2)
  /-- AWAITF (R192): Waits until the warp's current slot is wholly filled. -/
  | awaitf (r : BitVec 6)
  /-- AWAITF_C (R192): Waits until the current slot or a named chunk of it is filled. -/
  | awaitfC (r : BitVec 6) (b : BitVec 6)
  /-- RELS (R193): Releases the warp's current slot and frees slots whose release counts are complete. -/
  | rels (r : BitVec 6)
  /-- RNGST (R194): Reads the ring's status word into a k register. -/
  | rngst (d : BitVec 6) (r : BitVec 6)
  /-- FETCH (R204): Reads and decodes compressed tensor elements through the fetch cache. -/
  | fetch (d : BitVec 6) (a : BitVec 6) (b : BitVec 6) (l : BitVec 4)
  /-- MPATH (R224): Computes merge-path partition coordinates by binary search. -/
  | mpath (d : BitVec 6) (a : BitVec 6) (b : BitVec 6) (l : BitVec 4)
  /-- TDEF (R206): Defines a context tensor id from a 64-byte record. -/
  | tdef (a : BitVec 6) (b : BitVec 6)
  /-- TQPUT (R217): Validates and posts a tile-task record to the cluster's task queue. -/
  | tqput (a : BitVec 6)
  /-- TWAIT (R219): Waits until a completion count reaches its target. -/
  | twait (c : BitVec 6) (b : BitVec 6)
  /-- TPOLL (R219): Sets a predicate by whether a completion count holds its target. -/
  | tpoll (d : BitVec 6) (c : BitVec 6) (b : BitVec 6)
  /-- TSTAT (R220): Reads a task's live or stored status word. -/
  | tstat (d : BitVec 6) (a : BitVec 6)
  /-- NLBIN (R227): Hands a neighbour-list descriptor to an NLE to bin the points. -/
  | nlbin (a : BitVec 6)
  /-- NLPAIR (R228): Starts a pair stream into a ring, or a block table in block mode. -/
  | nlpair (a : BitVec 6) (r : BitVec 6)
  /-- NLSTAT (R231): Reads the engine's live status of a descriptor, raising a held fault. -/
  | nlstat (d : BitVec 6) (a : BitVec 6)
  /-- TAP (R235): Places a tap descriptor into a tap slot for the FDU. -/
  | tap (a : BitVec 6)
  /-- TAPW (R236): Waits until every row of a row block of a tap is released. -/
  | tapw (s : BitVec 6) (b : BitVec 6)
  /-- TAPRD (R237): Copies the crew's oldest unresolved trap record into four k registers. -/
  | taprd (d : BitVec 6)
  /-- TAPED (R238): Stages a replacement row as the edit of the oldest record. -/
  | taped (a : BitVec 6)
  /-- FRULE (R234): Installs or empties a request's tap rules and bumps the root epoch by MCAS. -/
  | frule (a : BitVec 6) (b : BitVec 6)
  /-- LAUNCH (R242): Enters a launch record into the context's launch queue with release. -/
  | launch (d : BitVec 6) (a : BitVec 6)
  /-- TRSIG (R243): Hands a token-ready update to the quadrant's majority unit. -/
  | trsig (a : BitVec 6) (b : BitVec 6)
  /-- TRWAIT (R243): Waits until a token-ready cell's READY reaches a value. -/
  | trwait (a : BitVec 6) (b : BitVec 6)
  /-- SHAPE (R244): Maps an acceptance average to a draft shape index. -/
  | shape (d : BitVec 6) (a : BitVec 6)
  /-- ACCUP (R244): Folds an accepted count into the acceptance average. -/
  | accup (d : BitVec 6) (a : BitVec 6)
  /-- DEBUG_FREEZE (R260): A debugger freeze request stops every split of a warp, crew or context. -/
  | debugFreeze (scope : FreezeScope) (target : Nat)
  /-- DEBUG_STEP (R261): A step request lets a stopped split issue one instruction and stops it with STEP. -/
  | debugStep (warp slot : Nat)
  /-- PREEMPT_REQUEST (R265): A pre-emption request names a context and starts its deadline, or arms a forced save of
  it at an address (R330). -/
  | preemptRequest (ctx : Nat) (time : SaveTime)
  /-- DARKSLIDE_SWAP (R340): Once the partition's cores have halted, its context is swapped to or from the darkslide. -/
  | darkslideSwap (ctx : Nat)
  /-- CONTEXT_RESTORE (R267): A saved context is restored into its partition at the same warp slots. -/
  | contextRestore (ctx : Nat)
  /-- RESUME (R254): A service RESUME takes a crew out of the parked state. -/
  | resume (crew : Nat) (budget : BitVec 64)
  /-- KILL (R256): A service KILL ends a crew, discarding its tasks and queued copies. -/
  | kill (crew : Nat)
  /-- TRWAIT_RETRY (R243): A TRWAIT's repeated MLD completes and is judged against the wait value. -/
  | trwaitRetry (warp slot : Nat)
  /-- ROW_GROUP_WRITTEN (R218): An engine finishes writing a 16-row group and ROWS advances. -/
  | rowGroupWritten (cluster engine : Nat)
  /-- TASK_FAULT (R222): A task meeting a fault becomes SUSPENDED or FAILED and marks its barrier. -/
  | taskFault (cluster engine : Nat)
  /-- CHUNK_FILLED (R190): Every write of a collective into a chunk is performed and the chunk is marked filled. -/
  | chunkFilled (cluster command : Nat)
  /-- COPY_FAULT (R196): A copy source read faults and the ring keeps a fault record. -/
  | copyFault (cluster command : Nat)
  /-- NLBIN_COMPLETE (R227): The NLE finishes binning, writes MAXOCC, sets BINNED and clears BUSY. -/
  | nlbinComplete (op : Nat)
  /-- NLE_SLOT_FILLED (R228): A pair stream fills a ring slot with records. -/
  | nleSlotFilled (op : Nat)
  /-- NLE_BLOCK_TABLE_DONE (R230): The engine completes a block-mode pair-list table. -/
  | nleBlockTableDone (op : Nat)
  /-- NLE_FAULT (R231): A neighbour-list operation meets a fault and holds it. -/
  | nleFault (op : Nat)
  /-- FDU_ROOT_READ (R235): The FDU's MLD of the rule-table root completes or ends in MAJFAIL. -/
  | fduRootRead (tap : Nat)
  /-- FDU_INTAKE_END (R348): Intake ends: rows are sorted, flags written, rows without holds released. -/
  | fduIntakeEnd (tap : Nat)
  /-- FDU_ENCODER_TASK_DONE (R352): An internal encoder task completes its pre values. -/
  | fduEncoderTaskDone (tap : Nat)
  /-- FDU_SELECT_DONE (R353): The selector finishes the top-K selection of a block. -/
  | fduSelectDone (tap : Nat)
  /-- FDU_RULE_UNIT (R354): The rule unit applies a rule to every row of a block. -/
  | fduRuleUnit (tap : Nat)
  /-- FDU_WRITEBACK (R354): A held row is written back to TACT and released. -/
  | fduWriteback (tap : Nat)
  /-- FDU_FAULT (R359): An FDU read meets poison, a protection fault or a missing translation. -/
  | fduFault (tap : Nat)
  /-- LAUNCH_ADMIT (R332): Firmware admits the next launch by priority class and queue order. -/
  | launchAdmit (ctx : Nat)
  /-- SERVICE_LAUNCH (R332): A launch record enters the launch queue through the control interface. -/
  | serviceLaunch (ctx : Nat) (record : BitVec 64)
  /-- BIND_RECORD (R335): Dispatch consumes a bind record and binds a crew warp or dispatch slot. -/
  | bindRecord (record : BitVec 256)
  /-- SERVICE_MLD (R341): A service core reads a majority cell as MLD. -/
  | serviceMld (core cell : Nat)
  /-- SERVICE_MST (R341): A service core stores a majority cell as MST. -/
  | serviceMst (core cell : Nat) (payload : BitVec 256)
  /-- SERVICE_MCAS (R341): A service core compares and stores a majority cell as MCAS. -/
  | serviceMcas (core cell : Nat) (expect : BitVec 64) (payload : BitVec 256)
  /-- SERVICE_TRSIG_UPDATE (R341): A service core updates a token-ready cell as a TRSIG update. -/
  | serviceTrsigUpdate (core cell : Nat) (value : BitVec 64)
  /-- SCRUB_VISIT (R376): Every 256 clocks a set's scrubber repairs lagging copies of one cell. -/
  | scrubVisit (set : Nat)
  /-- REBUILD_VISIT (R374): The rebuild pass writes one cell of a returned stack every 64 clocks. -/
  | rebuildVisit (set : Nat)
  /-- STACK_RETIRE (R374): Firmware retires a stack, which stops accepting copy accesses. -/
  | stackRetire (stack : Nat)
  /-- STACK_RETURN (R374): A returned or spare stack enters service with every copy line invalid. -/
  | stackReturn (move : StackMove)
  /-- TRANSLATION_INVALIDATE (R372): Firmware invalidates translations of a context range across all agents. -/
  | translationInvalidate (ctx : Nat) (va : BitVec 64) (size : Nat)
  /-- SCOREBOARD_MISMATCH (R382): The duplicated scoreboards disagree and recent instructions are squashed and
  reissued. -/
  | scoreboardMismatch (quadrant : Nat)
  /-- CONTACT (R387): The device writes a contact sheet to a buffer and signals completion. -/
  | contact (buffer length : Nat)
  /-- CAPTURE_ENABLE (R390): The service enables replay capture for a context. -/
  | captureEnable (ctx buffer length : Nat)
  /-- REPLAY (R391): The SMC in replay mode consumes recorded bind records in place of its policy. -/
  | replay (recording : Recording)
  /-- ATTESTATION_REPORT (R392): The device produces an attestation report signed under both algorithms. -/
  | attestationReport (nonce : BitVec 256)
  /-- FIRMWARE_LIMIT_WRITE (R393): Firmware writes a configuration subject to the Breakwater limits. -/
  | firmwareLimitWrite (limit : Limit)
  /-- EGRESS_REQUEST (R394): The marking stage reads a frame, marks every luma tile and sends it. -/
  | egressRequest (launch : LaunchRef) (descriptor : Nat)
  /-- REFUSED_WORD (R88): A split issues a word that no assigned instruction matches, such as an unassigned opcode, a
  non-zero must-be-zero field, or SWR of a read-only or non-existent id, and the word raises ILLEGAL, OPERAND or PRIV
  without effect. -/
  | refusedWord (word : BitVec 32)
  /-- DEBUG_CONTINUE (R260): The debugger releases a split stopped in STATE 3 so that it issues again from its PC. -/
  | debugContinue (warp slot : Nat)
  /-- DEBUG_BREAKPOINT_HIT (R313): A split reaches an address the debugger has set as a breakpoint and is stopped
  before the word there issues. The debugger sets it for one member warp, or for all of them; the warp that reaches it is
  one of the machine's. -/
  | debugBreakpointHit (warp : Option Nat) (place : BreakPlace)
  /-- CONTEXT_CREATION (R39): A context is created, with its tensor ids undefined, completion counts 0, PPU slots n =
  1, draft shape table zero and overflow table at reset. -/
  | contextCreation (partition : Nat) (ctxid : BitVec 16) (root : Nat)
  /-- CONTEXT_DESTRUCTION (R394): A context is destroyed, which among other things ends its sealed state. -/
  | contextDestruction (ctx : Nat)
  /-- SERVICE_KERNEL_WATCHDOG (R344): A service core's hardware watchdog cuts off a request's logit kernel that
  overruns its budget or takes an exception. -/
  | serviceKernelWatchdog (core : Nat) (kernel : KernelRun)
  /-- SERVICE_ORDINARY_ACCESS (R341): A service core performs an ordinary load or store to RC pages, such as writing
  sampled tokens, as a device-scope agent. -/
  | serviceOrdinaryAccess (core address : Nat) (access : Access)
  /-- HOST_DMA (R393): Host PCIe DMA reaches device memory through windows that the security core has granted, and is
  refused for a sealed context. -/
  | hostDma (function address : Nat) (access : Access)
  /-- SKERRY_REMOTE_ACCESS (R295): A load, store or atomic from another device of the load-store domain arrives over a
  Skerry link and reaches this device's memory. -/
  | skerryRemoteAccess (device address : Nat) (access : Access)
  /-- RECOVERY_IMAGE_LOAD (R392): In recovery, an image-load command arrives through the PCIe control window. -/
  | recoveryImageLoad (image : Option Nat)
  /-- NOP (R154): Does nothing beyond updating the signature. -/
  | nop
  /-- RET (R149): Returns each lane to the target in x62/x63, grouping lanes by target and refilled frame record and
  sliding the window back. -/
  | ret
  /-- RCV (R147): Waits at the reconvergence point and merges the group of splits once all have arrived. -/
  | rcv
  /-- EXIT (R153): Ends the lanes that pass the guard and ends the warp and crew when no lane remains. -/
  | exit
  /-- YIELD (R154): Makes the split the youngest ready split of its priority class. -/
  | yield
  /-- YIELDP (R154): At a safe point with a pre-emption pending holds the warp for a light save; otherwise acts as
  YIELD. -/
  | yieldp
  /-- TRET (R252): Returns a level-1 split to level 0 at TRAPPC, undoing the entry slide and restoring MODE and SIG. -/
  | tret
  /-- QEND (R152): In a dispatch warp ends each lane's item and returns its x0-x7 to the issuing lane. -/
  | qend
  /-- TAPRES_CONT (R238): Resolves the oldest record without change. -/
  | tapresCont
  /-- TAPRES_EDIT (R238): Writes the staged edit to SNAP, appends a repair entry and sets REPAIR. -/
  | tapresEdit
  /-- TAPRES_ABORT (R238): Sets ABORT for the row and removes the record. -/
  | tapresAbort
  /-- LONG_LATENCY_COMPLETE (R131): A long-latency instruction completes, writing its destinations and releasing
  interlocks. -/
  | longLatencyComplete
  /-- SPLIT_OVERFLOW_EXCHANGE (R144): A split waiting 512 clocks in the overflow block is exchanged with the stalest
  table entry. -/
  | splitOverflowExchange
  /-- DISPATCH_WARP_FORM (R151): A free dispatch slot forms a dispatch warp from the fullest callee queue. -/
  | dispatchWarpForm
  /-- NOTIFICATION_DELIVERY (R249): A WATCH or STRAND notification is delivered to the oldest ready split of its
  target warp. -/
  | notificationDelivery
  /-- PREEMPT_DEADLINE (R265): The pre-emption deadline expires and crews not at safe points take a full save. -/
  | preemptDeadline
  /-- BUDGET_EXPIRY (R255): A crew's cycle budget reaches 0 and the crew is parked with cause BUDGET. -/
  | budgetExpiry
  /-- SLEEP_WAKE (R154): CYCLE reaches a sleeping split's wake time and it becomes ready. -/
  | sleepWake
  /-- MAJORITY_TIMEOUT (R176): A majority operation without a majority of replies in 65,536 clocks raises MAJFAIL. -/
  | majorityTimeout
  /-- TRSIG_UPDATE_DONE (R243): The majority unit's TRSIG update stores READY with release. -/
  | trsigUpdateDone
  /-- TRSIG_ABANDON (R243): A TRSIG update that cannot reach a majority in 65,536 clocks is abandoned and logged. -/
  | trsigAbandon
  /-- TILE_TASK_DISPATCH (R218): The tile scheduler starts the oldest ready task on a free engine. -/
  | tileTaskDispatch
  /-- COPY_COMMAND_START (R377): The copy engine starts the oldest queued command whose ring has none running. -/
  | copyCommandStart
  /-- GROW_DECIDED (R200): A waiting crew-memory grow request is granted once its range is free. -/
  | growDecided
  /-- GROW_TIMEOUT (R200): A grow request fails after waiting WAIT clocks. -/
  | growTimeout
  /-- DEVICE_RESET (R392): After reset the security core boots and verifies images in order. -/
  | deviceReset
  /-- REMOTE_TIMEOUT (R393): A Skerry remote access gets no reply in 105,000 clocks and is poisoned or dropped. -/
  | remoteTimeout
  /-- POWER_GATE_JUDGE (R395): Every 10 µs the controller sets each quadrant's and engine's issue share. -/
  | powerGateJudge
  /-- THERMAL_HALT (R395): At 115 °C junction temperature the security core halts issue device-wide. -/
  | thermalHalt
  /-- INSTRUCTION_FETCH_FAULT (R89): Fetching the word at a split's PC misses translation, meets a non-execute, MAJ or
  tile-window page, a non-canonical PC or poison, and raises PAGE, PROT or ECCFATAL. -/
  | instructionFetchFault
  deriving DecidableEq, Repr

end Sys2Proof
end

