-- ==== Sys2Proof/Machine/State.lean ====
section
/-! DEFINITION. The state of the Skoper NS-9 (01_machine_state.md and the chapters its tables name), as plain data.
The issuing split, its warp, crew, context and cluster stand apart from the others (the FOCUS, log 1): every other split
of the issuing warp is in `w.splits`, every other warp in `warps`, and so on, so that nothing is stored twice. -/

namespace Sys2Proof.Machine

/-- A map in canonical form: keys strictly rising, no entry equal to what an absent key reads as. -/
abbrev Sparse (α : Type) := List (Nat × α)

/-- Memory: bytes by key, the key being the physical address, or the tile-window address of tile memory, which has no
physical address (R41, R364). An unlisted byte reads 0 (log 4). -/
abbrev Memory := Sparse (BitVec 8)

/-- Split states of R15. -/
inductive SplitState where
  | free | ready | waitRcv | stopped | sleeping | waiting
  deriving DecidableEq, Repr

/-- A register an outstanding instruction will write (R132): a physical lane register, a uniform register, a predicate or
FFLAGS. -/
inductive Dest where
  | x (key : Nat) | k (n : Nat) | p (n : Nat) | fflags
  deriving DecidableEq, Repr

/-- What an outstanding instruction does to memory (R393). -/
inductive AccessKind where
  | none | load | store | atomic
  deriving DecidableEq, Repr

/-- An outstanding long-latency instruction: the lookahead left, its destinations (R131, R132), its PC, what it does to
memory with 1 + the address of each of its lanes, and the number of writes kept before it (R259, R393). -/
structure Outstanding where
  left : Nat
  dests : List Dest
  pc : BitVec 64
  kind : AccessKind
  addrs : Sparse Nat
  mark : Nat
  deriving DecidableEq, Repr

/-- Who issues accesses whose order counts: a warp, or a service core (R295, R341), on the lane path; or another device of
the domain (R303). -/
inductive Party where
  | warp (id : Nat) | service (core : Nat) | remote (device : Nat)
  deriving DecidableEq, Repr

/-- What precedes an event of some lanes of a party: everything of theirs before a time (R296 to R298). The times count
writes and events of ordering. -/
structure Past where
  who : Party
  lanes : BitVec 32
  core : Nat
  time : Nat
  deriving DecidableEq, Repr

/-- A majority store between its read phase and its store phase: the cell and the tag read (R178, log 10). -/
structure StorePhase where
  cell : Nat
  tag : BitVec 64
  deriving DecidableEq, Repr

/-- A tensor record (R207). -/
structure Tensor where
  base : Nat
  dims : List Nat
  strides : List Nat
  sbase : Nat
  fmt : Nat
  rank : Nat
  scaleFmt : Nat
  group : Nat
  cform : Nat
  strict : Bool
  deriving DecidableEq, Repr

/-- A slice of a collective: the warp that gave it and when it joined, its qualifier, its tensors and its box (R181, R188,
R189). -/
structure Slice where
  warp : Nat
  at_ : Nat
  qual : Nat
  src : Tensor
  dst : Tensor
  srcO : List Int
  dstO : List Int
  ext : List Nat
  deriving DecidableEq, Repr

/-- An entry of a warp's split table (R15), with what the issue hardware keeps for it (R131, R249, R260, R338). -/
structure Split where
  slot : Nat
  state : SplitState
  level : Nat
  pc : BitVec 64
  active : BitVec 32
  entry : BitVec 32
  rpc : BitVec 64
  rmask : BitVec 32
  sig : BitVec 32
  wbase : Nat
  sfloor : Nat
  depth : Nat
  frames : BitVec 32
  age : Nat
  starve : Nat
  /-- CYCLE when the split last issued, or entered the table or the overflow block (R15, R144). -/
  lastIssue : Nat
  /-- The instruction a waiting split waits in. -/
  wait : Option Instr
  /-- CYCLE when the wait began. -/
  since : Nat
  /-- CYCLE at which a sleeping split wakes (R154). -/
  wake : Nat
  phase : Option StorePhase
  /-- SIG before the instruction a waiting split waits in, which a trap of it restores (R134, R267). -/
  sigWas : BitVec 32
  /-- What the instruction a split waits in read at its issue: its participating lanes, operands and addresses
  (R12, R132). -/
  args : List (BitVec 64)
  /-- The slice a waiting CPY or CPYM gave, as it was checked at issue (R189). -/
  slice : Option Slice
  /-- MAJFAIL is pending for the majority instruction the split waits in (R266, R375). -/
  doomed : Bool
  out : List Outstanding
  /-- Held by a handler (R249). -/
  held : Bool
  /-- The state a debugger stop interrupted (R260). -/
  stoppedIn : SplitState
  /-- 1: one instruction may issue; 2: it has issued, and the split stops with STEP when it is ready (R261). -/
  stepping : Nat
  /-- A debugger's freeze that waits for the split's next instruction boundary: its cause and value (R260). -/
  freeze : Option (BitVec 8 × BitVec 64)
  /-- The breakpoint that has stopped the split, until it issues the word there (R313). -/
  pass : Option (BitVec 64)
  deriving DecidableEq, Repr

/-- One lane's item in a dispatch warp: the warp and lane that wait for it (R150, R152). -/
structure ReturnHandle where
  warp : Nat
  lane : Nat
  deriving DecidableEq, Repr

/-- A warp (R11). -/
structure Warp where
  id : Nat
  live : Bool
  clus : Nat
  core : Nat
  quad : Nat
  place : Nat
  ctx : Nat
  launch : Nat
  crew : Nat
  index : Nat
  k : Sparse (BitVec 64)
  preds : Sparse (BitVec 32)
  /-- Physical register q of lane l under key l * 256 + q (R17). -/
  phys : Sparse (BitVec 32)
  /-- Poisoned physical registers, with 1 + the address of the poisoned datum (R259, R262). -/
  marks : Sparse Nat
  /-- Physical registers whose contents are unpredictable (R21), with 1 + the number of the draw (log 6). -/
  wild : Sparse Nat
  mode : BitVec 18
  fflags : BitVec 5
  strand : BitVec 32
  exited : BitVec 32
  spillb : BitVec 64
  spillsz : Nat
  allot : Nat
  prio : Nat
  rlabel : BitVec 64
  snap : Sparse (BitVec 64)
  trapc : BitVec 8
  trapv : BitVec 64
  trappc : BitVec 64
  savedMode : BitVec 18
  savedSig : BitVec 32
  tdepth : Nat
  splits : List Split
  overflow : List Split
  /-- Lanes stranded since the last STRAND delivery (R263). -/
  stranded : BitVec 32
  /-- Notifications that wait for the warp, in order of arrival: a WATCH by its request id, or STRAND (R237, R250,
  R263). -/
  notes : List (Option (BitVec 64))
  /-- A dispatch warp's return handles by lane; empty for a crew warp (R151). -/
  handles : List ReturnHandle
  /-- Held at a YIELDP safe point (R154). -/
  atSafePoint : Bool
  deriving DecidableEq, Repr

/-- Lanes of a warp whose latest completed phase of a barrier is the same, and what preceded that phase's end (R162). -/
structure PhaseDone where
  warp : Nat
  lanes : BitVec 32
  pasts : List Past
  deriving DecidableEq, Repr

/-- A named barrier: phase, arrived lanes by warp, the expected count its first arrival fixed, what preceded the arrivals
of the phase, and the phase that each lane has completed last (R160, R162). -/
structure Barrier where
  phase : Bool
  arrived : Sparse (BitVec 32)
  expect : Option Nat
  pasts : List Past
  done : List PhaseDone
  deriving DecidableEq, Repr

/-- A collective copy of a ring: its slot, the core mask of a multicast, its slices, the receiving crews with their slots,
the clock it opened, whether it has been judged complete, and whether its command is queued (R189, R191, R378). -/
structure Collective where
  slot : Nat
  mask : Option Nat
  slices : List Slice
  receivers : List (Nat × Nat)
  opened : Nat
  complete : Bool
  queued : Bool
  deriving DecidableEq, Repr

/-- A held fault: its cause and address, and whether it has been delivered so that the work may start again (R399). -/
structure HeldFault where
  cause : BitVec 8
  addr : BitVec 64
  slot : Nat
  delivered : Bool
  deriving DecidableEq, Repr

/-- A ring of a crew (R186). -/
structure Ring where
  bound : Bool
  desc : BitVec 64
  base : Nat
  slotBytes : Nat
  depth : Nat
  nrel : Nat
  nslice : Nat
  res : Nat
  fil : Nat
  rel : Nat
  cursors : Sparse Nat
  counts : Sparse Nat
  chunks : List Nat
  collectives : List Collective
  skips : Nat
  fault : Option HeldFault
  /-- What preceded each RELS, by the slot it released (R197, R297). -/
  pasts : List (Nat × Past)
  deriving DecidableEq, Repr

/-- A trap record of a tap (R237). -/
structure TapRecord where
  tap : Nat
  request : Nat
  position : Nat
  rule : Nat
  layer : Nat
  slot : Nat
  feature : Nat
  threshold : BitVec 32
  value : BitVec 32
  row : Nat
  deriving DecidableEq, Repr

/-- How a parked crew continues (R254). -/
inductive ParkKind where
  | level0 | level1 | noInstruction
  deriving DecidableEq, Repr

/-- Whether a crew is bound, runs, is parked or has ended (R254, R337, R153). -/
inductive CrewState where
  | binding | running | parked | ended
  deriving DecidableEq, Repr

/-- A crew (R37). A dispatch warp, which belongs to no crew, has one of its own with `dispatch` set, so that it is held
and parked alone (R151, R249). -/
structure Crew where
  id : Nat
  live : Bool
  dispatch : Bool
  ctx : Nat
  clus : Nat
  launch : Nat
  number : BitVec 32
  nwarp : Nat
  cmbase : Nat
  cmsize : Nat
  bars : List Barrier
  rings : List Ring
  mcast : BitVec 8
  flog : BitVec 64
  handler : BitVec 64
  budget : Option (BitVec 64)
  state : CrewState
  parkCause : BitVec 8
  parkPc : BitVec 64
  parkKind : ParkKind
  /-- The warp whose kind F handler holds the crew's other warps (R249). -/
  holder : Option Nat
  records : List TapRecord
  edit : Option (List (BitVec 8))
  /-- What its ended warps have done (R308). -/
  ended : List Past
  /-- A save discarded tile work of the crew (R223). -/
  discarded : Bool
  deriving DecidableEq, Repr

/-- The states of a tile task (R211). -/
inductive TaskState where
  | queued | waiting | running | suspended
  deriving DecidableEq, Repr

/-- A tile task in a cluster's queue: its record and captured tensors, and how far it is (R210, R217, R218). -/
structure Task where
  addr : BitVec 64
  record : List (BitVec 8)
  ta : Tensor
  tb : Tensor
  tc : Tensor
  td : Tensor
  tmeta : Tensor
  ctx : Nat
  crew : Nat
  warp : Nat
  /-- When it was posted (R181). -/
  at_ : Nat
  state : TaskState
  row : Nat
  engine : Nat
  flags : Nat
  /-- The block table a BMMA task read when it started (R215). -/
  table : Option (List (BitVec 8))
  fault : Option HeldFault
  deriving DecidableEq, Repr

/-- A command of the copy queue: the crew, ring and slot of its collective, whether it runs, the chunk it is filling with
the writes of it performed, and whether a fault holds it (R196, R377). -/
structure Command where
  crew : Nat
  ring : Nat
  slot : Nat
  running : Bool
  chunk : Option Nat
  pos : Nat
  stalled : Bool
  deriving DecidableEq, Repr

/-- A work item in a callee queue (R150). -/
structure Item where
  ctx : Nat
  launch : Nat
  callee : Nat
  regs : List (BitVec 32)
  handle : ReturnHandle
  deriving DecidableEq, Repr

/-- A grow request: who waits for it, its size, its WAIT, when it was issued and where (R380), and its result once it is
decided (R199, R200). -/
structure Grow where
  id : Nat
  crew : Nat
  size : Nat
  limit : Nat
  since : Nat
  rank : Nat
  number : Nat
  result : Option Nat
  deriving DecidableEq, Repr

/-- A tap encoder task on a matrix engine: its tap, the rows it covers, and its engine (R351). -/
structure EncoderTask where
  tap : Nat
  rows : List Nat
  engine : Nat
  deriving DecidableEq, Repr

/-- A cluster's engines and queues (R11). -/
structure Cluster where
  id : Nat
  tasks : List Task
  /-- Tap encoder tasks on the matrix engines, oldest first (R351). -/
  encoders : List EncoderTask
  copies : List Command
  items : List Item
  /-- Lines of the fetch cache by key / 128, with the clock at which they were read and their bytes (R205, R366). -/
  fetch : Sparse (Option (Nat × BitVec 1024))
  /-- The clock of the last FINV of tensor t of context c under key c * 256 + t, plus 1 (R205). -/
  finvs : Sparse Nat
  grows : List Grow
  /-- Bind records that wait in the slot table's ring for room (R335, R379). -/
  binds : List (BitVec 256)
  deriving DecidableEq, Repr

/-- A PPU slot: segment count, and value w of segment s under key 5 * s + w (R68). -/
structure PpuSlot where
  n : Nat
  segs : Sparse (BitVec 32)
  deriving DecidableEq, Repr

/-- A launch record (R240), with the callee table and draft shapes read with it. -/
structure LaunchRec where
  entry : BitVec 64
  param : BitVec 64
  ncrew : Nat
  cmsize : Nat
  mode : BitVec 18
  handler : BitVec 64
  flog : BitVec 64
  budget : BitVec 64
  creww : Nat
  allot : Nat
  prio : Nat
  ndisp : Nat
  clmask : BitVec 32
  spillsz : Nat
  spillpool : BitVec 64
  callees : BitVec 64
  shapes : Option (List (BitVec 64))
  /-- The record's 128 bytes, for replay capture (R390). -/
  bytes : List (BitVec 8)
  deriving DecidableEq, Repr

/-- A dispatch warp slot of a launch (R150, R151, R335). -/
structure DispSlot where
  clus : Nat
  core : Nat
  quad : Nat
  place : Nat
  allot : Nat
  spillb : BitVec 64
  busy : Bool
  deriving DecidableEq, Repr

/-- A launch of a context (R332, R334). -/
structure Launch where
  id : Nat
  record : LaunchRec
  admitted : Bool
  unbindable : Bool
  prio : Nat
  /-- The crew being bound and its warps bound so far; crews below it are bound (R334). -/
  nextCrew : Nat
  boundWarps : Nat
  /-- The launch's next unused crew number, for CLEAVE (R159). -/
  nextNumber : Nat
  crewsEnded : Nat
  dispSlots : List DispSlot
  /-- What precedes every access of the warps it launches (R242, R297). -/
  past : Option Past
  deriving DecidableEq, Repr

/-- How far the feature unit is with a tap: its root, its intake, or its rows (R347). -/
inductive TapStage where
  | root | intake | rows | done
  deriving DecidableEq, Repr

/-- A row of a tap that has rules, or that a fault has ended (R235, R348, R359): its request and position, its rules by
index, whether a CLAMP or ADD holds it, its elements, how many features encoder tasks have been started for, the pre
values computed so far, f and g of R235 once selected, the next rule, whether its decision is final, and whether it is
released. -/
structure TapRow where
  row : Nat
  request : Nat
  position : Nat
  rules : List (Nat × List (BitVec 8))
  held : Bool
  x : List (BitVec 32)
  sent : Nat
  pre : List (BitVec 32)
  selected : Bool
  f : Sparse (BitVec 32)
  g : Sparse (BitVec 32)
  nextRule : Nat
  finished : Bool
  released : Bool
  deriving DecidableEq, Repr

/-- A tap descriptor (R232) with its tensors. -/
structure TapDesc where
  slot : Nat
  layer : Nat
  tact : Tensor
  tmap : Tensor
  tenc : Tensor
  tdec : Tensor
  tbenc : Tensor
  tbdec : Tensor
  first : Nat
  nrows : Nat
  f : Nat
  topk : Nat
  ruleroot : BitVec 64
  hcrew : Nat
  snap : BitVec 64
  repair : BitVec 64
  deriving DecidableEq, Repr

/-- A tap of a context (R235): what the log needs of the warp that issued it, its place in the feature unit, the clock
since when it waits for its root, the rows of its range as the row map and the rule lists stood at the root's MLD (R354),
and its rows with rules; once intake is done, the range's other rows are released (R348). -/
structure Tap where
  id : Nat
  clus : Nat
  desc : TapDesc
  crew : Nat
  warp : Nat
  number : BitVec 32
  index : Nat
  core : Nat
  quad : Nat
  flog : BitVec 64
  pc : BitVec 64
  stage : TapStage
  since : Nat
  /-- When it was posted (R181, R350). -/
  at_ : Nat
  /-- The root's payload once its MLD has completed (R354). -/
  root : Option (BitVec 256)
  /-- Bytes of memory that FRULEs of the root have changed since, as they were, by key (R354, R362). -/
  before : List (Nat × BitVec 8)
  taken : List TapRow
  rows : List TapRow
  intakeDone : Bool
  fault : Option HeldFault
  deriving DecidableEq, Repr

/-- Where a context is (R340, R388). -/
inductive CtxPlace where
  | running | saved | darkslide | secondTier
  deriving DecidableEq, Repr

/-- A capture buffer: how much of it is used, whether capture has stopped for want of room, and, in a replay, how far its
records have been read (R390, R391). -/
structure Capture where
  buffer : Nat
  size : Nat
  used : Nat
  stopped : Bool
  replayed : Option Nat
  deriving DecidableEq, Repr

/-- What a save keeps of a context that has left its partition, beside its tables (R44, R266): its crews and warps, its
stopped copies, items and waiting grow requests by cluster, and its partition's tile memory with its poison. -/
structure Image where
  crews : List Crew
  warps : List Warp
  copies : List (Nat × Command)
  items : List (Nat × Item)
  grows : List (Nat × Grow)
  mem : Memory
  poison : List Nat
  spillPoison : List Nat
  deriving DecidableEq, Repr

/-- A debugger's breakpoint: its address, and the member warp whose splits it stops, if not those of all (R313, R321). -/
structure Breakpoint where
  addr : BitVec 64
  member : Option Nat
  deriving DecidableEq, Repr

/-- A context (R39). -/
structure Ctx where
  id : Nat
  live : Bool
  ctxid : BitVec 16
  part : Nat
  root : Nat
  tensors : Sparse (Option Tensor)
  /-- Completion count n of cluster c under key c * 64 + n (R218). -/
  counts : Sparse (BitVec 32)
  /-- Fail marks under the same keys: records of the failed tasks, oldest first (R222). -/
  failed : Sparse (List (BitVec 64))
  ppu : List PpuSlot
  ovt : BitVec 12
  taps : List Tap
  shapes : Sparse (BitVec 64)
  launches : List Launch
  nextLaunch : Nat
  ceiling : Nat
  warpSlots : Nat
  quotaMask : BitVec 32
  deadline : Nat
  tapeng : Nat
  sealedCtx : Bool
  place : CtxPlace
  image : Option Image
  /-- CYCLE at which a pending pre-emption's deadline expires (R265). -/
  preempt : Option Nat
  /-- The address at which a forced save is armed (R330). -/
  armed : Option (BitVec 64)
  /-- The debugger's breakpoints (R313, R321). -/
  breaks : List Breakpoint
  capture : Option Capture
  deriving DecidableEq, Repr

/-- A copy line of a majority cell (R177, R373). -/
structure CopyLine where
  tag : BitVec 64
  payload : BitVec 256
  deriving DecidableEq, Repr

/-- The states of an HBM stack (R374, R388). -/
inductive StackState where
  | inService | retired | rebuilding | spare
  deriving DecidableEq, Repr

/-- A TRSIG update handed to a quadrant's majority unit (R243). -/
structure TrsigUpdate where
  cell : Nat
  addr : BitVec 64
  value : BitVec 64
  warp : Warp
  /-- The number and fault-log root of the crew that issued it (R258). -/
  number : BitVec 32
  flog : BitVec 64
  pc : BitVec 64
  since : Nat
  /-- What precedes its release (R179). -/
  past : Past
  deriving DecidableEq, Repr

/-- The kinds of neighbour-list operation (R227, R228, R230). -/
inductive NleKind where
  | bin | stream | table
  deriving DecidableEq, Repr

/-- A neighbour-list operation in an engine (R227 to R230): its descriptor as read at issue, whether it has begun, the
pair records still to be delivered once its check is made, the fault that holds it, and, for an NLPAIR that waits for the
check, the cause and TRAPV it is to raise (R229). -/
structure NleOp where
  id : Nat
  kind : NleKind
  ctx : Nat
  crew : Nat
  warp : Nat
  clus : Nat
  ring : Nat
  addr : BitVec 64
  desc : List (BitVec 8)
  /-- When it was issued (R231). -/
  at_ : Nat
  /-- The engine of its die it is in, once it has begun (R2, R227). -/
  engine : Option Nat
  started : Bool
  todo : Option (List (BitVec 128))
  /-- Where a part that MAXP cuts off is to be resumed (R229). -/
  resume : Option Nat
  fault : Option HeldFault
  outcome : Option (BitVec 8 × BitVec 64)
  deriving DecidableEq, Repr

/-- What the engines keep for a neighbour-list descriptor (R227, R229, R231): status bits [7:0] but for BUSY, CAUSE,
MAXOCC, NPAIR, the binned descriptor, the snapshot of its points, and a held fault. -/
structure NleStat where
  ctx : Nat
  addr : BitVec 64
  flags : BitVec 8
  cause : BitVec 8
  maxocc : Nat
  npair : Nat
  geom : List (BitVec 8)
  snapshot : List (BitVec 32 × BitVec 32 × BitVec 32)
  /-- The work area as binning left it, when that binning was issued, and the number of its own write (R227). -/
  work : List (BitVec 8)
  since : Nat
  own : Nat
  /-- The latest stream or table of the descriptor (R231). -/
  job : Nat
  /-- The candidate at which a part that MAXP has cut off goes on, or 0 (R229). -/
  resume : Nat
  held : Option HeldFault
  deriving DecidableEq, Repr

/-- Boot phases (R392). -/
inductive BootPhase where
  | reset | running | recovery
  deriving DecidableEq, Repr

/-- Majority operations of a service core: loads, stores, token-ready updates, and a request's record made HELD (R341,
R345). -/
inductive ServiceKind where
  | mld | mst | mcas | trsig | hold
  deriving DecidableEq, Repr

/-- A majority operation that waits for its replies with no split behind it: a service core's, or one that a killed
crew's quadrant has already sent (R176, R256, R341): who is to hear of it, its writer, its cell, what it does, when it
began, and the tag its read phase has found. -/
structure ServiceOp where
  core : Option Nat
  wid : Nat
  cell : Nat
  kind : ServiceKind
  expect : BitVec 64
  payload : BitVec 256
  since : Nat
  tag : Option (BitVec 64)
  /-- What precedes the release of a store that a killed crew has sent (R179, R256). -/
  past : Option Past
  deriving DecidableEq, Repr

/-- What a service core's majority operation hands back: whether it reached a majority, its outcome and its payload
(R178, R341). -/
structure ServiceReply where
  core : Nat
  cell : Nat
  kind : ServiceKind
  answered : Bool
  outcome : Bool
  payload : BitVec 256
  deriving DecidableEq, Repr

/-- What the security core, the service complex and the package keep (chapter 19). -/
structure Device where
  boot : BootPhase
  /-- THERMAL_HALT has stopped issue (R395). -/
  halted : Bool
  /-- Flash banks A and B: the three images of each, in the order they are verified (R392). -/
  bankA : List (List (BitVec 8))
  bankB : List (List (BitVec 8))
  /-- Fused minimum SVN of kinds 1 to 3. -/
  minSvn : List Nat
  accepted : List (List (BitVec 8))
  devid : BitVec 64
  packageCap : Nat
  dieCaps : List Nat
  bootCap : Nat
  hostWindows : List (Nat × Nat)
  /-- Partition PA windows: partition, base, size (R392, R393). -/
  partWindows : List (Nat × Nat × Nat)
  sheetSeq : Nat
  /-- Squashes since the quadrant last issued (R383). -/
  squashRun : Sparse Nat
  failing : List Nat
  replay : Bool
  /-- Count n of R388's section 8 for cluster c under key c * 8 + n: squashes, SIGMIS, RCVERR, strandings, refused bind
  records, dropped log updates, Breakwater refusals, remote failures. -/
  counters : Sparse Nat
  /-- Corrected and uncorrected errors of each stack (R384, R388). -/
  corrected : Sparse Nat
  uncorrected : Sparse Nat
  /-- Scrub passes completed and poisoned lines repaired, by set (R388). -/
  scrubPasses : Sparse Nat
  linesRepaired : Sparse Nat
  /-- Requests whose logit kernel was cut off, by cell, with whether it overran its budget or took an exception
  (R344). -/
  serviceLog : List (Nat × Bool)
  /-- What service majority operations handed back, oldest first (R178, R341). -/
  serviceReplies : List ServiceReply
  /-- Bytes that service cores have read; they stay inside the device (R341, R394). -/
  serviceReads : List (List (BitVec 8))
  /-- Bytes that left the package: attestation reports, marked frames, completion words and stop records. -/
  outbox : List (List (BitVec 8))
  shares : List Nat
  /-- Frames the marking stage has sent (R394). -/
  frames : Nat
  deriving DecidableEq, Repr

/-- A remote access that gets no reply (R393): the n-th outstanding one of a split, or the MLD or KLD it is in. -/
structure LostAccess where
  warp : Nat
  slot : Nat
  n : Nat
  deriving DecidableEq, Repr

/-- An error in storage (R384): of a 32-byte sector of memory, or of 8 bytes of tile memory, by a key in it; of 8 bytes in
a die cache; of a lane's register; or of a copy line, that cannot be corrected; or a corrected error of an HBM stack. -/
inductive Upset where
  | sector (key : Nat)
  | dieCache (key : Nat)
  | register (warp lane q : Nat)
  | line (stack cell : Nat)
  | corrected (stack : Nat)
  deriving DecidableEq, Repr

/-- The model's own inputs, not the spec's state (log 1): events the world sends, oldest first; the clocks the next
steps take; the quadrants that issue next; whether an engine acts before the next issue; the stacks whose majority replies
come first; whether other agents act between the phases of the next majority stores; the stacks the next majority stores
reach late, and whether what has not reached them stays in flight for another step (log 10); remote accesses that get no
reply (log 64) and errors in storage (R384, log 82), oldest first; and the counter free values are drawn with. -/
structure Env where
  inbox : List Instr
  pace : List Nat
  quads : List Nat
  turns : List Bool
  replies : List Nat
  parted : List Bool
  slow : List (List Nat)
  flight : List Bool
  lost : List LostAccess
  upsets : List Upset
  free : Nat
  deriving DecidableEq, Repr

/-- The engine paths that access memory (R295, R296): the copy and neighbour-list engines, the matrix engines, the feature
unit. -/
inductive EnginePath where
  | copy | matrix | feature
  deriving DecidableEq, Repr

/-- The engines' classes of access (R180): the reads and writes of the copy path and of the matrix path. -/
inductive AccessClass where
  | cr | cw | mr | mw
  deriving DecidableEq, Repr

/-- A scope that what relies on a fence must lie in (R295, R298): some warps, a cluster, the device, the domain; or the
lanes of one core, within which alone UO pages keep the rules of RC ones (R301). -/
inductive Scope where
  | warps (ids : List Nat) | cluster (n : Nat) | device | domain | core (n : Nat)
  deriving DecidableEq, Repr

/-- Work of an engine whose accesses are attributed to warps (R181): its path, its number, the warps that joined or posted
it and when, its cluster (none for a neighbour-list engine), its die and its context. -/
structure Job where
  path : EnginePath
  id : Nat
  posters : List (Nat × Nat)
  clus : Option Nat
  die : Nat
  ctx : Nat
  deriving DecidableEq, Repr

/-- Who made a write: lanes of a party, which shared a split with some others then, through its core; an engine's job;
another device, or the host or the network (R295); or the device's own hardware, whose writes every agent sees at once. -/
inductive Writer where
  | lane (who : Party) (lanes mates : BitVec 32) (core ctx : Nat)
  | job (j : Job)
  | outside (device : Option Nat)
  | hardware
  deriving DecidableEq, Repr

/-- What a write happens before (R297, R298): the later accesses of some lanes, or those of class W alone; their later
reads of a byte, once the split has read it (R296: same location); what follows their next fence of the domain, once they
have acquired from another device (R303); those of a class of what a warp joins or posts later; the accesses of a class
whose completion a warp has observed; a counted completion; a job's accesses; the release of the FDU's row; every agent's
accesses; and, of the caches, what a core, a die or a fetch unit has read anew (R183, R205, R301). -/
inductive Reach where
  | lanes (who : Party) (m : BitVec 32)
  | stores (who : Party) (m : BitVec 32)
  | seen (who : Party) (m : BitVec 32) (key : Nat)
  | afar (who : Party) (m : BitVec 32)
  | later (warp : Nat) (c : AccessClass)
  | observed (warp : Nat) (c : AccessClass)
  | counted (ctx key : Nat) (c : AccessClass)
  | job (id : Nat)
  | freed
  | released
  | everyone
  | core (n : Nat)
  | die (n : Nat)
  | fetch (clus : Nat)
  deriving DecidableEq, Repr

/-- A chain of R298: the scopes of its fences, and how far CINV had flushed a UO line before its first hop (R301). -/
structure Chain where
  scopes : List Scope
  level : Nat
  deriving DecidableEq, Repr

/-- A write happens before something, from a time on, by a chain. -/
structure Mark where
  reach : Reach
  time : Nat
  chain : Chain
  deriving DecidableEq, Repr

/-- A write that some agents may not have seen (R296 to R301, R366; log 7): its number, its bytes as they were by key,
whether it is single-copy atomic (R168), who made it, the kind of its page, when a CINV flushed its line from an L1 and
from a die cache, the ring slot it fills and its part of it (a chunk, or the row of a tap), what precedes it if it is a
release, whether it is a read-modify-write, and what it happens before. -/
structure Late where
  id : Nat
  bytes : List (Nat × BitVec 8)
  whole : Bool
  by_ : Writer
  uo : Bool
  so : Bool
  f1 : Option Nat
  f2 : Option Nat
  slot : Option (Nat × Nat × Nat)
  part : Nat
  rel : Option Past
  rmw : Bool
  marks : List Mark
  deriving DecidableEq, Repr

/-- A page-table entry that firmware has changed, as it was, and the ranges for which the change has been completed: context,
first address, end (R371, R372). -/
structure OldEntry where
  key : Nat
  value : Nat
  done : List (Nat × Nat × Nat)
  deriving DecidableEq, Repr

/-- A fault-log update that waits for its quadrant's store on the root cell (R176, R257): its context, its writer, and the
record but for what its index decides. -/
structure LogJob where
  ctx : Nat
  /-- The root's address (R372). -/
  addr : Nat
  clus : Nat
  wid : Nat
  cell : Nat
  loss : Bool
  record : List (BitVec 8)
  deriving DecidableEq, Repr

/-- The whole machine. -/
structure State where
  w : Warp
  sp : Split
  crew : Crew
  ctx : Ctx
  clus : Cluster
  warps : List Warp
  crews : List Crew
  ctxs : List Ctx
  cluss : List Cluster
  cycle : BitVec 64
  mem : Memory
  /-- Poisoned 32-byte sectors by key / 32 (R384). -/
  poison : List Nat
  /-- Poisoned 4-byte words of register areas by key / 4 (R384). -/
  spillPoison : List Nat
  /-- Copy line n of stack s under key s * 2^22 + n (R373). -/
  majority : Sparse CopyLine
  /-- Stacks that came into service after the reset: their unlisted copy lines read VALID = 0 (R374). -/
  cleared : List Nat
  shape : Nat
  hbm : List StackState
  /-- Replacement of a retired stack by a spare, retired stack first (R374). -/
  spares : List (Nat × Nat)
  scrub : Sparse Nat
  rebuild : Sparse Nat
  trsigs : List TrsigUpdate
  nles : List NleOp
  nleStats : List NleStat
  nextId : Nat
  nextAge : Nat
  /-- Writes that some agent may not have seen, newest first (R296 to R301). -/
  late : List Late
  /-- The number of writes and events of ordering so far. -/
  writes : Nat
  /-- What precedes the releases that a majority cell's value stands for, by cell (R179, R297). -/
  cellPasts : Sparse (List Past)
  oldEntries : List OldEntry
  /-- Translation invalidations under way: context, first address, end (R372). -/
  invalidations : List (Nat × Nat × Nat)
  logs : List LogJob
  services : List ServiceOp
  /-- Copy lines on their way to a stack: stack, cell, line (R178). -/
  flying : List (Nat × Nat × CopyLine)
  /-- Scrubber and rebuild visits that have been due so far, by set (R374, R376). -/
  scrubbed : Sparse Nat
  rebuilt : Sparse Nat
  dev : Device
  env : Env
  deriving DecidableEq, Repr

/-- Reasons the machine stops with a fault. No meaning of an encoded instruction raises one on its own account. -/
inductive Fault where
  /-- Raised by no meaning: an event that names a warp, crew, context, task, operation or stack that does not exist, or
  that finds nothing to do, changes nothing (log 86). It keeps the type of faults inhabited. Safe: no step ends here. -/
  | noSuchTarget
  deriving DecidableEq, Repr

/-- Reasons an instruction is refused. -/
inductive Refusal where
  /-- Raised by an arm of exec whose instruction has no meaning yet. Safe: the machine stops. -/
  | notModelled (mnemonic : String)
  deriving DecidableEq, Repr

/-- A split-table entry that holds no split (log 3). -/
def Split.blank : Split :=
  { slot := 0, state := .free, level := 0, pc := 0, active := 0, entry := 0, rpc := 0, rmask := 0, sig := 0,
    wbase := 0, sfloor := 0, depth := 0, frames := 0, age := 0, starve := 0, lastIssue := 0, wait := none, since := 0,
    wake := 0, phase := none, sigWas := 0, args := [], slice := none, doomed := false, out := [], held := false,
    stoppedIn := .free, stepping := 0, freeze := none, pass := none }

/-- A warp slot with no warp bound, every register at its reset value (R22, R23, R25, R26, R33; log 3). -/
def Warp.blank : Warp :=
  { id := 0, live := false, clus := 0, core := 0, quad := 0, place := 0, ctx := 0, launch := 0, crew := 0, index := 0,
    k := [], preds := [], phys := [], marks := [], wild := [], mode := 0x00008, fflags := 0, strand := 0, exited := 0, spillb := 0,
    spillsz := 12288, allot := 64, prio := 0, rlabel := 0, snap := [], trapc := 0, trapv := 0, trappc := 0,
    savedMode := 0x00008, savedSig := 0, tdepth := 0, splits := [], overflow := [], stranded := 0, notes := [],
    handles := [], atSafePoint := false }

/-- A barrier at reset (R37). -/
def Barrier.blank : Barrier := { phase := false, arrived := [], expect := none, pasts := [], done := [] }

/-- An unbound ring (R37). -/
def Ring.blank : Ring :=
  { bound := false, desc := 0, base := 0, slotBytes := 0, depth := 0, nrel := 0, nslice := 0, res := 0, fil := 0,
    rel := 0, cursors := [], counts := [], chunks := [], collectives := [], skips := 0, fault := none, pasts := [] }

/-- A crew with its objects at reset and nothing else (R37; log 3). -/
def Crew.blank : Crew :=
  { id := 0, live := false, dispatch := false, ctx := 0, clus := 0, launch := 0, number := 0, nwarp := 0, cmbase := 0,
    cmsize := 0, bars := List.replicate 16 Barrier.blank, rings := List.replicate 8 Ring.blank, mcast := 0, flog := 0,
    handler := 0, budget := none, state := .running, parkCause := 0, parkPc := 0, parkKind := .level0, holder := none,
    records := [], edit := none, ended := [], discarded := false }

/-- A cluster with empty queues. -/
def Cluster.blank : Cluster :=
  { id := 0, tasks := [], encoders := [], copies := [], items := [], fetch := [], finvs := [], grows := [], binds := [] }

/-- A PPU slot at context creation: n = 1, every value +0 (R68). -/
def PpuSlot.blank : PpuSlot := { n := 1, segs := [] }

/-- A context at creation (R39, R40, R68, R206, R218, R245, R265, R351; log 3). -/
def Ctx.blank : Ctx :=
  { id := 0, live := false, ctxid := 0, part := 0, root := 0, tensors := [], counts := [], failed := [],
    ppu := List.replicate 4 PpuSlot.blank, ovt := 0x045, taps := [], shapes := [], launches := [], nextLaunch := 1,
    ceiling := 7, warpSlots := 16, quotaMask := 0xFFFFFFFF, deadline := 21000, tapeng := 2, sealedCtx := false,
    place := .running, image := none, preempt := none, armed := none, breaks := [], capture := none }

/-- A copy line at reset: VALID, tide 0, writer 0 (R177); its payload is 0 (log 4). -/
def CopyLine.blank : CopyLine := { tag := 1, payload := 0 }

/-- The package right after reset, before the security core has run (R392; log 3). -/
def Device.blank : Device :=
  { boot := .reset, halted := false, bankA := [], bankB := [], minSvn := [0, 0, 0], accepted := [], devid := 0
    packageCap := 1800, dieCaps := [1800, 1800], bootCap := 1800, hostWindows := [], partWindows := [], sheetSeq := 0
    squashRun := [], failing := [], replay := false, counters := [], corrected := [], uncorrected := []
    scrubPasses := [], linesRepaired := [], serviceLog := [], serviceReplies := [], serviceReads := []
    outbox := [], shares := [], frames := 0 }

/-- The model's inputs when the world sends nothing (log 1). -/
def Env.blank : Env :=
  { inbox := [], pace := [], quads := [], turns := [], replies := [], parted := [], slow := [], flight := []
    lost := [], upsets := [], free := 0 }

/-- The machine right after device reset: CYCLE 0, no context, crew or warp, every engine idle, memory with nothing
listed (R34, R392). -/
def State.reset : State :=
  { w := Warp.blank, sp := Split.blank, crew := Crew.blank, ctx := Ctx.blank, clus := Cluster.blank, warps := [],
    crews := [], ctxs := [], cluss := [], cycle := 0, mem := [], poison := [], spillPoison := [], majority := [], cleared := [],
    shape := 3, hbm := List.replicate 12 .inService, spares := [], scrub := [], rebuild := [], trsigs := [],
    nles := [], nleStats := [], nextId := 1, nextAge := 1, late := [], writes := 0, cellPasts := [], oldEntries := []
    invalidations := [], logs := [], services := [], flying := [], scrubbed := [], rebuilt := []
    dev := Device.blank, env := Env.blank }

end Sys2Proof.Machine
end

