-- ==== Sys2Proof/Machine/Sparse.lean ====
section
/-! DEFINITION. Maps in canonical form: the one way registers, memory and tables are read and written (log 4). -/

namespace Sys2Proof.Machine

/-- The value of a key: the default where the key is not listed. -/
def sget {α : Type} (d : α) : Sparse α → Nat → α
  | [], _ => d
  | (k, v) :: t, a => if k = a then v else sget d t a

/-- A map without a key. -/
def serase {α : Type} (m : Sparse α) (a : Nat) : Sparse α := m.filter (fun e => e.1 != a)

/-- A map with an entry put before the first greater key. -/
def sinsert {α : Type} (a : Nat) (v : α) : Sparse α → Sparse α
  | [] => [(a, v)]
  | (k, w) :: t => if a < k then (a, v) :: (k, w) :: t else (k, w) :: sinsert a v t

/-- A map with a key set: writing the default removes the entry. -/
def sset {α : Type} [DecidableEq α] (d : α) (m : Sparse α) (a : Nat) (v : α) : Sparse α :=
  if v = d then serase m a else sinsert a v (serase m a)

/-- Every entry has a key above a bound, keys rise strictly, and no entry equals the default. -/
def swfFrom {α : Type} [DecidableEq α] (d : α) : Nat → Sparse α → Bool
  | _, [] => true
  | lo, (k, v) :: t => lo ≤ k && v != d && swfFrom d (k + 1) t

/-- The canonical form. -/
def swf {α : Type} [DecidableEq α] (d : α) (m : Sparse α) : Bool := swfFrom d 0 m

/-- A list of numbers kept as a set: sorted, without repeats. -/
def ninsert (a : Nat) : List Nat → List Nat
  | [] => [a]
  | b :: t => if a < b then a :: b :: t else if a = b then b :: t else b :: ninsert a t

/-- Memory keeps the canonical form. -/
def Memory.wf (m : Memory) : Bool := swf 0 m

end Sys2Proof.Machine
end

