-- ==== Sys2Proof/Machine/Memory.lean ====
section
/-! DEFINITION. Memory: byte order, poison, the address map, translation and the checks of an access
(R41 to R43, R167, R364, R369, R370, R384, R398). -/

namespace Sys2Proof.Machine

/-- One byte of memory. -/
def byteAt (m : Memory) (key : Nat) : Byte := sget 0 m key

/-- n bytes of memory, lowest address first. -/
def bytesAt (m : Memory) (key : Nat) : Nat → List Byte
  | 0 => []
  | n + 1 => byteAt m key :: bytesAt m (key + 1) n

/-- Memory with bytes stored from an address upwards. -/
def putBytes (m : Memory) (key : Nat) : List Byte → Memory
  | [] => m
  | b :: t => putBytes (sset 0 m key b) (key + 1) t

/-- The number little-endian bytes hold (R169). -/
def leNat : List Byte → Nat
  | [] => 0
  | b :: t => b.toNat + 256 * leNat t

/-- The n little-endian bytes of a number, taken modulo 2^(8n) (R169). -/
def natLE (v : Nat) : Nat → List Byte
  | 0 => []
  | n + 1 => BitVec.ofNat 8 v :: natLE (v / 256) n

/-- A sector or spill word that holds a byte is poisoned (R384). -/
def poisonedAt (s : State) (key : Nat) : Bool := s.poison.contains (key / 32) || s.spillPoison.contains (key / 4)

/-- Some byte of an access is poisoned. -/
def poisonedRange (s : State) (key size : Nat) : Bool := (List.range size).any (fun i => poisonedAt s (key + i))

/-- A read of a number of bytes as a number. -/
def readKey (s : State) (key size : Nat) : Nat := leNat (bytesAt s.mem key size)

/-- The sectors a write covers whole lose their poison; a partial write leaves a sector poisoned (R384). -/
def clearPoison (s : State) (key size : Nat) : State :=
  if size < 32 then s
  else { s with
    poison := s.poison.filter (fun n => !(decide (key ≤ n * 32) && decide (n * 32 + 32 ≤ key + size)))
    spillPoison := s.spillPoison.filter
      (fun n => !(decide (key ≤ n / 8 * 32) && decide (n / 8 * 32 + 32 ≤ key + size))) }

/-- The n keys from a key on. -/
def keysFrom (key n : Nat) : List Nat := (List.range n).map (fun i => key + i)

/-- A write by the device's own hardware, which every agent sees at once (log 7). -/
def hardwareWrite : Late :=
  { id := 0, bytes := [], whole := true, by_ := .hardware, uo := false, so := false, f1 := none, f2 := none, slot := none
    part := 0, rel := none, rmw := false, marks := [] }

/-- A write about to be made to some bytes kept with what they were. -/
def keepWrite (e : Late) (s : State) (ks : List Nat) : State :=
  { s with late := { e with id := s.writes, bytes := ks.map (fun k => (k, byteAt s.mem k)) } :: s.late
           writes := s.writes + 1 }

/-- A write of bytes from a key on, of some kind. -/
def storeKey (e : Late) (s : State) (key : Nat) (bs : List Byte) : State :=
  { clearPoison (keepWrite e s (keysFrom key bs.length)) key bs.length with mem := putBytes s.mem key bs }

/-- A write of bytes that every agent sees at once. -/
def writeKey (s : State) (key : Nat) (bs : List Byte) : State := storeKey hardwareWrite s key bs

/-- Page kinds (R43, R370). -/
inductive PageKind where
  | rc | so | uo
  deriving DecidableEq, Repr

/-- Where an address leads: the memory key, and the page's kind and bits (R43, R370). -/
structure Place where
  key : Nat
  kind : PageKind
  r : Bool
  w : Bool
  x : Bool
  maj : Bool
  sealPage : Bool
  tile : Bool
  deriving DecidableEq, Repr

/-- A translation's outcome: a place, no translation, or a protection fault (R41, R370). -/
inductive Xlate where
  | ok (p : Place)
  | page
  | prot
  deriving DecidableEq, Repr

/-- The tile window's first address (R41). -/
def tileBase : Nat := 0x00FF000000000000
/-- One past the tile window (R41). -/
def tileEnd : Nat := 0x00FF000008000000
/-- A cluster's slice of the tile window (R41). -/
def sliceBase (c : Nat) : Nat := tileBase + c * 0x400000
/-- Ordinary HBM ends here: 12 stacks of 36 GB less 256 MiB each (R364; log 11). -/
def hbmEnd : Nat := 12 * (36 * 10 ^ 9 - 0x10000000)
/-- The second tier (R364; log 11). -/
def tier2Base : Nat := 2 ^ 44
def tier2End : Nat := 2 ^ 44 + 1024 * 10 ^ 9
/-- The majority region (R364). -/
def majBase : Nat := 2 ^ 46
def majEnd (shape : Nat) : Nat := 2 ^ 46 + (if shape = 5 then 0x10000000 else 0x20000000)

/-- A physical range lies in one region of R364. -/
def physOk (shape pa size : Nat) : Bool :=
  decide (pa + size ≤ hbmEnd) || (decide (tier2Base ≤ pa) && decide (pa + size ≤ tier2End)) ||
    (decide (majBase ≤ pa) && decide (pa + size ≤ majEnd shape))

/-- One of a partition's PA windows holds a range (R393). -/
def windowOk (s : State) (part pa size : Nat) : Bool :=
  s.dev.partWindows.any (fun w => w.1 == part && decide (w.2.1 ≤ pa) && decide (pa + size ≤ w.2.1 + w.2.2))

/-- A level of the walk: the lowest VA bit of its index, the index width, and whether a leaf may stand there (R369). -/
structure WalkLevel where
  lo : Nat
  width : Nat
  leaf : Bool
  last : Bool
  deriving DecidableEq, Repr

/-- The five levels (R369). -/
def walkLevels : List WalkLevel :=
  [⟨48, 8, false, false⟩, ⟨39, 9, false, false⟩, ⟨30, 9, true, false⟩, ⟨21, 9, true, false⟩, ⟨16, 5, true, true⟩]

/-- Bits of a number, for entries and records. -/
def bitsOf (v lo n : Nat) : Nat := v / 2 ^ lo % 2 ^ n

/-- A leaf entry's place, or the walker's PROT (R370, R393). -/
def leafPlace (s : State) (lv : WalkLevel) (e va : Nat) : Xlate :=
  let size := 2 ^ lv.lo
  let pa := bitsOf e 8 44 * 256
  let maj := bitsOf e 58 1 == 1
  let kind := bitsOf e 56 2
  if !lv.leaf || kind == 3 || pa % size != 0 || !physOk s.shape pa size || !windowOk s s.ctx.part pa size then .prot
  else if maj && !(kind == 0 && lv.last && decide (majBase ≤ pa) && decide (pa + size ≤ majEnd s.shape)) then .prot
  else .ok { key := pa + va % size, kind := if kind == 0 then .rc else if kind == 1 then .so else .uo,
             r := bitsOf e 3 1 == 1, w := bitsOf e 4 1 == 1, x := bitsOf e 5 1 == 1, maj := maj,
             sealPage := bitsOf e 59 1 == 1, tile := false }

/-- An invalidation of a context's range covers an address (R372). -/
def covers (ctx va : Nat) (r : Nat × Nat × Nat) : Bool := r.1 == ctx && decide (r.2.1 ≤ va) && decide (va < r.2.2)

/-- The page-table entry an access of the focused context is translated by: until an invalidation that covers its
address has completed, the entry as it was may stand for one that firmware has written (R371, R372; log 79). -/
def entryAt (s : State) (va key : Nat) : Nat :=
  match s.oldEntries.find? (fun o => o.key == key && !o.done.any (covers s.ctx.id va)) with
  | some o => if Config.usesOld s.cycle.toNat key then o.value else readKey s key 8
  | none => readKey s key 8

/-- A page walk from a table on (R369, R370). A poisoned table read reports PROT (R384). -/
def walk (s : State) (va : Nat) : List WalkLevel → Nat → Xlate
  | [], _ => .prot
  | lv :: rest, table =>
    let key := table + 8 * bitsOf va lv.lo lv.width
    let e := entryAt s va key
    if poisonedRange s key 8 then .prot
    else if bitsOf e 0 1 == 0 then .page
    else if bitsOf e 60 4 != 0 || bitsOf e 52 4 != 0 || bitsOf e 6 1 != 0 || bitsOf e 1 2 != 0 then .prot
    else if bitsOf e 7 1 == 1 then leafPlace s lv e va
    else if lv.last || bitsOf e 56 2 == 3 || bitsOf e 58 1 == 1 then .prot
    else walk s va rest (bitsOf e 8 44 * 256)

/-- Translation of a virtual address in the focused context (R41, R42, R369). -/
def translate (s : State) (va : Nat) : Xlate :=
  if 2 ^ 56 ≤ va then .prot
  else if va < tileBase then walk s va walkLevels s.ctx.root
  else if va < tileEnd then
    if (va - tileBase) / 0x400000 / 4 == s.ctx.part then
      .ok { key := va, kind := .rc, r := true, w := true, x := false, maj := false, sealPage := false, tile := true }
    else .prot
  else .prot

/-- Cause codes of R248. -/
def cIllegal : Byte := 0x01
def cPriv : Byte := 0x02
def cAlign : Byte := 0x03
def cPage : Byte := 0x04
def cProt : Byte := 0x05
def cOperand : Byte := 0x06
def cSigmis : Byte := 0x07
def cRcverr : Byte := 0x08
def cWatch : Byte := 0x09
def cStrand : Byte := 0x0A
def cMajfail : Byte := 0x0B
def cMcast : Byte := 0x0C
def cFmterr : Byte := 0x0D
def cStale : Byte := 0x0E
def cWindow : Byte := 0x0F
def cBudget : Byte := 0x10
def cBkpt : Byte := 0x11
def cStep : Byte := 0x12
def cTaskflt : Byte := 0x13
def cEccfatal : Byte := 0x14

/-- What an access needs of its page (R167, R175, R398). -/
structure Need where
  r : Bool
  w : Bool
  /-- UO pages are refused. -/
  noUo : Bool
  /-- The tile window is refused. -/
  noTile : Bool
  deriving DecidableEq, Repr

def needR : Need := ⟨true, false, false, false⟩
def needW : Need := ⟨false, true, false, false⟩
/-- Atomics: both permissions, never a UO page (R167, R175). -/
def needAtomic : Need := ⟨true, true, true, false⟩
/-- Records and descriptors on RC or SO pages or in the tile window (R398). -/
def needRec : Need := ⟨true, false, true, false⟩
/-- Records on RC or SO pages only (R398). -/
def needRecPage : Need := ⟨true, false, true, true⟩
/-- A spill or frame-record store: ordinary RC or SO pages (R18, R398). -/
def needSpillW : Need := ⟨false, true, true, true⟩
/-- A fill or frame-record refill: ordinary RC or SO pages (R18, R398). -/
def needSpillR : Need := ⟨true, false, true, true⟩

/-- A place permits an access (R43, R167 check 4, R398). -/
def permits (n : Need) (p : Place) : Bool :=
  (!n.r || p.r) && (!n.w || p.w) && !p.maj && (!n.noUo || p.kind != .uo) && (!n.noTile || !p.tile)

/-- The outcome of an access check: the memory key, or the cause it raises. -/
inductive Check where
  | ok (key : Nat)
  | bad (cause : Byte)
  deriving DecidableEq, Repr

/-- The four checks of R167 on one address, in their order. -/
def checkAccess (s : State) (n : Need) (va size : Nat) : Check :=
  if 2 ^ 56 ≤ va then .bad cProt
  else if va % size != 0 then .bad cAlign
  else match translate s va with
    | .page => .bad cPage
    | .prot => .bad cProt
    | .ok p => if permits n p then .ok p.key else .bad cProt

/-- The checks of R176 on a majority cell's address: canonical, aligned, translated, permitted, a MAJ page. -/
def checkCell (s : State) (n : Need) (va : Nat) : Check :=
  if 2 ^ 56 ≤ va then .bad cProt
  else if va % 32 != 0 then .bad cAlign
  else match translate s va with
    | .page => .bad cPage
    | .prot => .bad cProt
    | .ok p => if p.maj && (!n.r || p.r) && (!n.w || p.w) then .ok p.key else .bad cProt

/-- A run of bytes checked from an address on: the keys of its bytes, or the first failing address and its cause. Each
64 KiB page is translated once, at the run's first byte in it (R302, R398). Alignment is the caller's. -/
def checkRunFrom (s : State) (n : Need) : Option Nat → Nat → Nat → Except (Byte × Nat) (List Nat)
  | _, _, 0 => .ok []
  | prev, va, k + 1 =>
    match (match prev with
      | some key => if va % 0x10000 == 0 then checkAccess s n va 1 else .ok (key + 1)
      | none => checkAccess s n va 1) with
    | .bad c => .error (c, va)
    | .ok key =>
      match checkRunFrom s n (some key) (va + 1) k with
      | .error e => .error e
      | .ok ks => .ok (key :: ks)

/-- The keys of a run of bytes, or the first failing address and its cause. -/
def checkRun (s : State) (n : Need) (va size : Nat) : Except (Byte × Nat) (List Nat) := checkRunFrom s n none va size

/-- The bytes at a list of keys. -/
def gather (s : State) (ks : List Nat) : List Byte := ks.map (byteAt s.mem)

/-- Bytes stored at a list of keys, one each. -/
def scatter (s : State) : List Nat → List Byte → State
  | k :: ks, b :: bs => scatter { s with mem := sset 0 s.mem k b } ks bs
  | _, _ => s

/-- Bytes of a virtual run, or the failing address and cause. -/
def readRun (s : State) (n : Need) (va size : Nat) : Except (Byte × Nat) (List Byte) :=
  match checkRun s n va size with
  | .error e => .error e
  | .ok ks => .ok (gather s ks)

/-- Sectors that a write covers whole lose their poison and the marks of their words (R384). -/
def clearSectors (s : State) (whole : Nat → Bool) : State :=
  { s with poison := s.poison.filter (fun c => !whole c)
           spillPoison := s.spillPoison.filter (fun n => !whole (n / 8)) }

/-- The sectors whose 32 bytes are all among some keys (R384). -/
def clearWhole (s : State) (ks : List Nat) : State :=
  clearSectors s (fun c => (List.range 32).all (fun i => ks.contains (c * 32 + i)))

/-- Bytes stored at a list of keys by a write of some kind. -/
def storeKeys (e : Late) (s : State) (ks : List Nat) (bs : List Byte) : State :=
  scatter (clearWhole (keepWrite e s ks) ks) ks bs

/-- A virtual run written, or the failing address and cause with nothing written; every agent sees the bytes at once. -/
def writeRun (s : State) (n : Need) (va : Nat) (bs : List Byte) : Except (Byte × Nat) State :=
  match checkRun s n va bs.length with
  | .error e => .error e
  | .ok ks => .ok (storeKeys hardwareWrite s ks bs)

end Sys2Proof.Machine
end

