-- ==== Sys2Proof/Machine/Focus.lean ====
section
/-! DEFINITION. The focus: putting the issuing split, warp, crew, context and cluster back among the others, and taking
out those a step acts on (log 1). Lists stay sorted by id, so that equal machines are equal data. -/

namespace Sys2Proof.Machine

/-- A split still holds lanes. -/
def Split.alive (p : Split) : Bool := p.state != .free && p.active != 0

def insertSplit (x : Split) : List Split → List Split
  | [] => [x]
  | y :: t => if x.slot ≤ y.slot then x :: y :: t else y :: insertSplit x t

def insertWarp (x : Warp) : List Warp → List Warp
  | [] => [x]
  | y :: t => if x.id ≤ y.id then x :: y :: t else y :: insertWarp x t

def insertCrew (x : Crew) : List Crew → List Crew
  | [] => [x]
  | y :: t => if x.id ≤ y.id then x :: y :: t else y :: insertCrew x t

def insertCtx (x : Ctx) : List Ctx → List Ctx
  | [] => [x]
  | y :: t => if x.id ≤ y.id then x :: y :: t else y :: insertCtx x t

def insertCluster (x : Cluster) : List Cluster → List Cluster
  | [] => [x]
  | y :: t => if x.id ≤ y.id then x :: y :: t else y :: insertCluster x t

/-- The issuing split back in its warp's table; a split without lanes is freed (R153). -/
def packSplit (s : State) : State :=
  { s with w := { s.w with splits := if s.sp.alive then insertSplit s.sp s.w.splits else s.w.splits }, sp := Split.blank }

/-- The focus put back: what is not live is dropped, and so is a cluster with nothing in it. -/
def pack (s : State) : State :=
  let t := packSplit s
  { t with
    warps := if t.w.live then insertWarp t.w t.warps else t.warps
    crews := if t.crew.live then insertCrew t.crew t.crews else t.crews
    ctxs := if t.ctx.live then insertCtx t.ctx t.ctxs else t.ctxs
    cluss := if t.clus = { Cluster.blank with id := t.clus.id } then t.cluss else insertCluster t.clus t.cluss
    w := Warp.blank, crew := Crew.blank, ctx := Ctx.blank, clus := Cluster.blank }

def findWarp (ws : List Warp) (id : Nat) : Warp := (ws.find? (fun x => x.id == id)).getD Warp.blank
def findCrew (cs : List Crew) (id : Nat) : Crew := (cs.find? (fun x => x.id == id)).getD Crew.blank
def findCtx (cs : List Ctx) (id : Nat) : Ctx := (cs.find? (fun x => x.id == id)).getD Ctx.blank
def findCluster (cs : List Cluster) (id : Nat) : Cluster :=
  (cs.find? (fun x => x.id == id)).getD { Cluster.blank with id := id }
def findSplit (ps : List Split) (slot : Nat) : Split := (ps.find? (fun x => x.slot == slot)).getD Split.blank

/-- A packed machine with a crew, context and cluster taken out. -/
def focusParts (s : State) (crew ctx clus : Nat) : State :=
  { s with
    crew := findCrew s.crews crew, crews := s.crews.filter (fun x => x.id != crew)
    ctx := findCtx s.ctxs ctx, ctxs := s.ctxs.filter (fun x => x.id != ctx)
    clus := findCluster s.cluss clus, cluss := s.cluss.filter (fun x => x.id != clus) }

/-- A packed machine with a warp, and its crew, context and cluster, taken out; no split of the warp is. -/
def focusWarpOf (s : State) (id : Nat) : State :=
  let w := findWarp s.warps id
  focusParts { s with w := w, warps := s.warps.filter (fun x => x.id != id) } w.crew w.ctx w.clus

/-- A split of the focused warp taken out of its table. -/
def takeSplit (s : State) (slot : Nat) : State :=
  { s with sp := findSplit s.w.splits slot,
           w := { s.w with splits := s.w.splits.filter (fun x => x.slot != slot) } }

/-- The focus moved to a warp, whatever it was on. -/
def focusWarp (s : State) (id : Nat) : State := focusWarpOf (pack s) id

/-- The focus moved to a split of a warp. -/
def focusSplit (s : State) (id slot : Nat) : State := takeSplit (focusWarp s id) slot

/-- The focus moved to a crew, a context and a cluster, with no warp. -/
def focusOn (s : State) (crew ctx clus : Nat) : State := focusParts (pack s) crew ctx clus

/-- The focus moved to a crew with its context and cluster. -/
def focusCrew (s : State) (id : Nat) : State :=
  let p := pack s
  let c := findCrew p.crews id
  focusParts p id c.ctx c.clus

/-- The issuing split taken out again, after a change of a packed machine. -/
def retake (s t : State) : State := if s.sp.alive then takeSplit t s.sp.slot else t

/-- A change of the packed machine, with the focus kept. -/
def onAll (s : State) (f : State → State) : State := retake s (focusWarpOf (f (pack s)) s.w.id)

/-- A change made with the focus on another warp, and the focus then brought back. -/
def inWarp (s : State) (id : Nat) (f : State → State) : State :=
  if id == s.w.id then f s
  else retake s (focusWarp (f (focusWarp s id)) s.w.id)

/-- A change made with another split of the focused warp as the issuing one. -/
def onSplit (s : State) (slot : Nat) (f : State → State) : State :=
  retake s (packSplit (f (takeSplit (packSplit s) slot)))

/-- The issuing warp with its issuing split in the table. -/
def State.wholeWarp (s : State) : Warp := (packSplit s).w

/-- Every live warp. -/
def State.allWarps (s : State) : List Warp := (if s.w.live then [s.wholeWarp] else []) ++ s.warps

/-- Every live crew. -/
def State.allCrews (s : State) : List Crew := (if s.crew.live then [s.crew] else []) ++ s.crews

/-- The warps of a crew. -/
def State.warpsOf (s : State) (crew : Nat) : List Warp := s.allWarps.filter (fun x => x.crew == crew)

/-- The first split by age of a list. -/
def oldestSplit : List Split → Option Split
  | [] => none
  | p :: t => match oldestSplit t with
    | none => some p
    | some q => if p.age ≤ q.age then some p else some q

/-- Splits of a warp that hold a slot of its table or its overflow block. -/
def Warp.liveSplits (w : Warp) : List Split := w.splits.filter Split.alive ++ w.overflow.filter Split.alive

/-- A fresh id (warps, crews, contexts, operations). -/
def freshId (s : State) : Nat × State := (s.nextId, { s with nextId := s.nextId + 1 })

end Sys2Proof.Machine
end

