-- ==== Sys2Proof/Machine/Order.lean ====
section
/-! DEFINITION. Memory ordering: which agents must see a write, and what makes them (05 R162; 06 R170, R179 to R183, R197,
R205; 07 R221, R236, R242; 10 R295 to R301; 17 R350, R354; 18 R366; log 7). Memory itself is the coherence order: a write
takes its place in it at once. `late` keeps every write, newest first, with what its bytes were and a mark for each thing
it happens before (R298). An agent reads, byte by byte, the newest write that it sees: one that happens before its access
by a chain whose scopes hold it, or one that has reached it unordered (R299). -/

namespace Sys2Proof.Machine

/-- The die of a cluster (R2, R364). -/
def dieOf (clus : Nat) : Nat := clus / 16

/-- Lanes that read memory: of a party, the split's ACTIVE, the reading lane (none for an access of all of them), the core
and cluster, and whether the read is ordered after the status writes of observed tasks (R220). -/
structure LaneReader where
  who : Party
  active : Mask
  lane : Option Nat
  core : Nat
  clus : Option Nat
  tasks : Bool
  deriving DecidableEq, Repr

/-- An agent that reads memory: lanes, an engine's job, an agent of the package on a die, a cluster's fetch unit, or one
outside the device: another device, or the host and the network (R295). -/
inductive Reader where
  | lanes (l : LaneReader)
  | job (j : Job)
  | device (die : Nat)
  | fetch (clus : Nat)
  | outside (host : Bool)
  deriving DecidableEq, Repr

/-- The path's number. -/
def EnginePath.number : EnginePath → Nat
  | .copy => 1
  | .matrix => 2
  | .feature => 3

/-- The classes of a path's accesses (R180, R231, R350). -/
def EnginePath.reads : EnginePath → AccessClass
  | .copy => .cr
  | .matrix | .feature => .mr
def EnginePath.writes : EnginePath → AccessClass
  | .copy => .cw
  | .matrix | .feature => .mw

/-- A number for each agent whose unordered reads share a cache. -/
def Reader.number : Reader → Nat
  | .lanes l => l.core
  | .job j => 1024 + 4 * (j.clus.getD (32 + j.die)) + j.path.number
  | .device d => 2048 + d
  | .fetch c => 3072 + c
  | .outside h => 4096 + (if h then 1 else 0)

/-- A number of lines of all caches of the device: 256 cores' L1s and two die caches, in lines of 128 bytes (R2, R366). -/
def l1Lines : Nat := 128 * 1024 / 128
def dieCacheLines : Nat := 64 * 1024 * 1024 / 128
def cacheLines : Nat := 256 * l1Lines + 2 * dieCacheLines

/-- A scope holds an agent (R295). The fetch unit is in none, but sees what has been performed for the device (R205). -/
def Scope.holds : Scope → Reader → Bool
  | .warps ids, .lanes l => (match l.who with
    | .warp w => ids.contains w
    | .service _ | .remote _ => false)
  | .warps _, _ => false
  | .cluster n, .lanes l => l.clus == some n
  | .cluster n, .job j => j.clus == some n
  | .cluster _, _ => false
  | .device, .outside _ => false
  | .device, _ => true
  | .domain, .outside h => !h
  | .domain, _ => true
  | .core n, .lanes l => l.core == n
  | .core _, _ => false

/-- The old byte of a write at a key. -/
def Late.oldAt (e : Late) (key : Nat) : Option Byte := (e.bytes.find? (fun x => x.1 == key)).map (fun x => x.2)

/-- The core whose L1 a write went through. -/
def Late.core (e : Late) : Option Nat :=
  match e.by_ with
  | .lane _ _ _ k _ => some k
  | _ => none

/-- The die a write was made on. -/
def Late.die (e : Late) : Nat :=
  match e.by_ with
  | .lane _ _ _ k _ => dieOf (k / 8)
  | .job j => j.die
  | _ => 0

/-- The context a write was made for. -/
def Late.ctx (e : Late) : Option Nat :=
  match e.by_ with
  | .lane _ _ _ _ c => some c
  | .job j => some j.ctx
  | _ => none

/-- The job that made a write. -/
def Late.job (e : Late) : Option Nat :=
  match e.by_ with
  | .job j => some j.id
  | _ => none

/-- The warps whose work made a write, and when they gave it. -/
def Late.posters (e : Late) : List (Nat × Nat) :=
  match e.by_ with
  | .job j => j.posters
  | _ => []

/-- How far CINV has flushed a UO line by some time: an engine's write is past every L1 (R301, R366). -/
def Late.levelAt (e : Late) (t : Nat) : Nat :=
  if (e.f2.map (fun n => decide (n ≤ t))).getD false then 2
  else match e.by_ with
    | .lane _ _ _ _ _ => if (e.f1.map (fun n => decide (n ≤ t))).getD false then 1 else 0
    | .job _ => 1
    | _ => 2

/-- The write's line has been read anew by a core, or a die, since (R183, R301). -/
def Late.atCore (e : Late) (k : Nat) : Bool := e.marks.any (fun m => m.reach == .core k)
def Late.atDie (e : Late) (d : Nat) (posters : List (Nat × Nat)) : Bool :=
  e.marks.any (fun m => m.reach == .die d && (posters.isEmpty || posters.any (fun p => decide (m.time ≤ p.2))))

/-- What a mark names is a read of the agent's (R297, R298). -/
def Mark.names (m : Mark) : Reader → Bool
  | .lanes l => (match m.reach with
    | .lanes who mask => who == l.who && (match l.lane with
      | some n => mask.getLsbD n
      | none => mask &&& l.active != 0)
    | .observed w .mw => l.tasks && l.who == .warp w
    | .everyone => true
    | _ => false)
  | .job j => (match m.reach with
    | .later w c => c == j.path.reads && j.posters.any (fun p => p.1 == w && decide (m.time ≤ p.2))
    | .job id => id == j.id
    | .everyone => true
    | _ => false)
  | .device _ => m.reach == .released || m.reach == .everyone
  | .fetch c => m.reach == .fetch c || m.reach == .everyone
  | .outside _ => m.reach == .everyone

/-- The caches let an agent see a UO write that a chain orders before its read (R301, R366). -/
def Late.cached (e : Late) (r : Reader) (c : Chain) : Bool :=
  let far : Nat → List (Nat × Nat) → Bool := fun d ps =>
    if e.die == d then decide (1 ≤ c.level) else decide (2 ≤ c.level) && e.atDie d ps
  !e.uo || (match r with
    | .lanes l => e.core == some l.core || e.atCore l.core
    | .job j => far j.die j.posters
    | .device d => far d []
    | .fetch k => far (dieOf k) []
    | .outside _ => decide (2 ≤ c.level))

/-- An agent sees a write whatever orders it: the device's own; that of the split it is in, or of one that this split comes
of; on SO pages every lane's; a job's own; and what an atomic or a CINV of the core has read (R169, R296, R299, R300,
R366). -/
def Late.ownOf (e : Late) (r : Reader) : Bool :=
  match e.by_, r with
  | .hardware, _ => true
  | .lane who _ mates _ _, .lanes l => (who == l.who && mates &&& l.active != 0) || e.so || (!e.uo && e.atCore l.core)
  | .job j, .job i => j.id == i.id
  | _, .lanes l => !e.uo && e.atCore l.core
  | _, _ => false

/-- The agent must see the write (R299, R301). -/
def Late.mustSee (r : Reader) (e : Late) : Bool :=
  e.ownOf r || e.marks.any (fun m => m.names r && m.chain.scopes.all (fun x => x.holds r) && e.cached r m.chain)

/-- What a write is seen by at a key: all of it at once, or each byte of it alone (R168). -/
def Late.unit (e : Late) (key : Nat) : Nat := if e.whole then 0 else key + 1

/-- The split, or one it comes of, has read the write at a key: it never reads an older one there again (R296, R299). -/
def Late.readBy (e : Late) (r : Reader) (key : Nat) : Bool :=
  match r with
  | .lanes l => e.marks.any (fun m => match m.reach with
    | .seen who mask n => who == l.who && mask &&& l.active != 0 && n == e.unit key
    | _ => false)
  | _ => false

/-- The clock from which an agent sees a write at a key, if nothing has ordered it after it. -/
def Late.reaches (e : Late) (r : Reader) (key : Nat) : Nat := Config.arrival e.id (e.unit key) r.number

/-- Nothing has ordered the agent after the write, and it has reached it (R299: once seen, seen for good). -/
def Late.arrived (s : State) (r : Reader) (key : Nat) (e : Late) : Bool := decide (e.reaches r key ≤ s.cycle.toNat)

/-- UO lines of which an agent lacks a write that reaches it after another one: the write of a number, at a key of its unit,
that reaches it at a clock. Of writes that reach it at one clock the older number comes first, then the lower key. -/
def staleLines (late : List Late) (r : Reader) (clock number unit : Nat) : List Nat :=
  ((late.filter (fun e => e.uo)).flatMap (fun e => (e.bytes.filter (fun x =>
    let c := e.reaches r x.1
    decide (clock < c ∨ (clock = c ∧ (number < e.id ∨ (number = e.id ∧ unit < e.unit x.1)))))).map (fun x => x.1 / 128))).eraseDups

/-- A write to a UO page that no cache keeps from the agent: as many lines as the caches hold keep later ones from it (R2,
R366; log 107). -/
def Late.evicted (s : State) (r : Reader) (key : Nat) (e : Late) : Bool :=
  e.uo && decide (cacheLines ≤ (staleLines s.late r (e.reaches r key) e.id (e.unit key)).length)

/-- The agent sees the write at a key. -/
def Late.sees (s : State) (r : Reader) (key : Nat) (e : Late) : Bool :=
  e.mustSee r || e.readBy r key || e.arrived s r key || e.evicted s r key

/-- A byte as an agent sees it: that of the newest write it sees, or the initial one (R299). -/
def seenByte (sees : Late → Bool) (key : Nat) : List Late → Byte → Byte
  | [], v => v
  | e :: t, v => match e.oldAt key with
    | none => seenByte sees key t v
    | some o => if sees e then v else seenByte sees key t o

/-- A byte read by an agent. -/
def readByte (r : Reader) (s : State) (key : Nat) : Byte :=
  seenByte (fun e => e.sees s r key) key s.late (byteAt s.mem key)

/-- Bytes read by an agent. -/
def gatherBy (r : Reader) (s : State) (ks : List Nat) : List Byte := ks.map (readByte r s)

/-- n bytes read by an agent, as a number. -/
def readAs (r : Reader) (s : State) (key n : Nat) : Nat := leNat (gatherBy r s (keysFrom key n))

/-- The number of the issuing warp's core in the device. -/
def coreOf (s : State) : Nat := s.w.clus * 8 + s.w.core

/-- A lane of the issuing split, or all of its ACTIVE, as a reader. -/
def laneReaderOf (s : State) (lane : Option Nat) : Reader :=
  .lanes { who := .warp s.w.id, active := s.sp.active, lane := lane, core := coreOf s, clus := some s.w.clus, tasks := false }

/-- The lanes of the issuing split as one reader. -/
def laneReader (s : State) : Reader := laneReaderOf s none

/-- TSTAT's read of a status word, ordered after the status writes of the tasks the warp has observed (R220). -/
def statusReader (s : State) : Reader :=
  .lanes { who := .warp s.w.id, active := s.sp.active, lane := none, core := coreOf s, clus := some s.w.clus, tasks := true }

/-- A service core as a reader: no warp's, in no cluster (R295, R341). -/
def serviceReader (core : Nat) : Reader :=
  .lanes { who := .service core, active := BitVec.allOnes 32, lane := none, core := 512 + core, clus := none, tasks := false }

/-- A key's page is read and written through UO (R43). -/
def uoAt (s : State) (va : Nat) : Bool :=
  match translate s va with
  | .ok p => p.kind == .uo
  | _ => false

/-- A key's page is strongly ordered (R43, R300). -/
def soAt (s : State) (va : Nat) : Bool :=
  match translate s va with
  | .ok p => p.kind == .so
  | _ => false

/-- A write of lanes of the issuing split to a page (R43, R168, R169). -/
def laneWrite (s : State) (lanes : Mask) (va : Nat) : Late :=
  { hardwareWrite with by_ := .lane (.warp s.w.id) lanes s.sp.active (coreOf s) s.ctx.id, uo := uoAt s va, so := soAt s va }

/-- A lane alone. -/
def oneLane (n : Nat) : Mask := 1#32 <<< n

/-- A write of an engine's job to part of a ring slot, or of a tap's range. -/
def jobWrite (j : Job) (uo : Bool) (slot : Option (Nat × Nat × Nat)) (part : Nat) : Late :=
  { hardwareWrite with by_ := .job j, uo := uo, slot := slot, part := part, whole := false }

/-- A write of a service core; of another device, or of the host or the network. -/
def serviceWrite (core : Nat) : Late :=
  { hardwareWrite with by_ := .lane (.service core) (BitVec.allOnes 32) (BitVec.allOnes 32) (512 + core) 0 }
def outsideWrite (device : Option Nat) : Late := { hardwareWrite with by_ := .outside device }

/-- A release of another device of the domain, which its fence of the domain has put after its earlier writes (R303). -/
def remoteRelease (s : State) (device : Nat) : Past :=
  { who := .remote device, lanes := BitVec.allOnes 32, core := 0, time := s.writes }

/-- A run read by an agent, or the failing address and cause. -/
def readRunBy (r : Reader) (s : State) (n : Need) (va size : Nat) : Except (Byte × Nat) (List Byte) :=
  match checkRun s n va size with
  | .error e => .error e
  | .ok ks => .ok (gatherBy r s ks)

/-- Bytes of a run stored page by page, each part as a write to its own page (R302). The bound is the number of pages. -/
def storeParts (f : Nat → Late) (va : Nat) : Nat → State → List Nat → List Byte → State
  | 0, s, _, _ => s
  | n + 1, s, ks, bs =>
    let k := 0x10000 - va % 0x10000
    let t := storeKeys (f va) s (ks.take k) (bs.take k)
    if ks.length ≤ k then t else storeParts f (va + k) n t (ks.drop k) (bs.drop k)

/-- A whole run stored, its checks passed. -/
def storeRun (f : Nat → Late) (s : State) (va : Nat) (ks : List Nat) (bs : List Byte) : State :=
  storeParts f va (bs.length / 0x10000 + 2) (clearWhole s ks) ks bs

/-- A run written by an engine's job, checked as writeRun checks it (R296, R302). -/
def jobRun (s : State) (j : Job) (slot : Option (Nat × Nat × Nat)) (part : Nat) (n : Need) (va : Nat) (bs : List Byte) :
    Except (Byte × Nat) State :=
  match checkRun s n va bs.length with
  | .error e => .error e
  | .ok ks => .ok (storeRun (fun a => jobWrite j (uoAt s a) slot part) s va ks bs)

/-- A change of what is known of each write. -/
def mapLate (s : State) (f : Late → Late) : State := { s with late := s.late.map f }

/-- A write known to happen before something from a time on, unless a chain no weaker says so already. -/
def Late.learn (time : Nat) (r : Reach) (e : Late) (c : Chain) : Late :=
  if e.marks.any (fun m => m.reach == r && m.chain.scopes.all (fun x => c.scopes.contains x) && decide (c.level ≤ m.chain.level))
  then e else { e with marks := ⟨r, time, c⟩ :: e.marks }

/-- A change of what is known of the bytes of each write at some keys; what is single-copy atomic is not divided (R168). -/
def Late.at (e : Late) (keys : Nat → Bool) (f : Late → Late) : List Late :=
  if !e.bytes.any (fun x => keys x.1) then [e]
  else if e.whole || e.bytes.all (fun x => keys x.1) then [f e]
  else [f { e with bytes := e.bytes.filter (fun x => keys x.1) }, { e with bytes := e.bytes.filter (fun x => !keys x.1) }]

def mapBytes (s : State) (keys : Late → Nat → Bool) (f : Late → Late) : State :=
  { s with late := s.late.flatMap (fun e => e.at (keys e) f) }

/-- Each write learns, by each of some chains of its own, that it happens before some things. -/
def spread (s : State) (rs : List Reach) (f : Late → List Chain) : State :=
  mapLate s (fun e => rs.foldl (fun g r => (f e).foldl (Late.learn s.writes r) g) e)

/-- A number of its own for work handed to an engine, and the machine in which later ones are later. -/
def stamp (s : State) : Nat × State := (s.writes, { s with writes := s.writes + 1 })

/-- The lanes of the issuing split's ACTIVE. -/
def myLanes (s : State) : Reach := .lanes (.warp s.w.id) s.sp.active
def myStores (s : State) : Reach := .stores (.warp s.w.id) s.sp.active
def myAfar (s : State) : Reach := .afar (.warp s.w.id) s.sp.active

/-- What the lanes of the issuing split's ACTIVE have done so far. -/
def pastNow (s : State) : Past :=
  { who := .warp s.w.id, lanes := s.sp.active, core := coreOf s, time := s.writes }

/-- An event of the issuing split that orders what precedes it: its past, and the machine in which later marks are later. -/
def takePast (s : State) : Past × State := (pastNow s, { s with writes := s.writes + 1 })

/-- A write is an earlier one of some lanes, or of another device (R181, R182, R296, R303). -/
def Late.ownBy (e : Late) (p : Past) : Bool :=
  match e.by_ with
  | .lane who lanes _ _ _ => who == p.who && p.lanes &&& lanes != 0 && decide (e.id < p.time)
  | .outside (some d) => p.who == .remote d && decide (e.id < p.time)
  | _ => false

/-- The chain of a write with no fence in it yet; another device's starts with its fence of the domain (R303). -/
def Late.start (e : Late) (time : Nat) : Chain :=
  ⟨(match e.by_ with
    | .outside (some _) => [.domain]
    | _ => []), e.levelAt time⟩

/-- A mark on later accesses of some lanes: all of them, or those of class W alone. -/
def Reach.onLanes (p : Past) (stores : Bool) : Reach → Bool
  | .lanes who mask => who == p.who && mask &&& p.lanes != 0
  | .stores who mask => stores && who == p.who && mask &&& p.lanes != 0
  | _ => false

/-- The chains by which a write happens before later accesses of some lanes, those of class W among them or not: what they
have received (R298). A CINV by the writer's core counts for every warp of it. What a plain load has read is not
received: the table of outcomes allows what the third condition of R299 would forbid (log 103). -/
def Late.received (e : Late) (p : Past) (stores : Bool) : List Chain :=
  (e.marks.filter (fun m => m.reach.onLanes p stores && decide (m.time ≤ p.time))).map (fun m =>
    { m.chain with level := max m.chain.level (if e.core == some p.core then e.levelAt p.time else 0) })

/-- The chains by which a write precedes a release, an arrival or another access of class W of some lanes (R298). -/
def Late.before (e : Late) (p : Past) : List Chain := (if e.ownBy p then [e.start p.time] else []) ++ e.received p true

/-- What precedes some events happens before some things: the later side of a synchronisation (R297, R298). -/
def receive (s : State) (ps : List Past) (rs : List Reach) : State := spread s rs (fun e => ps.flatMap e.before)

/-- A release of the issuing split: its past, which has then been performed at device scope (R170, R205, R296). -/
def releaseNow (s : State) : Past × State :=
  let (p, t) := takePast s
  (p, spread t [.released] (fun e => e.before p))

/-- The releases that a write to a key stands for: its own, and those it follows through read-modify-writes (R297). -/
def releasesOf (key : Nat) : List Late → List Past
  | [] => []
  | e :: t => match e.oldAt key with
    | none => releasesOf key t
    | some _ => e.rel.toList ++ (if e.rmw then releasesOf key t else [])

/-- The releases that a read of a key has read (R297). -/
def releasesRead (sees : Late → Bool) (key : Nat) : List Late → List Past
  | [] => []
  | e :: t => if (e.oldAt key).isSome && sees e then releasesOf key (e :: t) else releasesRead sees key t

/-- A release of another device: a synchronisation reaches it only through fences of the domain (R297, R298, R303). -/
def Past.afar (p : Past) : Bool :=
  match p.who with
  | .remote _ => true
  | _ => false

/-- An acquire of the issuing split that has read some releases (R170, R296, R297). -/
def acquire (s : State) (ps : List Past) : State :=
  receive (receive s (ps.filter (fun p => !p.afar)) [myLanes s]) (ps.filter Past.afar) [myAfar s]

/-- The write that an agent's read of a byte returns, if one stands there (R299). -/
def newestSeen (sees : Late → Bool) (key : Nat) : List Late → Option Nat
  | [] => none
  | e :: t => if (e.oldAt key).isSome && sees e then some e.id else newestSeen sees key t

/-- The writes that a read of some bytes by a lane, or by the lanes together, returns: by number and key. -/
def readWrites (s : State) (lane : Option Nat) (keys : List Nat) : List (Nat × Nat) :=
  keys.filterMap (fun k => (newestSeen (fun e => e.sees s (laneReaderOf s lane) k) k s.late).map (fun n => (n, k)))

/-- Reads of the split, which it does not go back behind (R296, R299). -/
def rememberReads (s : State) (reads : List (Nat × Nat)) : State :=
  mapLate s (fun e => if e.by_ == .hardware then e else
    (reads.filter (fun x => x.1 == e.id)).foldl
      (fun g x => g.learn s.writes (.seen (.warp s.w.id) s.sp.active (g.unit x.2)) ⟨[], 0⟩) e)

/-- The chain by which what an acquire has read happens before what follows: on a UO page, for one core's lanes alone
(R299, R301). -/
def Late.readChain (s : State) (e : Late) : List Chain :=
  if !e.uo then [⟨[], 0⟩] else if e.core == some (coreOf s) then [⟨[.core (coreOf s)], 0⟩] else []

/-- An acquire's reads: no read that it happens before returns anything older (R296, R299). -/
def acquireReads (s : State) (reads : List (Nat × Nat)) : State :=
  mapBytes s (fun e k => e.by_ != .hardware && reads.contains (e.id, k))
    (fun e => (e.readChain s).foldl (Late.learn s.writes (myLanes s)) e)

/-- Some pasts with a later one added, which stands for the earlier ones of the same lanes. -/
def addPast (p : Past) (ps : List Past) : List Past := p :: ps.filter (fun q => !(q.who == p.who && q.lanes == p.lanes))

/-- An acquire from a majority cell, and what its value stands for once a store has replaced it, or a read-modify-write has
followed it (R179, R297). -/
def acquireCell (s : State) (cell : Nat) : State := acquire s (sget [] s.cellPasts cell)
def releaseCell (s : State) (cell : Nat) (rmw : Bool) (p : Past) : State :=
  { s with cellPasts := sset [] s.cellPasts cell (addPast p (if rmw then sget [] s.cellPasts cell else [])) }

/-- Some byte of a write is at some keys. -/
def Late.touches (e : Late) (ks : List Nat) : Bool := ks.any (fun k => (e.oldAt k).isSome)

/-- A reduction of a lane may take its place before a write of its whole location: the lane's split has not seen the write,
which does not happen before it, and no atomic step made it (R299, R322). -/
def Late.overtaken (s : State) (lane : Nat) (ks : List Nat) (number : Nat) (e : Late) : Bool :=
  ks.all (fun k => (e.oldAt k).isSome && !e.sees s (laneReaderOf s (some lane)) k) && !e.rmw && !e.so &&
    (e.received (pastNow s) true).isEmpty && Config.overtakes number e.id

/-- The newest writes, as far as each leaves some keys alone or is passed over, and the rest. -/
def passOver (ks : List Nat) (pass : Late → Bool) : List Late → List Late × List Late
  | [] => ([], [])
  | e :: t => if !e.touches ks || pass e then (e :: (passOver ks pass t).1, (passOver ks pass t).2) else ([], e :: t)

/-- A write whose old bytes at some keys from one on have changed beneath it. -/
def Late.rebase (e : Late) (key : Nat) (bs : List Byte) : Late :=
  { e with bytes := e.bytes.map (fun x => if key ≤ x.1 && x.1 - key < bs.length then (x.1, bs.getD (x.1 - key) 0) else x) }

/-- A write put just before another in coherence order: memory keeps what the later one stored (R299). -/
def storeBefore (w e : Late) (newer older : List Late) (s : State) (key : Nat) (bs : List Byte) : State :=
  { s with
    writes := s.writes + 1
    late := newer.map (fun f => if f.id = e.id then f.rebase key bs else f) ++
      { w with id := s.writes, bytes := (keysFrom key bs.length).map (fun k => (k, (e.oldAt k).getD 0)) } :: older }

/-- Bytes an atomic has read at their home, newest value and all: the core's lanes never read older ones again (R168,
R299). -/
def readHome (s : State) (keys : List Nat) : State :=
  spread s [.core (coreOf s)] (fun e => if keys.any (fun k => (e.oldAt k).isSome) then [⟨[], 0⟩] else [])

/-- The classes of a fence's mask (R180). -/
def fenceR (m : Nat) : Bool := bitsOf m 0 1 == 1
def fenceW (m : Nat) : Bool := bitsOf m 1 1 == 1
def fenceClasses (m : Nat) : List AccessClass :=
  (if bitsOf m 2 1 = 1 then [.cr] else []) ++ (if bitsOf m 3 1 = 1 then [.cw] else []) ++
    (if bitsOf m 4 1 = 1 then [.mr] else []) ++ (if bitsOf m 5 1 = 1 then [.mw] else [])

/-- A write of an engine's class that R181 attributes to a warp: of a collective it joined, an operation it issued, a task
or tap it posted, or one whose completion it has observed (R181, R231, R350). -/
def Late.attributed (e : Late) (w : Nat) (c : AccessClass) : Bool :=
  match e.by_ with
  | .job j => j.path.writes == c && (j.posters.any (fun p => p.1 == w) || e.marks.any (fun m => m.reach == .observed w c))
  | _ => false

/-- The chains by which a write precedes accesses of a class that R181 attributes to a warp. -/
def Late.classChains (e : Late) (w : Nat) (c : AccessClass) (time : Nat) : List Chain :=
  (if e.attributed w c then [e.start time] else []) ++
    (e.marks.filter (fun m => m.reach == .later w c || m.reach == .observed w c)).map (fun m => m.chain)

/-- The chains by which a write of another device precedes a fence of the domain: the lanes have acquired it (R303). -/
def Late.afarChains (e : Late) (p : Past) : List Chain :=
  (e.marks.filter (fun m => match m.reach with
    | .afar who mask => who == p.who && mask &&& p.lanes != 0 && decide (m.time ≤ p.time)
    | _ => false)).map (fun m => m.chain)

/-- The chains by which a write precedes a fence of a scope: those of the accesses its predecessor mask names (R180, R181,
R296). -/
def Late.fenced (e : Late) (p : Past) (w pred scope : Nat) : List Chain :=
  (if fenceW pred && e.ownBy p then [e.start p.time] else []) ++
    (if fenceR pred || fenceW pred then e.received p (fenceW pred) else []) ++
    (if fenceR pred && decide (4 ≤ scope) then e.afarChains p else []) ++
    (fenceClasses pred).flatMap (fun c => e.classChains w c p.time)

/-- A fence waits for a write itself: an access of its predecessor mask (R180, R181). -/
def Late.awaited (e : Late) (p : Past) (w pred : Nat) : Bool :=
  (fenceW pred && e.ownBy p) || (fenceClasses pred).any (e.attributed w)

/-- A fence's scope (R180, R295). -/
def fenceScope (s : State) (c : Nat) : List Scope :=
  match c with
  | 0 => [.warps [s.w.id]]
  | 1 => [.warps ((s.warpsOf s.crew.id).map (fun w => w.id))]
  | 2 => [.cluster s.w.clus]
  | 3 => [.device]
  | 4 => [.domain]
  | _ => []

/-- What a fence's successor mask names (R180, R181). -/
def fenceReach (s : State) (succ : Nat) : List Reach :=
  (if fenceR succ then [myLanes s] else []) ++ (if fenceW succ then [myStores s] else []) ++ (fenceClasses succ).map (fun c => .later s.w.id c)

/-- A fence: what precedes it happens before what follows it, for the agents of its scope, and the writes it waits for have
been performed for every one of them; UO lines still wait for CINV (R180, R295, R298, R301). An empty mask orders
nothing. -/
def fenceMem (s : State) (pred succ scope : Nat) : State :=
  if pred = 0 || succ = 0 then s
  else
    let (p, t) := takePast s
    let sc := fenceScope s scope
    let within : Chain → Chain := fun c => { c with scopes := sc ++ c.scopes }
    spread (spread t (fenceReach s succ) (fun e => (e.fenced p s.w.id pred scope).map within)) [.everyone]
      (fun e => if e.awaited p s.w.id pred then [within (e.start p.time)] else [])

/-- The chains by which a write precedes accesses of a class of what some warps had posted by then (R181). -/
def Late.laterChains (e : Late) (posters : List (Nat × Nat)) (c : AccessClass) : List Chain :=
  (e.marks.filter (fun m => match m.reach with
    | .later w d => d == c && posters.any (fun p => p.1 == w && decide (m.time ≤ p.2))
    | _ => false)).map (fun m => m.chain)

/-- A write fills a slot of a ring, or a chunk of one. -/
def Late.fills (e : Late) (crew ring slot : Nat) (chunk : Option Nat) : Bool :=
  e.slot == some (crew, ring, slot) && (match chunk with
    | some j => e.part == j
    | none => true)

/-- AWAITF's return: the writes of the slot or chunk, what was ordered before them, and what was released with the slot
before, happen before what the lanes read next; the warp has observed those writes, and what those come after (R181, R197,
R297, R298). -/
def awaitMem (s : State) (ring slot : Nat) (chunk : Option Nat) (rels : List Past) : State :=
  let hit : Late → Bool := fun e => e.fills s.crew.id ring slot chunk
  let posters := (s.late.filter hit).flatMap Late.posters
  let t := spread s [myLanes s, .observed s.w.id .cw] (fun e =>
    (if hit e then [e.start s.writes] else []) ++ e.laterChains posters .cw)
  receive t rels [myLanes t, .observed s.w.id .cw]

/-- The ring's binding is over: no slot of it is filled by what has been written (R187). -/
def forgetSlots (s : State) (crew ring : Nat) : State :=
  mapLate s (fun e => match e.slot with
    | some (c, r, _) => if c = crew && r = ring then { e with slot := none } else e
    | none => e)

/-- The chains by which a write precedes every access of a job (R221). -/
def Late.jobChains (e : Late) (id : Nat) : List Chain := (e.marks.filter (fun m => m.reach == .job id)).map (fun m => m.chain)

/-- A task's completion counted: its writes and what preceded its accesses precede the count (R218, R221, R297). -/
def countMem (s : State) (j : Job) (key : Nat) : State :=
  let t := spread s [.counted j.ctx key .mw] (fun e =>
    (if e.job == some j.id then [e.start s.writes] else []) ++ e.laterChains j.posters .mw ++ e.jobChains j.id)
  spread t [.counted j.ctx key .mr] (fun e => e.laterChains j.posters .mr ++ e.jobChains j.id)

/-- The chains by which a write precedes accesses of a class whose completion a count stands for. -/
def Late.countChains (e : Late) (ctx key : Nat) (c : AccessClass) : List Chain :=
  (e.marks.filter (fun m => m.reach == .counted ctx key c)).map (fun m => m.chain)

/-- TWAIT or TPOLL has observed the completions a count stands for (R181, R219, R297). -/
def observeMem (s : State) (ctx key : Nat) : State :=
  let t := spread s [.observed s.w.id .mw] (fun e => e.countChains ctx key .mw)
  spread t [.observed s.w.id .mr] (fun e => e.countChains ctx key .mr)

/-- A task starts after the completions that the counts it waits for stand for (R221, R297). -/
def startMem (s : State) (ctx id : Nat) (keys : List Nat) : State :=
  spread s [.job id] (fun e => keys.flatMap (fun k => e.countChains ctx k .mw ++ e.countChains ctx k .mr))

/-- The warp has observed the writes of a job (R231). -/
def observeJob (s : State) (id : Nat) (c : AccessClass) : State :=
  spread s [.observed s.w.id c] (fun e => if e.job == some id then [e.start s.writes] else [])

/-- Rows of a tap are released, what has been written of them so far before that (R236, R297). -/
def freeRows (s : State) (j : Job) (rows : List Nat) : State :=
  spread s [.freed] (fun e => if e.job == some j.id && rows.contains e.part then [e.start s.writes] else [])

/-- What a job has written of a part so far has been performed for its cluster (R218, R354). -/
def performPart (s : State) (j : Job) (part : Nat) : State :=
  match j.clus with
  | some c => spread s [.everyone] (fun e =>
      if e.job == some j.id && e.part == part then [⟨[.cluster c], e.levelAt s.writes⟩] else [])
  | none => s

/-- TAPW's return: what was written of the block's rows before their release happens before what the lanes read next and
before the reads of the tasks the warp posts next (R236, R297). -/
def tapwMem (s : State) (id : Nat) (posters : List (Nat × Nat)) (rows : List Nat) : State :=
  let hit : Late → Bool := fun e => e.job == some id && rows.contains e.part && e.marks.any (fun m => m.reach == .freed)
  let any := s.late.any hit
  spread s [myLanes s, .later s.w.id .mr, .observed s.w.id .mw] (fun e =>
    (if hit e then [e.start s.writes] else []) ++ (if any then e.laterChains posters .mw else []))

/-- FINV: what has been performed at device scope and precedes it is read by what the cluster's fetch unit brings in next
(R205). -/
def finvMem (s : State) : State :=
  spread s [.fetch s.w.clus] (fun e =>
    if e.marks.any (fun m => m.reach == .released) then e.before (pastNow s) else [])

/-- The chains by which a write precedes a CINV of the issuing split's lanes. -/
def Late.hereChains (e : Late) (s : State) : List Chain :=
  e.before (pastNow s) ++ (e.marks.filter (fun m => m.reach == .everyone &&
    m.chain.scopes.all (fun x => x.holds (laneReader s)))).map (fun m => m.chain)

/-- A write of an agent outside the device (R183, R295). -/
def Late.outsider (e : Late) : Bool :=
  match e.by_ with
  | .outside _ => true
  | _ => false

/-- A write's line written back and dropped by a CINV of the issuing core: its own writes are flushed as far as the level
says, and what others have flushed far enough, or agents outside the device have written, is read anew (R183, R301,
R366). -/
def Late.cinv (s : State) (level : Nat) (e : Late) : Late :=
  let core := coreOf s
  let die := dieOf s.w.clus
  let f1 := if e.core == some core then some (e.f1.getD s.writes) else e.f1
  let f2 := if level = 2 && e.die == die && (f1.isSome || e.job.isSome) then some (e.f2.getD s.writes) else e.f2
  let need := if e.core == some core then 0 else if e.die == die then 1 else 2
  let fresh := e.outsider ||
    (e.uo && (e.hereChains s).any (fun c => decide (need ≤ c.level)) && (e.die == die || level == 2))
  let g := if e.uo then { e with f1 := f1, f2 := f2 } else e
  let h := if fresh then g.learn s.writes (.core core) ⟨[], 0⟩ else g
  if fresh && level == 2 then h.learn s.writes (.die die) ⟨[], 0⟩ else h

/-- CINV of the lines of some keys by the issuing core (R183). -/
def invalidateLines (s : State) (level : Nat) (keys : Nat → Bool) : State := mapBytes s (fun _ => keys) (Late.cinv s level)

/-- Every write of a context performed for every agent: its translations are gone, or it leaves its partition (R266,
R372). -/
def settleMem (s : State) (ctx : Nat) : State :=
  mapLate s (fun e => if e.ctx == some ctx then { (e.learn s.writes .everyone ⟨[], 2⟩) with uo := false } else e)

/-- Memory of some keys that no earlier write belongs to any more (R199, R266). -/
def forgetKeys (s : State) (p : Nat → Bool) : State :=
  mapLate s (fun e => { e with bytes := e.bytes.filter (fun x => !p x.1) })

end Sys2Proof.Machine
end

