-- ==== Sys2Proof/Machine/Operands.lean ====
section
/-! DEFINITION. Operands: participating lanes, lane registers through the window, uniform registers, predicates, the
uniform operand, sub-elements and addresses (R17, R22 to R24, R29, R45, R75, R92). -/

namespace Sys2Proof.Machine

/-- The lanes of a warp. -/
def lanes : List Nat := List.range 32

/-- The mask of one lane. -/
def laneBit (l : Nat) : Mask := BitVec.ofNat 32 (2 ^ l)

/-- Lanes of a mask, ascending. -/
def lanesOf (m : Mask) : List Nat := lanes.filter (fun l => m.getLsbD l)

/-- The mask of the lanes that satisfy a test. -/
def maskOf (f : Nat → Bool) : Mask :=
  BitVec.ofNat 32 (lanes.foldl (fun acc l => if f l then acc + 2 ^ l else acc) 0)

/-- The lowest lane of a mask. -/
def lowestLane (m : Mask) : Nat := (lanesOf m).headD 0

/-- Number of lanes of a mask. -/
def laneCount (m : Mask) : Nat := (lanesOf m).length

/-- A predicate in all lanes; p0 is true everywhere (R23). -/
def predMask (w : Warp) (n : Nat) : Mask := if n = 0 then 0xFFFFFFFF else sget 0 w.preds n

/-- A predicate's bits in the lanes of a mask; a write to p0 is discarded (R23). -/
def setPred (w : Warp) (n : Nat) (lanes v : Mask) : Warp :=
  if n = 0 then w else { w with preds := sset 0 w.preds n ((sget 0 w.preds n &&& ~~~lanes) ||| (v &&& lanes)) }

/-- MODE's fields (R26). -/
def modeGuard (m : BitVec 18) : Nat := bitsOf m.toNat 0 3
def modeSense (m : BitVec 18) : Bool := m.getLsbD 3
def modeType (m : BitVec 18) : Nat := bitsOf m.toNat 4 4
def modeRnd (m : BitVec 18) : Nat := bitsOf m.toNat 8 3
def modeSat (m : BitVec 18) : Bool := m.getLsbD 11
def modeFlush (m : BitVec 18) : Bool := m.getLsbD 12

/-- The lanes in which the guard holds (R29). -/
def guardMask (w : Warp) : Mask :=
  let p := predMask w (modeGuard w.mode)
  if modeSense w.mode then p else ~~~p

/-- The participating lanes: in ACTIVE and passing the guard (R29, R135). -/
def partMask (s : State) : Mask := s.sp.active &&& guardMask s.w

/-- Some lane of ACTIVE passes the guard, so an instruction that acts once executes (R29). -/
def anyLane (s : State) : Bool := partMask s != 0

/-- Physical registers of each lane: the allotment, which R17 keeps from 64 to 256. -/
def Warp.regs (w : Warp) : Nat := max 64 (min w.allot 256)

/-- The key of physical register position q of lane l (R17). -/
def physKey (w : Warp) (l q : Nat) : Nat := l * 256 + q % w.regs

/-- What a physical register holds; unpredictable contents are 0 or what the register held before (R21, log 6). -/
def physGet (w : Warp) (key : Nat) : Word :=
  let n := sget 0 w.wild key
  if n = 0 then sget 0 w.phys key
  else if Config.freeBool (n * 8192 + key) then 0 else sget 0 w.phys key

/-- A physical register written: its poison mark and its unpredictability end (R262). -/
def physSet (w : Warp) (key : Nat) (v : Word) : Warp :=
  { w with phys := sset 0 w.phys key v, marks := serase w.marks key, wild := serase w.wild key }

/-- x[i][l] (R17). -/
def xget (s : State) (l i : Nat) : Word := physGet s.w (physKey s.w l (s.sp.wbase + i))

/-- x[i][l] written (R17). -/
def xset (s : State) (l i : Nat) (v : Word) : State :=
  { s with w := physSet s.w (physKey s.w l (s.sp.wbase + i)) v }

/-- A register pair: x[i] low, x[i + 1] high (R24). -/
def xget64 (s : State) (l i : Nat) : DWord := xget s l (i + 1) ++ xget s l i

/-- A register pair written (R24). -/
def xset64 (s : State) (l i : Nat) (v : DWord) : State :=
  xset (xset s l i (v.extractLsb' 0 32)) l (i + 1) (v.extractLsb' 32 32)

/-- A uniform register; k0 reads zero (R22). -/
def kget (s : State) (n : Nat) : DWord := if n = 0 then 0 else sget 0 s.w.k n

/-- A uniform register written; a write to k0 is discarded (R22). -/
def kset (s : State) (n : Nat) (v : DWord) : State :=
  if n = 0 then s else { s with w := { s.w with k := sset 0 s.w.k n v } }

/-- A predicate written in the participating lanes. -/
def pset (s : State) (n : Nat) (v : Mask) : State := { s with w := setPred s.w n (partMask s) v }

/-- One lane's bit of a predicate written. -/
def psetLane (s : State) (n l : Nat) (v : Bool) : State :=
  { s with w := setPred s.w n (laneBit l) (if v then laneBit l else 0) }

/-- Element types by code (R27): sub-element width. -/
def typeWidth (t : Nat) : Nat :=
  match t with
  | 0x0 | 0x1 | 0x6 => 32
  | 0x2 | 0x3 | 0x7 | 0x8 => 16
  | 0x4 | 0x5 | 0x9 | 0xA | 0xB => 8
  | 0xC | 0xD => 64
  | 0xE => 6
  | _ => 4

/-- Values per register or pair (R116). -/
def typeCount (t : Nat) : Nat :=
  match t with
  | 0x2 | 0x3 | 0x7 | 0x8 => 2
  | 0x4 | 0x5 | 0x9 | 0xA | 0xB => 4
  | 0xE => 5
  | 0xF => 8
  | _ => 1

/-- The 64-bit types (R24). -/
def type64 (t : Nat) : Bool := t == 0xC || t == 0xD

/-- Signed integer types (R27, R45). -/
def typeSigned (t : Nat) : Bool := t == 0x0 || t == 0x2 || t == 0x4 || t == 0xC || t == 0xF

/-- Floating-point types (R27). -/
def typeFloat (t : Nat) : Bool := (decide (6 ≤ t) && decide (t ≤ 0xB)) || t == 0xE

/-- The number a width-w bit pattern stands for under a signedness (R45). -/
def signedOf (signed : Bool) (w : Nat) (v : Nat) : Int :=
  if signed && decide (2 ^ (w - 1) ≤ v) then (v : Int) - 2 ^ w else v

/-- Sub-element i of width w of a value, as bits (R45). -/
def subElem (v w i : Nat) : Nat := bitsOf v (w * i) w

/-- A register or pair under a type, as bits (R24, R92). -/
def xread (s : State) (t l i : Nat) : Nat := if type64 t then (xget64 s l i).toNat else (xget s l i).toNat

/-- A register or pair written under a type. -/
def xwrite (s : State) (t l i : Nat) (v : Nat) : State :=
  if type64 t then xset64 s l i (BitVec.ofNat 64 v) else xset s l i (BitVec.ofNat 32 v)

/-- The b operand: an x register or pair, or bits [31:0] of a k register, extended by type (R92). -/
def bread (s : State) (t : Nat) (u : BitVec 1) (l b : Nat) : Nat :=
  if u = 0 then xread s t l b
  else
    let v := bitsOf (kget s b).toNat 0 32
    if t == 0xC && decide (2 ^ 31 ≤ v) then v + (2 ^ 64 - 2 ^ 32) else v

/-- The 32-bit b operand (R92, R104). -/
def bread32 (s : State) (u : BitVec 1) (l b : Nat) : Word :=
  if u = 0 then xget s l b else (kget s b).extractLsb' 0 32

/-- The address of a lane of an M-format instruction (R75). -/
def laneAddr (s : State) (xi kb shift : Nat) (sx : BitVec 1) (l : Nat) : Nat :=
  let index : Int :=
    if xi = 63 then 0 else if sx = 1 then (xget s l xi).toInt else ((xget s l xi).toNat : Int)
  (((kget s kb).toNat : Int) + index * 2 ^ shift).emod (2 ^ 64) |>.toNat

/-- A displacement's target: words from the instruction's own address (R74). -/
def target (pc : DWord) (disp : Int) : DWord := BitVec.ofInt 64 (((pc.toNat : Int) + 4 * disp).emod (2 ^ 56))

/-- The four uniform registers of a majority operand as 32 bytes (R176). -/
def kquad (s : State) (d : Nat) : Payload := kget s (d + 3) ++ kget s (d + 2) ++ kget s (d + 1) ++ kget s d

/-- A payload written to four uniform registers. -/
def ksetQuad (s : State) (d : Nat) (v : Payload) : State :=
  kset (kset (kset (kset s d (v.extractLsb' 0 64)) (d + 1) (v.extractLsb' 64 64)) (d + 2) (v.extractLsb' 128 64))
    (d + 3) (v.extractLsb' 192 64)

end Sys2Proof.Machine
end

