-- ==== Sys2Proof/Machine/Flags.lean ====
section
/-! DEFINITION. Flag and range computations: FFLAGS (R32, R94), the fitting of exact integers (R45, R46, R93), and the
integer conditions (R85, R102). -/

namespace Sys2Proof.Machine

/-- Flags of R32. -/
def flNV : BitVec 5 := 16
def flDZ : BitVec 5 := 8
def flOF : BitVec 5 := 4
def flUF : BitVec 5 := 2
def flNX : BitVec 5 := 1

/-- Flags ORed into FFLAGS, which never loses a bit (R32, R94). -/
def orFlags (s : State) (f : BitVec 5) : State := { s with w := { s.w with fflags := s.w.fflags ||| f } }

/-- The least value of a width-w type (R45). -/
def intMin (signed : Bool) (w : Nat) : Int := if signed then -(2 ^ (w - 1)) else 0

/-- The greatest value of a width-w type (R45). -/
def intMax (signed : Bool) (w : Nat) : Int := if signed then 2 ^ (w - 1) - 1 else 2 ^ w - 1

/-- The nearest value of a range. -/
def clampInt (lo hi v : Int) : Int := if v < lo then lo else if hi < v then hi else v

/-- An exact integer as a width-w pattern, modulo 2^w. -/
def wrapInt (w : Nat) (v : Int) : Nat := (v.emod (2 ^ w)).toNat

/-- Fit of R93: wrapped, or clamped under MODE.SAT. -/
def fit (sat signed : Bool) (w : Nat) (v : Int) : Nat :=
  if sat then wrapInt w (clampInt (intMin signed w) (intMax signed w) v) else wrapInt w v

/-- The integer conditions 0 to 7 of R85 on two patterns and their values. -/
def intCond (c : Nat) (ua ub : Nat) (a b : Int) : Bool :=
  match c with
  | 0 => a == b
  | 1 => a != b
  | 2 => decide (a < b)
  | 3 => decide (a ≤ b)
  | 4 => decide (b < a)
  | 5 => decide (b ≤ a)
  | 6 => ua &&& ub != 0
  | _ => ua &&& ub == 0

/-- The conditions of KCMP: 0 to 7 signed, 10 to 13 unsigned (R85). -/
def kCond (c : Nat) (a b : DWord) : Bool :=
  match c with
  | 10 => decide (a.toNat < b.toNat)
  | 11 => decide (a.toNat ≤ b.toNat)
  | 12 => decide (b.toNat < a.toNat)
  | 13 => decide (b.toNat ≤ a.toNat)
  | _ => intCond c a.toNat b.toNat a.toInt b.toInt

end Sys2Proof.Machine
end

