-- ==== Sys2Proof/Machine/CopyQueue.lean ====
section
/-! DEFINITION. The cluster's copy queue: complete collectives take its entries, oldest first (06 R189, 18 R377). -/

namespace Sys2Proof.Machine

/-- A ring of a crew changed. -/
def Crew.withRing (c : Crew) (r : Nat) (f : Ring → Ring) : Crew :=
  { c with rings := c.rings.mapIdx (fun i x => if i = r then f x else x) }

/-- A crew of any place changed, by id. -/
def onCrew (s : State) (id : Nat) (f : Crew → Crew) : State :=
  if s.crew.live && s.crew.id == id then { s with crew := f s.crew }
  else { s with crews := s.crews.map (fun c => if c.id = id then f c else c) }

/-- A complete collective without a queue entry: crew, ring, slot and the clock it opened. -/
def unqueued (s : State) : List (Nat × Nat × Collective) :=
  (s.allCrews.filter (fun c => c.clus == s.clus.id)).flatMap (fun c =>
    (c.rings.zipIdx).flatMap (fun x => (x.1.collectives.filter (fun g => g.complete && !g.queued)).map
      (fun g => (c.id, x.2, g))))

/-- The one that opened first. -/
def oldestOpened : List (Nat × Nat × Collective) → Option (Nat × Nat × Collective)
  | [] => none
  | x :: t => match oldestOpened t with
    | none => some x
    | some y => if x.2.2.opened ≤ y.2.2.opened then some x else some y

/-- Complete collectives take entries of the cluster's copy queue, oldest first (R189, R377). The bound is the number of
entries. -/
def enqueueCopies (s : State) : Nat → State
  | 0 => s
  | n + 1 =>
    if 64 ≤ s.clus.copies.length then s
    else match oldestOpened (unqueued s) with
      | none => s
      | some (c, r, g) =>
        let t := onCrew s c (fun x => x.withRing r (fun y => { y with
          collectives := y.collectives.map (fun h => if h.slot = g.slot then { h with queued := true } else h) }))
        enqueueCopies { t with clus := { t.clus with copies := t.clus.copies ++
          [{ crew := c, ring := r, slot := g.slot, running := false, chunk := none, pos := 0, stalled := false }] } } n

/-- Queued commands dropped; the entries they leave are taken by the collectives that wait for one (R189). -/
def dropCommands (s : State) (p : Command → Bool) : State :=
  enqueueCopies { s with clus := { s.clus with copies := s.clus.copies.filter (fun c => !p c) } } 64

end Sys2Proof.Machine
end

