-- ==== Sys2Proof/Machine/Majority.lean ====
section
/-! DEFINITION. Majority cells: their copies, and the read, store and compare phases (R176 to R179, R373 to R376). The
order in which copies reply is the model's input `env.replies` (log 10). -/

namespace Sys2Proof.Machine

/-- Number of sets (R373). -/
def setCount (shape : Nat) : Nat := if shape = 5 then 2 else 4

/-- Copies that make a majority (R373). -/
def quorum (shape : Nat) : Nat := if shape = 5 then 3 else 2

/-- The cell of a physical address of the majority region (R373). -/
def cellOf (pa : Nat) : Nat := (pa - majBase) / 32

/-- The stack that stands in a stack's place: a spare may itself be retired and replaced (R374). The bound is the number
of stacks. -/
def standInFrom (s : State) : Nat → Nat → Nat
  | 0, stack => stack
  | n + 1, stack => match s.spares.find? (fun p => p.1 == stack) with
    | some p => standInFrom s n p.2
    | none => stack

def standIn (s : State) (stack : Nat) : Nat := standInFrom s 12 stack

/-- The stacks of a cell's set (R373, R374). -/
def setStacks (s : State) (cell : Nat) : List Nat :=
  let set := cell % setCount s.shape
  let base := if s.shape = 5 then [set, set + 2, set + 4, set + 6, set + 8] else [set, set + 4, set + 8]
  base.map (standIn s)

/-- A stack answers copy accesses (R374). -/
def stackServes (s : State) (stack : Nat) : Bool :=
  match s.hbm[stack]? with
  | some .inService | some .rebuilding => true
  | _ => false

/-- The stacks of a cell's set that are in service. -/
def serving (s : State) (cell : Nat) : List Nat := (setStacks s cell).filter (stackServes s)

/-- The key of a cell's copy line on a stack (R373). -/
def lineKey (s : State) (stack cell : Nat) : Nat := stack * 2 ^ 22 + cell / setCount s.shape

/-- What an unlisted copy line of a stack reads as: the reset value, or VALID = 0 once the stack has been returned
(R177, R374). -/
def blankLine (s : State) (stack : Nat) : CopyLine :=
  if s.cleared.contains stack then { tag := 0, payload := 0 } else CopyLine.blank

/-- A copy line. -/
def lineAt (s : State) (stack cell : Nat) : CopyLine := sget (blankLine s stack) s.majority (lineKey s stack cell)

/-- A line holds a cell value: VALID and not POISON (R177). -/
def CopyLine.holds (c : CopyLine) : Bool := c.tag.getLsbD 0 && !c.tag.getLsbD 1

/-- A tag's rank: bits [3:0] masked off (R177). -/
def tagRank (t : BitVec 64) : Nat := t.toNat / 16

/-- A tag's TIDE (R177). -/
def tagTide (t : BitVec 64) : Nat := t.toNat / 65536

/-- A valid tag of a tide and a writer (R177). -/
def mkTag (tide wid : Nat) : BitVec 64 := BitVec.ofNat 64 (tide * 65536 + wid * 16 + 1)

/-- A copy accepts a line (R177, R178). -/
def accepts (old : CopyLine) (tag : BitVec 64) : Bool := !old.holds || decide (tagRank old.tag < tagRank tag)

/-- A repaired line counted for a cell's set (R388). -/
def noteRepair (s : State) (cell : Nat) : State :=
  let set := cell % setCount s.shape
  { s with dev := { s.dev with linesRepaired := sset 0 s.dev.linesRepaired set (sget 0 s.dev.linesRepaired set + 1) } }

/-- A line sent to one stack, under the accept rule; a poisoned copy that it replaces is repaired, whatever sends it (R176,
R178, R388; log 99). -/
def sendLine (s : State) (cell : Nat) (line : CopyLine) (stack : Nat) : State :=
  if accepts (lineAt s stack cell) line.tag then
    let t := { s with majority := sset (blankLine s stack) s.majority (lineKey s stack cell) line }
    if (lineAt s stack cell).tag.getLsbD 1 then noteRepair t cell else t
  else s

/-- A line that reaches one stack, if it still answers copy accesses (R374). -/
def arriveLine (s : State) (stack cell : Nat) (line : CopyLine) : State :=
  if stackServes s stack then sendLine s cell line stack else s

/-- A line sent to several stacks. -/
def sendAll (s : State) (cell : Nat) (line : CopyLine) (ks : List Nat) : State :=
  ks.foldl (fun t k => sendLine t cell line k) s

/-- The stacks of a set that hold a value, those whose replies come first in front (log 10). -/
def repliers (s : State) (cell : Nat) : List Nat :=
  let ok := (serving s cell).filter (fun k => (lineAt s k cell).holds)
  let first := (s.env.replies.filter (fun k => ok.contains k)).dedup
  first ++ ok.filter (fun k => !first.contains k)

/-- The line with the highest tag on some stacks. -/
def highestLine (s : State) (cell : Nat) (ks : List Nat) : CopyLine :=
  ks.foldl (fun best k => let l := lineAt s k cell; if tagRank best.tag < tagRank l.tag then l else best)
    (match ks with
     | k :: _ => lineAt s k cell
     | [] => CopyLine.blank)

/-- How a majority operation goes: done, waiting for replies, or MAJFAIL. -/
inductive MajRes where
  | done (outcome : Bool) (payload : Payload) (s : State)
  | wait
  | fail
  deriving DecidableEq, Repr

/-- The read phase: the majority that replied and the newest line among it (R178). -/
def readPhase (s : State) (cell : Nat) : Option (List Nat × CopyLine) :=
  let q := (repliers s cell).take (quorum s.shape)
  if q.length < quorum s.shape then none else some (q, highestLine s cell q)

/-- Fewer than a majority of the set's stacks are in service (R176, R375). -/
def tooFew (s : State) (cell : Nat) : Bool := decide ((serving s cell).length < quorum s.shape)

/-- The serving stacks whose copy of a cell is poisoned. -/
def poisonedCopies (s : State) (cell : Nat) : List Nat := (serving s cell).filter (fun k => (lineAt s k cell).tag.getLsbD 1)

/-- Poisoned copies are repaired with the newest value learnt (R176). -/
def repairPoison (s : State) (cell : Nat) (line : CopyLine) : State := sendAll s cell line (poisonedCopies s cell)

/-- MLD's phases after the read: write-back, so that a majority holds the newest tag (R178). -/
def majLoad (s : State) (cell : Nat) : MajRes :=
  if tooFew s cell then .fail
  else match readPhase s cell with
    | none => .wait
    | some (q, line) => .done true line.payload (repairPoison (sendAll s cell line q) cell line)

/-- The stacks that the next store reaches only after it has completed (log 10). -/
def slowStacks (s : State) (ks : List Nat) : List Nat := (s.env.slow.headD []).filter (fun k => ks.contains k)

/-- The store phase of MST and MCAS from the tag read: accepted by a majority, the lines to the other stacks still on
their way or already answered, or superseded with the newest rejecting line (R178). -/
def storePhase (s : State) (cell wid : Nat) (read : BitVec 64) (payload : Payload) : MajRes :=
  if tooFew s cell then .fail
  else if tagTide read = 2 ^ 48 - 1 then .fail
  else
    let n := mkTag (tagTide read + 1) wid
    let ks := serving s cell
    let late := slowStacks s ks
    let u := { s with env := { s.env with slow := s.env.slow.tail } }
    let fast := ks.filter (fun k => !late.contains k)
    let yes := ks.filter (fun k => accepts (lineAt s k cell) n)
    let no := ks.filter (fun k => !accepts (lineAt s k cell) n)
    if quorum s.shape ≤ (fast.filter (fun k => yes.contains k)).length then
      let t := sendAll u cell ⟨n, payload⟩ fast
      .done true payload { t with flying := t.flying ++ late.map (fun k => (k, cell, ⟨n, payload⟩)) }
    else if quorum s.shape ≤ yes.length then .done true payload (sendAll u cell ⟨n, payload⟩ ks)
    else .done false (highestLine s cell no).payload (sendAll u cell ⟨n, payload⟩ ks)

/-- The lines on their way reach their stacks, unless the model's input keeps them for another step (log 10). -/
def landLines (s : State) : State :=
  match s.flying, s.env.flight with
  | [], _ => s
  | _, true :: rest => { s with env := { s.env with flight := rest } }
  | fs, more =>
    fs.foldl (fun t f => arriveLine t f.1 f.2.1 f.2.2) { s with flying := [], env := { s.env with flight := more.tail } }

/-- An MST whole. -/
def majStore (s : State) (cell wid : Nat) (payload : Payload) : MajRes :=
  if tooFew s cell then .fail
  else match readPhase s cell with
    | none => .wait
    | some (_, line) => storePhase s cell wid line.tag payload

/-- An MCAS whole: payload bytes 0 to 7 compared with the expected value (R178). -/
def majCas (s : State) (cell wid : Nat) (expect : DWord) (payload : Payload) : MajRes :=
  if tooFew s cell then .fail
  else match readPhase s cell with
    | none => .wait
    | some (q, line) =>
      if line.payload.extractLsb' 0 64 ≠ expect then
        .done false line.payload (repairPoison (sendAll s cell line q) cell line)
      else storePhase s cell wid line.tag payload

/-- The writer id of a warp's quadrant (R177). -/
def warpWid (w : Warp) : Nat := w.clus * 32 + w.core * 4 + w.quad

/-- A split waits in a store on a cell, FRULE's of its root among them (R176, R234). -/
def storesOn (cell : Nat) (p : Split) : Bool :=
  p.alive && (match p.wait with
    | some (.mst _ _ _ _) | some (.mcas _ _ _ _ _) | some (.frule _ _) => (p.args.getD 2 0).toNat == cell
    | _ => false)

/-- The waiting splits of a quadrant other than the issuing one. -/
def quadSplits (s : State) (wid : Nat) : List Split :=
  (if s.w.live && warpWid s.w == wid then s.w.splits ++ s.w.overflow else []) ++
    (s.warps.filter (fun v => warpWid v == wid)).flatMap (fun v => v.splits ++ v.overflow)

/-- A split's store came before what another split, or an update handed over in some clock, does (R176). -/
def Split.ahead (p : Split) (since : Option Nat) : Bool :=
  p.phase.isSome || (match since with
    | none => true
    | some n => decide (p.since < n))

/-- The clock since when the issuing split waits, if it does. -/
def waitsSince (s : State) : Option Nat := if s.sp.wait.isSome then some s.sp.since else none

/-- Something that began in one clock came before what has waited since another, or has only now been issued. -/
def startedBy (n : Nat) (since : Option Nat) : Bool :=
  match since with
  | none => true
  | some m => decide (n ≤ m)

/-- An earlier store of the issuing split's quadrant on a cell, or an update of a token-ready cell, is in flight
(R176). -/
def cellBusy (s : State) (cell : Nat) : Bool :=
  s.trsigs.any (fun u => warpWid u.warp == warpWid s.w && u.cell == cell && startedBy u.since (waitsSince s)) ||
    s.services.any (fun u => u.wid == warpWid s.w && u.cell == cell && startedBy u.since (waitsSince s)) ||
    (quadSplits s (warpWid s.w)).any (fun p => storesOn cell p && p.ahead (waitsSince s))

/-- Any store of a quadrant on a cell is in flight, the issuing split's included (R176, R257). -/
def quadBusy (s : State) (wid cell : Nat) : Bool :=
  s.trsigs.any (fun u => warpWid u.warp == wid && u.cell == cell) ||
    s.services.any (fun u => u.wid == wid && u.cell == cell) ||
    (quadSplits s wid).any (storesOn cell) || (warpWid s.w == wid && storesOn cell s.sp)

/-- The newest value an MLD of the cell would return, if a majority replies. -/
def cellValue (s : State) (cell : Nat) : Option Payload :=
  match majLoad s cell with
  | .done _ v _ => some v
  | _ => none

end Sys2Proof.Machine
end

