-- ==== Sys2Proof/Machine/Splits.lean ====
section
/-! DEFINITION. The split table and its overflow block: entries, eviction, return, division (R15, R143, R144). -/

namespace Sys2Proof.Machine

/-- The 64 bytes of a split entry (R15); the split's rank among its warp's splits stands for AGE. -/
def splitBytes (p : Split) (rank : Nat) : List Byte :=
  natLE p.pc.toNat 8 ++ natLE p.rpc.toNat 8 ++ natLE p.active.toNat 4 ++ natLE p.entry.toNat 4 ++
    natLE p.rmask.toNat 4 ++ natLE p.sig.toNat 4 ++ natLE p.wbase 2 ++ natLE p.sfloor 2 ++ natLE p.depth 1 ++
    natLE (match p.state with
      | .free => 0 | .ready => 1 | .waitRcv => 2 | .stopped => 3 | .sleeping => 4 | .waiting => 5) 1 ++
    natLE rank 2 ++ natLE p.frames.toNat 4 ++ natLE 0 20

/-- Splits of the focused warp, the issuing one among them. -/
def allSplits (s : State) : List Split :=
  (if s.sp.alive then [s.sp] else []) ++ s.w.splits ++ s.w.overflow

/-- A split's issue-age rank in its warp, 0 the oldest (R15). -/
def ageRank (s : State) (p : Split) : Nat := ((allSplits s).filter (fun q => decide (q.age < p.age))).length

/-- The overflow block as it lies in the spill area, entry by entry in order of arrival (R15, R18; log 41). -/
def storeOverflow (s : State) : State :=
  match writeRun s needSpillW s.w.spillb.toNat (s.w.overflow.flatMap (fun p => splitBytes p (ageRank s p))) with
  | .ok t => t
  | .error _ => s

/-- The slots of the table in use. -/
def usedSlots (s : State) : List Nat :=
  (if s.sp.alive then [s.sp.slot] else []) ++ (s.w.splits.filter Split.alive).map (fun p => p.slot)

/-- A free slot of the table: which one a new split takes the spec leaves open, and the model takes the lowest (R15, R143;
log 100). -/
def freeSlot (s : State) : Option Nat := (List.range 16).find? (fun n => !(usedSlots s).contains n)

/-- The entry of a list that has gone longest without issuing, the older of equals. -/
def longestIdle : List Split → Option Split
  | [] => none
  | p :: t => match longestIdle t with
    | none => some p
    | some q =>
      if p.lastIssue < q.lastIssue || (p.lastIssue == q.lastIssue && decide (p.age ≤ q.age)) then some p else some q

/-- The entry that has gone longest without issuing moved to the overflow block, among those that a condition admits
(R15). -/
def evict (s : State) (may : Split → Bool) : State :=
  match longestIdle (s.w.splits.filter (fun p => p.alive && may p)) with
  | none => s
  | some p =>
    storeOverflow { s with w := { s.w with
      splits := s.w.splits.filter (fun q => q.slot != p.slot)
      overflow := s.w.overflow ++ [{ p with slot := 16, lastIssue := s.cycle.toNat }] } }

/-- A split put in a free entry, with the youngest AGE (R143). -/
def addSplit (s : State) (p : Split) : State :=
  let t := if (freeSlot s).isNone then evict s (fun _ => true) else s
  let slot := (freeSlot t).getD 0
  { t with
    w := { t.w with splits := insertSplit { p with slot := slot, age := t.nextAge, starve := 0,
                                                   lastIssue := t.cycle.toNat } t.w.splits }
    nextAge := t.nextAge + 1 }

/-- The overflow block's first arrivals back in free entries (R15). The bound is the number of entries. -/
def returnOverflow (s : State) : Nat → State
  | 0 => s
  | n + 1 =>
    match s.w.overflow, freeSlot s with
    | p :: rest, some slot =>
      returnOverflow { s with w := { s.w with
        splits := insertSplit { p with slot := slot, lastIssue := s.cycle.toNat } s.w.splits, overflow := rest } } n
    | _, _ => s

/-- The half of a split that holds some of its lanes (R143). -/
def Split.half (p : Split) (m : Mask) : Split := { p with active := m, entry := m, sig := 0 }

/-- A group of lanes leaves the issuing split for an entry of its own, which a function then changes (R143). -/
def branchOff (s : State) (m : Mask) (f : State → State) : State :=
  let t := f { s with sp := s.sp.half m }
  addSplit { t with sp := s.sp } t.sp

/-- Lanes of the issuing split sent to a target while the others continue at the next instruction; it divides when both
sets are non-empty, also where the target is the next instruction (R143, R145; log 85). The target's lanes are changed
by a function. -/
def divert (s : State) (m : Mask) (f : State → State) : State :=
  let rest := s.sp.active &&& ~~~m
  if m = 0 then { s with sp := { s.sp with pc := s.sp.pc + 4 } }
  else if rest = 0 then f s
  else
    let t := branchOff s m f
    { t with sp := { t.sp.half rest with pc := s.sp.pc + 4 } }

/-- The issuing split at a target. -/
def goTo (pc : DWord) (s : State) : State := { s with sp := { s.sp with pc := pc } }

/-- The issuing split's next instruction. -/
def advance (s : State) : State := { s with sp := { s.sp with pc := s.sp.pc + 4 } }

/-- The issuing split last in the age order of its quadrant (R154, R338). -/
def youngest (s : State) : State :=
  { s with sp := { s.sp with age := s.nextAge }, nextAge := s.nextAge + 1 }

/-- A split with nothing kept of an instruction it waited in. -/
def Split.cleared (p : Split) : Split :=
  { p with state := .ready, wait := none, phase := none, args := [], slice := none, doomed := false }

/-- A waiting split ready again: it re-enters the age order as youngest (R338). -/
def wake (s : State) : State := youngest { s with sp := s.sp.cleared }

end Sys2Proof.Machine
end

