-- ==== Sys2Proof/Machine/Window.lean ====
section
/-! DEFINITION. The register window: frame records, spills and fills, and the checks made before a slide moves anything
(R18 to R21, R259, R262, R384). -/

namespace Sys2Proof.Machine

/-- SpillAddr of R18. -/
def spillAddr (w : Warp) (q l : Nat) : Nat := w.spillb.toNat + 9216 + q * 128 + l * 4

/-- The frame record of depth n for lane l (R18; log 12). -/
def frameAddr (w : Warp) (n l : Nat) : Nat := w.spillb.toNat + 1024 + n * 32 + l

/-- The addresses of a slide that may not be touched: at or above the end, untranslated, or protected (R20). -/
def badAddrs (s : State) (n : Need) (addrs : List (Nat × Nat)) : List Nat :=
  (addrs.filter (fun a => decide (s.w.spillb.toNat + s.w.spillsz ≤ a.1) ||
    (match checkAccess s n a.1 a.2 with
     | .ok _ => false
     | .bad _ => true))).map (fun a => a.1)

/-- The least of some addresses. -/
def leastAddr : List Nat → Option Nat
  | [] => none
  | a :: t => match leastAddr t with
    | none => some a
    | some b => some (if a ≤ b then a else b)

/-- CheckSlide: the lowest address that fails (R20). -/
def checkSlide (s : State) (n : Need) (addrs : List (Nat × Nat)) : Option Nat := leastAddr (badAddrs s n addrs)

/-- A slide planned: the new WBASE and SFLOOR, the positions moved in order, and the depth of the frame record moved. -/
structure Slide where
  wb : Nat
  sf : Nat
  qs : List Nat
  frame : Option Nat
  deriving DecidableEq, Repr

/-- Groups of four positions spilled while the span exceeds ALLOT (R19). -/
def spillGroups (allot wb sf : Nat) : Nat := (wb + 64 - sf - allot + 3) / 4

/-- A slide up by a slide code, or none where it raises WINDOW with 0 (R19). -/
def planUp (s : State) (code : Nat) : Option Slide :=
  let wb := s.sp.wbase + 4 * (code + 1)
  let n := spillGroups s.w.allot wb s.sp.sfloor
  if s.sp.depth = 255 || decide (65535 < wb + 63) then none
  else some { wb := wb, sf := s.sp.sfloor + 4 * n, qs := regRunFrom s.sp.sfloor (4 * n),
              frame := if s.sp.depth < 8 then none else some (s.sp.depth - 8) }
where
  regRunFrom (a n : Nat) : List Nat := (List.range n).map (fun j => a + j)

/-- A slide back, or none where it raises WINDOW with 0 (R19). -/
def planDown (s : State) : Option Slide :=
  let code := s.sp.frames.toNat % 16
  let wb := s.sp.wbase - 4 * (code + 1)
  let n := (s.sp.sfloor - wb + 3) / 4
  if s.sp.depth = 0 then none
  else some { wb := wb, sf := s.sp.sfloor - 4 * n,
              qs := (List.range n).flatMap (fun g => (List.range 4).map (fun j => s.sp.sfloor - 4 * (g + 1) + j)),
              frame := if s.sp.depth ≤ 8 then none else some (s.sp.depth - 9) }

/-- Every address a slide touches, in some lanes. -/
def slideAddrs (s : State) (p : Slide) (m : Mask) : List (Nat × Nat) :=
  (match p.frame with
   | some n => (lanesOf m).map (fun l => (frameAddr s.w n l, 1))
   | none => []) ++
  p.qs.flatMap (fun q => (lanesOf m).map (fun l => (spillAddr s.w q l, 4)))

/-- The memory key of a checked spill-area address. -/
def spillKey (s : State) (n : Need) (a size : Nat) : Option Nat :=
  match checkAccess s n a size with
  | .ok key => some key
  | .bad _ => none

/-- A poisoned sector of the register area as eight marked words (R384). -/
def splitSector (s : State) (key : Nat) : State :=
  if s.poison.contains (key / 32) then
    { s with poison := s.poison.filter (fun c => c != key / 32)
             spillPoison := (List.range 8).foldl (fun acc j => ninsert (key / 32 * 8 + j) acc) s.spillPoison }
  else s

/-- One lane's position spilled, its mark with it (R19, R262). -/
def spillWord (s : State) (q l : Nat) : State :=
  match spillKey s needSpillW (spillAddr s.w q l) 4 with
  | none => s
  | some key =>
    let t := splitSector s key
    let r := physKey s.w l q
    let marked := sget 0 s.w.marks r != 0
    { t with mem := putBytes t.mem key (natLE (physGet s.w r).toNat 4)
             spillPoison := if marked then ninsert (key / 4) t.spillPoison
                            else t.spillPoison.filter (fun c => c != key / 4) }

/-- One lane's position filled, its mark with it (R19, R259, R262). -/
def fillWord (s : State) (q l : Nat) : State :=
  let a := spillAddr s.w q l
  match spillKey s needSpillR a 4 with
  | none => s
  | some key =>
    let r := physKey s.w l q
    let w := physSet s.w r (BitVec.ofNat 32 (readKey s key 4))
    { s with w := if poisonedRange s key 4 then { w with marks := sset 0 w.marks r (a + 1) } else w }

/-- Positions spilled in some lanes, in order. -/
def spillAll (s : State) (m : Mask) (qs : List Nat) : State :=
  qs.foldl (fun t q => (lanesOf m).foldl (fun u l => spillWord u q l) t) s

/-- Positions filled in some lanes, in order. -/
def fillAll (s : State) (m : Mask) (qs : List Nat) : State :=
  qs.foldl (fun t q => (lanesOf m).foldl (fun u l => fillWord u q l) t) s

/-- Registers of some lanes made unpredictable (R21, log 6). -/
def wildRegs (s : State) (m : Mask) (qs : List Nat) : State :=
  let n := s.env.free
  { s with
    w := (lanesOf m).foldl (fun w l => qs.foldl (fun w q =>
      { w with wild := sset 0 w.wild (physKey w l q) (n + 1), marks := serase w.marks (physKey w l q) }) w) s.w
    env := { s.env with free := n + 1 } }

/-- PushFrame of a record into FRAMES; the oldest cached record moves to the frame area (R15, R19). -/
def pushFrame (s : State) (p : Slide) (code : Nat) : State :=
  let t := match p.frame with
    | none => s
    | some n => (lanesOf s.sp.active).foldl (fun u l =>
        match spillKey u needSpillW (frameAddr s.w n l) 1 with
        | some key => writeKey u key [BitVec.ofNat 8 (s.sp.frames.toNat / 2 ^ 28)]
        | none => u) s
  { t with sp := { t.sp with frames := s.sp.frames * 16#32 + BitVec.ofNat 32 code } }

/-- The slide of CALL by the issuing split's lanes, once its checks have passed (R19, R21). -/
def applyUp (s : State) (p : Slide) (code : Nat) : State :=
  let t := spillAll (pushFrame s p code) s.sp.active p.qs
  wildRegs { t with sp := { t.sp with wbase := p.wb, sfloor := p.sf, depth := t.sp.depth + 1 } } s.sp.active
    ((List.range (p.wb - s.sp.wbase)).map (fun j => s.sp.wbase + 64 + j))

/-- The frame record a lane refills, 0 where the slide refills none (R19, R149). -/
def refill (s : State) (p : Slide) (l : Nat) : Nat :=
  match p.frame with
  | none => 0
  | some n => match spillKey s needSpillR (frameAddr s.w n l) 1 with
    | some key => readKey s key 1 % 16
    | none => 0

/-- The slide back of RET by the issuing split's lanes, once its checks have passed (R19). -/
def applyDown (s : State) (p : Slide) : State :=
  let rec0 := refill s p (lowestLane s.sp.active)
  let t := fillAll s s.sp.active p.qs
  { t with sp := { t.sp with wbase := p.wb, sfloor := p.sf, depth := t.sp.depth - 1
                             frames := BitVec.ofNat 32 (s.sp.frames.toNat / 16 + rec0 * 2 ^ 28) } }

/-- The slide up checked and made in the issuing split's lanes, or the TRAPV of WINDOW (R19, R20). -/
def slideUp (s : State) (code : Nat) : Except Nat State :=
  match planUp s code with
  | none => .error 0
  | some p => match checkSlide s needSpillW (slideAddrs s p s.sp.active) with
    | some a => .error a
    | none => .ok (applyUp s p code)

/-- The slide back checked and made in the issuing split's lanes, or the TRAPV of WINDOW (R19, R20). -/
def slideDown (s : State) : Except Nat State :=
  match planDown s with
  | none => .error 0
  | some p => match checkSlide s needSpillR (slideAddrs s p s.sp.active) with
    | some a => .error a
    | none => .ok (applyDown s p)

end Sys2Proof.Machine
end

