-- ==== Sys2Proof/Machine/Log.lean ====
section
/-! DEFINITION. The fault log: entries and loss records claimed by majority compare-and-store in the focused context
(R257 to R259). -/

namespace Sys2Proof.Machine

/-- FLAGS of a fault-log entry (R258). -/
def fgParked : Nat := 1
def fgNoHandler : Nat := 2
def fgDouble : Nat := 4
def fgKilled : Nat := 8

/-- What a fault-log entry says of an event, its TIME, SEQ, CREW and WARP apart (R258). -/
structure LogEvent where
  cause : Byte
  where_ : Nat
  flags : Nat
  pc : DWord
  trapv : DWord
  deriving DecidableEq, Repr

/-- The 32 bytes of a fault-log entry with index h (R258). -/
def logBytes (s : State) (crew : Word) (w : Warp) (e : LogEvent) (h : Nat) : List Byte :=
  natLE s.cycle.toNat 4 ++ [e.cause, BitVec.ofNat 8 w.index, BitVec.ofNat 8 e.where_, BitVec.ofNat 8 e.flags] ++
    natLE (h + 1) 4 ++ natLE crew.toNat 4 ++ natLE (e.pc.toNat % 2 ^ 56) 8 ++ natLE e.trapv.toNat 8

/-- The 16 bytes of a loss record (R259). -/
def lossBytes (crew : Word) (w : Warp) (kind lane addr : Nat) : List Byte :=
  [BitVec.ofNat 8 kind, BitVec.ofNat 8 w.index, BitVec.ofNat 8 lane, 0] ++ natLE crew.toNat 4 ++ natLE addr 8

/-- The counts of a cluster in the contact sheet (R388). -/
def nSquash : Nat := 0
def nSigmis : Nat := 1
def nRcverr : Nat := 2
def nStranding : Nat := 3
def nBindRefused : Nat := 4
def nLogDropped : Nat := 5
def nRefusal : Nat := 6
def nRemote : Nat := 7

/-- A count of a cluster. -/
def countOf (s : State) (clus kind : Nat) : Nat := sget 0 s.dev.counters (clus * 8 + kind)

/-- A count of a cluster raised (R386, R388). -/
def raiseCount (s : State) (clus kind n : Nat) : State :=
  { s with dev := { s.dev with counters := sset 0 s.dev.counters (clus * 8 + kind) (countOf s clus kind + n) } }

/-- A log update that did not reach a majority (R257), by the cluster of the writer. -/
def dropLog (s : State) (wid : Nat) : State := raiseCount s (wid / 32) nLogDropped 1

/-- An index claimed from the root and a record written at it; the bound on retries is never reached, since no other
agent acts in between (R257, log 10). Where the area's page does not admit the write, the update is dropped and counted,
and its index stays claimed: the spec does not say (log 53). -/
def claim (s : State) (wid cell : Nat) (loss : Bool) (size : Nat) (mk : Nat → List Byte) : Nat → State
  | 0 => dropLog s wid
  | n + 1 =>
    match majLoad s cell with
    | .done _ root t =>
      let v := root.toNat
      let lo := if loss then 32 else 0
      let cap := if loss then bitsOf v 160 32 else bitsOf v 128 32
      let base := if loss then bitsOf v 192 64 else bitsOf v 64 64
      let h := bitsOf v lo 32
      if cap = 0 then t
      else
        let v' := v - h * 2 ^ lo + (h + 1) % 2 ^ 32 * 2 ^ lo
        match majCas t cell wid (root.extractLsb' 0 64) (BitVec.ofNat 256 v') with
        | .done true _ u =>
          (match writeRun u needW (base + h % cap * size) (mk h) with
           | .ok r => r
           | .error _ => dropLog u wid)
        | .done false _ u => claim u wid cell loss size mk n
        | _ => dropLog t wid
    | _ => dropLog s wid

/-- Bytes of a record that wait, completed with the index claimed for them: an entry's SEQ is the index + 1 (R258). -/
def LogJob.bytes (j : LogJob) (h : Nat) : List Byte :=
  if j.loss then j.record else j.record.take 8 ++ natLE (h + 1) 4 ++ j.record.drop 12

/-- A log update made in the focused context (R257). -/
def writeJob (s : State) (j : LogJob) : State :=
  claim s j.wid j.cell j.loss (if j.loss then 16 else 32) j.bytes 4

/-- A log update waits: its quadrant has a store in flight on the root, or earlier updates of it wait (R176, R257). -/
def jobWaits (s : State) (j : LogJob) : Bool :=
  quadBusy s j.wid j.cell || s.logs.any (fun x => x.wid == j.wid && x.cell == j.cell)

/-- A record logged under a crew's root by a warp's quadrant; FLOG = 0 logs nothing (R257). An FLOG that fails the checks of
a cell's address counts as a dropped update: the spec does not say (log 53). -/
def logRecord (s : State) (flog : DWord) (w : Warp) (loss : Bool) (record : List Byte) : State :=
  if flog = 0 then s
  else match checkCell s needAtomic flog.toNat with
    | .bad _ => dropLog s (warpWid w)
    | .ok key =>
      let j : LogJob := { ctx := s.ctx.id, addr := flog.toNat, clus := w.clus, wid := warpWid w, cell := cellOf key
                          loss := loss, record := record }
      if jobWaits s j then { s with logs := s.logs ++ [j] } else writeJob s j

/-- The updates that waited made, as far as their quadrants' stores allow, each root's in order. The bound is the number
of updates. -/
def flushLogs (s : State) : Nat → State
  | 0 => s
  | n + 1 => match s.logs.find? (fun j => !quadBusy s j.wid j.cell) with
    | none => s
    | some j => flushLogs (pack (writeJob (focusOn { s with logs := s.logs.erase j } 0 j.ctx j.clus) j)) n

/-- An event of a warp logged under the focused crew's root (R257, R258). -/
def logEvent (s : State) (w : Warp) (e : LogEvent) : State :=
  logRecord s s.crew.flog w false (logBytes s s.crew.number w e 0)

/-- A loss record of a lane of the focused warp (R259). -/
def logLoss (s : State) (kind lane addr : Nat) : State :=
  logRecord s s.crew.flog s.w true (lossBytes s.crew.number s.w kind lane addr)

/-- WHERE of a split (R258). One of the overflow block, to which the spec gives no index, is written as 0 (log 105). -/
def whereOf (p : Split) : Nat := p.slot % 16 + p.level % 4 * 16

/-- WHERE of a warp with no trapping split: its oldest live split, level 0 (R258); 0 for one of the overflow block (log
105). -/
def whereOldest (w : Warp) : Nat :=
  match oldestSplit w.liveSplits with
  | some p => p.slot % 16
  | none => 0

/-- The PC of a warp's oldest live split. -/
def oldestPc (w : Warp) : DWord :=
  match oldestSplit w.liveSplits with
  | some p => p.pc
  | none => 0

end Sys2Proof.Machine
end

