-- ==== Sys2Proof/WellFormed.lean ====
section
/-! DEFINITION. Which instructions pass the checks of R88 that depend on the word alone: the values marked ILLEGAL
(step 1) and the kinds, literals, pairs and quads of R24 and R72 and the ids of R35 (step 2). -/

namespace Sys2Proof

/-- Events have no word. -/
def Instr.isEvent : Instr → Bool
  | .longLatencyComplete => true
  | .splitOverflowExchange => true
  | .dispatchWarpForm => true
  | .notificationDelivery => true
  | .debugFreeze _ _ => true
  | .debugStep _ _ => true
  | .preemptRequest _ _ => true
  | .preemptDeadline => true
  | .darkslideSwap _ => true
  | .contextRestore _ => true
  | .resume _ _ => true
  | .kill _ => true
  | .budgetExpiry => true
  | .sleepWake => true
  | .majorityTimeout => true
  | .trwaitRetry _ _ => true
  | .trsigUpdateDone => true
  | .trsigAbandon => true
  | .tileTaskDispatch => true
  | .rowGroupWritten _ _ => true
  | .taskFault _ _ => true
  | .copyCommandStart => true
  | .chunkFilled _ _ => true
  | .copyFault _ _ => true
  | .growDecided => true
  | .growTimeout => true
  | .nlbinComplete _ => true
  | .nleSlotFilled _ => true
  | .nleBlockTableDone _ => true
  | .nleFault _ => true
  | .fduRootRead _ => true
  | .fduIntakeEnd _ => true
  | .fduEncoderTaskDone _ => true
  | .fduSelectDone _ => true
  | .fduRuleUnit _ => true
  | .fduWriteback _ => true
  | .fduFault _ => true
  | .launchAdmit _ => true
  | .serviceLaunch _ _ => true
  | .bindRecord _ => true
  | .serviceMld _ _ => true
  | .serviceMst _ _ _ => true
  | .serviceMcas _ _ _ _ => true
  | .serviceTrsigUpdate _ _ _ => true
  | .scrubVisit _ => true
  | .rebuildVisit _ => true
  | .stackRetire _ => true
  | .stackReturn _ => true
  | .translationInvalidate _ _ _ => true
  | .scoreboardMismatch _ => true
  | .contact _ _ => true
  | .captureEnable _ _ _ => true
  | .replay _ => true
  | .deviceReset => true
  | .attestationReport _ => true
  | .firmwareLimitWrite _ => true
  | .remoteTimeout => true
  | .powerGateJudge => true
  | .thermalHalt => true
  | .egressRequest _ _ => true
  | .refusedWord _ => true
  | .instructionFetchFault => true
  | .debugContinue _ _ => true
  | .debugBreakpointHit _ _ => true
  | .contextCreation _ _ _ => true
  | .contextDestruction _ => true
  | .serviceKernelWatchdog _ _ => true
  | .serviceOrdinaryAccess _ _ _ => true
  | .hostDma _ _ _ => true
  | .skerryRemoteAccess _ _ _ => true
  | .recoveryImageLoad _ => true
  | .nop => false
  | .bra _ _ _ => false
  | .jmpk _ => false
  | .call _ _ => false
  | .callk _ _ => false
  | .ret => false
  | .srcv _ => false
  | .rcv => false
  | .exit => false
  | .yield => false
  | .yieldp => false
  | .sleep _ => false
  | .setm _ => false
  | .setg _ _ => false
  | .sigchk _ => false
  | .trap _ _ => false
  | .tret => false
  | .role _ => false
  | .dispq _ => false
  | .qend => false
  | .cjoin _ _ => false
  | .cleave _ => false
  | .bara _ _ => false
  | .barw _ _ => false
  | .bars _ _ => false
  | .setrl _ => false
  | .srd _ _ _ => false
  | .swrMode _ _ => false
  | .swrFflags _ _ => false
  | .swrStrand _ _ => false
  | .swrSpillb _ _ => false
  | .swrTrapc _ _ => false
  | .swrTrapv _ _ => false
  | .swrTrappc _ _ => false
  | .swrOvt _ _ => false
  | .bkpt _ => false
  | .ovtld _ => false
  | .add _ _ _ _ => false
  | .sub _ _ _ _ => false
  | .mul _ _ _ _ => false
  | .mulh _ _ _ _ => false
  | .min _ _ _ _ => false
  | .max _ _ _ _ => false
  | .abs _ _ => false
  | .neg _ _ => false
  | .and _ _ _ _ => false
  | .or _ _ _ _ => false
  | .xor _ _ _ _ => false
  | .andn _ _ _ _ => false
  | .shl _ _ _ _ => false
  | .shr _ _ _ _ => false
  | .sar _ _ _ _ => false
  | .rol _ _ _ _ => false
  | .mad _ _ _ _ => false
  | .sel _ _ _ _ _ => false
  | .cmp _ _ _ _ _ => false
  | .cmpi _ _ _ _ => false
  | .popc _ _ => false
  | .clz _ _ => false
  | .brev _ _ => false
  | .perm _ _ _ _ => false
  | .bfx _ _ _ _ => false
  | .bfi _ _ _ _ => false
  | .movx _ _ => false
  | .movxK _ _ => false
  | .movi _ _ => false
  | .movh _ _ => false
  | .pmov _ _ => false
  | .pset _ _ => false
  | .plog _ _ _ _ => false
  | .addi _ _ _ => false
  | .andi _ _ _ => false
  | .ori _ _ _ => false
  | .xori _ _ _ => false
  | .shli _ _ _ => false
  | .shri _ _ _ => false
  | .sari _ _ _ => false
  | .muli _ _ _ => false
  | .mini _ _ _ => false
  | .maxi _ _ _ => false
  | .fadd _ _ _ _ => false
  | .fsub _ _ _ _ => false
  | .fmul _ _ _ _ => false
  | .fma _ _ _ _ => false
  | .fmin _ _ _ _ => false
  | .fmax _ _ _ _ => false
  | .fabs _ _ => false
  | .fneg _ _ => false
  | .fcmp _ _ _ _ _ => false
  | .cvt _ _ _ => false
  | .cvtz _ _ _ => false
  | .frnd _ _ => false
  | .fcls _ _ => false
  | .pack _ _ _ _ => false
  | .unpk _ _ _ _ => false
  | .rcp _ _ _ => false
  | .rsq _ _ _ => false
  | .lg2 _ _ _ => false
  | .ex2 _ _ _ => false
  | .sin _ _ _ => false
  | .cos _ _ _ => false
  | .tanh _ _ _ => false
  | .ppe _ _ _ _ => false
  | .ppld _ _ _ _ => false
  | .shflFrom _ _ _ _ => false
  | .shflRot _ _ _ _ => false
  | .shflRotn _ _ _ _ => false
  | .shflXor _ _ _ _ => false
  | .voteQuorum _ _ _ _ => false
  | .voteUnan _ _ _ => false
  | .voteMask _ _ _ => false
  | .voteCount _ _ _ => false
  | .redxAdd _ _ _ => false
  | .redxMin _ _ _ => false
  | .redxMax _ _ _ => false
  | .argmxMax _ _ _ => false
  | .argmxMin _ _ _ => false
  | .scanAddIncl _ _ _ => false
  | .scanAddExcl _ _ _ => false
  | .scanMax _ _ _ => false
  | .scanMin _ _ _ => false
  | .matchLanes _ _ _ => false
  | .x2k _ _ _ _ => false
  | .kadd _ _ _ => false
  | .ksub _ _ _ => false
  | .kmul _ _ _ => false
  | .kand _ _ _ => false
  | .kor _ _ _ => false
  | .kxor _ _ _ => false
  | .kshl _ _ _ => false
  | .kshr _ _ _ => false
  | .kaddi _ _ _ => false
  | .kmovi _ _ => false
  | .kcat _ _ => false
  | .kcmp _ _ _ _ => false
  | .ksel _ _ _ _ => false
  | .kmin _ _ _ => false
  | .kminU _ _ _ => false
  | .kmax _ _ _ => false
  | .kmaxU _ _ _ => false
  | .ldb _ _ _ _ _ _ => false
  | .ldbs _ _ _ _ _ _ => false
  | .ldh _ _ _ _ _ _ => false
  | .ldhs _ _ _ _ _ _ => false
  | .ldw _ _ _ _ _ _ => false
  | .ldd _ _ _ _ _ _ => false
  | .ldq _ _ _ _ _ _ => false
  | .lda _ _ _ _ _ _ => false
  | .stb _ _ _ _ _ _ => false
  | .sth _ _ _ _ _ _ => false
  | .stw _ _ _ _ _ _ => false
  | .std _ _ _ _ _ _ => false
  | .stq _ _ _ _ _ _ => false
  | .stl _ _ _ _ _ _ => false
  | .kld _ _ _ => false
  | .kst _ _ _ => false
  | .atadd _ _ _ _ _ _ => false
  | .atmin _ _ _ _ _ _ => false
  | .atmax _ _ _ _ _ _ => false
  | .atand _ _ _ _ _ _ => false
  | .ator _ _ _ _ _ _ => false
  | .atxor _ _ _ _ _ _ => false
  | .atxch _ _ _ _ _ _ => false
  | .atcas _ _ _ _ _ _ => false
  | .reda _ _ _ _ _ _ => false
  | .redaf _ _ _ _ _ _ => false
  | .mld _ _ _ => false
  | .mst _ _ _ _ => false
  | .mcas _ _ _ _ _ => false
  | .fence _ _ _ => false
  | .cinvL1 _ _ => false
  | .cinvDie _ _ => false
  | .finv _ => false
  | .rngdef _ _ => false
  | .cpy _ _ _ => false
  | .cpym _ _ _ _ => false
  | .awaitf _ => false
  | .awaitfC _ _ => false
  | .rels _ => false
  | .rngst _ _ => false
  | .fetch _ _ _ _ => false
  | .mpath _ _ _ _ => false
  | .tdef _ _ => false
  | .tqput _ => false
  | .twait _ _ => false
  | .tpoll _ _ _ => false
  | .tstat _ _ => false
  | .nlbin _ => false
  | .nlpair _ _ => false
  | .nlstat _ _ => false
  | .tap _ => false
  | .tapw _ _ => false
  | .taprd _ => false
  | .taped _ => false
  | .tapresCont => false
  | .tapresEdit => false
  | .tapresAbort => false
  | .frule _ _ => false
  | .launch _ _ => false
  | .trsig _ _ => false
  | .trwait _ _ => false
  | .shape _ _ => false
  | .accup _ _ => false

/-- No value of the word is marked ILLEGAL (R88 step 1; R28, R77, R84, R85). -/
def Instr.legal : Instr → Bool
  | .nop => true
  | .bra _ _ _ => true
  | .jmpk _ => true
  | .call _ _ => true
  | .callk _ _ => true
  | .ret => true
  | .srcv _ => true
  | .rcv => true
  | .exit => true
  | .yield => true
  | .yieldp => true
  | .sleep _ => true
  | .setm m => decide (m.toNat < 0x2000)
  | .setg _ _ => true
  | .sigchk _ => true
  | .trap _ c => decide (0x20 ≤ c.toNat ∧ c.toNat ≤ 0x3F)
  | .tret => true
  | .role _ => true
  | .dispq _ => true
  | .qend => true
  | .cjoin _ _ => true
  | .cleave _ => true
  | .bara _ _ => true
  | .barw _ _ => true
  | .bars _ _ => true
  | .setrl _ => true
  | .srd _ _ _ => true
  | .swrMode _ _ => true
  | .swrFflags _ _ => true
  | .swrStrand _ _ => true
  | .swrSpillb _ _ => true
  | .swrTrapc _ _ => true
  | .swrTrapv _ _ => true
  | .swrTrappc _ _ => true
  | .swrOvt _ _ => true
  | .bkpt _ => true
  | .ovtld _ => true
  | .add _ _ _ _ => true
  | .sub _ _ _ _ => true
  | .mul _ _ _ _ => true
  | .mulh _ _ _ _ => true
  | .min _ _ _ _ => true
  | .max _ _ _ _ => true
  | .abs _ _ => true
  | .neg _ _ => true
  | .and _ _ _ _ => true
  | .or _ _ _ _ => true
  | .xor _ _ _ _ => true
  | .andn _ _ _ _ => true
  | .shl _ _ _ _ => true
  | .shr _ _ _ _ => true
  | .sar _ _ _ _ => true
  | .rol _ _ _ _ => true
  | .mad _ _ _ _ => true
  | .sel _ _ _ _ _ => true
  | .cmp _ _ _ _ c => decide (c.toNat ≤ 7)
  | .cmpi _ _ _ _ => true
  | .popc _ _ => true
  | .clz _ _ => true
  | .brev _ _ => true
  | .perm _ _ _ _ => true
  | .bfx _ _ _ _ => true
  | .bfi _ _ _ _ => true
  | .movx _ _ => true
  | .movxK _ _ => true
  | .movi _ _ => true
  | .movh _ _ => true
  | .pmov _ _ => true
  | .pset _ _ => true
  | .plog _ _ _ _ => true
  | .addi _ _ _ => true
  | .andi _ _ _ => true
  | .ori _ _ _ => true
  | .xori _ _ _ => true
  | .shli _ _ _ => true
  | .shri _ _ _ => true
  | .sari _ _ _ => true
  | .muli _ _ _ => true
  | .mini _ _ _ => true
  | .maxi _ _ _ => true
  | .fadd _ _ _ _ => true
  | .fsub _ _ _ _ => true
  | .fmul _ _ _ _ => true
  | .fma _ _ _ _ => true
  | .fmin _ _ _ _ => true
  | .fmax _ _ _ _ => true
  | .fabs _ _ => true
  | .fneg _ _ => true
  | .fcmp _ _ _ _ c => decide (c.toNat ≤ 7)
  | .cvt _ _ _ => true
  | .cvtz _ _ _ => true
  | .frnd _ _ => true
  | .fcls _ _ => true
  | .pack _ _ _ _ => true
  | .unpk _ _ _ _ => true
  | .rcp _ _ _ => true
  | .rsq _ _ _ => true
  | .lg2 _ _ _ => true
  | .ex2 _ _ _ => true
  | .sin _ _ _ => true
  | .cos _ _ _ => true
  | .tanh _ _ _ => true
  | .ppe _ _ _ _ => true
  | .ppld _ _ _ _ => true
  | .shflFrom _ _ _ _ => true
  | .shflRot _ _ _ _ => true
  | .shflRotn _ _ _ _ => true
  | .shflXor _ _ _ _ => true
  | .voteQuorum _ _ _ _ => true
  | .voteUnan _ _ _ => true
  | .voteMask _ _ _ => true
  | .voteCount _ _ _ => true
  | .redxAdd _ _ _ => true
  | .redxMin _ _ _ => true
  | .redxMax _ _ _ => true
  | .argmxMax _ _ _ => true
  | .argmxMin _ _ _ => true
  | .scanAddIncl _ _ _ => true
  | .scanAddExcl _ _ _ => true
  | .scanMax _ _ _ => true
  | .scanMin _ _ _ => true
  | .matchLanes _ _ _ => true
  | .x2k _ _ _ _ => true
  | .kadd _ _ _ => true
  | .ksub _ _ _ => true
  | .kmul _ _ _ => true
  | .kand _ _ _ => true
  | .kor _ _ _ => true
  | .kxor _ _ _ => true
  | .kshl _ _ _ => true
  | .kshr _ _ _ => true
  | .kaddi _ _ _ => true
  | .kmovi _ _ => true
  | .kcat _ _ => true
  | .kcmp _ _ _ c => decide ((c.toNat ≤ 7 ∨ (10 ≤ c.toNat ∧ c.toNat ≤ 13)))
  | .ksel _ _ _ _ => true
  | .kmin _ _ _ => true
  | .kminU _ _ _ => true
  | .kmax _ _ _ => true
  | .kmaxU _ _ _ => true
  | .ldb _ _ _ _ _ _ => true
  | .ldbs _ _ _ _ _ _ => true
  | .ldh _ _ _ _ _ _ => true
  | .ldhs _ _ _ _ _ _ => true
  | .ldw _ _ _ _ _ _ => true
  | .ldd _ _ _ _ _ _ => true
  | .ldq _ _ _ _ _ _ => true
  | .lda _ _ _ _ _ _ => true
  | .stb _ _ _ _ _ _ => true
  | .sth _ _ _ _ _ _ => true
  | .stw _ _ _ _ _ _ => true
  | .std _ _ _ _ _ _ => true
  | .stq _ _ _ _ _ _ => true
  | .stl _ _ _ _ _ _ => true
  | .kld _ _ _ => true
  | .kst _ _ _ => true
  | .atadd _ _ _ _ _ _ => true
  | .atmin _ _ _ _ _ _ => true
  | .atmax _ _ _ _ _ _ => true
  | .atand _ _ _ _ _ _ => true
  | .ator _ _ _ _ _ _ => true
  | .atxor _ _ _ _ _ _ => true
  | .atxch _ _ _ _ _ _ => true
  | .atcas _ _ _ _ _ _ => true
  | .reda _ _ _ _ _ _ => true
  | .redaf _ _ _ _ _ _ => true
  | .mld _ _ _ => true
  | .mst _ _ _ _ => true
  | .mcas _ _ _ _ _ => true
  | .fence _ _ _ => true
  | .cinvL1 _ _ => true
  | .cinvDie _ _ => true
  | .finv _ => true
  | .rngdef _ _ => true
  | .cpy _ _ q => decide (q ≠ 3)
  | .cpym _ _ _ q => decide (q ≠ 3)
  | .awaitf _ => true
  | .awaitfC _ _ => true
  | .rels _ => true
  | .rngst _ _ => true
  | .fetch _ _ _ _ => true
  | .mpath _ _ _ _ => true
  | .tdef _ _ => true
  | .tqput _ => true
  | .twait _ _ => true
  | .tpoll _ _ _ => true
  | .tstat _ _ => true
  | .nlbin _ => true
  | .nlpair _ _ => true
  | .nlstat _ _ => true
  | .tap _ => true
  | .tapw _ _ => true
  | .taprd _ => true
  | .taped _ => true
  | .tapresCont => true
  | .tapresEdit => true
  | .tapresAbort => true
  | .frule _ _ => true
  | .launch _ _ => true
  | .trsig _ _ => true
  | .trwait _ _ => true
  | .shape _ _ => true
  | .accup _ _ => true
  | .longLatencyComplete => true
  | .splitOverflowExchange => true
  | .dispatchWarpForm => true
  | .notificationDelivery => true
  | .debugFreeze _ _ => true
  | .debugStep _ _ => true
  | .preemptRequest _ _ => true
  | .preemptDeadline => true
  | .darkslideSwap _ => true
  | .contextRestore _ => true
  | .resume _ _ => true
  | .kill _ => true
  | .budgetExpiry => true
  | .sleepWake => true
  | .majorityTimeout => true
  | .trwaitRetry _ _ => true
  | .trsigUpdateDone => true
  | .trsigAbandon => true
  | .tileTaskDispatch => true
  | .rowGroupWritten _ _ => true
  | .taskFault _ _ => true
  | .copyCommandStart => true
  | .chunkFilled _ _ => true
  | .copyFault _ _ => true
  | .growDecided => true
  | .growTimeout => true
  | .nlbinComplete _ => true
  | .nleSlotFilled _ => true
  | .nleBlockTableDone _ => true
  | .nleFault _ => true
  | .fduRootRead _ => true
  | .fduIntakeEnd _ => true
  | .fduEncoderTaskDone _ => true
  | .fduSelectDone _ => true
  | .fduRuleUnit _ => true
  | .fduWriteback _ => true
  | .fduFault _ => true
  | .launchAdmit _ => true
  | .serviceLaunch _ _ => true
  | .bindRecord _ => true
  | .serviceMld _ _ => true
  | .serviceMst _ _ _ => true
  | .serviceMcas _ _ _ _ => true
  | .serviceTrsigUpdate _ _ _ => true
  | .scrubVisit _ => true
  | .rebuildVisit _ => true
  | .stackRetire _ => true
  | .stackReturn _ => true
  | .translationInvalidate _ _ _ => true
  | .scoreboardMismatch _ => true
  | .contact _ _ => true
  | .captureEnable _ _ _ => true
  | .replay _ => true
  | .deviceReset => true
  | .attestationReport _ => true
  | .firmwareLimitWrite _ => true
  | .remoteTimeout => true
  | .powerGateJudge => true
  | .thermalHalt => true
  | .egressRequest _ _ => true
  | .refusedWord _ => true
  | .instructionFetchFault => true
  | .debugContinue _ _ => true
  | .debugBreakpointHit _ _ => true
  | .contextCreation _ _ _ => true
  | .contextDestruction _ => true
  | .serviceKernelWatchdog _ _ => true
  | .serviceOrdinaryAccess _ _ _ => true
  | .hostDma _ _ _ => true
  | .skerryRemoteAccess _ _ _ => true
  | .recoveryImageLoad _ => true

/-- Every register and literal field lies in its kind, and pairs and quads are aligned (R88 step 2; R24, R35, R72). -/
def Instr.operandsOk : Instr → Bool
  | .nop => true
  | .bra _ _ _ => true
  | .jmpk a => decide (a.toNat ≤ 31)
  | .call _ _ => true
  | .callk a _ => decide (a.toNat ≤ 31)
  | .ret => true
  | .srcv _ => true
  | .rcv => true
  | .exit => true
  | .yield => true
  | .yieldp => true
  | .sleep a => decide (a.toNat ≤ 31)
  | .setm _ => true
  | .setg _ _ => true
  | .sigchk _ => true
  | .trap _ _ => true
  | .tret => true
  | .role a => decide (a.toNat ≤ 31)
  | .dispq _ => true
  | .qend => true
  | .cjoin d a => decide (d.toNat ≤ 31 ∧ a.toNat ≤ 31)
  | .cleave d => decide (d.toNat ≤ 31)
  | .bara a b => decide (a.toNat ≤ 15 ∧ b.toNat ≤ 31)
  | .barw a b => decide (a.toNat ≤ 15 ∧ b.toNat ≤ 31)
  | .bars a b => decide (a.toNat ≤ 15 ∧ b.toNat ≤ 31)
  | .setrl _ => true
  | .srd d k i => decide (i.toNat ≤ 0x20 ∧ (k = 0 ∨ d.toNat ≤ 31) ∧ (i.toNat ≠ 0x0B ∨ k = 0) ∧ (i.toNat ≠ 0x20 ∨ k = 1))
  | .swrMode a k => decide ((k = 0 ∨ a.toNat ≤ 31))
  | .swrFflags a k => decide ((k = 0 ∨ a.toNat ≤ 31))
  | .swrStrand a k => decide ((k = 0 ∨ a.toNat ≤ 31))
  | .swrSpillb a k => decide ((k = 0 ∨ a.toNat ≤ 31))
  | .swrTrapc a k => decide ((k = 0 ∨ a.toNat ≤ 31))
  | .swrTrapv a k => decide ((k = 0 ∨ a.toNat ≤ 31))
  | .swrTrappc a k => decide ((k = 0 ∨ a.toNat ≤ 31))
  | .swrOvt a k => decide ((k = 0 ∨ a.toNat ≤ 31))
  | .bkpt _ => true
  | .ovtld a => decide (a.toNat ≤ 31)
  | .add _ _ b u => decide ((u = 0 ∨ b.toNat ≤ 31))
  | .sub _ _ b u => decide ((u = 0 ∨ b.toNat ≤ 31))
  | .mul _ _ b u => decide ((u = 0 ∨ b.toNat ≤ 31))
  | .mulh _ _ b u => decide ((u = 0 ∨ b.toNat ≤ 31))
  | .min _ _ b u => decide ((u = 0 ∨ b.toNat ≤ 31))
  | .max _ _ b u => decide ((u = 0 ∨ b.toNat ≤ 31))
  | .abs _ _ => true
  | .neg _ _ => true
  | .and _ _ b u => decide ((u = 0 ∨ b.toNat ≤ 31))
  | .or _ _ b u => decide ((u = 0 ∨ b.toNat ≤ 31))
  | .xor _ _ b u => decide ((u = 0 ∨ b.toNat ≤ 31))
  | .andn _ _ b u => decide ((u = 0 ∨ b.toNat ≤ 31))
  | .shl _ _ b u => decide ((u = 0 ∨ b.toNat ≤ 31))
  | .shr _ _ b u => decide ((u = 0 ∨ b.toNat ≤ 31))
  | .sar _ _ b u => decide ((u = 0 ∨ b.toNat ≤ 31))
  | .rol _ _ b u => decide ((u = 0 ∨ b.toNat ≤ 31))
  | .mad _ _ _ _ => true
  | .sel _ _ b u _ => decide ((u = 0 ∨ b.toNat ≤ 31))
  | .cmp d _ b u _ => decide (d.toNat ≤ 7 ∧ (u = 0 ∨ b.toNat ≤ 31))
  | .cmpi _ _ _ _ => true
  | .popc _ _ => true
  | .clz _ _ => true
  | .brev _ _ => true
  | .perm _ _ _ _ => true
  | .bfx _ _ _ _ => true
  | .bfi _ _ _ _ => true
  | .movx _ _ => true
  | .movxK _ b => decide (b.toNat ≤ 31)
  | .movi _ _ => true
  | .movh _ _ => true
  | .pmov d a => decide (d.toNat ≤ 31 ∧ a.toNat ≤ 7)
  | .pset d a => decide (d.toNat ≤ 7 ∧ a.toNat ≤ 31)
  | .plog d a b _ => decide (d.toNat ≤ 7 ∧ a.toNat ≤ 7 ∧ b.toNat ≤ 7)
  | .addi _ _ _ => true
  | .andi _ _ _ => true
  | .ori _ _ _ => true
  | .xori _ _ _ => true
  | .shli _ _ _ => true
  | .shri _ _ _ => true
  | .sari _ _ _ => true
  | .muli _ _ _ => true
  | .mini _ _ _ => true
  | .maxi _ _ _ => true
  | .fadd _ _ b u => decide ((u = 0 ∨ b.toNat ≤ 31))
  | .fsub _ _ b u => decide ((u = 0 ∨ b.toNat ≤ 31))
  | .fmul _ _ b u => decide ((u = 0 ∨ b.toNat ≤ 31))
  | .fma _ _ _ _ => true
  | .fmin _ _ b u => decide ((u = 0 ∨ b.toNat ≤ 31))
  | .fmax _ _ b u => decide ((u = 0 ∨ b.toNat ≤ 31))
  | .fabs _ _ => true
  | .fneg _ _ => true
  | .fcmp d _ b u _ => decide (d.toNat ≤ 7 ∧ (u = 0 ∨ b.toNat ≤ 31))
  | .cvt _ _ _ => true
  | .cvtz _ _ _ => true
  | .frnd _ _ => true
  | .fcls _ _ => true
  | .pack _ _ _ _ => true
  | .unpk _ _ _ _ => true
  | .rcp _ _ _ => true
  | .rsq _ _ _ => true
  | .lg2 _ _ _ => true
  | .ex2 _ _ _ => true
  | .sin _ _ _ => true
  | .cos _ _ _ => true
  | .tanh _ _ _ => true
  | .ppe _ _ _ _ => true
  | .ppld a b _ _ => decide (a.toNat ≤ 31 ∧ b.toNat ≤ 31)
  | .shflFrom _ _ _ _ => true
  | .shflRot _ _ _ _ => true
  | .shflRotn _ _ _ _ => true
  | .shflXor _ _ _ _ => true
  | .voteQuorum d a b _ => decide (d.toNat ≤ 7 ∧ a.toNat ≤ 7 ∧ b.toNat ≤ 31)
  | .voteUnan d a _ => decide (d.toNat ≤ 7 ∧ a.toNat ≤ 7)
  | .voteMask d a _ => decide (d.toNat ≤ 31 ∧ a.toNat ≤ 7)
  | .voteCount d a _ => decide (d.toNat ≤ 31 ∧ a.toNat ≤ 7)
  | .redxAdd d _ _ => decide (d.toNat ≤ 31)
  | .redxMin d _ _ => decide (d.toNat ≤ 31)
  | .redxMax d _ _ => decide (d.toNat ≤ 31)
  | .argmxMax d _ _ => decide (d.toNat ≤ 31)
  | .argmxMin d _ _ => decide (d.toNat ≤ 31)
  | .scanAddIncl _ _ _ => true
  | .scanAddExcl _ _ _ => true
  | .scanMax _ _ _ => true
  | .scanMin _ _ _ => true
  | .matchLanes _ _ _ => true
  | .x2k d _ b _ => decide (d.toNat ≤ 31 ∧ b.toNat ≤ 31)
  | .kadd d a b => decide (d.toNat ≤ 31 ∧ a.toNat ≤ 31 ∧ b.toNat ≤ 31)
  | .ksub d a b => decide (d.toNat ≤ 31 ∧ a.toNat ≤ 31 ∧ b.toNat ≤ 31)
  | .kmul d a b => decide (d.toNat ≤ 31 ∧ a.toNat ≤ 31 ∧ b.toNat ≤ 31)
  | .kand d a b => decide (d.toNat ≤ 31 ∧ a.toNat ≤ 31 ∧ b.toNat ≤ 31)
  | .kor d a b => decide (d.toNat ≤ 31 ∧ a.toNat ≤ 31 ∧ b.toNat ≤ 31)
  | .kxor d a b => decide (d.toNat ≤ 31 ∧ a.toNat ≤ 31 ∧ b.toNat ≤ 31)
  | .kshl d a b => decide (d.toNat ≤ 31 ∧ a.toNat ≤ 31 ∧ b.toNat ≤ 31)
  | .kshr d a b => decide (d.toNat ≤ 31 ∧ a.toNat ≤ 31 ∧ b.toNat ≤ 31)
  | .kaddi d a _ => decide (d.toNat ≤ 31 ∧ a.toNat ≤ 31)
  | .kmovi d _ => decide (d.toNat ≤ 31)
  | .kcat d _ => decide (d.toNat ≤ 31)
  | .kcmp d a b _ => decide (d.toNat ≤ 31 ∧ a.toNat ≤ 31 ∧ b.toNat ≤ 31)
  | .ksel d a b _ => decide (d.toNat ≤ 31 ∧ a.toNat ≤ 31 ∧ b.toNat ≤ 31)
  | .kmin d a b => decide (d.toNat ≤ 31 ∧ a.toNat ≤ 31 ∧ b.toNat ≤ 31)
  | .kminU d a b => decide (d.toNat ≤ 31 ∧ a.toNat ≤ 31 ∧ b.toNat ≤ 31)
  | .kmax d a b => decide (d.toNat ≤ 31 ∧ a.toNat ≤ 31 ∧ b.toNat ≤ 31)
  | .kmaxU d a b => decide (d.toNat ≤ 31 ∧ a.toNat ≤ 31 ∧ b.toNat ≤ 31)
  | .ldb _ _ _ _ _ _ => true
  | .ldbs _ _ _ _ _ _ => true
  | .ldh _ _ _ _ _ _ => true
  | .ldhs _ _ _ _ _ _ => true
  | .ldw _ _ _ _ _ _ => true
  | .ldd d _ _ _ _ _ => decide (d.toNat % 2 = 0)
  | .ldq d _ _ _ _ _ => decide (d.toNat % 4 = 0)
  | .lda _ _ _ _ _ _ => true
  | .stb _ _ _ _ _ _ => true
  | .sth _ _ _ _ _ _ => true
  | .stw _ _ _ _ _ _ => true
  | .std d _ _ _ _ _ => decide (d.toNat % 2 = 0)
  | .stq d _ _ _ _ _ => decide (d.toNat % 4 = 0)
  | .stl _ _ _ _ _ _ => true
  | .kld d _ _ => decide (d.toNat ≤ 31)
  | .kst d _ _ => decide (d.toNat ≤ 31)
  | .atadd _ _ _ _ _ _ => true
  | .atmin _ _ _ _ _ _ => true
  | .atmax _ _ _ _ _ _ => true
  | .atand _ _ _ _ _ _ => true
  | .ator _ _ _ _ _ _ => true
  | .atxor _ _ _ _ _ _ => true
  | .atxch _ _ _ _ _ _ => true
  | .atcas d _ _ _ _ _ => decide (d.toNat % 2 = 0)
  | .reda _ _ _ _ _ _ => true
  | .redaf _ _ _ _ _ _ => true
  | .mld d _ _ => decide (d.toNat ≤ 31 ∧ d.toNat % 4 = 0)
  | .mst d _ _ _ => decide (d.toNat ≤ 31 ∧ d.toNat % 4 = 0)
  | .mcas d e _ _ _ => decide (d.toNat ≤ 31 ∧ d.toNat % 4 = 0 ∧ e.toNat ≤ 31)
  | .fence _ _ c => decide (c.toNat ≤ 5)
  | .cinvL1 a b => decide (a.toNat ≤ 31 ∧ b.toNat ≤ 31)
  | .cinvDie a b => decide (a.toNat ≤ 31 ∧ b.toNat ≤ 31)
  | .finv a => decide (a.toNat ≤ 31)
  | .rngdef r b => decide (r.toNat ≤ 7 ∧ b.toNat ≤ 31)
  | .cpy r b _ => decide (r.toNat ≤ 7 ∧ b.toNat ≤ 31)
  | .cpym m r b _ => decide (r.toNat ≤ 7 ∧ b.toNat ≤ 31 ∧ m.toNat ≤ 31)
  | .awaitf r => decide (r.toNat ≤ 7)
  | .awaitfC r b => decide (r.toNat ≤ 7 ∧ b.toNat ≤ 31)
  | .rels r => decide (r.toNat ≤ 7)
  | .rngst d r => decide (r.toNat ≤ 7 ∧ d.toNat ≤ 31)
  | .fetch _ _ b _ => decide (b.toNat ≤ 31)
  | .mpath d _ b _ => decide (d.toNat % 2 = 0 ∧ b.toNat ≤ 31)
  | .tdef a b => decide (a.toNat ≤ 31 ∧ b.toNat ≤ 31)
  | .tqput a => decide (a.toNat ≤ 31)
  | .twait _ b => decide (b.toNat ≤ 31)
  | .tpoll d _ b => decide (d.toNat ≤ 7 ∧ b.toNat ≤ 31)
  | .tstat d a => decide (d.toNat ≤ 31 ∧ a.toNat ≤ 31)
  | .nlbin a => decide (a.toNat ≤ 31)
  | .nlpair a r => decide (a.toNat ≤ 31 ∧ r.toNat ≤ 7)
  | .nlstat d a => decide (d.toNat ≤ 31 ∧ a.toNat ≤ 31)
  | .tap a => decide (a.toNat ≤ 31)
  | .tapw s b => decide (s.toNat ≤ 15 ∧ b.toNat ≤ 31)
  | .taprd d => decide (d.toNat ≤ 31 ∧ d.toNat % 4 = 0)
  | .taped a => decide (a.toNat ≤ 31)
  | .tapresCont => true
  | .tapresEdit => true
  | .tapresAbort => true
  | .frule a b => decide (a.toNat ≤ 31 ∧ b.toNat ≤ 31 ∧ b.toNat % 2 = 0)
  | .launch d a => decide (d.toNat ≤ 31 ∧ a.toNat ≤ 31)
  | .trsig a b => decide (a.toNat ≤ 31 ∧ b.toNat ≤ 31)
  | .trwait a b => decide (a.toNat ≤ 31 ∧ b.toNat ≤ 31)
  | .shape d a => decide (d.toNat ≤ 31 ∧ a.toNat ≤ 31)
  | .accup d a => decide (d.toNat ≤ 31 ∧ a.toNat ≤ 31)
  | .longLatencyComplete => true
  | .splitOverflowExchange => true
  | .dispatchWarpForm => true
  | .notificationDelivery => true
  | .debugFreeze _ _ => true
  | .debugStep _ _ => true
  | .preemptRequest _ _ => true
  | .preemptDeadline => true
  | .darkslideSwap _ => true
  | .contextRestore _ => true
  | .resume _ _ => true
  | .kill _ => true
  | .budgetExpiry => true
  | .sleepWake => true
  | .majorityTimeout => true
  | .trwaitRetry _ _ => true
  | .trsigUpdateDone => true
  | .trsigAbandon => true
  | .tileTaskDispatch => true
  | .rowGroupWritten _ _ => true
  | .taskFault _ _ => true
  | .copyCommandStart => true
  | .chunkFilled _ _ => true
  | .copyFault _ _ => true
  | .growDecided => true
  | .growTimeout => true
  | .nlbinComplete _ => true
  | .nleSlotFilled _ => true
  | .nleBlockTableDone _ => true
  | .nleFault _ => true
  | .fduRootRead _ => true
  | .fduIntakeEnd _ => true
  | .fduEncoderTaskDone _ => true
  | .fduSelectDone _ => true
  | .fduRuleUnit _ => true
  | .fduWriteback _ => true
  | .fduFault _ => true
  | .launchAdmit _ => true
  | .serviceLaunch _ _ => true
  | .bindRecord _ => true
  | .serviceMld _ _ => true
  | .serviceMst _ _ _ => true
  | .serviceMcas _ _ _ _ => true
  | .serviceTrsigUpdate _ _ _ => true
  | .scrubVisit _ => true
  | .rebuildVisit _ => true
  | .stackRetire _ => true
  | .stackReturn _ => true
  | .translationInvalidate _ _ _ => true
  | .scoreboardMismatch _ => true
  | .contact _ _ => true
  | .captureEnable _ _ _ => true
  | .replay _ => true
  | .deviceReset => true
  | .attestationReport _ => true
  | .firmwareLimitWrite _ => true
  | .remoteTimeout => true
  | .powerGateJudge => true
  | .thermalHalt => true
  | .egressRequest _ _ => true
  | .refusedWord _ => true
  | .instructionFetchFault => true
  | .debugContinue _ _ => true
  | .debugBreakpointHit _ _ => true
  | .contextCreation _ _ _ => true
  | .contextDestruction _ => true
  | .serviceKernelWatchdog _ _ => true
  | .serviceOrdinaryAccess _ _ _ => true
  | .hostDma _ _ _ => true
  | .skerryRemoteAccess _ _ _ => true
  | .recoveryImageLoad _ => true

/-- An encoded instruction whose word passes steps 1 and 2 of R88. -/
def Instr.wf (i : Instr) : Bool := !i.isEvent && i.legal && i.operandsOk

end Sys2Proof
end

