-- ==== Sys2Proof/Decode.lean ====
section
/-! DEFINITION. The decoder and the encoder of instruction words (03 R70 to R88). The decoder answers the row of
spec/opcode_table.json whose fixed bits a word has, and refuses every other word by the cause R88 gives it. -/

namespace Sys2Proof

/-- Bits [lo + n - 1 : lo] of a number. -/
def bits (w lo n : Nat) : Nat := w / 2 ^ lo % 2 ^ n

/-- Bits [lo + n - 1 : lo] of a word, as a field. -/
def fld (w lo n : Nat) : BitVec n := BitVec.ofNat n (w / 2 ^ lo)

/-- The rows of opcode class 0x0_ (R76). -/
def decodeClass0 (w : Nat) : Option Instr :=
  match w / 0x1000000 % 16 with
  | 1 =>
      if bits w 0 24 == 0 then some (.nop)
      else none
  | 2 => some (.bra (fld w 21 3) (fld w 20 1) (fld w 0 20))
  | 3 =>
      if bits w 0 12 == 0 && bits w 18 6 == 0 then some (.jmpk (fld w 12 6))
      else none
  | 4 => some (.call (fld w 20 4) (fld w 0 20))
  | 5 =>
      if bits w 4 8 == 0 && bits w 18 6 == 0 then some (.callk (fld w 12 6) (fld w 0 4))
      else none
  | 6 =>
      if bits w 0 24 == 0 then some (.ret)
      else none
  | 7 => some (.srcv (fld w 0 24))
  | 8 =>
      if bits w 0 24 == 0 then some (.rcv)
      else none
  | 9 =>
      if bits w 0 24 == 0 then some (.exit)
      else none
  | 10 =>
      if bits w 0 24 == 0 then some (.yield)
      else none
  | 11 =>
      if bits w 0 24 == 0 then some (.yieldp)
      else none
  | 12 =>
      if bits w 0 12 == 0 && bits w 18 6 == 0 then some (.sleep (fld w 12 6))
      else none
  | 13 =>
      if bits w 18 6 == 0 then some (.setm (fld w 0 18))
      else none
  | 14 =>
      if bits w 4 20 == 0 then some (.setg (fld w 3 1) (fld w 0 3))
      else none
  | 15 => some (.sigchk (fld w 0 24))
  | _ => none

/-- The rows of opcode class 0x1_ (R76). -/
def decodeClass1 (w : Nat) : Option Instr :=
  match w / 0x1000000 % 16 with
  | 0 => some (.trap (fld w 8 16) (fld w 0 8))
  | 1 =>
      if bits w 0 24 == 0 then some (.tret)
      else none
  | 2 =>
      if bits w 0 12 == 0 && bits w 18 6 == 0 then some (.role (fld w 12 6))
      else none
  | 3 =>
      if bits w 0 12 == 0 && bits w 18 6 == 0 then some (.dispq (fld w 12 6))
      else none
  | 4 =>
      if bits w 0 24 == 0 then some (.qend)
      else none
  | 5 =>
      if bits w 0 12 == 0 then some (.cjoin (fld w 18 6) (fld w 12 6))
      else none
  | 6 =>
      if bits w 0 18 == 0 then some (.cleave (fld w 18 6))
      else none
  | 7 =>
      if bits w 0 6 == 0 && bits w 18 6 == 0 then some (.bara (fld w 12 6) (fld w 6 6))
      else none
  | 8 =>
      if bits w 0 6 == 0 && bits w 18 6 == 0 then some (.barw (fld w 12 6) (fld w 6 6))
      else none
  | 9 =>
      if bits w 0 6 == 0 && bits w 18 6 == 0 then some (.bars (fld w 12 6) (fld w 6 6))
      else none
  | 10 => some (.setrl (fld w 0 24))
  | 11 =>
      if bits w 7 11 == 0 then some (.srd (fld w 18 6) (fld w 6 1) (fld w 0 6))
      else none
  | 12 =>
      if bits w 0 6 == 0 && bits w 7 5 == 0 && bits w 18 6 == 0 then some (.swrMode (fld w 12 6) (fld w 6 1))
      else if bits w 0 6 == 1 && bits w 7 5 == 0 && bits w 18 6 == 0 then some (.swrFflags (fld w 12 6) (fld w 6 1))
      else if bits w 0 6 == 5 && bits w 7 5 == 0 && bits w 18 6 == 0 then some (.swrStrand (fld w 12 6) (fld w 6 1))
      else if bits w 0 6 == 8 && bits w 7 5 == 0 && bits w 18 6 == 0 then some (.swrSpillb (fld w 12 6) (fld w 6 1))
      else if bits w 0 6 == 20 && bits w 7 5 == 0 && bits w 18 6 == 0 then some (.swrTrapc (fld w 12 6) (fld w 6 1))
      else if bits w 0 6 == 21 && bits w 7 5 == 0 && bits w 18 6 == 0 then some (.swrTrapv (fld w 12 6) (fld w 6 1))
      else if bits w 0 6 == 22 && bits w 7 5 == 0 && bits w 18 6 == 0 then some (.swrTrappc (fld w 12 6) (fld w 6 1))
      else if bits w 0 6 == 23 && bits w 7 5 == 0 && bits w 18 6 == 0 then some (.swrOvt (fld w 12 6) (fld w 6 1))
      else none
  | 13 => some (.bkpt (fld w 0 24))
  | 14 =>
      if bits w 0 12 == 0 && bits w 18 6 == 0 then some (.ovtld (fld w 12 6))
      else none
  | _ => none

/-- The rows of opcode class 0x2_ (R76). -/
def decodeClass2 (w : Nat) : Option Instr :=
  match w / 0x1000000 % 16 with
  | 0 =>
      if bits w 0 5 == 0 then some (.add (fld w 18 6) (fld w 12 6) (fld w 6 6) (fld w 5 1))
      else none
  | 1 =>
      if bits w 0 5 == 0 then some (.sub (fld w 18 6) (fld w 12 6) (fld w 6 6) (fld w 5 1))
      else none
  | 2 =>
      if bits w 0 5 == 0 then some (.mul (fld w 18 6) (fld w 12 6) (fld w 6 6) (fld w 5 1))
      else none
  | 3 =>
      if bits w 0 5 == 0 then some (.mulh (fld w 18 6) (fld w 12 6) (fld w 6 6) (fld w 5 1))
      else none
  | 4 =>
      if bits w 0 5 == 0 then some (.min (fld w 18 6) (fld w 12 6) (fld w 6 6) (fld w 5 1))
      else none
  | 5 =>
      if bits w 0 5 == 0 then some (.max (fld w 18 6) (fld w 12 6) (fld w 6 6) (fld w 5 1))
      else none
  | 6 =>
      if bits w 0 12 == 0 then some (.abs (fld w 18 6) (fld w 12 6))
      else none
  | 7 =>
      if bits w 0 12 == 0 then some (.neg (fld w 18 6) (fld w 12 6))
      else none
  | 8 =>
      if bits w 0 5 == 0 then some (.and (fld w 18 6) (fld w 12 6) (fld w 6 6) (fld w 5 1))
      else none
  | 9 =>
      if bits w 0 5 == 0 then some (.or (fld w 18 6) (fld w 12 6) (fld w 6 6) (fld w 5 1))
      else none
  | 10 =>
      if bits w 0 5 == 0 then some (.xor (fld w 18 6) (fld w 12 6) (fld w 6 6) (fld w 5 1))
      else none
  | 11 =>
      if bits w 0 5 == 0 then some (.andn (fld w 18 6) (fld w 12 6) (fld w 6 6) (fld w 5 1))
      else none
  | 12 =>
      if bits w 0 5 == 0 then some (.shl (fld w 18 6) (fld w 12 6) (fld w 6 6) (fld w 5 1))
      else none
  | 13 =>
      if bits w 0 5 == 0 then some (.shr (fld w 18 6) (fld w 12 6) (fld w 6 6) (fld w 5 1))
      else none
  | 14 =>
      if bits w 0 5 == 0 then some (.sar (fld w 18 6) (fld w 12 6) (fld w 6 6) (fld w 5 1))
      else none
  | 15 =>
      if bits w 0 5 == 0 then some (.rol (fld w 18 6) (fld w 12 6) (fld w 6 6) (fld w 5 1))
      else none
  | _ => none

/-- The rows of opcode class 0x3_ (R76). -/
def decodeClass3 (w : Nat) : Option Instr :=
  match w / 0x1000000 % 16 with
  | 0 => some (.mad (fld w 18 6) (fld w 12 6) (fld w 6 6) (fld w 0 6))
  | 1 =>
      if bits w 3 2 == 0 then some (.sel (fld w 18 6) (fld w 12 6) (fld w 6 6) (fld w 5 1) (fld w 0 3))
      else none
  | 2 => some (.cmp (fld w 18 6) (fld w 12 6) (fld w 6 6) (fld w 5 1) (fld w 0 5))
  | 3 => some (.cmpi (fld w 21 3) (fld w 18 3) (fld w 12 6) (fld w 0 12))
  | 4 =>
      if bits w 0 12 == 0 then some (.popc (fld w 18 6) (fld w 12 6))
      else none
  | 5 =>
      if bits w 0 12 == 0 then some (.clz (fld w 18 6) (fld w 12 6))
      else none
  | 6 =>
      if bits w 0 12 == 0 then some (.brev (fld w 18 6) (fld w 12 6))
      else none
  | 7 => some (.perm (fld w 18 6) (fld w 12 6) (fld w 6 6) (fld w 0 6))
  | 8 => some (.bfx (fld w 18 6) (fld w 12 6) (fld w 6 6) (fld w 0 6))
  | 9 => some (.bfi (fld w 18 6) (fld w 12 6) (fld w 6 6) (fld w 0 6))
  | 10 =>
      if bits w 0 12 == 0 then some (.movx (fld w 18 6) (fld w 12 6))
      else if bits w 0 6 == 32 && bits w 12 6 == 0 then some (.movxK (fld w 18 6) (fld w 6 6))
      else none
  | 11 => some (.movi (fld w 18 6) (fld w 0 18))
  | 12 => some (.movh (fld w 18 6) (fld w 0 18))
  | 13 =>
      if bits w 0 12 == 0 then some (.pmov (fld w 18 6) (fld w 12 6))
      else none
  | 14 =>
      if bits w 0 12 == 0 then some (.pset (fld w 18 6) (fld w 12 6))
      else none
  | 15 =>
      if bits w 4 2 == 0 then some (.plog (fld w 18 6) (fld w 12 6) (fld w 6 6) (fld w 0 4))
      else none
  | _ => none

/-- The rows of opcode class 0x4_ (R76). -/
def decodeClass4 (w : Nat) : Option Instr :=
  match w / 0x1000000 % 16 with
  | 0 => some (.addi (fld w 18 6) (fld w 12 6) (fld w 0 12))
  | 1 => some (.andi (fld w 18 6) (fld w 12 6) (fld w 0 12))
  | 2 => some (.ori (fld w 18 6) (fld w 12 6) (fld w 0 12))
  | 3 => some (.xori (fld w 18 6) (fld w 12 6) (fld w 0 12))
  | 4 =>
      if bits w 6 6 == 0 then some (.shli (fld w 18 6) (fld w 12 6) (fld w 0 6))
      else none
  | 5 =>
      if bits w 6 6 == 0 then some (.shri (fld w 18 6) (fld w 12 6) (fld w 0 6))
      else none
  | 6 =>
      if bits w 6 6 == 0 then some (.sari (fld w 18 6) (fld w 12 6) (fld w 0 6))
      else none
  | 7 => some (.muli (fld w 18 6) (fld w 12 6) (fld w 0 12))
  | 8 => some (.mini (fld w 18 6) (fld w 12 6) (fld w 0 12))
  | 9 => some (.maxi (fld w 18 6) (fld w 12 6) (fld w 0 12))
  | _ => none

/-- The rows of opcode class 0x5_ (R76). -/
def decodeClass5 (w : Nat) : Option Instr :=
  match w / 0x1000000 % 16 with
  | 0 =>
      if bits w 0 5 == 0 then some (.fadd (fld w 18 6) (fld w 12 6) (fld w 6 6) (fld w 5 1))
      else none
  | 1 =>
      if bits w 0 5 == 0 then some (.fsub (fld w 18 6) (fld w 12 6) (fld w 6 6) (fld w 5 1))
      else none
  | 2 =>
      if bits w 0 5 == 0 then some (.fmul (fld w 18 6) (fld w 12 6) (fld w 6 6) (fld w 5 1))
      else none
  | 3 => some (.fma (fld w 18 6) (fld w 12 6) (fld w 6 6) (fld w 0 6))
  | 4 =>
      if bits w 0 5 == 0 then some (.fmin (fld w 18 6) (fld w 12 6) (fld w 6 6) (fld w 5 1))
      else none
  | 5 =>
      if bits w 0 5 == 0 then some (.fmax (fld w 18 6) (fld w 12 6) (fld w 6 6) (fld w 5 1))
      else none
  | 6 =>
      if bits w 0 12 == 0 then some (.fabs (fld w 18 6) (fld w 12 6))
      else none
  | 7 =>
      if bits w 0 12 == 0 then some (.fneg (fld w 18 6) (fld w 12 6))
      else none
  | 8 => some (.fcmp (fld w 18 6) (fld w 12 6) (fld w 6 6) (fld w 5 1) (fld w 0 5))
  | 9 =>
      if bits w 4 8 == 0 then some (.cvt (fld w 18 6) (fld w 12 6) (fld w 0 4))
      else none
  | 10 =>
      if bits w 4 8 == 0 then some (.cvtz (fld w 18 6) (fld w 12 6) (fld w 0 4))
      else none
  | 11 =>
      if bits w 0 12 == 0 then some (.frnd (fld w 18 6) (fld w 12 6))
      else none
  | 12 =>
      if bits w 0 12 == 0 then some (.fcls (fld w 18 6) (fld w 12 6))
      else none
  | 13 =>
      if bits w 4 2 == 0 then some (.pack (fld w 18 6) (fld w 12 6) (fld w 6 6) (fld w 0 4))
      else none
  | 14 =>
      if bits w 5 7 == 0 then some (.unpk (fld w 18 6) (fld w 12 6) (fld w 4 1) (fld w 0 4))
      else none
  | _ => none

/-- The rows of opcode class 0x6_ (R76). -/
def decodeClass6 (w : Nat) : Option Instr :=
  match w / 0x1000000 % 16 with
  | 0 =>
      if bits w 0 2 == 0 && bits w 6 6 == 0 then some (.rcp (fld w 18 6) (fld w 12 6) (fld w 2 4))
      else none
  | 1 =>
      if bits w 0 2 == 0 && bits w 6 6 == 0 then some (.rsq (fld w 18 6) (fld w 12 6) (fld w 2 4))
      else none
  | 2 =>
      if bits w 0 2 == 0 && bits w 6 6 == 0 then some (.lg2 (fld w 18 6) (fld w 12 6) (fld w 2 4))
      else none
  | 3 =>
      if bits w 0 2 == 0 && bits w 6 6 == 0 then some (.ex2 (fld w 18 6) (fld w 12 6) (fld w 2 4))
      else none
  | 4 =>
      if bits w 0 2 == 0 && bits w 6 6 == 0 then some (.sin (fld w 18 6) (fld w 12 6) (fld w 2 4))
      else none
  | 5 =>
      if bits w 0 2 == 0 && bits w 6 6 == 0 then some (.cos (fld w 18 6) (fld w 12 6) (fld w 2 4))
      else none
  | 6 =>
      if bits w 0 2 == 0 && bits w 6 6 == 0 then some (.tanh (fld w 18 6) (fld w 12 6) (fld w 2 4))
      else none
  | 7 =>
      if bits w 6 6 == 0 then some (.ppe (fld w 18 6) (fld w 12 6) (fld w 2 4) (fld w 0 2))
      else none
  | 8 =>
      if bits w 18 6 == 0 then some (.ppld (fld w 12 6) (fld w 6 6) (fld w 2 4) (fld w 0 2))
      else none
  | _ => none

/-- The rows of opcode class 0x7_ (R76). -/
def decodeClass7 (w : Nat) : Option Instr :=
  match w / 0x1000000 % 16 with
  | 0 =>
      if bits w 0 2 == 0 then some (.shflFrom (fld w 18 6) (fld w 12 6) (fld w 6 6) (fld w 2 4))
      else if bits w 0 2 == 1 then some (.shflRot (fld w 18 6) (fld w 12 6) (fld w 6 6) (fld w 2 4))
      else if bits w 0 2 == 2 then some (.shflRotn (fld w 18 6) (fld w 12 6) (fld w 6 6) (fld w 2 4))
      else if bits w 0 2 == 3 then some (.shflXor (fld w 18 6) (fld w 12 6) (fld w 6 6) (fld w 2 4))
      else none
  | 1 =>
      if bits w 0 2 == 0 then some (.voteQuorum (fld w 18 6) (fld w 12 6) (fld w 6 6) (fld w 2 4))
      else if bits w 0 2 == 1 && bits w 6 6 == 0 then some (.voteUnan (fld w 18 6) (fld w 12 6) (fld w 2 4))
      else if bits w 0 2 == 2 && bits w 6 6 == 0 then some (.voteMask (fld w 18 6) (fld w 12 6) (fld w 2 4))
      else if bits w 0 2 == 3 && bits w 6 6 == 0 then some (.voteCount (fld w 18 6) (fld w 12 6) (fld w 2 4))
      else none
  | 2 =>
      if bits w 0 2 == 0 && bits w 6 6 == 0 then some (.redxAdd (fld w 18 6) (fld w 12 6) (fld w 2 4))
      else if bits w 0 2 == 1 && bits w 6 6 == 0 then some (.redxMin (fld w 18 6) (fld w 12 6) (fld w 2 4))
      else if bits w 0 2 == 2 && bits w 6 6 == 0 then some (.redxMax (fld w 18 6) (fld w 12 6) (fld w 2 4))
      else none
  | 3 =>
      if bits w 0 2 == 0 && bits w 6 6 == 0 then some (.argmxMax (fld w 18 6) (fld w 12 6) (fld w 2 4))
      else if bits w 0 2 == 1 && bits w 6 6 == 0 then some (.argmxMin (fld w 18 6) (fld w 12 6) (fld w 2 4))
      else none
  | 4 =>
      if bits w 0 2 == 0 && bits w 6 6 == 0 then some (.scanAddIncl (fld w 18 6) (fld w 12 6) (fld w 2 4))
      else if bits w 0 2 == 1 && bits w 6 6 == 0 then some (.scanAddExcl (fld w 18 6) (fld w 12 6) (fld w 2 4))
      else if bits w 0 2 == 2 && bits w 6 6 == 0 then some (.scanMax (fld w 18 6) (fld w 12 6) (fld w 2 4))
      else if bits w 0 2 == 3 && bits w 6 6 == 0 then some (.scanMin (fld w 18 6) (fld w 12 6) (fld w 2 4))
      else none
  | 5 =>
      if bits w 0 2 == 0 && bits w 6 6 == 0 then some (.matchLanes (fld w 18 6) (fld w 12 6) (fld w 2 4))
      else none
  | 6 =>
      if bits w 0 2 == 0 then some (.x2k (fld w 18 6) (fld w 12 6) (fld w 6 6) (fld w 2 4))
      else none
  | _ => none

/-- The rows of opcode class 0x8_ (R76). -/
def decodeClass8 (w : Nat) : Option Instr :=
  match w / 0x1000000 % 16 with
  | 0 =>
      if bits w 0 6 == 0 then some (.kadd (fld w 18 6) (fld w 12 6) (fld w 6 6))
      else none
  | 1 =>
      if bits w 0 6 == 0 then some (.ksub (fld w 18 6) (fld w 12 6) (fld w 6 6))
      else none
  | 2 =>
      if bits w 0 6 == 0 then some (.kmul (fld w 18 6) (fld w 12 6) (fld w 6 6))
      else none
  | 3 =>
      if bits w 0 6 == 0 then some (.kand (fld w 18 6) (fld w 12 6) (fld w 6 6))
      else none
  | 4 =>
      if bits w 0 6 == 0 then some (.kor (fld w 18 6) (fld w 12 6) (fld w 6 6))
      else none
  | 5 =>
      if bits w 0 6 == 0 then some (.kxor (fld w 18 6) (fld w 12 6) (fld w 6 6))
      else none
  | 6 =>
      if bits w 0 6 == 0 then some (.kshl (fld w 18 6) (fld w 12 6) (fld w 6 6))
      else none
  | 7 =>
      if bits w 0 6 == 0 then some (.kshr (fld w 18 6) (fld w 12 6) (fld w 6 6))
      else none
  | 8 => some (.kaddi (fld w 18 6) (fld w 12 6) (fld w 0 12))
  | 9 => some (.kmovi (fld w 18 6) (fld w 0 18))
  | 10 => some (.kcat (fld w 18 6) (fld w 0 18))
  | 11 =>
      if bits w 5 1 == 0 then some (.kcmp (fld w 18 6) (fld w 12 6) (fld w 6 6) (fld w 0 5))
      else none
  | 12 =>
      if bits w 5 1 == 0 then some (.ksel (fld w 18 6) (fld w 12 6) (fld w 6 6) (fld w 0 5))
      else none
  | 13 =>
      if bits w 0 6 == 0 then some (.kmin (fld w 18 6) (fld w 12 6) (fld w 6 6))
      else if bits w 0 6 == 1 then some (.kminU (fld w 18 6) (fld w 12 6) (fld w 6 6))
      else none
  | 14 =>
      if bits w 0 6 == 0 then some (.kmax (fld w 18 6) (fld w 12 6) (fld w 6 6))
      else if bits w 0 6 == 1 then some (.kmaxU (fld w 18 6) (fld w 12 6) (fld w 6 6))
      else none
  | _ => none

/-- The rows of opcode class 0x9_ (R76). -/
def decodeClass9 (w : Nat) : Option Instr :=
  match w / 0x1000000 % 16 with
  | 0 => some (.ldb (fld w 18 6) (fld w 12 6) (fld w 7 5) (fld w 3 4) (fld w 1 2) (fld w 0 1))
  | 1 => some (.ldbs (fld w 18 6) (fld w 12 6) (fld w 7 5) (fld w 3 4) (fld w 1 2) (fld w 0 1))
  | 2 => some (.ldh (fld w 18 6) (fld w 12 6) (fld w 7 5) (fld w 3 4) (fld w 1 2) (fld w 0 1))
  | 3 => some (.ldhs (fld w 18 6) (fld w 12 6) (fld w 7 5) (fld w 3 4) (fld w 1 2) (fld w 0 1))
  | 4 => some (.ldw (fld w 18 6) (fld w 12 6) (fld w 7 5) (fld w 3 4) (fld w 1 2) (fld w 0 1))
  | 5 => some (.ldd (fld w 18 6) (fld w 12 6) (fld w 7 5) (fld w 3 4) (fld w 1 2) (fld w 0 1))
  | 6 => some (.ldq (fld w 18 6) (fld w 12 6) (fld w 7 5) (fld w 3 4) (fld w 1 2) (fld w 0 1))
  | 7 => some (.lda (fld w 18 6) (fld w 12 6) (fld w 7 5) (fld w 3 4) (fld w 1 2) (fld w 0 1))
  | 8 => some (.stb (fld w 18 6) (fld w 12 6) (fld w 7 5) (fld w 3 4) (fld w 1 2) (fld w 0 1))
  | 9 => some (.sth (fld w 18 6) (fld w 12 6) (fld w 7 5) (fld w 3 4) (fld w 1 2) (fld w 0 1))
  | 10 => some (.stw (fld w 18 6) (fld w 12 6) (fld w 7 5) (fld w 3 4) (fld w 1 2) (fld w 0 1))
  | 11 => some (.std (fld w 18 6) (fld w 12 6) (fld w 7 5) (fld w 3 4) (fld w 1 2) (fld w 0 1))
  | 12 => some (.stq (fld w 18 6) (fld w 12 6) (fld w 7 5) (fld w 3 4) (fld w 1 2) (fld w 0 1))
  | 13 => some (.stl (fld w 18 6) (fld w 12 6) (fld w 7 5) (fld w 3 4) (fld w 1 2) (fld w 0 1))
  | 14 =>
      if bits w 0 3 == 0 && bits w 12 6 == 63 then some (.kld (fld w 18 6) (fld w 7 5) (fld w 3 4))
      else none
  | 15 =>
      if bits w 0 3 == 0 && bits w 12 6 == 63 then some (.kst (fld w 18 6) (fld w 7 5) (fld w 3 4))
      else none
  | _ => none

/-- The rows of opcode class 0xA_ (R76). -/
def decodeClassA (w : Nat) : Option Instr :=
  match w / 0x1000000 % 16 with
  | 0 => some (.atadd (fld w 18 6) (fld w 12 6) (fld w 7 5) (fld w 3 4) (fld w 1 2) (fld w 0 1))
  | 1 => some (.atmin (fld w 18 6) (fld w 12 6) (fld w 7 5) (fld w 3 4) (fld w 1 2) (fld w 0 1))
  | 2 => some (.atmax (fld w 18 6) (fld w 12 6) (fld w 7 5) (fld w 3 4) (fld w 1 2) (fld w 0 1))
  | 3 => some (.atand (fld w 18 6) (fld w 12 6) (fld w 7 5) (fld w 3 4) (fld w 1 2) (fld w 0 1))
  | 4 => some (.ator (fld w 18 6) (fld w 12 6) (fld w 7 5) (fld w 3 4) (fld w 1 2) (fld w 0 1))
  | 5 => some (.atxor (fld w 18 6) (fld w 12 6) (fld w 7 5) (fld w 3 4) (fld w 1 2) (fld w 0 1))
  | 6 => some (.atxch (fld w 18 6) (fld w 12 6) (fld w 7 5) (fld w 3 4) (fld w 1 2) (fld w 0 1))
  | 7 => some (.atcas (fld w 18 6) (fld w 12 6) (fld w 7 5) (fld w 3 4) (fld w 1 2) (fld w 0 1))
  | 8 => some (.reda (fld w 18 6) (fld w 12 6) (fld w 7 5) (fld w 3 4) (fld w 1 2) (fld w 0 1))
  | 9 => some (.redaf (fld w 18 6) (fld w 12 6) (fld w 7 5) (fld w 3 4) (fld w 1 2) (fld w 0 1))
  | 10 =>
      if bits w 0 3 == 0 && bits w 12 6 == 63 then some (.mld (fld w 18 6) (fld w 7 5) (fld w 3 4))
      else none
  | 11 =>
      if bits w 12 6 == 63 then some (.mst (fld w 18 6) (fld w 7 5) (fld w 3 4) (fld w 0 3))
      else none
  | 12 => some (.mcas (fld w 18 6) (fld w 12 6) (fld w 7 5) (fld w 3 4) (fld w 0 3))
  | 13 =>
      if bits w 0 6 == 0 then some (.fence (fld w 18 6) (fld w 12 6) (fld w 6 6))
      else none
  | 14 =>
      if bits w 0 6 == 0 && bits w 18 6 == 0 then some (.cinvL1 (fld w 12 6) (fld w 6 6))
      else if bits w 0 6 == 1 && bits w 18 6 == 0 then some (.cinvDie (fld w 12 6) (fld w 6 6))
      else none
  | 15 =>
      if bits w 0 12 == 0 && bits w 18 6 == 0 then some (.finv (fld w 12 6))
      else none
  | _ => none

/-- The rows of opcode class 0xB_ (R76). -/
def decodeClassB (w : Nat) : Option Instr :=
  match w / 0x1000000 % 16 with
  | 0 =>
      if bits w 0 6 == 0 && bits w 18 6 == 0 then some (.rngdef (fld w 12 6) (fld w 6 6))
      else none
  | 1 =>
      if bits w 2 4 == 0 && bits w 18 6 == 0 then some (.cpy (fld w 12 6) (fld w 6 6) (fld w 0 2))
      else none
  | 2 =>
      if bits w 2 4 == 0 then some (.cpym (fld w 18 6) (fld w 12 6) (fld w 6 6) (fld w 0 2))
      else none
  | 3 =>
      if bits w 0 12 == 0 && bits w 18 6 == 0 then some (.awaitf (fld w 12 6))
      else if bits w 0 6 == 1 && bits w 18 6 == 0 then some (.awaitfC (fld w 12 6) (fld w 6 6))
      else none
  | 4 =>
      if bits w 0 12 == 0 && bits w 18 6 == 0 then some (.rels (fld w 12 6))
      else none
  | 5 =>
      if bits w 0 12 == 0 then some (.rngst (fld w 18 6) (fld w 12 6))
      else none
  | 6 =>
      if bits w 0 2 == 0 then some (.fetch (fld w 18 6) (fld w 12 6) (fld w 6 6) (fld w 2 4))
      else none
  | 7 =>
      if bits w 0 2 == 0 then some (.mpath (fld w 18 6) (fld w 12 6) (fld w 6 6) (fld w 2 4))
      else none
  | 8 =>
      if bits w 0 6 == 0 && bits w 18 6 == 0 then some (.tdef (fld w 12 6) (fld w 6 6))
      else none
  | 9 =>
      if bits w 0 12 == 0 && bits w 18 6 == 0 then some (.tqput (fld w 12 6))
      else none
  | 10 =>
      if bits w 0 6 == 0 && bits w 18 6 == 0 then some (.twait (fld w 12 6) (fld w 6 6))
      else none
  | 11 =>
      if bits w 0 6 == 0 then some (.tpoll (fld w 18 6) (fld w 12 6) (fld w 6 6))
      else none
  | 12 =>
      if bits w 0 12 == 0 then some (.tstat (fld w 18 6) (fld w 12 6))
      else none
  | _ => none

/-- The rows of opcode class 0xC_ (R76). -/
def decodeClassC (w : Nat) : Option Instr :=
  match w / 0x1000000 % 16 with
  | 0 =>
      if bits w 0 12 == 0 && bits w 18 6 == 0 then some (.nlbin (fld w 12 6))
      else none
  | 1 =>
      if bits w 0 6 == 0 && bits w 18 6 == 0 then some (.nlpair (fld w 12 6) (fld w 6 6))
      else none
  | 2 =>
      if bits w 0 12 == 0 then some (.nlstat (fld w 18 6) (fld w 12 6))
      else none
  | 3 =>
      if bits w 0 12 == 0 && bits w 18 6 == 0 then some (.tap (fld w 12 6))
      else none
  | 4 =>
      if bits w 0 6 == 0 && bits w 18 6 == 0 then some (.tapw (fld w 12 6) (fld w 6 6))
      else none
  | 5 =>
      if bits w 0 18 == 0 then some (.taprd (fld w 18 6))
      else none
  | 6 =>
      if bits w 0 12 == 0 && bits w 18 6 == 0 then some (.taped (fld w 12 6))
      else none
  | 7 =>
      if bits w 0 24 == 0 then some (.tapresCont)
      else if bits w 0 24 == 1 then some (.tapresEdit)
      else if bits w 0 24 == 2 then some (.tapresAbort)
      else none
  | 8 =>
      if bits w 0 6 == 0 && bits w 18 6 == 0 then some (.frule (fld w 12 6) (fld w 6 6))
      else none
  | _ => none

/-- The rows of opcode class 0xD_ (R76). -/
def decodeClassD (w : Nat) : Option Instr :=
  match w / 0x1000000 % 16 with
  | 0 =>
      if bits w 0 12 == 0 then some (.launch (fld w 18 6) (fld w 12 6))
      else none
  | 1 =>
      if bits w 0 6 == 0 && bits w 18 6 == 0 then some (.trsig (fld w 12 6) (fld w 6 6))
      else none
  | 2 =>
      if bits w 0 6 == 0 && bits w 18 6 == 0 then some (.trwait (fld w 12 6) (fld w 6 6))
      else none
  | 3 =>
      if bits w 0 12 == 0 then some (.shape (fld w 18 6) (fld w 12 6))
      else none
  | 4 =>
      if bits w 0 12 == 0 then some (.accup (fld w 18 6) (fld w 12 6))
      else none
  | _ => none

/-- The row a word matches by its opcode and fixed bits (R76 to R84), the word as a number. -/
def decodeNat (w : Nat) : Option Instr :=
  match w / 0x10000000 with
  | 0 => decodeClass0 w
  | 1 => decodeClass1 w
  | 2 => decodeClass2 w
  | 3 => decodeClass3 w
  | 4 => decodeClass4 w
  | 5 => decodeClass5 w
  | 6 => decodeClass6 w
  | 7 => decodeClass7 w
  | 8 => decodeClass8 w
  | 9 => decodeClass9 w
  | 10 => decodeClassA w
  | 11 => decodeClassB w
  | 12 => decodeClassC w
  | 13 => decodeClassD w
  | _ => none

/-- Why a word is no row of the table: the cause R88 gives it in steps 1 and 2. -/
inductive Reject where
  | illegal
  | operand
  deriving DecidableEq, Repr

/-- The cause of a word that matches no row (R88): SWR of an id it may not write, and a memory word with an index field
other than 63 where none is taken, fail step 2; all other unmatched words fail step 1 (R35, R83). -/
def rejectOf (w : Nat) : Reject :=
  match w / 0x1000000 with
  | 0x1c => if bits w 7 5 == 0 && bits w 18 6 == 0 then .operand else .illegal
  | 0x9e => if bits w 0 3 == 0 then .operand else .illegal
  | 0x9f => if bits w 0 3 == 0 then .operand else .illegal
  | 0xaa => if bits w 0 3 == 0 then .operand else .illegal
  | 0xab => .operand
  | _ => .illegal

/-- The decoder: the instruction of a word, or the cause for which it is refused. It looks at the word alone: MODE decides
nothing of an encoding (R283). -/
def decode (w : Word) : Except Reject Instr :=
  match decodeNat w.toNat with
  | some i => .ok i
  | none => .error (rejectOf w.toNat)

/-- The word of an instruction as a number (R71, R76 to R84). An event has no word and gives 0. -/
def encodeNat : Instr → Nat
  | .nop => 0x01000000
  | .bra p s d => 0x02000000 + p.toNat * 0x200000 + s.toNat * 0x100000 + d.toNat
  | .jmpk a => 0x03000000 + a.toNat * 0x1000
  | .call c d => 0x04000000 + c.toNat * 0x100000 + d.toNat
  | .callk a c => 0x05000000 + a.toNat * 0x1000 + c.toNat
  | .ret => 0x06000000
  | .srcv d => 0x07000000 + d.toNat
  | .rcv => 0x08000000
  | .exit => 0x09000000
  | .yield => 0x0a000000
  | .yieldp => 0x0b000000
  | .sleep a => 0x0c000000 + a.toNat * 0x1000
  | .setm m => 0x0d000000 + m.toNat
  | .setg s g => 0x0e000000 + s.toNat * 0x8 + g.toNat
  | .sigchk i => 0x0f000000 + i.toNat
  | .trap v c => 0x10000000 + v.toNat * 0x100 + c.toNat
  | .tret => 0x11000000
  | .role a => 0x12000000 + a.toNat * 0x1000
  | .dispq a => 0x13000000 + a.toNat * 0x1000
  | .qend => 0x14000000
  | .cjoin d a => 0x15000000 + d.toNat * 0x40000 + a.toNat * 0x1000
  | .cleave d => 0x16000000 + d.toNat * 0x40000
  | .bara a b => 0x17000000 + a.toNat * 0x1000 + b.toNat * 0x40
  | .barw a b => 0x18000000 + a.toNat * 0x1000 + b.toNat * 0x40
  | .bars a b => 0x19000000 + a.toNat * 0x1000 + b.toNat * 0x40
  | .setrl d => 0x1a000000 + d.toNat
  | .srd d k i => 0x1b000000 + d.toNat * 0x40000 + k.toNat * 0x40 + i.toNat
  | .swrMode a k => 0x1c000000 + a.toNat * 0x1000 + k.toNat * 0x40
  | .swrFflags a k => 0x1c000001 + a.toNat * 0x1000 + k.toNat * 0x40
  | .swrStrand a k => 0x1c000005 + a.toNat * 0x1000 + k.toNat * 0x40
  | .swrSpillb a k => 0x1c000008 + a.toNat * 0x1000 + k.toNat * 0x40
  | .swrTrapc a k => 0x1c000014 + a.toNat * 0x1000 + k.toNat * 0x40
  | .swrTrapv a k => 0x1c000015 + a.toNat * 0x1000 + k.toNat * 0x40
  | .swrTrappc a k => 0x1c000016 + a.toNat * 0x1000 + k.toNat * 0x40
  | .swrOvt a k => 0x1c000017 + a.toNat * 0x1000 + k.toNat * 0x40
  | .bkpt i => 0x1d000000 + i.toNat
  | .ovtld a => 0x1e000000 + a.toNat * 0x1000
  | .add d a b u => 0x20000000 + d.toNat * 0x40000 + a.toNat * 0x1000 + b.toNat * 0x40 + u.toNat * 0x20
  | .sub d a b u => 0x21000000 + d.toNat * 0x40000 + a.toNat * 0x1000 + b.toNat * 0x40 + u.toNat * 0x20
  | .mul d a b u => 0x22000000 + d.toNat * 0x40000 + a.toNat * 0x1000 + b.toNat * 0x40 + u.toNat * 0x20
  | .mulh d a b u => 0x23000000 + d.toNat * 0x40000 + a.toNat * 0x1000 + b.toNat * 0x40 + u.toNat * 0x20
  | .min d a b u => 0x24000000 + d.toNat * 0x40000 + a.toNat * 0x1000 + b.toNat * 0x40 + u.toNat * 0x20
  | .max d a b u => 0x25000000 + d.toNat * 0x40000 + a.toNat * 0x1000 + b.toNat * 0x40 + u.toNat * 0x20
  | .abs d a => 0x26000000 + d.toNat * 0x40000 + a.toNat * 0x1000
  | .neg d a => 0x27000000 + d.toNat * 0x40000 + a.toNat * 0x1000
  | .and d a b u => 0x28000000 + d.toNat * 0x40000 + a.toNat * 0x1000 + b.toNat * 0x40 + u.toNat * 0x20
  | .or d a b u => 0x29000000 + d.toNat * 0x40000 + a.toNat * 0x1000 + b.toNat * 0x40 + u.toNat * 0x20
  | .xor d a b u => 0x2a000000 + d.toNat * 0x40000 + a.toNat * 0x1000 + b.toNat * 0x40 + u.toNat * 0x20
  | .andn d a b u => 0x2b000000 + d.toNat * 0x40000 + a.toNat * 0x1000 + b.toNat * 0x40 + u.toNat * 0x20
  | .shl d a b u => 0x2c000000 + d.toNat * 0x40000 + a.toNat * 0x1000 + b.toNat * 0x40 + u.toNat * 0x20
  | .shr d a b u => 0x2d000000 + d.toNat * 0x40000 + a.toNat * 0x1000 + b.toNat * 0x40 + u.toNat * 0x20
  | .sar d a b u => 0x2e000000 + d.toNat * 0x40000 + a.toNat * 0x1000 + b.toNat * 0x40 + u.toNat * 0x20
  | .rol d a b u => 0x2f000000 + d.toNat * 0x40000 + a.toNat * 0x1000 + b.toNat * 0x40 + u.toNat * 0x20
  | .mad d a b c => 0x30000000 + d.toNat * 0x40000 + a.toNat * 0x1000 + b.toNat * 0x40 + c.toNat
  | .sel d a b u n => 0x31000000 + d.toNat * 0x40000 + a.toNat * 0x1000 + b.toNat * 0x40 + u.toNat * 0x20 + n.toNat
  | .cmp d a b u c => 0x32000000 + d.toNat * 0x40000 + a.toNat * 0x1000 + b.toNat * 0x40 + u.toNat * 0x20 + c.toNat
  | .cmpi p c a i => 0x33000000 + p.toNat * 0x200000 + c.toNat * 0x40000 + a.toNat * 0x1000 + i.toNat
  | .popc d a => 0x34000000 + d.toNat * 0x40000 + a.toNat * 0x1000
  | .clz d a => 0x35000000 + d.toNat * 0x40000 + a.toNat * 0x1000
  | .brev d a => 0x36000000 + d.toNat * 0x40000 + a.toNat * 0x1000
  | .perm d a b c => 0x37000000 + d.toNat * 0x40000 + a.toNat * 0x1000 + b.toNat * 0x40 + c.toNat
  | .bfx d a n p => 0x38000000 + d.toNat * 0x40000 + a.toNat * 0x1000 + n.toNat * 0x40 + p.toNat
  | .bfi d a n p => 0x39000000 + d.toNat * 0x40000 + a.toNat * 0x1000 + n.toNat * 0x40 + p.toNat
  | .movx d a => 0x3a000000 + d.toNat * 0x40000 + a.toNat * 0x1000
  | .movxK d b => 0x3a000020 + d.toNat * 0x40000 + b.toNat * 0x40
  | .movi d i => 0x3b000000 + d.toNat * 0x40000 + i.toNat
  | .movh d i => 0x3c000000 + d.toNat * 0x40000 + i.toNat
  | .pmov d a => 0x3d000000 + d.toNat * 0x40000 + a.toNat * 0x1000
  | .pset d a => 0x3e000000 + d.toNat * 0x40000 + a.toNat * 0x1000
  | .plog d a b t => 0x3f000000 + d.toNat * 0x40000 + a.toNat * 0x1000 + b.toNat * 0x40 + t.toNat
  | .addi d a i => 0x40000000 + d.toNat * 0x40000 + a.toNat * 0x1000 + i.toNat
  | .andi d a i => 0x41000000 + d.toNat * 0x40000 + a.toNat * 0x1000 + i.toNat
  | .ori d a i => 0x42000000 + d.toNat * 0x40000 + a.toNat * 0x1000 + i.toNat
  | .xori d a i => 0x43000000 + d.toNat * 0x40000 + a.toNat * 0x1000 + i.toNat
  | .shli d a n => 0x44000000 + d.toNat * 0x40000 + a.toNat * 0x1000 + n.toNat
  | .shri d a n => 0x45000000 + d.toNat * 0x40000 + a.toNat * 0x1000 + n.toNat
  | .sari d a n => 0x46000000 + d.toNat * 0x40000 + a.toNat * 0x1000 + n.toNat
  | .muli d a i => 0x47000000 + d.toNat * 0x40000 + a.toNat * 0x1000 + i.toNat
  | .mini d a i => 0x48000000 + d.toNat * 0x40000 + a.toNat * 0x1000 + i.toNat
  | .maxi d a i => 0x49000000 + d.toNat * 0x40000 + a.toNat * 0x1000 + i.toNat
  | .fadd d a b u => 0x50000000 + d.toNat * 0x40000 + a.toNat * 0x1000 + b.toNat * 0x40 + u.toNat * 0x20
  | .fsub d a b u => 0x51000000 + d.toNat * 0x40000 + a.toNat * 0x1000 + b.toNat * 0x40 + u.toNat * 0x20
  | .fmul d a b u => 0x52000000 + d.toNat * 0x40000 + a.toNat * 0x1000 + b.toNat * 0x40 + u.toNat * 0x20
  | .fma d a b c => 0x53000000 + d.toNat * 0x40000 + a.toNat * 0x1000 + b.toNat * 0x40 + c.toNat
  | .fmin d a b u => 0x54000000 + d.toNat * 0x40000 + a.toNat * 0x1000 + b.toNat * 0x40 + u.toNat * 0x20
  | .fmax d a b u => 0x55000000 + d.toNat * 0x40000 + a.toNat * 0x1000 + b.toNat * 0x40 + u.toNat * 0x20
  | .fabs d a => 0x56000000 + d.toNat * 0x40000 + a.toNat * 0x1000
  | .fneg d a => 0x57000000 + d.toNat * 0x40000 + a.toNat * 0x1000
  | .fcmp d a b u c => 0x58000000 + d.toNat * 0x40000 + a.toNat * 0x1000 + b.toNat * 0x40 + u.toNat * 0x20 + c.toNat
  | .cvt d a s => 0x59000000 + d.toNat * 0x40000 + a.toNat * 0x1000 + s.toNat
  | .cvtz d a s => 0x5a000000 + d.toNat * 0x40000 + a.toNat * 0x1000 + s.toNat
  | .frnd d a => 0x5b000000 + d.toNat * 0x40000 + a.toNat * 0x1000
  | .fcls d a => 0x5c000000 + d.toNat * 0x40000 + a.toNat * 0x1000
  | .pack d a b s => 0x5d000000 + d.toNat * 0x40000 + a.toNat * 0x1000 + b.toNat * 0x40 + s.toNat
  | .unpk d a h s => 0x5e000000 + d.toNat * 0x40000 + a.toNat * 0x1000 + h.toNat * 0x10 + s.toNat
  | .rcp d a l => 0x60000000 + d.toNat * 0x40000 + a.toNat * 0x1000 + l.toNat * 0x4
  | .rsq d a l => 0x61000000 + d.toNat * 0x40000 + a.toNat * 0x1000 + l.toNat * 0x4
  | .lg2 d a l => 0x62000000 + d.toNat * 0x40000 + a.toNat * 0x1000 + l.toNat * 0x4
  | .ex2 d a l => 0x63000000 + d.toNat * 0x40000 + a.toNat * 0x1000 + l.toNat * 0x4
  | .sin d a l => 0x64000000 + d.toNat * 0x40000 + a.toNat * 0x1000 + l.toNat * 0x4
  | .cos d a l => 0x65000000 + d.toNat * 0x40000 + a.toNat * 0x1000 + l.toNat * 0x4
  | .tanh d a l => 0x66000000 + d.toNat * 0x40000 + a.toNat * 0x1000 + l.toNat * 0x4
  | .ppe d a l s => 0x67000000 + d.toNat * 0x40000 + a.toNat * 0x1000 + l.toNat * 0x4 + s.toNat
  | .ppld a b l s => 0x68000000 + a.toNat * 0x1000 + b.toNat * 0x40 + l.toNat * 0x4 + s.toNat
  | .shflFrom d a b l => 0x70000000 + d.toNat * 0x40000 + a.toNat * 0x1000 + b.toNat * 0x40 + l.toNat * 0x4
  | .shflRot d a b l => 0x70000001 + d.toNat * 0x40000 + a.toNat * 0x1000 + b.toNat * 0x40 + l.toNat * 0x4
  | .shflRotn d a b l => 0x70000002 + d.toNat * 0x40000 + a.toNat * 0x1000 + b.toNat * 0x40 + l.toNat * 0x4
  | .shflXor d a b l => 0x70000003 + d.toNat * 0x40000 + a.toNat * 0x1000 + b.toNat * 0x40 + l.toNat * 0x4
  | .voteQuorum d a b l => 0x71000000 + d.toNat * 0x40000 + a.toNat * 0x1000 + b.toNat * 0x40 + l.toNat * 0x4
  | .voteUnan d a l => 0x71000001 + d.toNat * 0x40000 + a.toNat * 0x1000 + l.toNat * 0x4
  | .voteMask d a l => 0x71000002 + d.toNat * 0x40000 + a.toNat * 0x1000 + l.toNat * 0x4
  | .voteCount d a l => 0x71000003 + d.toNat * 0x40000 + a.toNat * 0x1000 + l.toNat * 0x4
  | .redxAdd d a l => 0x72000000 + d.toNat * 0x40000 + a.toNat * 0x1000 + l.toNat * 0x4
  | .redxMin d a l => 0x72000001 + d.toNat * 0x40000 + a.toNat * 0x1000 + l.toNat * 0x4
  | .redxMax d a l => 0x72000002 + d.toNat * 0x40000 + a.toNat * 0x1000 + l.toNat * 0x4
  | .argmxMax d a l => 0x73000000 + d.toNat * 0x40000 + a.toNat * 0x1000 + l.toNat * 0x4
  | .argmxMin d a l => 0x73000001 + d.toNat * 0x40000 + a.toNat * 0x1000 + l.toNat * 0x4
  | .scanAddIncl d a l => 0x74000000 + d.toNat * 0x40000 + a.toNat * 0x1000 + l.toNat * 0x4
  | .scanAddExcl d a l => 0x74000001 + d.toNat * 0x40000 + a.toNat * 0x1000 + l.toNat * 0x4
  | .scanMax d a l => 0x74000002 + d.toNat * 0x40000 + a.toNat * 0x1000 + l.toNat * 0x4
  | .scanMin d a l => 0x74000003 + d.toNat * 0x40000 + a.toNat * 0x1000 + l.toNat * 0x4
  | .matchLanes d a l => 0x75000000 + d.toNat * 0x40000 + a.toNat * 0x1000 + l.toNat * 0x4
  | .x2k d a b l => 0x76000000 + d.toNat * 0x40000 + a.toNat * 0x1000 + b.toNat * 0x40 + l.toNat * 0x4
  | .kadd d a b => 0x80000000 + d.toNat * 0x40000 + a.toNat * 0x1000 + b.toNat * 0x40
  | .ksub d a b => 0x81000000 + d.toNat * 0x40000 + a.toNat * 0x1000 + b.toNat * 0x40
  | .kmul d a b => 0x82000000 + d.toNat * 0x40000 + a.toNat * 0x1000 + b.toNat * 0x40
  | .kand d a b => 0x83000000 + d.toNat * 0x40000 + a.toNat * 0x1000 + b.toNat * 0x40
  | .kor d a b => 0x84000000 + d.toNat * 0x40000 + a.toNat * 0x1000 + b.toNat * 0x40
  | .kxor d a b => 0x85000000 + d.toNat * 0x40000 + a.toNat * 0x1000 + b.toNat * 0x40
  | .kshl d a b => 0x86000000 + d.toNat * 0x40000 + a.toNat * 0x1000 + b.toNat * 0x40
  | .kshr d a b => 0x87000000 + d.toNat * 0x40000 + a.toNat * 0x1000 + b.toNat * 0x40
  | .kaddi d a i => 0x88000000 + d.toNat * 0x40000 + a.toNat * 0x1000 + i.toNat
  | .kmovi d i => 0x89000000 + d.toNat * 0x40000 + i.toNat
  | .kcat d i => 0x8a000000 + d.toNat * 0x40000 + i.toNat
  | .kcmp d a b c => 0x8b000000 + d.toNat * 0x40000 + a.toNat * 0x1000 + b.toNat * 0x40 + c.toNat
  | .ksel d a b f => 0x8c000000 + d.toNat * 0x40000 + a.toNat * 0x1000 + b.toNat * 0x40 + f.toNat
  | .kmin d a b => 0x8d000000 + d.toNat * 0x40000 + a.toNat * 0x1000 + b.toNat * 0x40
  | .kminU d a b => 0x8d000001 + d.toNat * 0x40000 + a.toNat * 0x1000 + b.toNat * 0x40
  | .kmax d a b => 0x8e000000 + d.toNat * 0x40000 + a.toNat * 0x1000 + b.toNat * 0x40
  | .kmaxU d a b => 0x8e000001 + d.toNat * 0x40000 + a.toNat * 0x1000 + b.toNat * 0x40
  | .ldb d i k l s e => 0x90000000 + d.toNat * 0x40000 + i.toNat * 0x1000 + k.toNat * 0x80 + l.toNat * 0x8 + s.toNat * 0x2 + e.toNat
  | .ldbs d i k l s e => 0x91000000 + d.toNat * 0x40000 + i.toNat * 0x1000 + k.toNat * 0x80 + l.toNat * 0x8 + s.toNat * 0x2 + e.toNat
  | .ldh d i k l s e => 0x92000000 + d.toNat * 0x40000 + i.toNat * 0x1000 + k.toNat * 0x80 + l.toNat * 0x8 + s.toNat * 0x2 + e.toNat
  | .ldhs d i k l s e => 0x93000000 + d.toNat * 0x40000 + i.toNat * 0x1000 + k.toNat * 0x80 + l.toNat * 0x8 + s.toNat * 0x2 + e.toNat
  | .ldw d i k l s e => 0x94000000 + d.toNat * 0x40000 + i.toNat * 0x1000 + k.toNat * 0x80 + l.toNat * 0x8 + s.toNat * 0x2 + e.toNat
  | .ldd d i k l s e => 0x95000000 + d.toNat * 0x40000 + i.toNat * 0x1000 + k.toNat * 0x80 + l.toNat * 0x8 + s.toNat * 0x2 + e.toNat
  | .ldq d i k l s e => 0x96000000 + d.toNat * 0x40000 + i.toNat * 0x1000 + k.toNat * 0x80 + l.toNat * 0x8 + s.toNat * 0x2 + e.toNat
  | .lda d i k l s e => 0x97000000 + d.toNat * 0x40000 + i.toNat * 0x1000 + k.toNat * 0x80 + l.toNat * 0x8 + s.toNat * 0x2 + e.toNat
  | .stb d i k l s e => 0x98000000 + d.toNat * 0x40000 + i.toNat * 0x1000 + k.toNat * 0x80 + l.toNat * 0x8 + s.toNat * 0x2 + e.toNat
  | .sth d i k l s e => 0x99000000 + d.toNat * 0x40000 + i.toNat * 0x1000 + k.toNat * 0x80 + l.toNat * 0x8 + s.toNat * 0x2 + e.toNat
  | .stw d i k l s e => 0x9a000000 + d.toNat * 0x40000 + i.toNat * 0x1000 + k.toNat * 0x80 + l.toNat * 0x8 + s.toNat * 0x2 + e.toNat
  | .std d i k l s e => 0x9b000000 + d.toNat * 0x40000 + i.toNat * 0x1000 + k.toNat * 0x80 + l.toNat * 0x8 + s.toNat * 0x2 + e.toNat
  | .stq d i k l s e => 0x9c000000 + d.toNat * 0x40000 + i.toNat * 0x1000 + k.toNat * 0x80 + l.toNat * 0x8 + s.toNat * 0x2 + e.toNat
  | .stl d i k l s e => 0x9d000000 + d.toNat * 0x40000 + i.toNat * 0x1000 + k.toNat * 0x80 + l.toNat * 0x8 + s.toNat * 0x2 + e.toNat
  | .kld d k l => 0x9e03f000 + d.toNat * 0x40000 + k.toNat * 0x80 + l.toNat * 0x8
  | .kst d k l => 0x9f03f000 + d.toNat * 0x40000 + k.toNat * 0x80 + l.toNat * 0x8
  | .atadd d i k l s e => 0xa0000000 + d.toNat * 0x40000 + i.toNat * 0x1000 + k.toNat * 0x80 + l.toNat * 0x8 + s.toNat * 0x2 + e.toNat
  | .atmin d i k l s e => 0xa1000000 + d.toNat * 0x40000 + i.toNat * 0x1000 + k.toNat * 0x80 + l.toNat * 0x8 + s.toNat * 0x2 + e.toNat
  | .atmax d i k l s e => 0xa2000000 + d.toNat * 0x40000 + i.toNat * 0x1000 + k.toNat * 0x80 + l.toNat * 0x8 + s.toNat * 0x2 + e.toNat
  | .atand d i k l s e => 0xa3000000 + d.toNat * 0x40000 + i.toNat * 0x1000 + k.toNat * 0x80 + l.toNat * 0x8 + s.toNat * 0x2 + e.toNat
  | .ator d i k l s e => 0xa4000000 + d.toNat * 0x40000 + i.toNat * 0x1000 + k.toNat * 0x80 + l.toNat * 0x8 + s.toNat * 0x2 + e.toNat
  | .atxor d i k l s e => 0xa5000000 + d.toNat * 0x40000 + i.toNat * 0x1000 + k.toNat * 0x80 + l.toNat * 0x8 + s.toNat * 0x2 + e.toNat
  | .atxch d i k l s e => 0xa6000000 + d.toNat * 0x40000 + i.toNat * 0x1000 + k.toNat * 0x80 + l.toNat * 0x8 + s.toNat * 0x2 + e.toNat
  | .atcas d i k l s e => 0xa7000000 + d.toNat * 0x40000 + i.toNat * 0x1000 + k.toNat * 0x80 + l.toNat * 0x8 + s.toNat * 0x2 + e.toNat
  | .reda d i k l s e => 0xa8000000 + d.toNat * 0x40000 + i.toNat * 0x1000 + k.toNat * 0x80 + l.toNat * 0x8 + s.toNat * 0x2 + e.toNat
  | .redaf d i k l s e => 0xa9000000 + d.toNat * 0x40000 + i.toNat * 0x1000 + k.toNat * 0x80 + l.toNat * 0x8 + s.toNat * 0x2 + e.toNat
  | .mld d k l => 0xaa03f000 + d.toNat * 0x40000 + k.toNat * 0x80 + l.toNat * 0x8
  | .mst d k l p => 0xab03f000 + d.toNat * 0x40000 + k.toNat * 0x80 + l.toNat * 0x8 + p.toNat
  | .mcas d e k l p => 0xac000000 + d.toNat * 0x40000 + e.toNat * 0x1000 + k.toNat * 0x80 + l.toNat * 0x8 + p.toNat
  | .fence p s c => 0xad000000 + p.toNat * 0x40000 + s.toNat * 0x1000 + c.toNat * 0x40
  | .cinvL1 a b => 0xae000000 + a.toNat * 0x1000 + b.toNat * 0x40
  | .cinvDie a b => 0xae000001 + a.toNat * 0x1000 + b.toNat * 0x40
  | .finv a => 0xaf000000 + a.toNat * 0x1000
  | .rngdef r b => 0xb0000000 + r.toNat * 0x1000 + b.toNat * 0x40
  | .cpy r b q => 0xb1000000 + r.toNat * 0x1000 + b.toNat * 0x40 + q.toNat
  | .cpym m r b q => 0xb2000000 + m.toNat * 0x40000 + r.toNat * 0x1000 + b.toNat * 0x40 + q.toNat
  | .awaitf r => 0xb3000000 + r.toNat * 0x1000
  | .awaitfC r b => 0xb3000001 + r.toNat * 0x1000 + b.toNat * 0x40
  | .rels r => 0xb4000000 + r.toNat * 0x1000
  | .rngst d r => 0xb5000000 + d.toNat * 0x40000 + r.toNat * 0x1000
  | .fetch d a b l => 0xb6000000 + d.toNat * 0x40000 + a.toNat * 0x1000 + b.toNat * 0x40 + l.toNat * 0x4
  | .mpath d a b l => 0xb7000000 + d.toNat * 0x40000 + a.toNat * 0x1000 + b.toNat * 0x40 + l.toNat * 0x4
  | .tdef a b => 0xb8000000 + a.toNat * 0x1000 + b.toNat * 0x40
  | .tqput a => 0xb9000000 + a.toNat * 0x1000
  | .twait c b => 0xba000000 + c.toNat * 0x1000 + b.toNat * 0x40
  | .tpoll d c b => 0xbb000000 + d.toNat * 0x40000 + c.toNat * 0x1000 + b.toNat * 0x40
  | .tstat d a => 0xbc000000 + d.toNat * 0x40000 + a.toNat * 0x1000
  | .nlbin a => 0xc0000000 + a.toNat * 0x1000
  | .nlpair a r => 0xc1000000 + a.toNat * 0x1000 + r.toNat * 0x40
  | .nlstat d a => 0xc2000000 + d.toNat * 0x40000 + a.toNat * 0x1000
  | .tap a => 0xc3000000 + a.toNat * 0x1000
  | .tapw s b => 0xc4000000 + s.toNat * 0x1000 + b.toNat * 0x40
  | .taprd d => 0xc5000000 + d.toNat * 0x40000
  | .taped a => 0xc6000000 + a.toNat * 0x1000
  | .tapresCont => 0xc7000000
  | .tapresEdit => 0xc7000001
  | .tapresAbort => 0xc7000002
  | .frule a b => 0xc8000000 + a.toNat * 0x1000 + b.toNat * 0x40
  | .launch d a => 0xd0000000 + d.toNat * 0x40000 + a.toNat * 0x1000
  | .trsig a b => 0xd1000000 + a.toNat * 0x1000 + b.toNat * 0x40
  | .trwait a b => 0xd2000000 + a.toNat * 0x1000 + b.toNat * 0x40
  | .shape d a => 0xd3000000 + d.toNat * 0x40000 + a.toNat * 0x1000
  | .accup d a => 0xd4000000 + d.toNat * 0x40000 + a.toNat * 0x1000
  | .longLatencyComplete => 0
  | .splitOverflowExchange => 0
  | .dispatchWarpForm => 0
  | .notificationDelivery => 0
  | .debugFreeze _ _ => 0
  | .debugStep _ _ => 0
  | .preemptRequest _ _ => 0
  | .preemptDeadline => 0
  | .darkslideSwap _ => 0
  | .contextRestore _ => 0
  | .resume _ _ => 0
  | .kill _ => 0
  | .budgetExpiry => 0
  | .sleepWake => 0
  | .majorityTimeout => 0
  | .trwaitRetry _ _ => 0
  | .trsigUpdateDone => 0
  | .trsigAbandon => 0
  | .tileTaskDispatch => 0
  | .rowGroupWritten _ _ => 0
  | .taskFault _ _ => 0
  | .copyCommandStart => 0
  | .chunkFilled _ _ => 0
  | .copyFault _ _ => 0
  | .growDecided => 0
  | .growTimeout => 0
  | .nlbinComplete _ => 0
  | .nleSlotFilled _ => 0
  | .nleBlockTableDone _ => 0
  | .nleFault _ => 0
  | .fduRootRead _ => 0
  | .fduIntakeEnd _ => 0
  | .fduEncoderTaskDone _ => 0
  | .fduSelectDone _ => 0
  | .fduRuleUnit _ => 0
  | .fduWriteback _ => 0
  | .fduFault _ => 0
  | .launchAdmit _ => 0
  | .serviceLaunch _ _ => 0
  | .bindRecord _ => 0
  | .serviceMld _ _ => 0
  | .serviceMst _ _ _ => 0
  | .serviceMcas _ _ _ _ => 0
  | .serviceTrsigUpdate _ _ _ => 0
  | .scrubVisit _ => 0
  | .rebuildVisit _ => 0
  | .stackRetire _ => 0
  | .stackReturn _ => 0
  | .translationInvalidate _ _ _ => 0
  | .scoreboardMismatch _ => 0
  | .contact _ _ => 0
  | .captureEnable _ _ _ => 0
  | .replay _ => 0
  | .deviceReset => 0
  | .attestationReport _ => 0
  | .firmwareLimitWrite _ => 0
  | .remoteTimeout => 0
  | .powerGateJudge => 0
  | .thermalHalt => 0
  | .egressRequest _ _ => 0
  | .refusedWord _ => 0
  | .instructionFetchFault => 0
  | .debugContinue _ _ => 0
  | .debugBreakpointHit _ _ => 0
  | .contextCreation _ _ _ => 0
  | .contextDestruction _ => 0
  | .serviceKernelWatchdog _ _ => 0
  | .serviceOrdinaryAccess _ _ _ => 0
  | .hostDma _ _ _ => 0
  | .skerryRemoteAccess _ _ _ => 0
  | .recoveryImageLoad _ => 0

/-- The word of an instruction, which no MODE changes (R283). -/
def encode (i : Instr) : Word := BitVec.ofNat 32 (encodeNat i)

/-- The four bytes of a word, lowest address first (R70). -/
def wordBytes (w : Word) : List Byte :=
  [w.extractLsb' 0 8, w.extractLsb' 8 8, w.extractLsb' 16 8, w.extractLsb' 24 8]

/-- The word of four bytes, lowest address first (R70). -/
def wordOfBytes : List Byte → Word
  | [a, b, c, d] => d ++ c ++ b ++ a
  | _ => 0

/-- The decoder read from the bytes the hardware stores: what it makes of an instruction numbered as the opcode table
numbers its bits. -/
def decodeTableWord (nbits w : Nat) : Option Instr :=
  if nbits ≤ 32 then
    match decode (wordOfBytes (wordBytes (BitVec.ofNat 32 (w % 2 ^ nbits)))) with
    | .ok i => some i
    | .error _ => none
  else none

end Sys2Proof
end

