-- ==== Sys2Proof/Machine/Uses.lean ====
section
/-! DEFINITION. What each instruction reads and writes, its lookahead, its element types, and the checks of R88 that
depend on MODE and the level (R24, R86, R88, R91, R116, R131 to R133). -/

namespace Sys2Proof.Machine

/-- Registers an instruction reads and writes: x registers of each lane, k registers, predicates. -/
structure RegUse where
  xr : List Nat
  xw : List Nat
  kr : List Nat
  kw : List Nat
  pr : List Nat
  pw : List Nat
  deriving DecidableEq, Repr

/-- No registers. -/
def RegUse.none : RegUse := ⟨[], [], [], [], [], []⟩

/-- Consecutive register numbers. -/
def regRun (d n : Nat) : List Nat := (List.range n).map (fun j => d + j)

/-- The registers an instruction names as operands, under a MODE. -/
def regUse (m : BitVec 18) (i : Instr) : RegUse :=
  let w : List Nat → List Nat := fun rs => if type64 (modeType m) then rs.flatMap (fun r => [r, r + 1]) else rs
  let ub : BitVec 1 → Nat → (List Nat → List Nat) → List Nat := fun u b f => if u = 0 then f [b] else []
  let uk : BitVec 1 → Nat → List Nat := fun u b => if u = 0 then [] else [b]
  let ix : Nat → List Nat := fun r => if r = 63 then [] else [r]
  let run : Nat → Nat → List Nat := regRun
  let run0 : Nat → Nat → List Nat := regRun
  match i with
  | .bra p _ _ => { RegUse.none with pr := [p.toNat] }
  | .jmpk a => { RegUse.none with kr := [a.toNat] }
  | .callk a _ => { RegUse.none with kr := [a.toNat] }
  | .ret => { RegUse.none with xr := [62, 63] }
  | .sleep a => { RegUse.none with kr := [a.toNat] }
  | .role a => { RegUse.none with kr := [a.toNat] }
  | .dispq a => { RegUse.none with xr := a.toNat :: run0 0 8, xw := run0 0 8 }
  | .qend => { RegUse.none with xr := run0 0 8 }
  | .cjoin d a => { RegUse.none with kr := [a.toNat], kw := [d.toNat] }
  | .cleave d => { RegUse.none with kw := [d.toNat] }
  | .setrl _ => { RegUse.none with kr := run 1 31 }
  | .bara _ b => { RegUse.none with kr := [b.toNat] }
  | .bars _ b => { RegUse.none with kr := [b.toNat] }
  | .srd d k i => { RegUse.none with
      xw := (if k.toNat = 0 then [d.toNat] else []), kw := (if k.toNat = 1 then [d.toNat] else [])
      kr := (if k.toNat = 1 ∧ i.toNat = 0x20 then [d.toNat] else []) }
  | .swrMode a k => { RegUse.none with xr := (if k.toNat = 0 then [a.toNat] else []), kr := (if k.toNat = 1 then [a.toNat] else []) }
  | .swrFflags a k => { RegUse.none with xr := (if k.toNat = 0 then [a.toNat] else []), kr := (if k.toNat = 1 then [a.toNat] else []) }
  | .swrStrand a k => { RegUse.none with xr := (if k.toNat = 0 then [a.toNat] else []), kr := (if k.toNat = 1 then [a.toNat] else []) }
  | .swrSpillb a k => { RegUse.none with xr := (if k.toNat = 0 then [a.toNat] else []), kr := (if k.toNat = 1 then [a.toNat] else []) }
  | .swrTrapc a k => { RegUse.none with xr := (if k.toNat = 0 then [a.toNat] else []), kr := (if k.toNat = 1 then [a.toNat] else []) }
  | .swrTrapv a k => { RegUse.none with xr := (if k.toNat = 0 then [a.toNat] else []), kr := (if k.toNat = 1 then [a.toNat] else []) }
  | .swrTrappc a k => { RegUse.none with xr := (if k.toNat = 0 then [a.toNat] else []), kr := (if k.toNat = 1 then [a.toNat] else []) }
  | .swrOvt a k => { RegUse.none with xr := (if k.toNat = 0 then [a.toNat] else []), kr := (if k.toNat = 1 then [a.toNat] else []) }
  | .ovtld a => { RegUse.none with kr := [a.toNat] }
  | .add d a b u => { RegUse.none with xr := w [a.toNat] ++ ub u b.toNat w, xw := w [d.toNat], kr := uk u b.toNat }
  | .sub d a b u => { RegUse.none with xr := w [a.toNat] ++ ub u b.toNat w, xw := w [d.toNat], kr := uk u b.toNat }
  | .mul d a b u => { RegUse.none with xr := w [a.toNat] ++ ub u b.toNat w, xw := w [d.toNat], kr := uk u b.toNat }
  | .mulh d a b u => { RegUse.none with xr := w [a.toNat] ++ ub u b.toNat w, xw := w [d.toNat], kr := uk u b.toNat }
  | .min d a b u => { RegUse.none with xr := w [a.toNat] ++ ub u b.toNat w, xw := w [d.toNat], kr := uk u b.toNat }
  | .max d a b u => { RegUse.none with xr := w [a.toNat] ++ ub u b.toNat w, xw := w [d.toNat], kr := uk u b.toNat }
  | .abs d a => { RegUse.none with xr := w [a.toNat], xw := w [d.toNat] }
  | .neg d a => { RegUse.none with xr := w [a.toNat], xw := w [d.toNat] }
  | .and d a b u => { RegUse.none with xr := w [a.toNat] ++ ub u b.toNat w, xw := w [d.toNat], kr := uk u b.toNat }
  | .or d a b u => { RegUse.none with xr := w [a.toNat] ++ ub u b.toNat w, xw := w [d.toNat], kr := uk u b.toNat }
  | .xor d a b u => { RegUse.none with xr := w [a.toNat] ++ ub u b.toNat w, xw := w [d.toNat], kr := uk u b.toNat }
  | .andn d a b u => { RegUse.none with xr := w [a.toNat] ++ ub u b.toNat w, xw := w [d.toNat], kr := uk u b.toNat }
  | .shl d a b u => { RegUse.none with xr := w [a.toNat] ++ ub u b.toNat w, xw := w [d.toNat], kr := uk u b.toNat }
  | .shr d a b u => { RegUse.none with xr := w [a.toNat] ++ ub u b.toNat w, xw := w [d.toNat], kr := uk u b.toNat }
  | .sar d a b u => { RegUse.none with xr := w [a.toNat] ++ ub u b.toNat w, xw := w [d.toNat], kr := uk u b.toNat }
  | .rol d a b u => { RegUse.none with xr := w [a.toNat] ++ ub u b.toNat w, xw := w [d.toNat], kr := uk u b.toNat }
  | .mad d a b c => { RegUse.none with xr := w [a.toNat] ++ w [b.toNat] ++ w [c.toNat], xw := w [d.toNat] }
  | .sel d a b u n => { RegUse.none with xr := [a.toNat] ++ ub u b.toNat id, xw := [d.toNat], kr := uk u b.toNat, pr := [n.toNat] }
  | .cmp d a b u _ => { RegUse.none with xr := w [a.toNat] ++ ub u b.toNat w, kr := uk u b.toNat, pw := [d.toNat] }
  | .cmpi p _ a _ => { RegUse.none with xr := w [a.toNat], pw := [p.toNat] }
  | .popc d a => { RegUse.none with xr := [a.toNat], xw := [d.toNat] }
  | .clz d a => { RegUse.none with xr := [a.toNat], xw := [d.toNat] }
  | .brev d a => { RegUse.none with xr := [a.toNat], xw := [d.toNat] }
  | .perm d a b c => { RegUse.none with xr := [a.toNat, b.toNat, c.toNat], xw := [d.toNat] }
  | .bfx d a _ _ => { RegUse.none with xr := w [a.toNat], xw := w [d.toNat] }
  | .bfi d a _ _ => { RegUse.none with xr := w [a.toNat] ++ w [d.toNat], xw := w [d.toNat] }
  | .movx d a => { RegUse.none with xr := [a.toNat], xw := [d.toNat] }
  | .movxK d b => { RegUse.none with xw := [d.toNat], kr := [b.toNat] }
  | .movi d _ => { RegUse.none with xw := [d.toNat] }
  | .movh d _ => { RegUse.none with xr := [d.toNat], xw := [d.toNat] }
  | .pmov d a => { RegUse.none with kw := [d.toNat], pr := [a.toNat] }
  | .pset d a => { RegUse.none with kr := [a.toNat], pw := [d.toNat] }
  | .plog d a b _ => { RegUse.none with pr := [a.toNat, b.toNat], pw := [d.toNat] }
  | .addi d a _ => { RegUse.none with xr := w [a.toNat], xw := w [d.toNat] }
  | .andi d a _ => { RegUse.none with xr := w [a.toNat], xw := w [d.toNat] }
  | .ori d a _ => { RegUse.none with xr := w [a.toNat], xw := w [d.toNat] }
  | .xori d a _ => { RegUse.none with xr := w [a.toNat], xw := w [d.toNat] }
  | .shli d a _ => { RegUse.none with xr := w [a.toNat], xw := w [d.toNat] }
  | .shri d a _ => { RegUse.none with xr := w [a.toNat], xw := w [d.toNat] }
  | .sari d a _ => { RegUse.none with xr := w [a.toNat], xw := w [d.toNat] }
  | .muli d a _ => { RegUse.none with xr := w [a.toNat], xw := w [d.toNat] }
  | .mini d a _ => { RegUse.none with xr := w [a.toNat], xw := w [d.toNat] }
  | .maxi d a _ => { RegUse.none with xr := w [a.toNat], xw := w [d.toNat] }
  | .fadd d a b u => { RegUse.none with xr := [a.toNat] ++ ub u b.toNat id, xw := [d.toNat], kr := uk u b.toNat }
  | .fsub d a b u => { RegUse.none with xr := [a.toNat] ++ ub u b.toNat id, xw := [d.toNat], kr := uk u b.toNat }
  | .fmul d a b u => { RegUse.none with xr := [a.toNat] ++ ub u b.toNat id, xw := [d.toNat], kr := uk u b.toNat }
  | .fma d a b c => { RegUse.none with xr := [a.toNat, b.toNat, c.toNat], xw := [d.toNat] }
  | .fmin d a b u => { RegUse.none with xr := [a.toNat] ++ ub u b.toNat id, xw := [d.toNat], kr := uk u b.toNat }
  | .fmax d a b u => { RegUse.none with xr := [a.toNat] ++ ub u b.toNat id, xw := [d.toNat], kr := uk u b.toNat }
  | .fabs d a => { RegUse.none with xr := [a.toNat], xw := [d.toNat] }
  | .fneg d a => { RegUse.none with xr := [a.toNat], xw := [d.toNat] }
  | .fcmp d a b u _ => { RegUse.none with xr := [a.toNat] ++ ub u b.toNat id, kr := uk u b.toNat, pw := [d.toNat] }
  | .cvt d a s => { RegUse.none with xr := (if type64 s.toNat then [a.toNat, a.toNat + 1] else [a.toNat]), xw := w [d.toNat] }
  | .cvtz d a s => { RegUse.none with xr := (if type64 s.toNat then [a.toNat, a.toNat + 1] else [a.toNat]), xw := w [d.toNat] }
  | .frnd d a => { RegUse.none with xr := [a.toNat], xw := [d.toNat] }
  | .fcls d a => { RegUse.none with xr := [a.toNat], xw := [d.toNat] }
  | .pack d a b _ => { RegUse.none with xr := [a.toNat, b.toNat], xw := [d.toNat] }
  | .unpk d a _ _ => { RegUse.none with xr := [a.toNat], xw := [d.toNat] }
  | .rcp d a _ => { RegUse.none with xr := [a.toNat], xw := [d.toNat] }
  | .rsq d a _ => { RegUse.none with xr := [a.toNat], xw := [d.toNat] }
  | .lg2 d a _ => { RegUse.none with xr := [a.toNat], xw := [d.toNat] }
  | .ex2 d a _ => { RegUse.none with xr := [a.toNat], xw := [d.toNat] }
  | .sin d a _ => { RegUse.none with xr := [a.toNat], xw := [d.toNat] }
  | .cos d a _ => { RegUse.none with xr := [a.toNat], xw := [d.toNat] }
  | .tanh d a _ => { RegUse.none with xr := [a.toNat], xw := [d.toNat] }
  | .ppe d a _ _ => { RegUse.none with xr := [a.toNat], xw := [d.toNat] }
  | .ppld a b _ _ => { RegUse.none with kr := [a.toNat, b.toNat] }
  | .shflFrom d a b _ => { RegUse.none with xr := [a.toNat, b.toNat], xw := [d.toNat], pw := [modeGuard m] }
  | .shflRot d a b _ => { RegUse.none with xr := [a.toNat, b.toNat], xw := [d.toNat], pw := [modeGuard m] }
  | .shflRotn d a b _ => { RegUse.none with xr := [a.toNat, b.toNat], xw := [d.toNat], pw := [modeGuard m] }
  | .shflXor d a b _ => { RegUse.none with xr := [a.toNat, b.toNat], xw := [d.toNat], pw := [modeGuard m] }
  | .voteQuorum d a b _ => { RegUse.none with kr := [b.toNat], pr := [a.toNat], pw := [d.toNat] }
  | .voteUnan d a _ => { RegUse.none with pr := [a.toNat], pw := [d.toNat] }
  | .voteMask d a _ => { RegUse.none with kw := [d.toNat], pr := [a.toNat] }
  | .voteCount d a _ => { RegUse.none with kw := [d.toNat], pr := [a.toNat] }
  | .redxAdd d a _ => { RegUse.none with xr := [a.toNat], kw := [d.toNat] }
  | .redxMin d a _ => { RegUse.none with xr := [a.toNat], kw := [d.toNat] }
  | .redxMax d a _ => { RegUse.none with xr := [a.toNat], kw := [d.toNat] }
  | .argmxMax d a _ => { RegUse.none with xr := [a.toNat], kw := [d.toNat] }
  | .argmxMin d a _ => { RegUse.none with xr := [a.toNat], kw := [d.toNat] }
  | .scanAddIncl d a _ => { RegUse.none with xr := [a.toNat], xw := [d.toNat] }
  | .scanAddExcl d a _ => { RegUse.none with xr := [a.toNat], xw := [d.toNat] }
  | .scanMax d a _ => { RegUse.none with xr := [a.toNat], xw := [d.toNat] }
  | .scanMin d a _ => { RegUse.none with xr := [a.toNat], xw := [d.toNat] }
  | .matchLanes d a _ => { RegUse.none with xr := [a.toNat], xw := [d.toNat] }
  | .x2k d a _ _ => { RegUse.none with xr := [a.toNat], kw := [d.toNat] }
  | .kadd d a b => { RegUse.none with kr := [a.toNat, b.toNat], kw := [d.toNat] }
  | .ksub d a b => { RegUse.none with kr := [a.toNat, b.toNat], kw := [d.toNat] }
  | .kmul d a b => { RegUse.none with kr := [a.toNat, b.toNat], kw := [d.toNat] }
  | .kand d a b => { RegUse.none with kr := [a.toNat, b.toNat], kw := [d.toNat] }
  | .kor d a b => { RegUse.none with kr := [a.toNat, b.toNat], kw := [d.toNat] }
  | .kxor d a b => { RegUse.none with kr := [a.toNat, b.toNat], kw := [d.toNat] }
  | .kshl d a b => { RegUse.none with kr := [a.toNat, b.toNat], kw := [d.toNat] }
  | .kshr d a b => { RegUse.none with kr := [a.toNat, b.toNat], kw := [d.toNat] }
  | .kaddi d a _ => { RegUse.none with kr := [a.toNat], kw := [d.toNat] }
  | .kmovi d _ => { RegUse.none with kw := [d.toNat] }
  | .kcat d _ => { RegUse.none with kr := [d.toNat], kw := [d.toNat] }
  | .kcmp d a b _ => { RegUse.none with kr := [a.toNat, b.toNat], kw := [d.toNat] }
  | .ksel d a b f => { RegUse.none with kr := [a.toNat, b.toNat, f.toNat], kw := [d.toNat] }
  | .kmin d a b => { RegUse.none with kr := [a.toNat, b.toNat], kw := [d.toNat] }
  | .kminU d a b => { RegUse.none with kr := [a.toNat, b.toNat], kw := [d.toNat] }
  | .kmax d a b => { RegUse.none with kr := [a.toNat, b.toNat], kw := [d.toNat] }
  | .kmaxU d a b => { RegUse.none with kr := [a.toNat, b.toNat], kw := [d.toNat] }
  | .ldb d i k _ _ _ => { RegUse.none with xr := ix i.toNat, xw := run d.toNat 1, kr := [k.toNat] }
  | .ldbs d i k _ _ _ => { RegUse.none with xr := ix i.toNat, xw := run d.toNat 1, kr := [k.toNat] }
  | .ldh d i k _ _ _ => { RegUse.none with xr := ix i.toNat, xw := run d.toNat 1, kr := [k.toNat] }
  | .ldhs d i k _ _ _ => { RegUse.none with xr := ix i.toNat, xw := run d.toNat 1, kr := [k.toNat] }
  | .ldw d i k _ _ _ => { RegUse.none with xr := ix i.toNat, xw := run d.toNat 1, kr := [k.toNat] }
  | .ldd d i k _ _ _ => { RegUse.none with xr := ix i.toNat, xw := run d.toNat 2, kr := [k.toNat] }
  | .ldq d i k _ _ _ => { RegUse.none with xr := ix i.toNat, xw := run d.toNat 4, kr := [k.toNat] }
  | .lda d i k _ _ _ => { RegUse.none with xr := ix i.toNat, xw := run d.toNat 1, kr := [k.toNat] }
  | .stb d i k _ _ _ => { RegUse.none with xr := ix i.toNat ++ run d.toNat 1, kr := [k.toNat] }
  | .sth d i k _ _ _ => { RegUse.none with xr := ix i.toNat ++ run d.toNat 1, kr := [k.toNat] }
  | .stw d i k _ _ _ => { RegUse.none with xr := ix i.toNat ++ run d.toNat 1, kr := [k.toNat] }
  | .std d i k _ _ _ => { RegUse.none with xr := ix i.toNat ++ run d.toNat 2, kr := [k.toNat] }
  | .stq d i k _ _ _ => { RegUse.none with xr := ix i.toNat ++ run d.toNat 4, kr := [k.toNat] }
  | .stl d i k _ _ _ => { RegUse.none with xr := ix i.toNat ++ run d.toNat 1, kr := [k.toNat] }
  | .kld d k _ => { RegUse.none with kr := [k.toNat], kw := [d.toNat] }
  | .kst d k _ => { RegUse.none with kr := [k.toNat, d.toNat] }
  | .atadd d i k _ _ _ => { RegUse.none with xr := ix i.toNat ++ w [d.toNat], xw := w [d.toNat], kr := [k.toNat] }
  | .atmin d i k _ _ _ => { RegUse.none with xr := ix i.toNat ++ w [d.toNat], xw := w [d.toNat], kr := [k.toNat] }
  | .atmax d i k _ _ _ => { RegUse.none with xr := ix i.toNat ++ w [d.toNat], xw := w [d.toNat], kr := [k.toNat] }
  | .atand d i k _ _ _ => { RegUse.none with xr := ix i.toNat ++ w [d.toNat], xw := w [d.toNat], kr := [k.toNat] }
  | .ator d i k _ _ _ => { RegUse.none with xr := ix i.toNat ++ w [d.toNat], xw := w [d.toNat], kr := [k.toNat] }
  | .atxor d i k _ _ _ => { RegUse.none with xr := ix i.toNat ++ w [d.toNat], xw := w [d.toNat], kr := [k.toNat] }
  | .atxch d i k _ _ _ => { RegUse.none with xr := ix i.toNat ++ w [d.toNat], xw := w [d.toNat], kr := [k.toNat] }
  | .atcas d i k _ _ _ => { RegUse.none with xr := ix i.toNat ++ [d.toNat, d.toNat + 1], xw := [d.toNat], kr := [k.toNat] }
  | .reda d i k _ _ _ => { RegUse.none with xr := ix i.toNat ++ w [d.toNat], kr := [k.toNat] }
  | .redaf d i k _ _ _ => { RegUse.none with xr := ix i.toNat ++ [d.toNat], kr := [k.toNat] }
  | .mld d k _ => { RegUse.none with kr := [k.toNat], kw := run d.toNat 4 }
  | .mst d k _ p => { RegUse.none with kr := k.toNat :: run d.toNat 4, pw := [p.toNat] }
  | .mcas d e k _ p => { RegUse.none with kr := k.toNat :: e.toNat :: run d.toNat 4, kw := run d.toNat 4, pw := [p.toNat] }
  | .cinvL1 a b => { RegUse.none with kr := [a.toNat, b.toNat] }
  | .cinvDie a b => { RegUse.none with kr := [a.toNat, b.toNat] }
  | .finv a => { RegUse.none with kr := [a.toNat] }
  | .rngdef _ b => { RegUse.none with kr := [b.toNat] }
  | .cpy _ b _ => { RegUse.none with kr := [b.toNat] }
  | .cpym m _ b _ => { RegUse.none with kr := [b.toNat, m.toNat] }
  | .awaitfC _ b => { RegUse.none with kr := [b.toNat] }
  | .rngst d _ => { RegUse.none with kw := [d.toNat] }
  | .fetch d a b _ => { RegUse.none with xr := [a.toNat], xw := [d.toNat], kr := [b.toNat] }
  | .mpath d a b _ => { RegUse.none with xr := [a.toNat], xw := [d.toNat, d.toNat + 1], kr := [b.toNat] }
  | .tdef a b => { RegUse.none with kr := [a.toNat, b.toNat] }
  | .tqput a => { RegUse.none with kr := [a.toNat] }
  | .twait _ b => { RegUse.none with kr := [b.toNat] }
  | .tpoll d _ b => { RegUse.none with kr := [b.toNat], pw := [d.toNat] }
  | .tstat d a => { RegUse.none with kr := [a.toNat], kw := [d.toNat] }
  | .nlbin a => { RegUse.none with kr := [a.toNat] }
  | .nlpair a _ => { RegUse.none with kr := [a.toNat] }
  | .nlstat d a => { RegUse.none with kr := [a.toNat], kw := [d.toNat] }
  | .tap a => { RegUse.none with kr := [a.toNat] }
  | .tapw _ b => { RegUse.none with kr := [b.toNat] }
  | .taprd d => { RegUse.none with kw := run d.toNat 4 }
  | .taped a => { RegUse.none with kr := [a.toNat] }
  | .frule a b => { RegUse.none with kr := [a.toNat, b.toNat, b.toNat + 1] }
  | .launch d a => { RegUse.none with kr := [a.toNat], kw := [d.toNat] }
  | .trsig a b => { RegUse.none with kr := [a.toNat, b.toNat] }
  | .trwait a b => { RegUse.none with kr := [a.toNat, b.toNat] }
  | .shape d a => { RegUse.none with kr := [a.toNat], kw := [d.toNat] }
  | .accup d a => { RegUse.none with kr := [d.toNat, a.toNat], kw := [d.toNat] }
  | _ => RegUse.none

/-- The lookahead of a long-latency instruction (R73, R131). -/
def lookahead : Instr → Option Nat
  | .rcp _ _ l => some l.toNat
  | .rsq _ _ l => some l.toNat
  | .lg2 _ _ l => some l.toNat
  | .ex2 _ _ l => some l.toNat
  | .sin _ _ l => some l.toNat
  | .cos _ _ l => some l.toNat
  | .tanh _ _ l => some l.toNat
  | .ppe _ _ l _ => some l.toNat
  | .ppld _ _ l _ => some l.toNat
  | .shflFrom _ _ _ l => some l.toNat
  | .shflRot _ _ _ l => some l.toNat
  | .shflRotn _ _ _ l => some l.toNat
  | .shflXor _ _ _ l => some l.toNat
  | .voteQuorum _ _ _ l => some l.toNat
  | .voteUnan _ _ l => some l.toNat
  | .voteMask _ _ l => some l.toNat
  | .voteCount _ _ l => some l.toNat
  | .redxAdd _ _ l => some l.toNat
  | .redxMin _ _ l => some l.toNat
  | .redxMax _ _ l => some l.toNat
  | .argmxMax _ _ l => some l.toNat
  | .argmxMin _ _ l => some l.toNat
  | .scanAddIncl _ _ l => some l.toNat
  | .scanAddExcl _ _ l => some l.toNat
  | .scanMax _ _ l => some l.toNat
  | .scanMin _ _ l => some l.toNat
  | .matchLanes _ _ l => some l.toNat
  | .x2k _ _ _ l => some l.toNat
  | .ldb _ _ _ l _ _ => some l.toNat
  | .ldbs _ _ _ l _ _ => some l.toNat
  | .ldh _ _ _ l _ _ => some l.toNat
  | .ldhs _ _ _ l _ _ => some l.toNat
  | .ldw _ _ _ l _ _ => some l.toNat
  | .ldd _ _ _ l _ _ => some l.toNat
  | .ldq _ _ _ l _ _ => some l.toNat
  | .lda _ _ _ l _ _ => some l.toNat
  | .stb _ _ _ l _ _ => some l.toNat
  | .sth _ _ _ l _ _ => some l.toNat
  | .stw _ _ _ l _ _ => some l.toNat
  | .std _ _ _ l _ _ => some l.toNat
  | .stq _ _ _ l _ _ => some l.toNat
  | .stl _ _ _ l _ _ => some l.toNat
  | .kld _ _ l => some l.toNat
  | .kst _ _ l => some l.toNat
  | .atadd _ _ _ l _ _ => some l.toNat
  | .atmin _ _ _ l _ _ => some l.toNat
  | .atmax _ _ _ l _ _ => some l.toNat
  | .atand _ _ _ l _ _ => some l.toNat
  | .ator _ _ _ l _ _ => some l.toNat
  | .atxor _ _ _ l _ _ => some l.toNat
  | .atxch _ _ _ l _ _ => some l.toNat
  | .atcas _ _ _ l _ _ => some l.toNat
  | .reda _ _ _ l _ _ => some l.toNat
  | .redaf _ _ _ l _ _ => some l.toNat
  | .mld _ _ l => some l.toNat
  | .mst _ _ l _ => some l.toNat
  | .mcas _ _ _ l _ => some l.toNat
  | .fetch _ _ _ l => some l.toNat
  | .mpath _ _ _ l => some l.toNat
  | _ => none

/-- Instructions that wait until every outstanding instruction of their split has completed (R133). -/
def drains : Instr → Bool
  | .call _ _ | .callk _ _ | .ret | .rcv | .exit | .qend | .dispq _ | .role _ | .cjoin _ _ | .cleave _ | .yieldp
  | .bara _ _ | .bars _ _ | .trap _ _ | .bkpt _ | .tret => true
  | _ => false

/-- Long-latency instructions that raise bits of FFLAGS (R114, R115). -/
def raisesFlags : Instr → Bool
  | .rcp _ _ _ | .rsq _ _ _ | .lg2 _ _ _ | .ex2 _ _ _ | .sin _ _ _ | .cos _ _ _ | .tanh _ _ _ | .ppe _ _ _ _
  | .redxAdd _ _ _ | .redxMin _ _ _ | .redxMax _ _ _ => true
  | _ => false

/-- Instructions that read FFLAGS, or write it whole (R28). -/
def usesFlags : Instr → Bool
  | .srd _ _ n => n.toNat == 1
  | .swrFflags _ _ => true
  | _ => false

/-- Instructions that read MODE.RND (R86). -/
def readsRnd : Instr → Bool
  | .fadd _ _ _ _ => true
  | .fsub _ _ _ _ => true
  | .fmul _ _ _ _ => true
  | .fma _ _ _ _ => true
  | .cvt _ _ _ => true
  | .frnd _ _ => true
  | .pack _ _ _ _ => true
  | .rcp _ _ _ => true
  | .rsq _ _ _ => true
  | .lg2 _ _ _ => true
  | .ex2 _ _ _ => true
  | .sin _ _ _ => true
  | .cos _ _ _ => true
  | .tanh _ _ _ => true
  | .ppe _ _ _ _ => true
  | .redaf _ _ _ _ _ _ => true
  | _ => false

/-- A conversion pairs two types CVT and CVTZ allow (R116). -/
def cvtOk (s t : Nat) : Bool :=
  (typeCount s == typeCount t && (typeCount s == 1 || typeCount s == 2 || typeCount s == 4)) ||
    (s == 0xE && t == 0xB) || (s == 0xB && t == 0xE)

/-- A conversion pairs two types PACK allows (R116). -/
def packOk (s t : Nat) : Bool :=
  (typeCount t == 2 * typeCount s && !type64 s && !type64 t && (t != 0xF || s == 0x4 || s == 0x5)) ||
    (s == 0xB && t == 0xE)

/-- A conversion pairs two types UNPK allows (R116). -/
def unpkOk (s t : Nat) : Bool :=
  (typeCount s == 2 * typeCount t && !type64 s && !type64 t && !(typeFloat s && !typeFloat t) &&
    (s != 0xF || t == 0x4 || t == 0x5)) || (s == 0xE && t == 0xB)

/-- MODE.TYPE is accepted by the instruction (R88 step 4, R91, R116, R138, R139, R172 to R174). -/
def acceptsType (t : Nat) : Instr → Bool
  | .add _ _ _ _ => decide (t ≤ 0x5 ∨ t = 0xC ∨ t = 0xD)
  | .sub _ _ _ _ => decide (t ≤ 0x5 ∨ t = 0xC ∨ t = 0xD)
  | .mul _ _ _ _ => decide (t ≤ 0x5 ∨ t = 0xC ∨ t = 0xD)
  | .mulh _ _ _ _ => decide (t ≤ 0x5 ∨ t = 0xC ∨ t = 0xD)
  | .min _ _ _ _ => decide (t ≤ 0x5 ∨ t = 0xC ∨ t = 0xD)
  | .max _ _ _ _ => decide (t ≤ 0x5 ∨ t = 0xC ∨ t = 0xD)
  | .abs _ _ => decide (t = 0x0 ∨ t = 0x2 ∨ t = 0x4 ∨ t = 0xC)
  | .neg _ _ => decide (t = 0x0 ∨ t = 0x2 ∨ t = 0x4 ∨ t = 0xC)
  | .shl _ _ _ _ => decide (t ≤ 0x5 ∨ t = 0xC ∨ t = 0xD)
  | .shr _ _ _ _ => decide (t ≤ 0x5 ∨ t = 0xC ∨ t = 0xD)
  | .sar _ _ _ _ => decide (t ≤ 0x5 ∨ t = 0xC ∨ t = 0xD)
  | .rol _ _ _ _ => decide (t ≤ 0x5 ∨ t = 0xC ∨ t = 0xD)
  | .mad _ _ _ _ => decide (t ≤ 0x5 ∨ t = 0xC ∨ t = 0xD)
  | .cmp _ _ _ _ _ => decide (t ≤ 0x5 ∨ t = 0xC ∨ t = 0xD)
  | .cmpi _ _ _ _ => decide (t = 0x0 ∨ t = 0x1 ∨ t = 0xC ∨ t = 0xD)
  | .bfx _ _ _ _ => decide (t = 0x0 ∨ t = 0x1 ∨ t = 0xC ∨ t = 0xD)
  | .bfi _ _ _ _ => decide (t = 0x0 ∨ t = 0x1 ∨ t = 0xC ∨ t = 0xD)
  | .addi _ _ _ => decide (t = 0x0 ∨ t = 0x1 ∨ t = 0xC ∨ t = 0xD)
  | .shli _ _ _ => decide (t ≤ 0x5 ∨ t = 0xC ∨ t = 0xD)
  | .shri _ _ _ => decide (t ≤ 0x5 ∨ t = 0xC ∨ t = 0xD)
  | .sari _ _ _ => decide (t ≤ 0x5 ∨ t = 0xC ∨ t = 0xD)
  | .muli _ _ _ => decide (t = 0x0 ∨ t = 0x1 ∨ t = 0xC ∨ t = 0xD)
  | .mini _ _ _ => decide (t = 0x0 ∨ t = 0x1 ∨ t = 0xC ∨ t = 0xD)
  | .maxi _ _ _ => decide (t = 0x0 ∨ t = 0x1 ∨ t = 0xC ∨ t = 0xD)
  | .fadd _ _ _ _ => decide (0x6 ≤ t ∧ t ≤ 0xB)
  | .fsub _ _ _ _ => decide (0x6 ≤ t ∧ t ≤ 0xB)
  | .fmul _ _ _ _ => decide (0x6 ≤ t ∧ t ≤ 0xB)
  | .fma _ _ _ _ => decide (0x6 ≤ t ∧ t ≤ 0xB)
  | .fmin _ _ _ _ => decide (0x6 ≤ t ∧ t ≤ 0xB)
  | .fmax _ _ _ _ => decide (0x6 ≤ t ∧ t ≤ 0xB)
  | .fabs _ _ => decide (0x6 ≤ t ∧ t ≤ 0xB)
  | .fneg _ _ => decide (0x6 ≤ t ∧ t ≤ 0xB)
  | .fcmp _ _ _ _ _ => decide (0x6 ≤ t ∧ t ≤ 0xB)
  | .frnd _ _ => decide (0x6 ≤ t ∧ t ≤ 0xB)
  | .fcls _ _ => decide (0x6 ≤ t ∧ t ≤ 0xB)
  | .rcp _ _ _ => decide (0x6 ≤ t ∧ t ≤ 0x8)
  | .rsq _ _ _ => decide (0x6 ≤ t ∧ t ≤ 0x8)
  | .lg2 _ _ _ => decide (0x6 ≤ t ∧ t ≤ 0x8)
  | .ex2 _ _ _ => decide (0x6 ≤ t ∧ t ≤ 0x8)
  | .sin _ _ _ => decide (0x6 ≤ t ∧ t ≤ 0x8)
  | .cos _ _ _ => decide (0x6 ≤ t ∧ t ≤ 0x8)
  | .tanh _ _ _ => decide (0x6 ≤ t ∧ t ≤ 0x8)
  | .ppe _ _ _ _ => decide (0x6 ≤ t ∧ t ≤ 0x8)
  | .redxAdd _ _ _ => decide (t = 0x0 ∨ t = 0x1 ∨ t = 0x6)
  | .redxMin _ _ _ => decide (t = 0x0 ∨ t = 0x1 ∨ t = 0x6)
  | .redxMax _ _ _ => decide (t = 0x0 ∨ t = 0x1 ∨ t = 0x6)
  | .argmxMax _ _ _ => decide (t = 0x0 ∨ t = 0x1 ∨ t = 0x6)
  | .argmxMin _ _ _ => decide (t = 0x0 ∨ t = 0x1 ∨ t = 0x6)
  | .scanAddIncl _ _ _ => decide (t = 0x0 ∨ t = 0x1)
  | .scanAddExcl _ _ _ => decide (t = 0x0 ∨ t = 0x1)
  | .scanMax _ _ _ => decide (t = 0x0 ∨ t = 0x1)
  | .scanMin _ _ _ => decide (t = 0x0 ∨ t = 0x1)
  | .atadd _ _ _ _ _ _ => decide (t = 0x0 ∨ t = 0x1 ∨ t = 0xC ∨ t = 0xD)
  | .atmin _ _ _ _ _ _ => decide (t = 0x0 ∨ t = 0x1 ∨ t = 0xC ∨ t = 0xD)
  | .atmax _ _ _ _ _ _ => decide (t = 0x0 ∨ t = 0x1 ∨ t = 0xC ∨ t = 0xD)
  | .atand _ _ _ _ _ _ => decide (t = 0x0 ∨ t = 0x1 ∨ t = 0xC ∨ t = 0xD)
  | .ator _ _ _ _ _ _ => decide (t = 0x0 ∨ t = 0x1 ∨ t = 0xC ∨ t = 0xD)
  | .atxor _ _ _ _ _ _ => decide (t = 0x0 ∨ t = 0x1 ∨ t = 0xC ∨ t = 0xD)
  | .atxch _ _ _ _ _ _ => decide (t = 0x0 ∨ t = 0x1 ∨ t = 0xC ∨ t = 0xD)
  | .atcas _ _ _ _ _ _ => decide (t = 0x0 ∨ t = 0x1)
  | .reda _ _ _ _ _ _ => decide (t = 0x0 ∨ t = 0x1 ∨ t = 0xC ∨ t = 0xD)
  | .redaf _ _ _ _ _ _ => decide (0x6 ≤ t ∧ t ≤ 0x8)
  | .cvt _ _ s => cvtOk s.toNat t
  | .cvtz _ _ s => cvtOk s.toNat t
  | .pack _ _ _ s => packOk s.toNat t
  | .unpk _ _ _ s => unpkOk s.toNat t
  | _ => true

/-- Under s64 and n64 the pairs are aligned of an instruction that reads MODE.TYPE, also where it does not accept the type,
which is checked later (R24, R86, R88, R92, R118, R172; log 85). -/
def pairsOk (t : Nat) (i : Instr) : Bool :=
  match i with
  | .cvt d a s => (!type64 t || d.toNat % 2 == 0) && (!type64 s.toNat || a.toNat % 2 == 0)
  | .cvtz d a s => (!type64 t || d.toNat % 2 == 0) && (!type64 s.toNat || a.toNat % 2 == 0)
  | i => !type64 t || pairs64 i
where
  /-- The register fields that name pairs are even. -/
  pairs64 : Instr → Bool
    | .add d a b u => decide (d.toNat % 2 = 0 ∧ a.toNat % 2 = 0 ∧ (u = 1 ∨ b.toNat % 2 = 0))
    | .sub d a b u => decide (d.toNat % 2 = 0 ∧ a.toNat % 2 = 0 ∧ (u = 1 ∨ b.toNat % 2 = 0))
    | .mul d a b u => decide (d.toNat % 2 = 0 ∧ a.toNat % 2 = 0 ∧ (u = 1 ∨ b.toNat % 2 = 0))
    | .mulh d a b u => decide (d.toNat % 2 = 0 ∧ a.toNat % 2 = 0 ∧ (u = 1 ∨ b.toNat % 2 = 0))
    | .min d a b u => decide (d.toNat % 2 = 0 ∧ a.toNat % 2 = 0 ∧ (u = 1 ∨ b.toNat % 2 = 0))
    | .max d a b u => decide (d.toNat % 2 = 0 ∧ a.toNat % 2 = 0 ∧ (u = 1 ∨ b.toNat % 2 = 0))
    | .abs d a => decide (d.toNat % 2 = 0 ∧ a.toNat % 2 = 0)
    | .neg d a => decide (d.toNat % 2 = 0 ∧ a.toNat % 2 = 0)
    | .and d a b u => decide (d.toNat % 2 = 0 ∧ a.toNat % 2 = 0 ∧ (u = 1 ∨ b.toNat % 2 = 0))
    | .or d a b u => decide (d.toNat % 2 = 0 ∧ a.toNat % 2 = 0 ∧ (u = 1 ∨ b.toNat % 2 = 0))
    | .xor d a b u => decide (d.toNat % 2 = 0 ∧ a.toNat % 2 = 0 ∧ (u = 1 ∨ b.toNat % 2 = 0))
    | .andn d a b u => decide (d.toNat % 2 = 0 ∧ a.toNat % 2 = 0 ∧ (u = 1 ∨ b.toNat % 2 = 0))
    | .shl d a b u => decide (d.toNat % 2 = 0 ∧ a.toNat % 2 = 0 ∧ (u = 1 ∨ b.toNat % 2 = 0))
    | .shr d a b u => decide (d.toNat % 2 = 0 ∧ a.toNat % 2 = 0 ∧ (u = 1 ∨ b.toNat % 2 = 0))
    | .sar d a b u => decide (d.toNat % 2 = 0 ∧ a.toNat % 2 = 0 ∧ (u = 1 ∨ b.toNat % 2 = 0))
    | .rol d a b u => decide (d.toNat % 2 = 0 ∧ a.toNat % 2 = 0 ∧ (u = 1 ∨ b.toNat % 2 = 0))
    | .mad d a b c => decide (d.toNat % 2 = 0 ∧ a.toNat % 2 = 0 ∧ b.toNat % 2 = 0 ∧ c.toNat % 2 = 0)
    | .perm d a b c => decide (d.toNat % 2 = 0 ∧ a.toNat % 2 = 0 ∧ b.toNat % 2 = 0 ∧ c.toNat % 2 = 0)
    | .cmp _ a b u _ => decide (a.toNat % 2 = 0 ∧ (u = 1 ∨ b.toNat % 2 = 0))
    | .cmpi _ _ a _ => decide (a.toNat % 2 = 0)
    | .bfx d a _ _ => decide (d.toNat % 2 = 0 ∧ a.toNat % 2 = 0)
    | .bfi d a _ _ => decide (d.toNat % 2 = 0 ∧ a.toNat % 2 = 0)
    | .addi d a _ => decide (d.toNat % 2 = 0 ∧ a.toNat % 2 = 0)
    | .andi d a _ => decide (d.toNat % 2 = 0 ∧ a.toNat % 2 = 0)
    | .ori d a _ => decide (d.toNat % 2 = 0 ∧ a.toNat % 2 = 0)
    | .xori d a _ => decide (d.toNat % 2 = 0 ∧ a.toNat % 2 = 0)
    | .shli d a _ => decide (d.toNat % 2 = 0 ∧ a.toNat % 2 = 0)
    | .shri d a _ => decide (d.toNat % 2 = 0 ∧ a.toNat % 2 = 0)
    | .sari d a _ => decide (d.toNat % 2 = 0 ∧ a.toNat % 2 = 0)
    | .muli d a _ => decide (d.toNat % 2 = 0 ∧ a.toNat % 2 = 0)
    | .mini d a _ => decide (d.toNat % 2 = 0 ∧ a.toNat % 2 = 0)
    | .maxi d a _ => decide (d.toNat % 2 = 0 ∧ a.toNat % 2 = 0)
    | .atadd d _ _ _ _ _ => decide (d.toNat % 2 = 0)
    | .atmin d _ _ _ _ _ => decide (d.toNat % 2 = 0)
    | .atmax d _ _ _ _ _ => decide (d.toNat % 2 = 0)
    | .atand d _ _ _ _ _ => decide (d.toNat % 2 = 0)
    | .ator d _ _ _ _ _ => decide (d.toNat % 2 = 0)
    | .atxor d _ _ _ _ _ => decide (d.toNat % 2 = 0)
    | .atxch d _ _ _ _ _ => decide (d.toNat % 2 = 0)
    | .reda d _ _ _ _ _ => decide (d.toNat % 2 = 0)
    | .redaf d _ _ _ _ _ => decide (d.toNat % 2 = 0)
    | .fadd d a b u => decide (d.toNat % 2 = 0 ∧ a.toNat % 2 = 0 ∧ (u = 1 ∨ b.toNat % 2 = 0))
    | .fsub d a b u => decide (d.toNat % 2 = 0 ∧ a.toNat % 2 = 0 ∧ (u = 1 ∨ b.toNat % 2 = 0))
    | .fmul d a b u => decide (d.toNat % 2 = 0 ∧ a.toNat % 2 = 0 ∧ (u = 1 ∨ b.toNat % 2 = 0))
    | .fmin d a b u => decide (d.toNat % 2 = 0 ∧ a.toNat % 2 = 0 ∧ (u = 1 ∨ b.toNat % 2 = 0))
    | .fmax d a b u => decide (d.toNat % 2 = 0 ∧ a.toNat % 2 = 0 ∧ (u = 1 ∨ b.toNat % 2 = 0))
    | .fma d a b c => decide (d.toNat % 2 = 0 ∧ a.toNat % 2 = 0 ∧ b.toNat % 2 = 0 ∧ c.toNat % 2 = 0)
    | .fabs d a => decide (d.toNat % 2 = 0 ∧ a.toNat % 2 = 0)
    | .fneg d a => decide (d.toNat % 2 = 0 ∧ a.toNat % 2 = 0)
    | .frnd d a => decide (d.toNat % 2 = 0 ∧ a.toNat % 2 = 0)
    | .fcls d a => decide (d.toNat % 2 = 0 ∧ a.toNat % 2 = 0)
    | .fcmp _ a b u _ => decide (a.toNat % 2 = 0 ∧ (u = 1 ∨ b.toNat % 2 = 0))
    | .pack d a b _ => decide (d.toNat % 2 = 0 ∧ a.toNat % 2 = 0 ∧ b.toNat % 2 = 0)
    | .unpk d a _ _ => decide (d.toNat % 2 = 0 ∧ a.toNat % 2 = 0)
    | .rcp d a _ => decide (d.toNat % 2 = 0 ∧ a.toNat % 2 = 0)
    | .rsq d a _ => decide (d.toNat % 2 = 0 ∧ a.toNat % 2 = 0)
    | .lg2 d a _ => decide (d.toNat % 2 = 0 ∧ a.toNat % 2 = 0)
    | .ex2 d a _ => decide (d.toNat % 2 = 0 ∧ a.toNat % 2 = 0)
    | .sin d a _ => decide (d.toNat % 2 = 0 ∧ a.toNat % 2 = 0)
    | .cos d a _ => decide (d.toNat % 2 = 0 ∧ a.toNat % 2 = 0)
    | .tanh d a _ => decide (d.toNat % 2 = 0 ∧ a.toNat % 2 = 0)
    | .ppe d a _ _ => decide (d.toNat % 2 = 0 ∧ a.toNat % 2 = 0)
    | .redxAdd _ a _ => decide (a.toNat % 2 = 0)
    | .redxMin _ a _ => decide (a.toNat % 2 = 0)
    | .redxMax _ a _ => decide (a.toNat % 2 = 0)
    | .argmxMax _ a _ => decide (a.toNat % 2 = 0)
    | .argmxMin _ a _ => decide (a.toNat % 2 = 0)
    | .scanAddIncl d a _ => decide (d.toNat % 2 = 0 ∧ a.toNat % 2 = 0)
    | .scanAddExcl d a _ => decide (d.toNat % 2 = 0 ∧ a.toNat % 2 = 0)
    | .scanMax d a _ => decide (d.toNat % 2 = 0 ∧ a.toNat % 2 = 0)
    | .scanMin d a _ => decide (d.toNat % 2 = 0 ∧ a.toNat % 2 = 0)
    | _ => true

/-- What a lane access does to memory, with the fields its lanes' addresses are formed from (R75, R167). -/
def memAccess : Instr → Option (AccessKind × BitVec 6 × BitVec 5 × BitVec 2 × BitVec 1)
  | .ldb _ i k _ q e | .ldbs _ i k _ q e | .ldh _ i k _ q e | .ldhs _ i k _ q e
  | .ldw _ i k _ q e | .ldd _ i k _ q e | .ldq _ i k _ q e | .lda _ i k _ q e => some (.load, i, k, q, e)
  | .stb _ i k _ q e | .sth _ i k _ q e | .stw _ i k _ q e | .std _ i k _ q e
  | .stq _ i k _ q e | .stl _ i k _ q e => some (.store, i, k, q, e)
  | .atadd _ i k _ q e | .atmin _ i k _ q e | .atmax _ i k _ q e | .atand _ i k _ q e
  | .ator _ i k _ q e | .atxor _ i k _ q e | .atxch _ i k _ q e | .atcas _ i k _ q e
  | .reda _ i k _ q e | .redaf _ i k _ q e => some (.atomic, i, k, q, e)
  | _ => none

/-- Instructions that read an x register in the lowest participating lane alone (R77). -/
def readsLowest : Instr → Bool
  | .swrMode _ k | .swrFflags _ k | .swrStrand _ k | .swrSpillb _ k
  | .swrTrapc _ k | .swrTrapv _ k | .swrTrappc _ k | .swrOvt _ k => k == 0
  | _ => false

/-- Instructions and specials that level 0 may not use (R14, R35, R88 step 3). -/
def privileged : Instr → Bool
  | .tret | .ovtld _ | .swrStrand _ _ | .swrSpillb _ _ | .swrTrapc _ _ | .swrTrapv _ _ | .swrTrappc _ _
  | .swrOvt _ _ => true
  | _ => false

/-- The cause of the first check of R88 an issued instruction fails, if any. -/
def r88 (mode : BitVec 18) (level : Nat) (i : Instr) : Option Byte :=
  let t := modeType mode
  if !i.legal then some cIllegal
  else if !i.operandsOk || !pairsOk t i then some cOperand
  else if privileged i && level == 0 then some cPriv
  else if !acceptsType t i || (readsRnd i && decide (5 ≤ modeRnd mode)) then some cIllegal
  else none

end Sys2Proof.Machine
end

