-- ==== Sys2Proof/Machine/Ops.lean ====
section
/-! DEFINITION. The shared operations of the machine: parking, taking a trap and returning from one (R249 to R254), the
debugger's stop (R260, R261), barriers and merges judged again (R147, R160), the end of warps and crews (R153),
stranding (R31, R262, R263), and the frame in which every instruction issues (R88, R90, R131, R134, R156). -/

namespace Sys2Proof.Machine

/-- Kind F causes (R248). -/
def kindF (c : Byte) : Bool :=
  let n := c.toNat
  (decide (1 ≤ n) && decide (n ≤ 8)) || (decide (0x0B ≤ n) && decide (n ≤ 0x0F)) || n == 0x13 || n == 0x14

/-- Kind S causes (R248). -/
def kindS (c : Byte) : Bool := decide (0x20 ≤ c.toNat) && decide (c.toNat ≤ 0x3F)

/-- The focused crew parked; its listing is that of the first parking of the episode (R254). -/
def park (s : State) (c : Byte) (pc : DWord) (kind : ParkKind) : State :=
  if s.crew.state = .parked then s
  else { s with crew := { s.crew with state := .parked, parkCause := c, parkPc := pc, parkKind := kind } }

/-- A parking with no trapping instruction, logged for the crew's lowest-numbered warp (R254, R258). -/
def parkIdle (s : State) (c : Byte) (w : Warp) : State :=
  logEvent (park s c (oldestPc w) .noInstruction) w
    { cause := c, where_ := whereOldest w, flags := fgParked, pc := oldestPc w, trapv := 0 }

/-- A crew that a warp's handler no longer holds (R252). -/
def Crew.freed (c : Crew) (id : Nat) : Crew := if c.holder = some id then { c with holder := none } else c

/-- Every split and warp held by the focused warp's handler let go (R252). -/
def release (s : State) : State :=
  { s with
    sp := { s.sp with held := false }
    w := { s.w with splits := s.w.splits.map (fun p => { p with held := false })
                    overflow := s.w.overflow.map (fun p => { p with held := false }) }
    crew := s.crew.freed s.w.id
    crews := s.crews.map (fun c => c.freed s.w.id) }

/-- Another split of the warp is at level 1. -/
def handlerBusy (s : State) : Bool := (s.w.splits ++ s.w.overflow).any (fun p => p.alive && p.level != 0)

/-- The warp is held by a kind F handler of another warp (R249). -/
def heldByCrew (s : State) : Bool :=
  match s.crew.holder with
  | some id => id != s.w.id
  | none => false

/-- TRAPC, TRAPV and TRAPPC written (R250). -/
def setTrapRegs (s : State) (c : Byte) (v pc : DWord) : State :=
  { s with w := { s.w with trapc := c, trapv := v, trappc := pc } }

/-- The rest of the warp, and under kind F the rest of the crew, held while the handler runs (R249). -/
def hold (s : State) (c : Byte) : State :=
  { s with
    w := { s.w with splits := s.w.splits.map (fun p => { p with held := true })
                    overflow := s.w.overflow.map (fun p => { p with held := true }) }
    crew := if kindF c then { s.crew with holder := some s.w.id } else s.crew }

/-- An address with bits [1:0] cleared: a split's PC is always a multiple of 4 (R89; log 83). -/
def aligned (a : DWord) : DWord := a &&& ~~~3#64

/-- A kind F, N or S event delivered to the issuing split at level 0: the handler entered, or the crew parked (R250). A
STRAND that cannot enter the handler parks nothing (R263): it has been logged, and the split goes on (log 84), with the TRAP
registers written (log 101). -/
def enterTrap (s : State) (c : Byte) (v pc : DWord) : State :=
  let s1 := setTrapRegs s c v pc
  let ev : Nat → LogEvent := fun flags =>
    { cause := c, where_ := whereOf s.sp, flags := flags, pc := pc, trapv := v }
  if c = cStrand && (s.crew.handler = 0 || (match slideUp s1 15 with | .error _ => true | .ok _ => false)) then s1
  else if s.crew.handler = 0 then
    logEvent (park { s1 with sp := { s1.sp with pc := pc } } c pc .level0) s1.wholeWarp (ev fgParked)
  else match slideUp s1 15 with
    | .error _ =>
      logEvent (park { s1 with sp := { s1.sp with pc := pc } } c pc .level0) s1.wholeWarp
        (ev (fgParked + fgNoHandler))
    | .ok t =>
      let t1 := hold t c
      let t2 := { t1 with
        w := { t1.w with savedMode := s.w.mode, savedSig := if c = cSigmis then 0 else s.sp.sig,
                         tdepth := t1.sp.depth }
        sp := { t1.sp with level := 1, sig := 0, pc := aligned s.crew.handler } }
      if kindF c then logEvent t2 s1.wholeWarp (ev 0) else t2

/-- SIGMIS and RCVERR counted for the warp's cluster (R386). -/
def countError (s : State) (c : Byte) : State :=
  if c = cSigmis then raiseCount s s.w.clus nSigmis 1
  else if c = cRcverr then raiseCount s s.w.clus nRcverr 1
  else s

/-- Taking a trap: cause, TRAPV and resume address, for the issuing split, whose PC is the trapping instruction's
(R250, R253). A split held by a handler elsewhere keeps its PC and issues the instruction again. -/
def takeTrap (s0 : State) (c : Byte) (v pc : DWord) : State :=
  let s := countError s0 c
  if s0.crew.state ≠ .running || heldByCrew s0 then s0
  else if s.sp.level ≠ 0 && (kindF c || kindS c) then
    logEvent (park s c s.sp.pc .level1) s.wholeWarp
      { cause := c, where_ := whereOf s.sp, flags := fgParked + fgDouble, pc := s.sp.pc, trapv := v }
  else if handlerBusy s0 then { s0 with sp := { s0.sp with held := true } }
  else enterTrap s c v pc

/-- The return of TRET, or the cause and TRAPV it raises (R252). -/
def returnTrap (s : State) : Except (Byte × DWord) State :=
  if s.sp.depth ≠ s.w.tdepth then .error (cOperand, BitVec.ofNat 64 s.sp.depth)
  else match slideDown s with
    | .error a => .error (cWindow, BitVec.ofNat 64 a)
    | .ok t => .ok (release { t with
        w := { t.w with mode := t.w.savedMode }
        sp := { t.sp with sig := t.w.savedSig, level := 0, pc := t.w.trappc } })

/-- The debugger's stop record (R260; its layout is the model's own, log 42). -/
def stopRecord (w : Warp) (c : Byte) (v pc : DWord) : List Byte :=
  natLE w.id 8 ++ [c] ++ natLE v.toNat 8 ++ natLE pc.toNat 8

/-- The issuing split stopped by the debugger: STATE 3 at a resume address, TRAP registers only while no split of the
warp is at level 1 (R260). -/
def stopSplit (s : State) (c : Byte) (v pc : DWord) : State :=
  let quiet := s.sp.level = 0 && !handlerBusy s
  let t := if quiet then setTrapRegs s c v pc else s
  { t with
    sp := { t.sp with state := .stopped, stoppedIn := t.sp.state, stepping := 0, freeze := none, pc := pc }
    dev := { t.dev with outbox := t.dev.outbox ++ [stopRecord s.w c v pc] } }

/-- Live warps of the focused crew. -/
def members (s : State) : List Warp := s.warpsOf s.crew.id

/-- Every lane. -/
def allLanes : Mask := 0xFFFFFFFF

/-- Arrived lanes of a barrier (R37, R160). -/
def Barrier.arrivals (b : Barrier) : Nat := b.arrived.foldl (fun n e => n + laneCount e.2) 0

/-- The phase of a barrier is complete (R160). -/
def barrierDone (s : State) (b : Barrier) : Bool :=
  match b.expect with
  | none => false
  | some e =>
    !b.arrived.isEmpty &&
      (if e = 0 then (members s).all (fun w => (sget 0 b.arrived w.id ||| w.strand ||| w.exited) == allLanes)
       else decide (e ≤ b.arrivals))

/-- What some lanes of a warp have done so far. -/
def pastOf (s : State) (w : Warp) (lanes : Mask) : Past :=
  { who := .warp w.id, lanes := lanes, core := w.clus * 8 + w.core, time := s.writes }

/-- What precedes the completion of a barrier's phase: what its arrived lanes had done, and, where every lane counts, what
stranded and exited ones and ended warps had (R162, R308). -/
def barrierPasts (s : State) (b : Barrier) : List Past :=
  b.pasts ++ (if b.expect = some 0 then
    s.crew.ended ++ (members s).map (fun w => pastOf s w (w.strand ||| w.exited)) else [])

/-- The phase that each lane has completed last, once those that have arrived complete another, which comes after some
pasts (R162). -/
def Barrier.finish (b : Barrier) (pasts : List Past) : List PhaseDone :=
  b.arrived.map (fun x => ⟨x.1, x.2, pasts⟩) ++
    (b.done.map (fun d => { d with lanes := d.lanes &&& ~~~(sget 0 b.arrived d.warp) })).filter (fun d => d.lanes != 0)

/-- A barrier with its phase completed: masks cleared, phase flipped (R160). -/
def Barrier.flip (b : Barrier) (pasts : List Past) : Barrier :=
  { phase := !b.phase, arrived := [], expect := none, pasts := [], done := b.finish pasts }

/-- What the end of the phases that some lanes of a warp have completed last comes after (R162). -/
def Barrier.after (b : Barrier) (warp : Nat) (lanes : Mask) : List Past :=
  (b.done.filter (fun d => d.warp == warp && d.lanes &&& lanes != 0)).flatMap (fun d => d.pasts)

/-- The focused crew's barriers judged (R160). -/
def judgeBarriers (s : State) : State :=
  { s with crew := { s.crew with bars := s.crew.bars.map (fun b => if barrierDone s b then b.flip (barrierPasts s b) else b) } }

/-- Splits of the focused warp in the table and the overflow block whose pending point is A. -/
def groupAt (s : State) (a : DWord) : List Split :=
  (s.w.splits ++ s.w.overflow).filter (fun p => p.alive && p.rpc == a)

/-- The lanes of some splits together. -/
def orMasks (ps : List Split) (f : Split → Mask) : Mask := ps.foldl (fun m p => m ||| f p) 0

/-- Splits of a packed warp without some splits. -/
def dropSplits (w : Warp) (g : List Split) : Warp :=
  { w with splits := w.splits.filter (fun p => !g.contains p), overflow := w.overflow.filter (fun p => !g.contains p) }

/-- The lagging lanes of a group spilled up to a floor (R147). -/
def levelGroup (s : State) (g : List Split) (f : Nat) : State :=
  g.foldl (fun t p => spillAll t p.active ((List.range (f - p.sfloor)).map (fun j => p.sfloor + j))) s

/-- The addresses those spills touch. -/
def levelAddrs (s : State) (g : List Split) (f : Nat) : List (Nat × Nat) :=
  g.flatMap (fun p => ((List.range (f - p.sfloor)).map (fun j => p.sfloor + j)).flatMap
    (fun q => (lanesOf p.active).map (fun l => (spillAddr s.w q l, 4))))

/-- The issuing split of a packed warp put back in its entry, or in a free one if it had none in the table. -/
def putBack (s : State) (inTable : Bool) : State :=
  if inTable then packSplit s
  else if s.sp.alive then
    let t := if (freeSlot { s with sp := Split.blank }).isNone then evict s (fun _ => true) else s
    packSplit { t with sp := { t.sp with slot := (freeSlot { t with sp := Split.blank }).getD 0 } }
  else s

/-- The merge of a complete group at A (R147), the warp packed; `arriving` is the slot of the split whose RCV completed
the group. A WINDOW of its spills is raised at that split, whose RCV has then not been made (R134); where no split
arrived, at the oldest of the group (log 82). An RCVERR resumes after the RCV; one at level 1 is a double trap of the RCV at
A (R250, R254). -/
def mergeGroup (s : State) (g : List Split) (a : DWord) (arriving : Option Nat) : State :=
  match oldestSplit g with
  | none => s
  | some kept =>
    let m := orMasks g (fun p => p.active)
    let expect := orMasks g (fun p => p.rmask) &&& ~~~s.w.strand &&& ~~~s.w.exited
    let same := g.all (fun p => p.wbase == kept.wbase && p.depth == kept.depth && p.frames == kept.frames)
    let f := g.foldl (fun n p => max n p.sfloor) 0
    let bad := if same then checkSlide s needSpillW (levelAddrs s g f) else none
    match bad with
    | some addr =>
      let who := (g.find? (fun p => some p.slot == arriving)).getD kept
      let inTable := s.w.splits.contains who
      let t := { s with w := dropSplits s.w [who], sp := { who.cleared with sig := who.sigWas } }
      putBack (takeTrap t cWindow (BitVec.ofNat 64 addr) a) inTable
    | none =>
      let t := if same then levelGroup s g f else s
      let inTable := s.w.splits.contains kept
      let merged : Split := { kept with
        state := .ready, wait := none, active := m, entry := m, sig := 0, rpc := 0, rmask := 0, pc := a + 4,
        sfloor := if same then f else kept.sfloor
        age := if some kept.slot = arriving then kept.age else s.nextAge
        stepping := g.foldl (fun n p => max n p.stepping) 0
        freeze := (g.find? (fun p => p.freeze.isSome)).bind (fun p => p.freeze) }
      let u := { t with w := dropSplits t.w g, sp := merged, nextAge := t.nextAge + 1 }
      let double := kept.level != 0 && s.crew.state == .running
      let v := if m ≠ expect || !same then
          takeTrap (if double then { u with sp := { merged with pc := a } } else u) cRcverr
            (BitVec.ofNat 64 (expect.toNat * 2 ^ 32 + m.toNat)) (a + 4)
        else u
      putBack v inTable

/-- The point of a group of waiting splits that is complete, none of it outside the waiting state or held (R147). -/
def completePoint (s : State) : Option DWord :=
  ((s.w.splits ++ s.w.overflow).find? (fun p => p.alive && p.state == .waitRcv &&
    (groupAt s p.rpc).all (fun q => q.state == .waitRcv && !q.held))).map (fun p => p.rpc)

/-- Groups of the packed focused warp merged until none is complete. The bound is the number of splits. -/
def mergeLoop (s : State) (arriving : Option Nat) : Nat → State
  | 0 => s
  | n + 1 =>
    if s.crew.state ≠ .running || heldByCrew s then s
    else match completePoint s with
      | none => s
      | some a => mergeLoop (mergeGroup s (groupAt s a) a arriving) none n

/-- The complete groups of the focused warp merged, freed entries taken by the overflow block; the issuing split is taken
out again by its slot (R15, R147). -/
def mergeAll (s : State) (arriving : Option Nat) : State :=
  if (s.w.splits ++ s.w.overflow).any (fun p => p.state == .waitRcv) || s.sp.state == .waitRcv then
    retake s (returnOverflow (mergeLoop (packSplit s) arriving 33) 16)
  else s

/-- The holds of a handler that left by EXIT or stranding end. -/
def handlerGone (s : State) : State :=
  if s.sp.level ≠ 0 && s.sp.alive || handlerBusy s then s
  else if s.crew.holder = some s.w.id || (s.w.splits ++ s.w.overflow).any (fun p => p.held) then release s
  else s

/-- The focused crew's end: its memory, rings and barriers released (R153). -/
def endCrew (s : State) : State :=
  dropCommands { s with
    crew := { s.crew with live := false, state := .ended, rings := List.replicate 8 Ring.blank,
                          bars := List.replicate 16 Barrier.blank, mcast := 0 }
    clus := { s.clus with grows := s.clus.grows.filter (fun g => g.crew != s.crew.id) }
    nles := s.nles.filter (fun o => !(o.kind == .stream && o.crew == s.crew.id))
    ctx := { s.ctx with launches := s.ctx.launches.map (fun l =>
      if l.id = s.crew.launch && !s.crew.dispatch then { l with crewsEnded := l.crewsEnded + 1 } else l) } }
    (fun c => c.crew == s.crew.id)

/-- The focused warp's end: its slot, its arrivals and its membership given up; a crew ends with its last warp, and a
dispatch warp frees its slot (R152, R153). -/
def endWarp (s : State) : State :=
  let t := { s with
    w := { s.w with live := false }
    crew := { s.crew.freed s.w.id with
      ended := addPast (pastOf s s.w allLanes) s.crew.ended
      bars := s.crew.bars.map (fun b => { b with arrived := serase b.arrived s.w.id }) }
    crews := s.crews.map (fun c => c.freed s.w.id) }
  if s.crew.dispatch then
    { t with
      crew := { t.crew with live := false, state := .ended }
      ctx := { t.ctx with launches := t.ctx.launches.map (fun l =>
        if l.id = s.w.launch then { l with dispSlots := l.dispSlots.map (fun d =>
          if d.clus = s.w.clus && d.core = s.w.core && d.quad = s.w.quad && d.place = s.w.place
          then { d with busy := false } else d) }
        else l) } }
  else
    let u := judgeBarriers t
    if (members u).isEmpty then endCrew u else u

/-- No split of the focused warp holds a lane. -/
def warpOver (s : State) : Bool := s.w.live && (allSplits s).all (fun p => !p.alive)

/-- What follows an arrival, a stranding, an exit or a change of membership: barriers judged, holds of a vanished handler
ended, complete groups merged, freed entries taken by the overflow block, and the end of the warp (R15, R147, R153,
R160). -/
def rejudge (s : State) (arriving : Option Nat) : State :=
  let t := judgeBarriers s
  let t := { t with w := { t.w with splits := t.w.splits.filter Split.alive
                                    overflow := t.w.overflow.filter Split.alive } }
  let t := returnOverflow (mergeAll (handlerGone t) arriving) 16
  if warpOver t then endWarp t else t

/-- A split without some lanes (R31). -/
def Split.without (p : Split) (m : Mask) : Split := { p with active := p.active &&& ~~~m, entry := p.entry &&& ~~~m }

/-- Lanes of the focused warp stranded and logged; KIND 0 and 1 wait for a STRAND notification, which a warp without a
handler only logs (R31, R258, R259, R263). -/
def strandCore (s : State) (m : Mask) (kind : Nat) (pc : DWord) (addr : Nat → Nat) : State :=
  if !s.w.live then s
  else
    let t := { s with
      w := { s.w with strand := s.w.strand ||| m, splits := s.w.splits.map (fun p => p.without m)
                      overflow := s.w.overflow.map (fun p => p.without m)
                      stranded := if kind = 2 || s.crew.handler = 0 then s.w.stranded else s.w.stranded ||| m
                      notes := if kind = 2 || s.crew.handler = 0 || s.w.notes.contains none then s.w.notes
                               else s.w.notes ++ [none] }
      sp := s.sp.without m }
    let t := raiseCount t t.w.clus nStranding (laneCount m)
    let u := logEvent t t.wholeWarp
      { cause := cStrand, where_ := whereOldest t.wholeWarp, flags := 0, pc := pc, trapv := m.setWidth 64 }
    (lanesOf m).foldl (fun v l => logLoss v kind l (addr l)) u

/-- A split that has made its step and is ready (R261). -/
def Split.stepped (p : Split) : Bool := p.stepping == 2 && p.state == .ready

/-- A split that a debugger's stop has waited for and that is at an instruction boundary (R260, R261). -/
def Split.stopDue (p : Split) : Bool := p.stepped || (p.freeze.isSome && p.state == .ready)

/-- The issuing split stopped, by a freeze that waited for it or with STEP (R260, R261). -/
def stopNow (s : State) : State :=
  match s.sp.freeze with
  | some (c, v) => stopSplit s c v s.sp.pc
  | none => stopSplit s cStep 0 s.sp.pc

/-- A change made with the n-th split of the overflow block as the issuing one, which stays there. -/
def onOverflow (s : State) (n : Nat) (f : State → State) : State :=
  match s.w.overflow[n]? with
  | none => s
  | some p =>
    let t := f { s with sp := p, w := { s.w with overflow := s.w.overflow.set n { p with active := 0 } } }
    { t with sp := s.sp, w := { t.w with overflow := t.w.overflow.set n t.sp } }

/-- The n-th split of the overflow block stopped, if a stop has waited for it. -/
def stopParked (s : State) (n : Nat) : State :=
  match s.w.overflow[n]? with
  | some p => if p.stopDue then onOverflow s n stopNow else s
  | none => s

/-- The splits of the warp that have made their step, or that a freeze has waited for, stop, in the overflow block too
(R260, R261). An issuing split whose step has left it no lanes, which R153 frees, still reports STEP: the spec does not say
(log 104). -/
def stopSteps (s : State) : State :=
  let t := if s.sp.stopDue then stopNow s else s
  let u := (t.w.splits.filter Split.stopDue).foldl (fun u p => onSplit u p.slot stopNow) t
  (List.range u.w.overflow.length).foldl stopParked u

/-- The lane that waits for a lost dispatch item stranded (R152); a split whose stepped RCV that completes stops (R261). -/
def loseItem (s : State) (lane : Nat) : State :=
  let m := laneBit lane &&& ~~~s.w.strand
  if m = 0 then s
  else
    let pc := match (allSplits s).find? (fun p => p.active.getLsbD lane) with
      | some p => p.pc
      | none => 0
    stopSteps (rejudge (strandCore s m 1 pc (fun _ => 0)) none)

/-- Lanes of the focused warp stranded, with everything that follows: lost dispatch items, barriers, merges, the end of
the warp (R31, R142, R152, R262). -/
def strandLanes (s : State) (m : Mask) (kind : Nat) (pc : DWord) (addr : Nat → Nat) : State :=
  let new := m &&& ~~~s.w.strand
  if new = 0 then s
  else
    let held := (lanesOf new).filterMap (fun l => if s.crew.dispatch && !s.w.exited.getLsbD l then s.w.handles[l]? else none)
    let t := strandCore s new kind pc addr
    rejudge (held.foldl (fun u h => inWarp u h.warp (fun v => loseItem v h.lane)) t) none

/-- What an instruction's body answers: done with the PC to advance, done with the PC placed, a trap with its cause,
TRAPV and resume address, or a wait (issue kind W). -/
inductive Res where
  | ok (s : State)
  | jump (s : State)
  | trap (c : Byte) (v pc : DWord) (s : State)
  | wait (s : State)
  deriving DecidableEq, Repr

/-- A body that is done followed by a further change. -/
def Res.then (r : Res) (f : State → State) : Res :=
  match r with
  | .ok s => .ok (f s)
  | .jump s => .jump (f s)
  | r => r

/-- What a waiting instruction read at its issue, kept for its end: the lanes that take part, then operands
(R12, R132); nothing is kept of an earlier wait. -/
def keepArgs (s : State) (vs : List DWord) : State :=
  { s with sp := { s.sp with args := (partMask s).setWidth 64 :: vs, phase := none, slice := none, doomed := false } }

/-- A kept operand. -/
def argN (s : State) (n : Nat) : DWord := s.sp.args.getD (n + 1) 0

/-- The lanes a waiting instruction acts for: those that took part at its issue and are still in ACTIVE. -/
def argLanes (s : State) : Mask := (s.sp.args.headD 0).setWidth 32 &&& s.sp.active

/-- A trap that resumes at the instruction itself. -/
def trapHere (s : State) (c : Byte) (v : Nat) : Res := .trap c (BitVec.ofNat 64 v) s.sp.pc s

/-- A trap that continues at the next instruction (R248). -/
def trapNext (s : State) (c : Byte) (v : DWord) : Res := .trap c v (s.sp.pc + 4) s

/-- OPERAND at execution with the word as its TRAPV. -/
def trapWord (s : State) (i : Instr) : Res := .trap cOperand ((encode i).setWidth 64) s.sp.pc s

/-- A trap whose TRAPV the manual does not state: a free value (log 43). -/
def trapOpen (s : State) (c : Byte) : Res :=
  .trap c (Config.freeDWord s.env.free) s.sp.pc { s with env := { s.env with free := s.env.free + 1 } }

/-- The hash of R156. -/
def sigHash (sig : Word) (op : Nat) (diff : Bool) : Word :=
  sig.rotateLeft 5 ^^^ BitVec.ofNat 32 ((op + 1) * 0x9E3779B1) ^^^ (if diff then 0x80000000 else 0)

/-- SIG updated at issue, its old value kept for a trap; SIGCHK does not hash (R134, R156). -/
def hashSig (s : State) (i : Instr) : State :=
  let op := encodeNat i / 2 ^ 24
  { s with sp := { s.sp with
      sigWas := s.sp.sig
      sig := if op = 0x0F then s.sp.sig else sigHash s.sp.sig op (s.sp.active != s.sp.entry) } }

/-- Registers an outstanding instruction of the issuing split will write (R132). -/
def destsOf (s : State) (i : Instr) : List Dest :=
  let u := regUse s.w.mode i
  u.xw.map (fun r => Dest.x ((s.sp.wbase + r) % s.w.regs)) ++ u.kw.map Dest.k ++ u.pw.map Dest.p ++
    (if raisesFlags i then [Dest.fflags] else [])

/-- Long-latency instructions that hold issue until they complete (R397). -/
def precise : Instr → Bool
  | .kld _ _ _ | .mld _ _ _ | .mst _ _ _ _ | .mcas _ _ _ _ _ | .fetch _ _ _ _ | .mpath _ _ _ _ | .ppld _ _ _ _ => true
  | _ => false

/-- What an instruction does to memory, and each of its lanes' addresses, plus 1, under the lanes' numbers (R393). -/
def laneAccesses (s : State) (i : Instr) : AccessKind × Sparse Nat :=
  match memAccess i, i with
  | some (kind, xi, kb, q, e), _ =>
    (kind, (lanesOf (partMask s)).map (fun l => (l, laneAddr s xi.toNat kb.toNat q.toNat e l + 1)))
  | none, .kst _ k _ => (.store, [(lowestLane (partMask s), (kget s k.toNat).toNat + 1)])
  | none, _ => (.none, [])

/-- An instruction as it becomes outstanding. -/
def outstandingOf (s : State) (i : Instr) (left : Nat) : Outstanding :=
  { left := left, dests := destsOf s i, pc := s.sp.pc, kind := (laneAccesses s i).1, addrs := (laneAccesses s i).2
    mark := s.writes }

/-- The lookahead of what is outstanding counted down by one issue, and the issued instruction made outstanding
(R131). -/
def noteIssue (s : State) (i : Instr) : State :=
  let left := s.sp.out.map (fun o => { o with left := o.left - 1 })
  let mine := match lookahead i with
    | some l => if precise i then [] else [outstandingOf s i l]
    | none => []
  { s with sp := { s.sp with out := left ++ mine, stepping := if s.sp.stepping = 1 then 2 else s.sp.stepping
                             pass := none, lastIssue := s.cycle.toNat, starve := 0 } }

/-- Participating lanes that read a marked register of their own (R262). Where only the lowest participating lane's is
read (R77), a stranded lane leaves the read to the next. -/
def poisonedLanes (s : State) (i : Instr) : Mask :=
  if s.w.marks.isEmpty then 0
  else
    let rs := (regUse s.w.mode i).xr
    let marked : Nat → Bool := fun l => rs.any (fun r => sget 0 s.w.marks (physKey s.w l (s.sp.wbase + r)) != 0)
    if readsLowest i then
      let m := (lanesOf (partMask s)).takeWhile marked
      maskOf (fun l => m.contains l)
    else partMask s &&& maskOf marked

/-- The address a loss record names for a lane: that of the first marked source (R259). -/
def poisonAddr (s : State) (i : Instr) (l : Nat) : Nat :=
  let rs := (regUse s.w.mode i).xr
  match rs.find? (fun r => sget 0 s.w.marks (physKey s.w l (s.sp.wbase + r)) != 0) with
  | some r => sget 0 s.w.marks (physKey s.w l (s.sp.wbase + r)) - 1
  | none => 0

/-- Lanes that consume poison stranded before the instruction acts (R262). -/
def consume (s : State) (i : Instr) : State :=
  let m := poisonedLanes s i
  if m = 0 then s else strandLanes s m 0 s.sp.pc (poisonAddr s i)

/-- What is kept of an instruction that did not wait dropped. -/
def dropArgs (s : State) : State :=
  { s with sp := { s.sp with args := [], phase := none, slice := none, doomed := false } }

/-- The end of an issue. A wait leaves the split in STATE 5 at the instruction; a trap puts SIG back to what it was before
the instruction (R134), but for SIGMIS, whose SIGCHK has cleared it (R157). -/
def finish (i : Instr) (again : Bool) (r : Res) : State :=
  match r with
  | .ok t => stopSteps (advance (if again then wake t else dropArgs t))
  | .jump t => stopSteps (if again then wake t else dropArgs t)
  | .wait t => { t with sp := { t.sp with
      state := if t.sp.state = .ready then .waiting else t.sp.state
      wait := some i, since := if again then t.sp.since else t.cycle.toNat } }
  | .trap c v pc t =>
    let u := if again then wake t else dropArgs t
    stopSteps (takeTrap { u with sp := { u.sp with sig := if c = cSigmis then 0 else u.sp.sigWas } } c v pc)

/-- An instruction issued: the checks of R88, SIG, the count of R131, consumed poison, then its body. A split that waits
in the instruction runs the body again, without the rest; the body is told so. -/
def issueW (i : Instr) (body : Bool → State → Res) (s : State) : State :=
  if s.sp.wait = some i then finish i true (body true s)
  else match r88 s.w.mode s.sp.level i with
    | some c => takeTrap s c ((encode i).setWidth 64) s.sp.pc
    | none => finish i false (body false (consume (noteIssue (hashSig s i) i) i))

/-- An instruction issued that never waits. -/
def issue (i : Instr) (body : State → Res) (s : State) : State := issueW i (fun _ => body) s

/-- Outcomes of the machine. -/
abbrev Out := Host.Outcome State Fault Refusal

/-- An event's outcome: one that names nothing there is, or that cannot happen now, changes nothing (log 86). -/
def event (f : Option State) (s : State) : Out := .next (f.getD s)

/-- A meaning's outcome. -/
def run (i : Instr) (body : State → Res) (s : State) : Out := .next (issue i body s)

/-- A waiting meaning's outcome. -/
def runW (i : Instr) (body : Bool → State → Res) (s : State) : Out :=
  .next (issueW i body s)

/-- An effect on each participating lane in ascending order (R90). -/
def perLane (s : State) (f : Nat → State → State) : State := (lanesOf (partMask s)).foldl (fun t l => f l t) s

/-- An effect that happens once when some lane of ACTIVE passes the guard (R29). -/
def once (s : State) (f : State → Res) : Res := if anyLane s then f s else .ok s

end Sys2Proof.Machine
end

