-- ==== Sys2Proof/Machine/Integer.lean ====
section
/-! DEFINITION. Integer arithmetic, logic, shifts, compares, bit fields, permutes, moves and predicate moves of the lanes
(04 R90 to R108, 03 R79, 05 R141). -/

namespace Sys2Proof.Machine

/-- n sub-elements of width w put together, sub-element 0 lowest (R27, R45). -/
def packElems (w : Nat) (f : Nat → Nat) : Nat → Nat
  | 0 => 0
  | n + 1 => packElems w f n + f n % 2 ^ w * 2 ^ (w * n)

/-- A result computed sub-element by sub-element under a type (R92). -/
def elemwise2 (t : Nat) (f : Nat → Nat → Nat) (a b : Nat) : Nat :=
  packElems (typeWidth t) (fun i => f (subElem a (typeWidth t) i) (subElem b (typeWidth t) i)) (typeCount t)

/-- What an integer operation does to two sub-elements: saturation, signedness, width and the two patterns. -/
abbrev IntOp := Bool → Bool → Nat → Nat → Nat → Nat

/-- Results that read two operands under MODE.TYPE, written in every participating lane (R90, R92). -/
def lanes2 (d : Nat) (a b : State → Nat → Nat) (f : Nat → Nat → Nat → Nat) (s : State) : Res :=
  let t := modeType s.w.mode
  .ok (perLane s (fun l r => xwrite r t l d (f t (a s l) (b s l))))

/-- The a operand under MODE.TYPE. -/
def srcX (a : BitVec 6) (s : State) (l : Nat) : Nat := xread s (modeType s.w.mode) l a.toNat
/-- The b operand under MODE.TYPE (R92). -/
def srcB (b : BitVec 6) (u : BitVec 1) (s : State) (l : Nat) : Nat := bread s (modeType s.w.mode) u l b.toNat

/-- An integer operation under a MODE. -/
def intElems (f : IntOp) (sat : Bool) (t a b : Nat) : Nat := elemwise2 t (f sat (typeSigned t) (typeWidth t)) a b

/-- An integer instruction of two lane operands (R96, R99). -/
def intBinary (f : IntOp) (d a b : BitVec 6) (u : BitVec 1) (s : State) : Res :=
  lanes2 d.toNat (srcX a) (srcB b u) (intElems f (modeSat s.w.mode)) s

/-- An integer instruction of one lane operand (R97). -/
def intUnary (f : IntOp) (d a : BitVec 6) (s : State) : Res :=
  lanes2 d.toNat (srcX a) (fun _ _ => 0) (intElems f (modeSat s.w.mode)) s

/-- An integer instruction with an immediate pattern, the same in every sub-element (R101). -/
def intImm (f : IntOp) (d a : BitVec 6) (imm : Int) (s : State) : Res :=
  let t := modeType s.w.mode
  lanes2 d.toNat (srcX a) (fun _ _ => packElems (typeWidth t) (fun _ => wrapInt (typeWidth t) imm) (typeCount t))
    (intElems f (modeSat s.w.mode)) s

/-- A bitwise operation on the register or pair (R98). -/
def bitwise (f : Nat → Nat → Nat) (d : BitVec 6) (a b : State → Nat → Nat) (s : State) : Res :=
  lanes2 d.toNat a b (fun _ => f) s

def opAdd : IntOp := fun sat sg w a b => fit sat sg w (signedOf sg w a + signedOf sg w b)
def opSub : IntOp := fun sat sg w a b => fit sat sg w (signedOf sg w a - signedOf sg w b)
def opMul : IntOp := fun sat sg w a b => fit sat sg w (signedOf sg w a * signedOf sg w b)
def opMulh : IntOp := fun _ sg w a b => wrapInt w ((signedOf sg w a * signedOf sg w b).fdiv (2 ^ w))
def opMin : IntOp := fun _ sg w a b => if signedOf sg w a ≤ signedOf sg w b then a else b
def opMax : IntOp := fun _ sg w a b => if signedOf sg w a ≤ signedOf sg w b then b else a
def opAbs : IntOp := fun sat sg w a _ => fit sat sg w (signedOf sg w a).natAbs
def opNeg : IntOp := fun sat sg w a _ => fit sat sg w (-signedOf sg w a)
/-- Counts of w or more act as w: the result is the same (R99). -/
def opShl : IntOp := fun sat sg w a b => fit sat sg w (signedOf sg w a * 2 ^ min b w)
def opShr : IntOp := fun _ _ w a b => a / 2 ^ min b w
def opSar : IntOp := fun _ _ w a b => wrapInt w ((signedOf true w a).fdiv (2 ^ min b w))
def opRol : IntOp := fun _ _ w a b => (a * 2 ^ (b % w) + a / 2 ^ (w - b % w)) % 2 ^ w
/-- ADDI and MULI take the immediate as an exact signed integer, whatever the type (R101). -/
def opAddI (imm : Int) : IntOp := fun sat sg w a _ => fit sat sg w (signedOf sg w a + imm)
def opMulI (imm : Int) : IntOp := fun sat sg w a _ => fit sat sg w (signedOf sg w a * imm)

def execAdd (d a b : BitVec 6) (u : BitVec 1) (s : State) : Out := run (.add d a b u) (intBinary opAdd d a b u) s
def execSub (d a b : BitVec 6) (u : BitVec 1) (s : State) : Out := run (.sub d a b u) (intBinary opSub d a b u) s
def execMul (d a b : BitVec 6) (u : BitVec 1) (s : State) : Out := run (.mul d a b u) (intBinary opMul d a b u) s
def execMulh (d a b : BitVec 6) (u : BitVec 1) (s : State) : Out := run (.mulh d a b u) (intBinary opMulh d a b u) s
def execMin (d a b : BitVec 6) (u : BitVec 1) (s : State) : Out := run (.min d a b u) (intBinary opMin d a b u) s
def execMax (d a b : BitVec 6) (u : BitVec 1) (s : State) : Out := run (.max d a b u) (intBinary opMax d a b u) s
def execAbs (d a : BitVec 6) (s : State) : Out := run (.abs d a) (intUnary opAbs d a) s
def execNeg (d a : BitVec 6) (s : State) : Out := run (.neg d a) (intUnary opNeg d a) s

/-- A AND NOT B on 64 bits (R98). -/
def andNot (a b : Nat) : Nat := a &&& (b ^^^ (2 ^ 64 - 1))

def execAnd (d a b : BitVec 6) (u : BitVec 1) (s : State) : Out :=
  run (.and d a b u) (bitwise (fun x y => x &&& y) d (srcX a) (srcB b u)) s
def execOr (d a b : BitVec 6) (u : BitVec 1) (s : State) : Out :=
  run (.or d a b u) (bitwise (fun x y => x ||| y) d (srcX a) (srcB b u)) s
def execXor (d a b : BitVec 6) (u : BitVec 1) (s : State) : Out :=
  run (.xor d a b u) (bitwise (fun x y => x ^^^ y) d (srcX a) (srcB b u)) s
def execAndn (d a b : BitVec 6) (u : BitVec 1) (s : State) : Out :=
  run (.andn d a b u) (bitwise andNot d (srcX a) (srcB b u)) s

def execShl (d a b : BitVec 6) (u : BitVec 1) (s : State) : Out := run (.shl d a b u) (intBinary opShl d a b u) s
def execShr (d a b : BitVec 6) (u : BitVec 1) (s : State) : Out := run (.shr d a b u) (intBinary opShr d a b u) s
def execSar (d a b : BitVec 6) (u : BitVec 1) (s : State) : Out := run (.sar d a b u) (intBinary opSar d a b u) s
def execRol (d a b : BitVec 6) (u : BitVec 1) (s : State) : Out := run (.rol d a b u) (intBinary opRol d a b u) s

/-- MAD: the product is not narrowed before the add (R100). -/
def madElems (sat : Bool) (t a b c : Nat) : Nat :=
  let w := typeWidth t
  let v : Nat → Nat → Int := fun x i => signedOf (typeSigned t) w (subElem x w i)
  packElems w (fun i => fit sat (typeSigned t) w (v a i * v b i + v c i)) (typeCount t)

def execMad (d a b c : BitVec 6) (s : State) : Out :=
  run (.mad d a b c) (fun s =>
    let t := modeType s.w.mode
    .ok (perLane s (fun l r => xwrite r t l d.toNat
      (madElems (modeSat s.w.mode) t (srcX a s l) (srcX b s l) (srcX c s l))))) s

def execAddi (d a : BitVec 6) (i : BitVec 12) (s : State) : Out :=
  run (.addi d a i) (intUnary (opAddI i.toInt) d a) s
def execAndi (d a : BitVec 6) (i : BitVec 12) (s : State) : Out :=
  run (.andi d a i) (bitwise (fun x y => x &&& y) d (srcX a) (fun _ _ => i.toNat)) s
def execOri (d a : BitVec 6) (i : BitVec 12) (s : State) : Out :=
  run (.ori d a i) (bitwise (fun x y => x ||| y) d (srcX a) (fun _ _ => i.toNat)) s
def execXori (d a : BitVec 6) (i : BitVec 12) (s : State) : Out :=
  run (.xori d a i) (bitwise (fun x y => x ^^^ y) d (srcX a) (fun _ _ => i.toNat)) s

/-- The count of SHLI, SHRI and SARI, read the same in every sub-element (R101). -/
def countOp (f : IntOp) (n : BitVec 6) : IntOp := fun sat sg w a _ => f sat sg w a n.toNat

def execShli (d a n : BitVec 6) (s : State) : Out := run (.shli d a n) (intUnary (countOp opShl n) d a) s
def execShri (d a n : BitVec 6) (s : State) : Out := run (.shri d a n) (intUnary (countOp opShr n) d a) s
def execSari (d a n : BitVec 6) (s : State) : Out := run (.sari d a n) (intUnary (countOp opSar n) d a) s
def execMuli (d a : BitVec 6) (i : BitVec 12) (s : State) : Out :=
  run (.muli d a i) (intUnary (opMulI i.toInt) d a) s
def execMini (d a : BitVec 6) (i : BitVec 12) (s : State) : Out := run (.mini d a i) (intImm opMin d a i.toInt) s
def execMaxi (d a : BitVec 6) (i : BitVec 12) (s : State) : Out := run (.maxi d a i) (intImm opMax d a i.toInt) s

/-- The condition holds for every sub-element (R102). -/
def cmpElems (c t a b : Nat) : Bool :=
  let w := typeWidth t
  (List.range (typeCount t)).all (fun i =>
    let ua := subElem a w i
    let ub := subElem b w i
    intCond c ua ub (signedOf (typeSigned t) w ua) (signedOf (typeSigned t) w ub))

/-- A predicate set by a test in each participating lane. -/
def lanesP (d : Nat) (f : Nat → Bool) (s : State) : Res := .ok (pset s d (maskOf f))

def execCmp (d a b : BitVec 6) (u : BitVec 1) (c : BitVec 5) (s : State) : Out :=
  run (.cmp d a b u c) (fun s =>
    lanesP d.toNat (fun l => cmpElems c.toNat (modeType s.w.mode) (srcX a s l) (srcB b u s l)) s) s

def execCmpi (p c : BitVec 3) (a : BitVec 6) (i : BitVec 12) (s : State) : Out :=
  run (.cmpi p c a i) (fun s =>
    let t := modeType s.w.mode
    lanesP p.toNat (fun l => cmpElems c.toNat t (srcX a s l) (wrapInt (typeWidth t) i.toInt)) s) s

/-- 32-bit results in every participating lane. -/
def lanes32 (d : Nat) (f : Nat → Word) (s : State) : Res := .ok (perLane s (fun l r => xset r l d (f l)))

def execSel (d a b : BitVec 6) (u : BitVec 1) (n : BitVec 3) (s : State) : Out :=
  run (.sel d a b u n) (fun s =>
    lanes32 d.toNat (fun l => if (predMask s.w n.toNat).getLsbD l then xget s l a.toNat else bread32 s u l b.toNat) s) s

/-- Ones of a word (R105). -/
def popCount (v : Word) : Nat := laneCount v
/-- Zeros above the highest one (R105). -/
def leadingZeros (v : Word) : Nat := if v = 0 then 32 else 31 - v.toNat.log2
/-- Bit j moved to bit n - 1 - j (R105). -/
def revBits (n v : Nat) : Nat :=
  (List.range n).foldl (fun acc j => acc + v / 2 ^ j % 2 * 2 ^ (n - 1 - j)) 0

def execPopc (d a : BitVec 6) (s : State) : Out :=
  run (.popc d a) (fun s => lanes32 d.toNat (fun l => BitVec.ofNat 32 (popCount (xget s l a.toNat))) s) s
def execClz (d a : BitVec 6) (s : State) : Out :=
  run (.clz d a) (fun s => lanes32 d.toNat (fun l => BitVec.ofNat 32 (leadingZeros (xget s l a.toNat))) s) s
def execBrev (d a : BitVec 6) (s : State) : Out :=
  run (.brev d a) (fun s => lanes32 d.toNat (fun l => BitVec.ofNat 32 (revBits 32 (xget s l a.toNat).toNat)) s) s

/-- One output byte of PERM, steered by a 6-bit field; v8 is the eight source bytes (R107). -/
def permByte (v8 sel : Nat) : Nat :=
  let v := bitsOf v8 (8 * (sel % 8)) 8
  let u := match bitsOf sel 3 2 with
    | 0 => v
    | 1 => 0
    | 2 => if v ≥ 128 then 255 else 0
    | _ => revBits 8 v
  if bitsOf sel 5 1 = 1 then 255 - u else u

/-- PERM of R107. -/
def permWord (t : Nat) (a b c : Word) : Word :=
  let v := a.toNat + b.toNat * 2 ^ 32
  BitVec.ofNat 32 (if t = 0xF then packElems 4 (fun i => bitsOf v (4 * bitsOf c.toNat (4 * i) 4) 4) 8
    else packElems 8 (fun i => permByte v (bitsOf c.toNat (6 * i) 6)) 4)

/-- PERM: under s64 and n64 its operands are pairs (R92), of which it reads and writes bytes 0 to 3 (R107; log 85). -/
def execPerm (d a b c : BitVec 6) (s : State) : Out :=
  run (.perm d a b c) (fun s => lanes32 d.toNat (fun l =>
    permWord (modeType s.w.mode) (xget s l a.toNat) (xget s l b.toNat) (xget s l c.toNat)) s) s

/-- The execution-time check of BFX and BFI (R106). -/
def fieldOk (t len pos : Nat) : Bool := len != 0 && decide (len + pos ≤ typeWidth t)

/-- BFX of R106 on a value. -/
def bfxValue (t len pos v : Nat) : Nat :=
  wrapInt (typeWidth t) (signedOf (typeSigned t) len (bitsOf v pos len))

/-- BFI of R106: a field of the destination replaced. -/
def bfiValue (len pos old v : Nat) : Nat :=
  old - bitsOf old pos len * 2 ^ pos + v % 2 ^ len * 2 ^ pos

def execBfx (d a n p : BitVec 6) (s : State) : Out :=
  run (.bfx d a n p) (fun s =>
    if !fieldOk (modeType s.w.mode) n.toNat p.toNat then (if anyLane s then trapWord s (.bfx d a n p) else .ok s)
    else lanes2 d.toNat (srcX a) (fun _ _ => 0) (fun t v _ => bfxValue t n.toNat p.toNat v) s) s

def execBfi (d a n p : BitVec 6) (s : State) : Out :=
  run (.bfi d a n p) (fun s =>
    if !fieldOk (modeType s.w.mode) n.toNat p.toNat then (if anyLane s then trapWord s (.bfi d a n p) else .ok s)
    else lanes2 d.toNat (srcX d) (srcX a) (fun _ old v => bfiValue n.toNat p.toNat old v) s) s

def execMovx (d a : BitVec 6) (s : State) : Out := run (.movx d a) (fun s => lanes32 d.toNat (fun l => xget s l a.toNat) s) s
def execMovxK (d b : BitVec 6) (s : State) : Out :=
  run (.movxK d b) (fun s => lanes32 d.toNat (fun _ => (kget s b.toNat).extractLsb' 0 32) s) s
def execMovi (d : BitVec 6) (i : BitVec 18) (s : State) : Out :=
  run (.movi d i) (fun s => lanes32 d.toNat (fun _ => i.signExtend 32) s) s
def execMovh (d : BitVec 6) (i : BitVec 18) (s : State) : Out :=
  run (.movh d i) (fun s => lanes32 d.toNat (fun l => i ++ (xget s l d.toNat).extractLsb' 0 14) s) s

def execPmov (d a : BitVec 6) (s : State) : Out :=
  run (.pmov d a) (fun s => once s (fun s => .ok (kset s d.toNat ((predMask s.w a.toNat &&& partMask s).setWidth 64)))) s
def execPset (d a : BitVec 6) (s : State) : Out :=
  run (.pset d a) (fun s => .ok (pset s d.toNat ((kget s a.toNat).extractLsb' 0 32))) s
/-- The truth table of PLOG, one bit of it per lane (R79). -/
def plogMask (t : BitVec 4) (p q : Mask) : Mask :=
  maskOf (fun l => t.getLsbD (2 * (if p.getLsbD l then 1 else 0) + (if q.getLsbD l then 1 else 0)))
def execPlog (d a b : BitVec 6) (t : BitVec 4) (s : State) : Out :=
  run (.plog d a b t) (fun s => .ok (pset s d.toNat (plogMask t (predMask s.w a.toNat) (predMask s.w b.toNat)))) s

end Sys2Proof.Machine
end

