-- ==== Sys2Proof/Machine/Control.lean ====
section
/-! DEFINITION. Control flow, reconvergence, calls, ends, waits, MODE, signatures, software traps and returns
(05 R145 to R149, R153 to R157, R163, R165, R166). -/

namespace Sys2Proof.Machine

def execNop (s : State) : Out := run .nop (fun s => .ok s) s

/-- BRA: taken lanes pass the guard and hold the predicate in the sense given (R145). -/
def braTaken (s : State) (p : BitVec 3) (sense : BitVec 1) : Mask :=
  let m := predMask s.w p.toNat
  partMask s &&& (if sense = 1 then m else ~~~m)

def execBra (p : BitVec 3) (q : BitVec 1) (d : BitVec 20) (s : State) : Out :=
  run (.bra p q d) (fun s => .jump (divert s (braTaken s p q) (goTo (target s.sp.pc d.toInt)))) s

/-- A uniform target with bits [1:0] non-zero raises ALIGN (R89). -/
def misaligned (t : DWord) : Bool := t.toNat % 4 != 0

def execJmpk (a : BitVec 6) (s : State) : Out :=
  run (.jmpk a) (fun s =>
    let t := kget s a.toNat
    if anyLane s && misaligned t then .trap cAlign t s.sp.pc s
    else .jump (divert s (partMask s) (goTo t))) s

/-- The return address in the callee's x62 and x63 of the calling lanes (R148). -/
def writeReturn (ra : DWord) (s : State) : State :=
  (lanesOf s.sp.active).foldl (fun t l =>
    xset (xset t l 62 (ra.extractLsb' 0 32)) l 63 ((ra.extractLsb' 32 24).setWidth 32)) s

/-- The calling half: it slides, keeps its return address and goes to the target (R148). -/
def callHalf (code : Nat) (t ra : DWord) (s : State) : State :=
  match slideUp s code with
  | .ok u => goTo t (writeReturn ra u)
  | .error _ => s

/-- CALL and CALLK: the slide is checked for the calling lanes before anything changes (R20, R148). -/
def callBody (code : Nat) (t : DWord) (s : State) : Res :=
  let m := partMask s
  if m = 0 then .ok s
  else match slideUp { s with sp := { s.sp with active := m } } code with
    | .error a => trapHere s cWindow a
    | .ok _ => .jump (divert s m (callHalf code t (s.sp.pc + 4)))

def execCall (c : BitVec 4) (d : BitVec 20) (s : State) : Out :=
  run (.call c d) (fun s => callBody c.toNat (target s.sp.pc d.toInt) s) s

def execCallk (a : BitVec 6) (c : BitVec 4) (s : State) : Out :=
  run (.callk a c) (fun s =>
    let t := kget s a.toNat
    if anyLane s && misaligned t then .trap cAlign t s.sp.pc s else callBody c.toNat t s) s

/-- The return target of a lane (R149). -/
def retTarget (s : State) (l : Nat) : DWord :=
  BitVec.ofNat 64 ((xget s l 63).toNat % 2 ^ 24 * 2 ^ 32 + (xget s l 62).toNat)

/-- A group of returning lanes: their target, their refilled record and the lanes (R149). -/
structure RetGroup where
  dest : DWord
  record : Nat
  lanes : Mask
  deriving DecidableEq, Repr

/-- A lane put into its group; groups stand in the order of their lowest lanes. -/
def addReturn (dest : DWord) (record l : Nat) : List RetGroup → List RetGroup
  | [] => [⟨dest, record, laneBit l⟩]
  | g :: t => if g.dest = dest && g.record == record then { g with lanes := g.lanes ||| laneBit l } :: t
              else g :: addReturn dest record l t

/-- The groups of some returning lanes (R149). -/
def retGroups (s : State) (p : Slide) (m : Mask) : List RetGroup :=
  (lanesOf m).foldl (fun gs l => addReturn (retTarget s l) (refill s p l) l gs) []

/-- A group slides back and goes to its target. -/
def retHalf (dest : DWord) (s : State) : State :=
  match slideDown s with
  | .ok u => goTo dest u
  | .error _ => s

/-- Groups sent off in order; the issuing split keeps the lanes that continue, or the first group's where none does
(R143, R149). -/
def returnLanes (s : State) (m : Mask) (groups : List RetGroup) : State :=
  let rest := s.sp.active &&& ~~~m
  if rest ≠ 0 then
    let t := groups.foldl (fun u g => branchOff u g.lanes (retHalf g.dest)) s
    { t with sp := { s.sp.half rest with pc := s.sp.pc + 4 } }
  else match groups with
    | [] => s
    | [g] => retHalf g.dest s
    | g :: more =>
      let t := more.foldl (fun u h => branchOff u h.lanes (retHalf h.dest)) s
      retHalf g.dest { t with sp := s.sp.half g.lanes }

/-- RET: every target and every slide is checked before any group leaves; inside a handler a RET that would undo the
entry slide raises WINDOW (R20, R149, R251). -/
def retBody (s : State) : Res :=
  let m := partMask s
  if m = 0 then .ok s
  else if s.sp.level ≠ 0 && decide (s.sp.depth ≤ s.w.tdepth) then trapHere s cWindow 0
  else match (lanesOf m).find? (fun l => misaligned (retTarget s l)) with
    | some l => .trap cAlign (retTarget s l) s.sp.pc s
    | none => match planDown s with
      | none => trapHere s cWindow 0
      | some p => match checkSlide s needSpillR (slideAddrs s p m) with
        | some a => trapHere s cWindow a
        | none => .jump (returnLanes s m (retGroups s p m))

def execRet (s : State) : Out := run .ret retBody s

def execSrcv (d : BitVec 24) (s : State) : Out :=
  run (.srcv d) (fun s => once s (fun s =>
    .ok (mergeAll { s with sp := { s.sp with rpc := target s.sp.pc d.toInt, rmask := s.sp.active } } none))) s

def execRcv (s : State) : Out :=
  run .rcv (fun s => once s (fun s =>
    if s.sp.rpc ≠ s.sp.pc then .trap cRcverr s.sp.rpc s.sp.pc s
    else .jump (rejudge { s with sp := { s.sp with state := .waitRcv } } (some s.sp.slot)))) s

/-- The word of an instruction as a TRAPV. -/
def wordOf (i : Instr) : DWord := (encode i).setWidth 64

/-- Lanes leave ACTIVE and are marked ended; ENTRYMASK keeps their bits (R153). -/
def leaveLanes (s : State) (m : Mask) : State :=
  { s with w := { s.w with exited := s.w.exited ||| m }, sp := { s.sp with active := s.sp.active &&& ~~~m } }

def execExit (s : State) : Out :=
  run .exit (fun s => once s (fun s =>
    if s.crew.dispatch then .trap cIllegal (wordOf .exit) s.sp.pc s
    else .jump (rejudge (advance (leaveLanes s (partMask s))) none))) s

def execYield (s : State) : Out := run .yield (fun s => once s (fun s => .ok (youngest s))) s

/-- A safe point of R44: one live split, with every lane neither stranded nor ended, at depth 0. -/
def safePoint (s : State) : Bool :=
  (s.w.splits ++ s.w.overflow).all (fun p => !p.alive) && s.sp.active == ~~~(s.w.strand ||| s.w.exited) &&
    s.sp.depth == 0

def execYieldp (s : State) : Out :=
  runW .yieldp (fun again s =>
    if again then (if s.ctx.preempt.isSome then .wait s else .ok { s with w := { s.w with atSafePoint := false } })
    else once s (fun s =>
      if s.ctx.preempt.isSome && safePoint s then .wait { s with w := { s.w with atSafePoint := true } }
      else .ok (youngest s))) s

/-- SLEEP's limit on its count (R154). -/
def sleepClocks (v : DWord) : Nat := if v.toNat < 2 ^ 32 - 1 then v.toNat else 2 ^ 32 - 1

def execSleep (a : BitVec 6) (s : State) : Out :=
  runW (.sleep a) (fun again s =>
    if again then (if decide (s.sp.wake ≤ s.cycle.toNat) then .ok s else .wait s)
    else once s (fun s =>
      .wait { s with sp := { s.sp with state := .sleeping,
                                       wake := s.cycle.toNat + sleepClocks (kget s a.toNat) } })) s

/-- A MODE whose guard no lane could pass (R87). -/
def deadGuard (m : BitVec 18) : Bool := modeGuard m == 0 && !modeSense m

/-- MODE written. -/
def setMode (s : State) (m : BitVec 18) : State := { s with w := { s.w with mode := m } }

def execSetm (m : BitVec 18) (s : State) : Out :=
  run (.setm m) (fun s => once s (fun s => if deadGuard m then trapWord s (.setm m) else .ok (setMode s m))) s

/-- MODE with GUARD and SENSE replaced (R155). -/
def withGuard (m : BitVec 18) (q : BitVec 1) (g : BitVec 3) : BitVec 18 := m.extractLsb' 4 14 ++ q ++ g

def execSetg (q : BitVec 1) (g : BitVec 3) (s : State) : Out :=
  run (.setg q g) (fun s => once s (fun s =>
    if deadGuard (withGuard s.w.mode q g) then trapWord s (.setg q g)
    else .ok (setMode s (withGuard s.w.mode q g)))) s

def execSigchk (i : BitVec 24) (s : State) : Out :=
  run (.sigchk i) (fun s => once s (fun s =>
    let t := { s with sp := { s.sp with sig := 0 } }
    if s.sp.sig.extractLsb' 0 24 = i then .ok t else trapNext t cSigmis (s.sp.sig.setWidth 64))) s

def execTrap (v : BitVec 16) (c : BitVec 8) (s : State) : Out :=
  run (.trap v c) (fun s => once s (fun s => trapNext s c (v.setWidth 64))) s

def execTret (s : State) : Out :=
  run .tret (fun s => once s (fun s =>
    match returnTrap s with
    | .error (c, v) => .trap c v s.sp.pc s
    | .ok t => .jump (mergeAll t none))) s

def execBkpt (i : BitVec 24) (s : State) : Out :=
  run (.bkpt i) (fun s => once s (fun s =>
    .jump (stopSplit { s with sp := { s.sp with sig := s.sp.sigWas } } cBkpt (i.setWidth 64) (s.sp.pc + 4)))) s

def execSetrl (d : BitVec 24) (s : State) : Out :=
  run (.setrl d) (fun s => once s (fun s =>
    if s.crew.dispatch then trapOpen s cProt
    else .ok { s with w := { s.w with rlabel := target s.sp.pc d.toInt, snap := s.w.k } })) s

end Sys2Proof.Machine
end

