-- ==== Sys2Proof/Machine/Specials.lean ====
section
/-! DEFINITION. Special registers and the overflow table (01 R33, R35, R40, 05 R164, R166). -/

namespace Sys2Proof.Machine

/-- A special register's value, per lane where it is LANE (R33). An unbudgeted BUDGET reads all ones (R255). -/
def readSpecial (s : State) (id l : Nat) : DWord :=
  let n : Nat → DWord := BitVec.ofNat 64
  match id with
  | 0x00 => s.w.mode.setWidth 64
  | 0x01 => s.w.fflags.setWidth 64
  | 0x02 => s.sp.active.setWidth 64
  | 0x03 => s.sp.entry.setWidth 64
  | 0x04 => s.sp.sig.setWidth 64
  | 0x05 => s.w.strand.setWidth 64
  | 0x06 => n s.sp.wbase
  | 0x07 => n s.sp.sfloor
  | 0x08 => s.w.spillb
  | 0x09 => n s.sp.depth
  | 0x0A => s.cycle
  | 0x0B => n l
  | 0x0C => n s.w.index
  | 0x0D => n s.crew.nwarp
  | 0x0E => s.crew.number.setWidth 64
  | 0x0F => n s.w.core
  | 0x10 => n s.w.clus
  | 0x11 => n (s.w.clus / 4)
  | 0x12 => n s.crew.cmbase
  | 0x13 => n s.crew.cmsize
  | 0x14 => s.w.trapc.setWidth 64
  | 0x15 => s.w.trapv
  | 0x16 => s.w.trappc
  | 0x17 => s.ctx.ovt.setWidth 64
  | 0x18 => n s.w.allot
  | 0x19 => n s.w.prio
  | 0x1A => s.w.rlabel
  | 0x1B => s.crew.budget.getD 0xFFFFFFFFFFFFFFFF
  | 0x1C => n s.sp.level
  | 0x1D => n s.w.quad
  | 0x1E => n s.sp.slot
  | 0x1F => s.ctx.ctxid.setWidth 64
  | _ => 0

def execSrd (d : BitVec 6) (k : BitVec 1) (i : BitVec 6) (s : State) : Out :=
  run (.srd d k i) (fun s =>
    if k = 0 then lanes32 d.toNat (fun l => (readSpecial s i.toNat l).extractLsb' 0 32) s
    else once s (fun s =>
      if i.toNat = 0x20 then .ok (kset s d.toNat (sget 0 s.ctx.shapes ((kget s d.toNat).toNat % 16)))
      else .ok (kset s d.toNat (readSpecial s i.toNat 0)))) s

/-- The source value of SWR: the lowest participating lane's register, or a k register (R35, R77). -/
def swrValue (s : State) (a : BitVec 6) (k : BitVec 1) : DWord :=
  if k = 0 then (xget s (lowestLane (partMask s)) a.toNat).setWidth 64 else kget s a.toNat

/-- The frame of SWR: it acts once on its source value (R35). -/
def swr (a : BitVec 6) (k : BitVec 1) (f : DWord → State → Res) (s : State) : Res :=
  once s (fun s => f (swrValue s a k) s)

/-- A failed value check: the cause, with the source value as TRAPV (R35). -/
def swrFail (c : Byte) (v : DWord) (s : State) : Res := .trap c v s.sp.pc s

def execSwrMode (a : BitVec 6) (k : BitVec 1) (s : State) : Out :=
  run (.swrMode a k) (swr a k (fun v s =>
    let m := v.extractLsb' 0 18
    if s.sp.level = 0 && m.extractLsb' 13 5 != 0 then swrFail cPriv v s
    else if deadGuard m then swrFail cOperand v s
    else .ok (setMode s m))) s

def execSwrFflags (a : BitVec 6) (k : BitVec 1) (s : State) : Out :=
  run (.swrFflags a k) (swr a k (fun v s => .ok { s with w := { s.w with fflags := v.extractLsb' 0 5 } })) s

def execSwrStrand (a : BitVec 6) (k : BitVec 1) (s : State) : Out :=
  run (.swrStrand a k) (swr a k (fun v s => .ok (strandLanes s (v.extractLsb' 0 32) 2 s.sp.pc (fun _ => 0)))) s

/-- No register, frame record or split entry of the warp lies in its spill area (R164). -/
def spillQuiet (s : State) : Bool :=
  s.sp.depth == 1 && s.w.tdepth == 1 && s.sp.sfloor == 0 &&
    (s.w.splits.filter Split.alive).all (fun p => p.depth == 0) && (s.w.overflow.filter Split.alive).isEmpty

/-- A value is canonical (R41). -/
def canonical (v : DWord) : Bool := decide (v.toNat < 2 ^ 56)

def execSwrSpillb (a : BitVec 6) (k : BitVec 1) (s : State) : Out :=
  run (.swrSpillb a k) (swr a k (fun v s =>
    if !canonical v then swrFail cOperand v s
    else if v.toNat % 4096 ≠ 0 then swrFail cAlign v s
    else if !spillQuiet s then swrFail cOperand 1 s
    else .ok { s with w := { s.w with spillb := v } })) s

def execSwrTrapc (a : BitVec 6) (k : BitVec 1) (s : State) : Out :=
  run (.swrTrapc a k) (swr a k (fun v s => .ok { s with w := { s.w with trapc := v.extractLsb' 0 8 } })) s

def execSwrTrapv (a : BitVec 6) (k : BitVec 1) (s : State) : Out :=
  run (.swrTrapv a k) (swr a k (fun v s => .ok { s with w := { s.w with trapv := v } })) s

def execSwrTrappc (a : BitVec 6) (k : BitVec 1) (s : State) : Out :=
  run (.swrTrappc a k) (swr a k (fun v s =>
    if !canonical v || misaligned v then swrFail cOperand v s
    else .ok { s with w := { s.w with trappc := v } })) s

/-- A table entry of 3 (R40). -/
def ovtBad (v : Nat) : Bool := (List.range 6).any (fun i => bitsOf v (2 * i) 2 == 3)

/-- A value an overflow table may not take: bits above [11:0], or an entry of 3 (R40, R166). -/
def ovtRefused (v : DWord) : Bool := decide (4096 ≤ v.toNat) || ovtBad v.toNat

def setOvt (s : State) (v : DWord) : State := { s with ctx := { s.ctx with ovt := v.extractLsb' 0 12 } }

def execSwrOvt (a : BitVec 6) (k : BitVec 1) (s : State) : Out :=
  run (.swrOvt a k) (swr a k (fun v s => if ovtRefused v then swrFail cOperand v s else .ok (setOvt s v))) s

def execOvtld (a : BitVec 6) (s : State) : Out :=
  run (.ovtld a) (fun s => once s (fun s =>
    if ovtRefused (kget s a.toNat) then trapWord s (.ovtld a) else .ok (setOvt s (kget s a.toNat)))) s

end Sys2Proof.Machine
end

