-- ==== Sys2Proof/Machine/Float.lean ====
section
/-! DEFINITION. Floating-point numbers: decoding, exact arithmetic on dyadic values, and RoundTo into every format
(02 R47 to R59). -/

namespace Sys2Proof.Machine

/-- The floating-point formats that are stored in registers and tensors (R47 to R50). -/
inductive Fmt where
  | f32 | f16 | bf16 | e4m3 | e5m2 | t8 | t6
  deriving DecidableEq, Repr

/-- The format of a floating-point element type (R27). -/
def fmtOfType (t : Nat) : Fmt :=
  match t with
  | 0x7 => .f16 | 0x8 => .bf16 | 0x9 => .e4m3 | 0xA => .e5m2 | 0xB => .t8 | 0xE => .t6 | _ => .f32

/-- An exact value: a NaN, an infinity, or (-1)^neg * m * 2^e; a zero keeps its sign. -/
inductive FV where
  | nan
  | inf (neg : Bool)
  | fin (neg : Bool) (m : Nat) (e : Int)
  deriving DecidableEq, Repr

/-- Exponent bits, fraction bits and bias of an IEEE-style format (R47). -/
def Fmt.ebits : Fmt → Nat
  | .f32 => 8 | .f16 => 5 | .bf16 => 8 | .e4m3 => 4 | .e5m2 => 5 | _ => 0
def Fmt.mbits : Fmt → Nat
  | .f32 => 23 | .f16 => 10 | .bf16 => 7 | .e4m3 => 3 | .e5m2 => 2 | _ => 0
def Fmt.bias : Fmt → Int
  | .f32 => 127 | .f16 => 15 | .bf16 => 127 | .e4m3 => 7 | .e5m2 => 15 | _ => 0
/-- Width of a code. -/
def Fmt.width : Fmt → Nat
  | .f32 => 32 | .f16 => 16 | .bf16 => 16 | .t6 => 6 | _ => 8
/-- A tapered format (R48). -/
def Fmt.tapered : Fmt → Bool
  | .t8 | .t6 => true
  | _ => false
/-- The format has infinities (R47, R49, R50). -/
def Fmt.hasInf : Fmt → Bool
  | .e4m3 | .t8 | .t6 => false
  | _ => true
/-- The canonical NaN (R57). -/
def Fmt.nanCode : Fmt → Nat
  | .f32 => 0x7FC00000 | .f16 => 0x7E00 | .bf16 => 0x7FC0 | .e4m3 => 0x7F | .e5m2 => 0x7E | .t8 => 0x80 | .t6 => 0x20
/-- The code of the largest finite value L (R47, R49, R50). -/
def Fmt.maxCode : Fmt → Nat
  | .f32 => 0x7F7FFFFF | .f16 => 0x7BFF | .bf16 => 0x7F7F | .e4m3 => 0x7E | .e5m2 => 0x7B | .t8 => 0x7F | .t6 => 0x1F
/-- The code of +∞. -/
def Fmt.infCode : Fmt → Nat
  | .f32 => 0x7F800000 | .f16 => 0x7C00 | .bf16 => 0x7F80 | .e5m2 => 0x7C | _ => 0
/-- L and the threshold of the nearest modes, as m * 2^e (R54). -/
def Fmt.limit : Fmt → Nat × Int
  | .f32 => (2 ^ 24 - 1, 104) | .f16 => (65504, 0) | .bf16 => (255, 120) | .e4m3 => (448, 0) | .e5m2 => (57344, 0)
  | .t8 => (4096, 0) | .t6 => (256, 0)
def Fmt.threshold : Fmt → Nat × Int
  | .f32 => (2 ^ 25 - 1, 103) | .f16 => (65520, 0) | .bf16 => (511, 119) | .e4m3 => (464, 0) | .e5m2 => (61440, 0)
  | .t8 => (6144, 0) | .t6 => (384, 0)

/-- The leading run of bits equal to b in the n low bits of a magnitude (R48). -/
def leadRun (mag b : Nat) : Nat → Nat
  | 0 => 0
  | n + 1 => if bitsOf mag n 1 = b then 1 + leadRun mag b n else 0

/-- DecodeTapered of R48 on n magnitude bits. -/
def decodeTapered (c n : Nat) : FV :=
  let neg := bitsOf c n 1 == 1
  let mag := c % 2 ^ n
  if mag = 0 then (if neg then .nan else .fin false 0 0)
  else
    let b := bitsOf mag (n - 1) 1
    let r := leadRun mag b n
    let k : Int := if b = 1 then (r : Int) - 1 else -(r : Int)
    let rest := n - r - 1
    let e := if rest ≥ 1 then bitsOf mag (rest - 1) 1 else 0
    let fb := rest - 1
    .fin neg (2 ^ fb + mag % 2 ^ fb) (2 * k + e - fb)

/-- Decode of a code (R47, R51). -/
def decodeF (f : Fmt) (c : Nat) : FV :=
  match f with
  | .t8 => decodeTapered c 7
  | .t6 => decodeTapered c 5
  | f =>
    let mf := c % 2 ^ f.mbits
    let ef := bitsOf c f.mbits f.ebits
    let neg := bitsOf c (f.mbits + f.ebits) 1 == 1
    if ef = 2 ^ f.ebits - 1 && (f.hasInf || mf == 7) then (if f.hasInf && mf == 0 then .inf neg else .nan)
    else if ef = 0 then .fin neg mf (1 - f.bias - f.mbits)
    else .fin neg (2 ^ f.mbits + mf) (ef - f.bias - f.mbits)

/-- A code is subnormal: zero exponent field and a fraction (R47). -/
def subnormalCode (f : Fmt) (c : Nat) : Bool :=
  !f.tapered && bitsOf c f.mbits f.ebits == 0 && c % 2 ^ f.mbits != 0

/-- Decode with the input flush of R56. -/
def decodeFlush (flush : Bool) (f : Fmt) (c : Nat) : FV :=
  if flush && subnormalCode f c then .fin (bitsOf c (f.mbits + f.ebits) 1 == 1) 0 0 else decodeF f c

/-- m1 * 2^e1 ≤ m2 * 2^e2. -/
def dyLe (m1 : Nat) (e1 : Int) (m2 : Nat) (e2 : Int) : Bool :=
  if e1 ≤ e2 then decide (m1 ≤ m2 * 2 ^ (e2 - e1).toNat) else decide (m1 * 2 ^ (e1 - e2).toNat ≤ m2)

/-- Rounding up of a remainder r of 2^d over a quotient, under a mode and a sign (R26, R52). -/
def roundsUp (mode : Nat) (neg : Bool) (lo r d : Nat) : Bool :=
  match mode with
  | 0 => decide (2 ^ d < 2 * r) || (2 * r == 2 ^ d && lo % 2 == 1)
  | 2 => neg && r != 0
  | 3 => !neg && r != 0
  | 4 => decide (2 ^ d ≤ 2 * r)
  | _ => false

/-- m * 2^e in units of 2^q, rounded, and whether that is inexact. -/
def roundMag (mode : Nat) (neg : Bool) (m : Nat) (e q : Int) : Nat × Bool :=
  if q ≤ e then (m * 2 ^ (e - q).toNat, false)
  else
    let d := (q - e).toNat
    let lo := m / 2 ^ d
    let r := m % 2 ^ d
    (if roundsUp mode neg lo r d then lo + 1 else lo, r != 0)

/-- The overflow-table entry of a format (R40). -/
def ovtEntry (ovt : Nat) : Fmt → Nat
  | .f16 => bitsOf ovt 0 2 | .bf16 => bitsOf ovt 2 2 | .e4m3 => bitsOf ovt 4 2 | .e5m2 => bitsOf ovt 6 2
  | .t8 => bitsOf ovt 8 2 | .t6 => bitsOf ovt 10 2 | .f32 => 1

/-- A magnitude code with a sign; tapered zero and the NaNs take none. -/
def withSign (f : Fmt) (neg : Bool) (c : Nat) : Nat := if neg then c + 2 ^ (f.width - 1) else c

/-- The result of an overflow (R54). -/
def overflowCode (ovt : Nat) (f : Fmt) (neg : Bool) : Nat × BitVec 5 :=
  (match ovtEntry ovt f with
   | 0 => withSign f neg f.maxCode
   | 1 => if f.hasInf then withSign f neg f.infCode else f.nanCode
   | _ => f.nanCode, flOF ||| flNX)

/-- An infinite value into a format (R55). -/
def infCodeOf (ovt : Nat) (f : Fmt) (neg : Bool) : Nat × BitVec 5 :=
  if f.hasInf then (withSign f neg f.infCode, 0)
  else if ovtEntry ovt f = 0 then (withSign f neg f.maxCode, flOF ||| flNX)
  else (f.nanCode, flNV)

/-- Rounding of a non-zero finite value in range into an IEEE-style format (R52, R56). -/
def roundIeee (flush : Bool) (f : Fmt) (mode : Nat) (neg : Bool) (m : Nat) (e : Int) : Nat × BitVec 5 :=
  let top : Int := m.log2 + e
  let emin : Int := 1 - f.bias
  let q := (if top < emin then emin else top) - f.mbits
  let (k, inexact) := roundMag mode neg m e q
  let (ku, _) := roundMag mode neg m e (top - f.mbits)
  let tiny := inexact && decide (top + (if ku = 2 ^ (f.mbits + 1) then 1 else 0) < emin)
  let flags := (if inexact then flNX else 0) ||| (if tiny then flUF else 0)
  let field := (q + f.mbits + f.bias - 1).toNat
  if flush && k != 0 && decide (k < 2 ^ f.mbits) then (withSign f neg 0, flags ||| flUF ||| flNX)
  else (withSign f neg (field * 2 ^ f.mbits + k), flags)

/-- The magnitude of a tapered code in units of 2^-12 (R49, R50). -/
def taperedUnits (f : Fmt) (c : Nat) : Nat :=
  match decodeF f c with
  | .fin _ m e => m * 2 ^ (e + 12).toNat
  | _ => 0

/-- The greatest of the codes below n whose magnitude is at most m * 2^e (R53). -/
def taperedBelow (f : Fmt) (m : Nat) (e : Int) : Nat → Nat
  | 0 => 0
  | n + 1 => if dyLe (taperedUnits f n) (-12) m e then n else taperedBelow f m e n

/-- Rounding of a non-zero finite value in range into T8 or T6 (R53). -/
def roundTapered (f : Fmt) (mode : Nat) (neg : Bool) (m : Nat) (e : Int) : Nat × BitVec 5 :=
  let n := f.maxCode + 1
  let c := taperedBelow f m e n
  let lo := taperedUnits f c
  if dyLe m e lo (-12) then (if c = 0 then 0 else withSign f neg c, 0)
  else
    let hi := taperedUnits f (c + 1)
    let pick :=
      if c = f.maxCode then c
      else match mode with
        | 1 => c
        | 2 => if neg then c + 1 else c
        | 3 => if neg then c else c + 1
        | _ =>
          let below := dyLe (2 * m) e (lo + hi) (-12)
          let above := dyLe (lo + hi) (-12) (2 * m) e
          if below && above then (if mode = 4 then c + 1 else if c % 2 = 0 then c else c + 1)
          else if below then c else c + 1
    (if pick = 0 then 0 else withSign f neg pick,
      flNX ||| (if dyLe (taperedUnits f 1) (-12) m e then 0 else flUF))

/-- RoundTo of R52 to R57, with the flush of R56: the code and the flags. -/
def roundTo (ovt : Nat) (flush : Bool) (f : Fmt) (mode : Nat) (v : FV) : Nat × BitVec 5 :=
  match v with
  | .nan => (f.nanCode, 0)
  | .inf neg => infCodeOf ovt f neg
  | .fin neg m e =>
    if m = 0 then (if f.tapered then 0 else withSign f neg 0, 0)
    else
      let nearest := mode == 0 || mode == 4
      let away := (mode == 3 && !neg) || (mode == 2 && neg)
      let above := !dyLe m e f.limit.1 f.limit.2
      if nearest && dyLe f.threshold.1 f.threshold.2 m e then overflowCode ovt f neg
      else if above && away then overflowCode ovt f neg
      else if above then (withSign f neg f.maxCode, flNX)
      else if f.tapered then roundTapered f mode neg m e
      else roundIeee flush f mode neg m e

/-- A value's integer at an exponent not above its own. -/
def signedAt (neg : Bool) (m : Nat) (e e0 : Int) : Int :=
  let k : Int := (m : Int) * 2 ^ (e - e0).toNat
  if neg then -k else k

/-- Exact sum, with the zero's sign of R52 under a mode; the flag is NV (R57). -/
def fvAdd (mode : Nat) (a b : FV) : FV × BitVec 5 :=
  match a, b with
  | .nan, _ => (.nan, 0)
  | _, .nan => (.nan, 0)
  | .inf x, .inf y => if x = y then (.inf x, 0) else (.nan, flNV)
  | .inf x, _ => (.inf x, 0)
  | _, .inf y => (.inf y, 0)
  | .fin x m e, .fin y n g =>
    let e0 := if e ≤ g then e else g
    let v := signedAt x m e e0 + signedAt y n g e0
    if v = 0 then (.fin (if x = y then x else mode == 2) 0 0, 0)
    else (.fin (decide (v < 0)) v.natAbs e0, 0)

/-- A value negated. -/
def FV.neg : FV → FV
  | .nan => .nan
  | .inf x => .inf !x
  | .fin x m e => .fin (!x) m e

/-- Exact product; the flag is NV for 0 × ∞ (R57). -/
def fvMul (a b : FV) : FV × BitVec 5 :=
  match a, b with
  | .nan, _ => (.nan, 0)
  | _, .nan => (.nan, 0)
  | .inf x, .inf y => (.inf (x != y), 0)
  | .inf x, .fin y n _ => if n = 0 then (.nan, flNV) else (.inf (x != y), 0)
  | .fin x m _, .inf y => if m = 0 then (.nan, flNV) else (.inf (x != y), 0)
  | .fin x m e, .fin y n g => (.fin (x != y) (m * n) (e + g), 0)

/-- Exact a × b + c: 0 × ∞ sets NV even beside a NaN c (R110). -/
def fvFma (mode : Nat) (a b c : FV) : FV × BitVec 5 :=
  let p := fvMul a b
  if p.2 ≠ 0 then (.nan, flNV)
  else fvAdd mode p.1 c

/-- The order of non-NaN values: a is below b, with -0 below +0 where `zeros` (R111). -/
def fvLt (zeros : Bool) (a b : FV) : Bool :=
  match a, b with
  | .nan, _ => false
  | _, .nan => false
  | .inf x, .inf y => x && !y
  | .inf x, _ => x
  | _, .inf y => !y
  | .fin x m e, .fin y n g =>
    let e0 := if e ≤ g then e else g
    let u := signedAt x m e e0
    let v := signedAt y n g e0
    decide (u < v) || (zeros && m == 0 && n == 0 && x && !y)

/-- Values compare equal, -0 with +0 (R113). -/
def fvEq (a b : FV) : Bool :=
  match a, b with
  | .nan, _ => false
  | _, .nan => false
  | a, b => !fvLt false a b && !fvLt false b a

def FV.isNan : FV → Bool
  | .nan => true
  | _ => false

/-- The floating-point conditions 0 to 7 (R85). -/
def fCond (c : Nat) (a b : FV) : Bool :=
  let un := a.isNan || b.isNan
  match c with
  | 0 => fvEq a b
  | 1 => !fvEq a b
  | 2 => fvLt false a b
  | 3 => !un && !fvLt false b a
  | 4 => fvLt false b a
  | 5 => !un && !fvLt false a b
  | 6 => un
  | _ => !un

/-- An integral value nearest to v under a mode, exactly; zero takes the value's sign (R114). -/
def fvIntegral (mode : Nat) (neg : Bool) (m : Nat) (e : Int) : FV × Bool :=
  if 0 ≤ e then (.fin neg m e, false)
  else
    let (k, inexact) := roundMag mode neg m e 0
    (.fin neg k 0, inexact)

/-- RoundTo into an integer type (R58). -/
def toInt (signed : Bool) (w mode : Nat) (v : FV) : Nat × BitVec 5 :=
  let lo := intMin signed w
  let hi := intMax signed w
  match v with
  | .nan => (0, flNV)
  | .inf neg => (wrapInt w (if neg then lo else hi), flNV)
  | .fin neg m e =>
    let (k, inexact) := roundMag mode neg m e 0
    let n : Int := if neg then -(k : Int) else k
    if n < lo then (wrapInt w lo, flNV)
    else if hi < n then (wrapInt w hi, flNV)
    else (wrapInt w n, if inexact then flNX else 0)

/-- An integer as a value. -/
def fvOfInt (v : Int) : FV := .fin (decide (v < 0)) v.natAbs 0

end Sys2Proof.Machine
end

