-- ==== Sys2Proof/Machine/FloatOps.lean ====
section
/-! DEFINITION. Floating-point arithmetic, compares and conversions of the lanes (04 R109 to R121). -/

namespace Sys2Proof.Machine

/-- The overflow table of the issuing context (R40). -/
def ovtNat (s : State) : Nat := s.ctx.ovt.toNat

/-- Flags of several sub-elements together (R59). -/
def flagsOf (f : Nat → Nat × BitVec 5) (n : Nat) : BitVec 5 := (List.range n).foldl (fun acc i => acc ||| (f i).2) 0

/-- Results with flags put together under a type. -/
def packF (t : Nat) (f : Nat → Nat × BitVec 5) : Nat × BitVec 5 :=
  (packElems (typeWidth t) (fun i => (f i).1) (typeCount t), flagsOf f (typeCount t))

/-- Results with flags, written in every participating lane, the flags of all lanes ORed into FFLAGS (R90, R94). -/
def lanesF (t d : Nat) (f : Nat → Nat × BitVec 5) (s : State) : Res :=
  .ok (orFlags (perLane s (fun l r => xwrite r t l d (f l).1))
    ((lanesOf (partMask s)).foldl (fun acc l => acc ||| (f l).2) 0))

/-- A floating-point instruction of two operands, sub-element by sub-element on decoded, flushed values (R109). -/
def floatBinary (f : Nat → FV → FV → FV × BitVec 5) (d a b : BitVec 6) (u : BitVec 1) (s : State) : Res :=
  let t := modeType s.w.mode
  let fm := fmtOfType t
  let fl := modeFlush s.w.mode
  let rnd := modeRnd s.w.mode
  lanesF t d.toNat (fun l => packF t (fun i =>
    let x := decodeFlush fl fm (subElem (srcX a s l) (typeWidth t) i)
    let y := decodeFlush fl fm (subElem (srcB b u s l) (typeWidth t) i)
    let v := f rnd x y
    let r := roundTo (ovtNat s) fl fm rnd v.1
    (r.1, r.2 ||| v.2))) s

def execFadd (d a b : BitVec 6) (u : BitVec 1) (s : State) : Out := run (.fadd d a b u) (floatBinary fvAdd d a b u) s
def execFsub (d a b : BitVec 6) (u : BitVec 1) (s : State) : Out :=
  run (.fsub d a b u) (floatBinary (fun m x y => fvAdd m x y.neg) d a b u) s
def execFmul (d a b : BitVec 6) (u : BitVec 1) (s : State) : Out :=
  run (.fmul d a b u) (floatBinary (fun _ x y => fvMul x y) d a b u) s

def execFma (d a b c : BitVec 6) (s : State) : Out :=
  run (.fma d a b c) (fun s =>
    let t := modeType s.w.mode
    let fm := fmtOfType t
    let fl := modeFlush s.w.mode
    let rnd := modeRnd s.w.mode
    lanesF t d.toNat (fun l => packF t (fun i =>
      let e : BitVec 6 → FV := fun r => decodeFlush fl fm (subElem (srcX r s l) (typeWidth t) i)
      let v := fvFma rnd (e a) (e b) (e c)
      let r := roundTo (ovtNat s) fl fm rnd v.1
      (r.1, r.2 ||| v.2))) s) s

/-- A code after the input flush: a subnormal becomes zero of its sign (R56, R111). -/
def flushCode (flush : Bool) (f : Fmt) (c : Nat) : Nat :=
  if flush && subnormalCode f c then withSign f (bitsOf c (f.width - 1) 1 == 1) 0 else c

/-- The chosen code of FMIN or FMAX (R111). -/
def fminmax (isMax flush : Bool) (f : Fmt) (ca cb : Nat) : Nat :=
  let a := flushCode flush f ca
  let b := flushCode flush f cb
  let x := decodeF f a
  let y := decodeF f b
  if x.isNan && y.isNan then f.nanCode
  else if x.isNan then b
  else if y.isNan then a
  else if fvLt true x y then (if isMax then b else a)
  else (if isMax then a else b)

def fminmaxBody (isMax : Bool) (d a b : BitVec 6) (u : BitVec 1) (s : State) : Res :=
  lanes2 d.toNat (srcX a) (srcB b u) (fun t => elemwise2 t (fminmax isMax (modeFlush s.w.mode) (fmtOfType t))) s

def execFmin (d a b : BitVec 6) (u : BitVec 1) (s : State) : Out := run (.fmin d a b u) (fminmaxBody false d a b u) s
def execFmax (d a b : BitVec 6) (u : BitVec 1) (s : State) : Out := run (.fmax d a b u) (fminmaxBody true d a b u) s

/-- FABS and FNEG on a code: only the sign bit changes, and the T8 codes without a sign not at all (R112). -/
def fabsCode (f : Fmt) (c : Nat) : Nat :=
  if f.tapered && c % 2 ^ (f.width - 1) == 0 then c else c % 2 ^ (f.width - 1)
def fnegCode (f : Fmt) (c : Nat) : Nat :=
  if f.tapered && c % 2 ^ (f.width - 1) == 0 then c
  else c % 2 ^ (f.width - 1) + (1 - bitsOf c (f.width - 1) 1) * 2 ^ (f.width - 1)

def signBody (f : Fmt → Nat → Nat) (d a : BitVec 6) (s : State) : Res :=
  lanes2 d.toNat (srcX a) (fun _ _ => 0) (fun t => elemwise2 t (fun x _ => f (fmtOfType t) x)) s

def execFabs (d a : BitVec 6) (s : State) : Out := run (.fabs d a) (signBody fabsCode d a) s
def execFneg (d a : BitVec 6) (s : State) : Out := run (.fneg d a) (signBody fnegCode d a) s

/-- The condition holds for every sub-element (R113). -/
def fcmpElems (flush : Bool) (c t a b : Nat) : Bool :=
  let w := typeWidth t
  let fm := fmtOfType t
  (List.range (typeCount t)).all (fun i =>
    fCond c (decodeFlush flush fm (subElem a w i)) (decodeFlush flush fm (subElem b w i)))

def execFcmp (d a b : BitVec 6) (u : BitVec 1) (c : BitVec 5) (s : State) : Out :=
  run (.fcmp d a b u c) (fun s => lanesP d.toNat (fun l =>
    fcmpElems (modeFlush s.w.mode) c.toNat (modeType s.w.mode) (srcX a s l) (srcB b u s l)) s) s

/-- FRND of a code (R114). -/
def frndCode (flush : Bool) (mode : Nat) (f : Fmt) (c : Nat) : Nat × BitVec 5 :=
  match decodeFlush flush f c with
  | .fin neg m e =>
    let (v, inexact) := fvIntegral mode neg m e
    ((roundTo 0 false f 1 v).1, if inexact then flNX else 0)
  | v => ((roundTo 0 false f 1 v).1, 0)

def execFrnd (d a : BitVec 6) (s : State) : Out :=
  run (.frnd d a) (fun s =>
    let t := modeType s.w.mode
    lanesF t d.toNat (fun l => packF t (fun i =>
      frndCode (modeFlush s.w.mode) (modeRnd s.w.mode) (fmtOfType t) (subElem (srcX a s l) (typeWidth t) i))) s) s

/-- The class code of R115. -/
def classCode (f : Fmt) (c : Nat) : Nat :=
  match decodeF f c with
  | .nan => 8
  | .inf neg => if neg then 0 else 7
  | .fin neg m _ =>
    if m = 0 then (if neg then 3 else 4)
    else if subnormalCode f c then (if neg then 2 else 5)
    else (if neg then 1 else 6)

def execFcls (d a : BitVec 6) (s : State) : Out :=
  run (.fcls d a) (fun s =>
    let t := modeType s.w.mode
    lanes32 d.toNat (fun l => BitVec.ofNat 32 (packElems 4 (fun i =>
      classCode (fmtOfType t) (subElem (srcX a s l) (typeWidth t) i)) (typeCount t))) s) s

/-- The value of a source sub-element of a type (R117). -/
def valueOf (flush : Bool) (t c : Nat) : FV :=
  if typeFloat t then decodeFlush flush (fmtOfType t) c else fvOfInt (signedOf (typeSigned t) (typeWidth t) c)

/-- Convert of R117: a value into a sub-element of a destination type. -/
def convert (ovt : Nat) (flush : Bool) (dt mode : Nat) (v : FV) : Nat × BitVec 5 :=
  if typeFloat dt then roundTo ovt flush (fmtOfType dt) mode v else toInt (typeSigned dt) (typeWidth dt) mode v

/-- A source sub-element converted under the issuing MODE. -/
def conv (s : State) (st mode v i : Nat) : Nat × BitVec 5 :=
  convert (ovtNat s) (modeFlush s.w.mode) (modeType s.w.mode) mode
    (valueOf (modeFlush s.w.mode) st (subElem v (typeWidth st) i))

/-- A conversion of one register; a destination sub-element without a source is 0 (R118, R121). -/
def cvtBody (mode : Nat) (d a : BitVec 6) (st : Nat) (s : State) : Res :=
  let t := modeType s.w.mode
  lanesF t d.toNat (fun l => packF t (fun i =>
    if t = 0xE && i = 4 then (0, 0) else conv s st mode (xread s st l a.toNat) i)) s

def execCvt (d a : BitVec 6) (f : BitVec 4) (s : State) : Out :=
  run (.cvt d a f) (fun s => cvtBody (modeRnd s.w.mode) d a f.toNat s) s
def execCvtz (d a : BitVec 6) (f : BitVec 4) (s : State) : Out := run (.cvtz d a f) (cvtBody 1 d a f.toNat) s

/-- PACK: x[a] fills the low half and x[b] the high half (R119, R121). -/
def execPack (d a b : BitVec 6) (f : BitVec 4) (s : State) : Out :=
  run (.pack d a b f) (fun s =>
    let t := modeType s.w.mode
    let n := if t = 0xE then 4 else typeCount f.toNat
    lanesF t d.toNat (fun l => packF t (fun i =>
      if i < n then conv s f.toNat (modeRnd s.w.mode) (xget s l a.toNat).toNat i
      else conv s f.toNat (modeRnd s.w.mode) (xget s l b.toNat).toNat (i - n))) s) s

/-- UNPK: one half of the sub-elements widened (R120, R121). -/
def execUnpk (d a : BitVec 6) (h : BitVec 1) (f : BitVec 4) (s : State) : Out :=
  run (.unpk d a h f) (fun s =>
    let t := modeType s.w.mode
    lanesF t d.toNat (fun l => packF t (fun i =>
      let j := h.toNat * typeCount t + i
      if f.toNat = 0xE && decide (5 ≤ j) then (0, 0) else conv s f.toNat 0 (xget s l a.toNat).toNat j)) s) s

end Sys2Proof.Machine
end

