-- ==== Sys2Proof/Machine/LaneMem.lean ====
section
/-! DEFINITION. Lane loads and stores, uniform loads and stores, atomics and reductions (06 R167 to R175). A load reads
memory as its lane sees it; a store takes its place in memory at once, and other agents see it as R296 to R301 let them
(log 7). -/

namespace Sys2Proof.Machine

/-- The fields of an M-format word that form a lane's address (R75). -/
structure MForm where
  xi : Nat
  kb : Nat
  shift : Nat
  sx : BitVec 1
  deriving DecidableEq, Repr

/-- The fields of an M-format word. -/
def mform (i : BitVec 6) (k : BitVec 5) (q : BitVec 2) (e : BitVec 1) : MForm := ⟨i.toNat, k.toNat, q.toNat, e⟩

/-- A lane's address. -/
def mAddr (s : State) (m : MForm) (l : Nat) : Nat := laneAddr s m.xi m.kb m.shift m.sx l

/-- The lanes checked in ascending order: each lane's memory key, or the first failing check of the lowest failing lane
(R167). -/
def checkLanes (s : State) (n : Need) (size : Nat) (addr : Nat → Nat) : List Nat → Except (Byte × Nat) (List (Nat × Nat))
  | [] => .ok []
  | l :: t =>
    match checkAccess s n (addr l) size with
    | .bad c => .error (c, addr l)
    | .ok key => match checkLanes s n size addr t with
      | .error e => .error e
      | .ok ks => .ok ((l, key) :: ks)

/-- A per-lane access: every check of every participating lane before any effect, then the effect lane by lane in
ascending order (R167, R172). -/
def laneAccess (n : Need) (size : Nat) (m : MForm) (f : Nat → Nat → State → State) (s : State) : Res :=
  match checkLanes s n size (mAddr s m) (lanesOf (partMask s)) with
  | .error (c, a) => trapHere s c a
  | .ok ks => .ok (ks.foldl (fun t p => f p.1 p.2 t) s)

/-- A lane register loaded from memory: marked with the datum's address where the datum is poisoned (R168, R259). -/
def loadReg (s : State) (l r : Nat) (v : Word) (bad : Bool) (a : Nat) : State :=
  let t := xset s l r v
  if bad then { t with w := { t.w with marks := sset 0 t.w.marks (physKey t.w l (t.sp.wbase + r)) (a + 1) } } else t

/-- The keys of the lanes of an M-format access, as checked. -/
def laneKeys (s : State) (size : Nat) (m : MForm) : List (Nat × Nat) :=
  match checkLanes s needR size (mAddr s m) (lanesOf (partMask s)) with
  | .ok ks => ks
  | .error _ => []

/-- The writes that the lanes of a load read, each in its own bytes. -/
def laneReads (s : State) (size : Nat) (m : MForm) : List (Nat × Nat) :=
  (laneKeys s size m).flatMap (fun p => readWrites s (some p.1) (keysFrom p.2 size))

/-- A lane load of n registers of some bytes each (R169). The address is that of the issue; the split never reads anything
older of those bytes (R296, R299). -/
def loadBody (size regs : Nat) (sg : Bool) (d : BitVec 6) (m : MForm) (s : State) : Res :=
  let each := size / regs
  (laneAccess needR size m (fun l key t =>
    (List.range regs).foldl (fun u j =>
      let v := readAs (laneReaderOf s (some l)) s (key + each * j) each
      loadReg u l (d.toNat + j) (BitVec.ofInt 32 (signedOf sg (8 * each) v)) (poisonedRange t (key + each * j) each)
        (mAddr s m l + each * j)) t) s).then (fun t => rememberReads t (laneReads s size m))

/-- The bytes a lane stores: n registers of some bytes each (R169). -/
def storeBytes (s : State) (size regs : Nat) (d : BitVec 6) (l : Nat) : List Byte :=
  (List.range regs).flatMap (fun j => natLE (xget s l (d.toNat + j)).toNat (size / regs))

/-- A write of lanes to some bytes, which other agents may not see yet: a release or not, a read-modify-write or not (R296
to R301). -/
def laneStore (s : State) (rel : Option Past) (rmw : Bool) (lanes : Mask) (va key : Nat) (bs : List Byte) (t : State) :
    State := storeKey { laneWrite s lanes va with rel := rel, rmw := rmw } t key bs

/-- A lane store; the highest lane's bytes stand last (R168, R169). -/
def storeBody (size regs : Nat) (d : BitVec 6) (m : MForm) (rel : Option Past) (s : State) : Res :=
  laneAccess needW size m (fun l key t => laneStore s rel false (oneLane l) (mAddr s m l) key (storeBytes s size regs d l) t) s

/-- An access that begins with a release, which its stores stand for; a trap makes none (R134, R170, R296). -/
def withRelease (body : Past → State → Res) (s : State) : Res :=
  match body (releaseNow s).1 (releaseNow s).2 with
  | .trap c v pc _ => .trap c v pc s
  | r => r

/-- LDA: what its lanes have read of releases, each in its own bytes, is acquired (R170, R297); what follows reads nothing
older than what they have read (R299). -/
def acquireBody (d : BitVec 6) (m : MForm) (s : State) : Res :=
  (loadBody 4 1 false d m s).then (fun t => acquire (acquireReads t (laneReads s 4 m)) ((laneKeys s 4 m).flatMap (fun p =>
    (keysFrom p.2 4).flatMap (fun k => releasesRead (fun e => e.sees s (laneReaderOf s (some p.1)) k) k s.late))))

def execLdb (d i : BitVec 6) (k : BitVec 5) (l : BitVec 4) (q : BitVec 2) (e : BitVec 1) (s : State) : Out :=
  run (.ldb d i k l q e) (loadBody 1 1 false d (mform i k q e)) s
def execLdbs (d i : BitVec 6) (k : BitVec 5) (l : BitVec 4) (q : BitVec 2) (e : BitVec 1) (s : State) : Out :=
  run (.ldbs d i k l q e) (loadBody 1 1 true d (mform i k q e)) s
def execLdh (d i : BitVec 6) (k : BitVec 5) (l : BitVec 4) (q : BitVec 2) (e : BitVec 1) (s : State) : Out :=
  run (.ldh d i k l q e) (loadBody 2 1 false d (mform i k q e)) s
def execLdhs (d i : BitVec 6) (k : BitVec 5) (l : BitVec 4) (q : BitVec 2) (e : BitVec 1) (s : State) : Out :=
  run (.ldhs d i k l q e) (loadBody 2 1 true d (mform i k q e)) s
def execLdw (d i : BitVec 6) (k : BitVec 5) (l : BitVec 4) (q : BitVec 2) (e : BitVec 1) (s : State) : Out :=
  run (.ldw d i k l q e) (loadBody 4 1 false d (mform i k q e)) s
def execLdd (d i : BitVec 6) (k : BitVec 5) (l : BitVec 4) (q : BitVec 2) (e : BitVec 1) (s : State) : Out :=
  run (.ldd d i k l q e) (loadBody 8 2 false d (mform i k q e)) s
def execLdq (d i : BitVec 6) (k : BitVec 5) (l : BitVec 4) (q : BitVec 2) (e : BitVec 1) (s : State) : Out :=
  run (.ldq d i k l q e) (loadBody 16 4 false d (mform i k q e)) s
def execLda (d i : BitVec 6) (k : BitVec 5) (l : BitVec 4) (q : BitVec 2) (e : BitVec 1) (s : State) : Out :=
  run (.lda d i k l q e) (acquireBody d (mform i k q e)) s
def execStb (d i : BitVec 6) (k : BitVec 5) (l : BitVec 4) (q : BitVec 2) (e : BitVec 1) (s : State) : Out :=
  run (.stb d i k l q e) (storeBody 1 1 d (mform i k q e) none) s
def execSth (d i : BitVec 6) (k : BitVec 5) (l : BitVec 4) (q : BitVec 2) (e : BitVec 1) (s : State) : Out :=
  run (.sth d i k l q e) (storeBody 2 1 d (mform i k q e) none) s
def execStw (d i : BitVec 6) (k : BitVec 5) (l : BitVec 4) (q : BitVec 2) (e : BitVec 1) (s : State) : Out :=
  run (.stw d i k l q e) (storeBody 4 1 d (mform i k q e) none) s
def execStd (d i : BitVec 6) (k : BitVec 5) (l : BitVec 4) (q : BitVec 2) (e : BitVec 1) (s : State) : Out :=
  run (.std d i k l q e) (storeBody 8 2 d (mform i k q e) none) s
def execStq (d i : BitVec 6) (k : BitVec 5) (l : BitVec 4) (q : BitVec 2) (e : BitVec 1) (s : State) : Out :=
  run (.stq d i k l q e) (storeBody 16 4 d (mform i k q e) none) s
def execStl (d i : BitVec 6) (k : BitVec 5) (l : BitVec 4) (q : BitVec 2) (e : BitVec 1) (s : State) : Out :=
  run (.stl d i k l q e) (withRelease (fun p => storeBody 4 1 d (mform i k q e) (some p))) s

/-- KLD: a uniform load; poison raises ECCFATAL (R168, R171). -/
def execKld (d : BitVec 6) (k : BitVec 5) (l : BitVec 4) (s : State) : Out :=
  run (.kld d k l) (fun s => once s (fun s =>
    let a := (kget s k.toNat).toNat
    match checkAccess s needR a 8 with
    | .bad c => trapHere s c a
    | .ok key => if poisonedRange s key 8 then trapHere s cEccfatal a
                 else .ok (rememberReads (kset s d.toNat (BitVec.ofNat 64 (readAs (laneReader s) s key 8)))
                   (readWrites s none (keysFrom key 8))))) s

/-- KST: a uniform store, an access of all of the split's lanes (R168, R171, R181). -/
def execKst (d : BitVec 6) (k : BitVec 5) (l : BitVec 4) (s : State) : Out :=
  run (.kst d k l) (fun s => once s (fun s =>
    let a := (kget s k.toNat).toNat
    match checkAccess s needW a 8 with
    | .bad c => trapHere s c a
    | .ok key => .ok (laneStore s none false s.sp.active a key (natLE (kget s d.toNat).toNat 8) s))) s

/-- The bytes an atomic acts on: 8 under the 64-bit types, else 4 (R172). -/
def atomSize (s : State) : Nat := if type64 (modeType s.w.mode) then 8 else 4

/-- What an atomic stores: the signedness, the width in bits, the old value and the operand (R172). -/
abbrev AtomOp := Bool → Nat → Nat → Nat → Nat

def atAdd : AtomOp := fun _ w o v => (o + v) % 2 ^ w
def atMin : AtomOp := fun sg w o v => if signedOf sg w v < signedOf sg w o then v else o
def atMax : AtomOp := fun sg w o v => if signedOf sg w o < signedOf sg w v then v else o
def atAnd : AtomOp := fun _ _ o v => o &&& v
def atOr : AtomOp := fun _ _ o v => o ||| v
def atXor : AtomOp := fun _ _ o v => o ^^^ v
def atXch : AtomOp := fun _ _ _ v => v

/-- The value an atomic returns to a lane, a register or a pair, marked where the location is poisoned (R172, R259). -/
def atomReturn (s : State) (t l d : Nat) (old key a : Nat) : State :=
  if type64 t then
    loadReg (loadReg s l d (BitVec.ofNat 32 old) (poisonedRange s key 4) a) l (d + 1) (BitVec.ofNat 32 (old / 2 ^ 32))
      (poisonedRange s (key + 4) 4) (a + 4)
  else loadReg s l d (BitVec.ofNat 32 old) (poisonedRange s key 4) a

/-- An atomic step of a lane on a location: what it reads at the location's home, newest value and all, is acquired, and
what it stores there is a release (R168, R172, R296, R299). The writes read are the newest of each byte. -/
def homeStep (s : State) (p : Past) (l va key : Nat) (bs : Option (List Byte)) (size : Nat) (t : State) : State :=
  let ks := keysFrom key size
  let u := acquire (acquireReads t (ks.filterMap (fun k => (newestSeen (fun _ => true) k t.late).map (fun n => (n, k)))))
    (ks.flatMap (fun k => releasesOf k t.late))
  readHome (match bs with
    | some b => laneStore s (some p) true (oneLane l) va key b u
    | none => u) ks

/-- An atomic: the lanes act one at a time, in ascending order (R172); it has acquire and release (R296). -/
def atomBody (f : AtomOp) (d : BitVec 6) (m : MForm) (s : State) : Res :=
  let t := modeType s.w.mode
  withRelease (fun p => laneAccess needAtomic (atomSize s) m (fun l key u =>
    let old := readKey u key (atomSize s)
    let new := f (typeSigned t) (8 * atomSize s) old (xread s t l d.toNat)
    atomReturn (homeStep s p l (mAddr s m l) key (some (natLE new (atomSize s))) (atomSize s) u) t l d.toNat old key
      (mAddr s m l))) s

def execAtadd (d i : BitVec 6) (k : BitVec 5) (l : BitVec 4) (q : BitVec 2) (e : BitVec 1) (s : State) : Out :=
  run (.atadd d i k l q e) (atomBody atAdd d (mform i k q e)) s
def execAtmin (d i : BitVec 6) (k : BitVec 5) (l : BitVec 4) (q : BitVec 2) (e : BitVec 1) (s : State) : Out :=
  run (.atmin d i k l q e) (atomBody atMin d (mform i k q e)) s
def execAtmax (d i : BitVec 6) (k : BitVec 5) (l : BitVec 4) (q : BitVec 2) (e : BitVec 1) (s : State) : Out :=
  run (.atmax d i k l q e) (atomBody atMax d (mform i k q e)) s
def execAtand (d i : BitVec 6) (k : BitVec 5) (l : BitVec 4) (q : BitVec 2) (e : BitVec 1) (s : State) : Out :=
  run (.atand d i k l q e) (atomBody atAnd d (mform i k q e)) s
def execAtor (d i : BitVec 6) (k : BitVec 5) (l : BitVec 4) (q : BitVec 2) (e : BitVec 1) (s : State) : Out :=
  run (.ator d i k l q e) (atomBody atOr d (mform i k q e)) s
def execAtxor (d i : BitVec 6) (k : BitVec 5) (l : BitVec 4) (q : BitVec 2) (e : BitVec 1) (s : State) : Out :=
  run (.atxor d i k l q e) (atomBody atXor d (mform i k q e)) s
def execAtxch (d i : BitVec 6) (k : BitVec 5) (l : BitVec 4) (q : BitVec 2) (e : BitVec 1) (s : State) : Out :=
  run (.atxch d i k l q e) (atomBody atXch d (mform i k q e)) s

/-- ATCAS: x[d] compares, x[d + 1] is stored, the old value returns to x[d] (R173). -/
def casBody (d : BitVec 6) (m : MForm) (s : State) : Res :=
  withRelease (fun p => laneAccess needAtomic 4 m (fun l key u =>
    let old := readKey u key 4
    let new := if old = (xget s l d.toNat).toNat then some (natLE (xget s l (d.toNat + 1)).toNat 4) else none
    loadReg (homeStep s p l (mAddr s m l) key new 4 u) l d.toNat (BitVec.ofNat 32 old) (poisonedRange u key 4)
      (mAddr s m l))) s

def execAtcas (d i : BitVec 6) (k : BitVec 5) (l : BitVec 4) (q : BitVec 2) (e : BitVec 1) (s : State) : Out :=
  run (.atcas d i k l q e) (casBody d (mform i k q e)) s

/-- A lane's step of a reduction, which acts on the newest value of its location, or, where nothing has ordered a newer
write before it, on what that write has replaced (R174, R299, R322; log 7). -/
def redStore (s : State) (size l va key : Nat) (new : Nat → Nat) (t : State) : State :=
  let w := { laneWrite s (oneLane l) va with rmw := true }
  let ks := keysFrom key size
  let cut := if w.so then ([], t.late) else passOver ks (Late.overtaken t l ks t.writes) t.late
  match (cut.1.filter (fun e => e.touches ks)).getLast? with
  | none => storeKey w t key (natLE (new (readKey t key size)) size)
  | some e => storeBefore w e cut.1 cut.2 t key (natLE (new (leNat (ks.map (fun k => (e.oldAt k).getD 0)))) size)

/-- A reduction: each lane's location takes a new value, and nothing returns (R174). -/
def redBody (size : Nat) (m : MForm) (new : State → Nat → Nat → Nat) (s : State) : Res :=
  laneAccess needAtomic size m (fun l key u => redStore s size l (mAddr s m l) key (fun old => new s old l) u) s

/-- REDA: the step of R172 with nothing returned (R174). -/
def execReda (d i : BitVec 6) (k : BitVec 5) (l : BitVec 4) (q : BitVec 2) (e : BitVec 1) (s : State) : Out :=
  run (.reda d i k l q e) (fun s => redBody (atomSize s) (mform i k q e) (fun s old l =>
    atAdd true (8 * atomSize s) old (xread s (modeType s.w.mode) l d.toNat)) s) s

/-- REDAF's new word: each sub-element's sum rounded, flushed under FLUSH, without flags (R174). -/
def redafWord (s : State) (old v : Nat) : Nat :=
  let t := modeType s.w.mode
  let fm := fmtOfType t
  let fl := modeFlush s.w.mode
  elemwise2 t (fun x y =>
    (roundTo (ovtNat s) fl fm (modeRnd s.w.mode)
      (fvAdd (modeRnd s.w.mode) (decodeFlush fl fm x) (decodeFlush fl fm y)).1).1) old v

def execRedaf (d i : BitVec 6) (k : BitVec 5) (l : BitVec 4) (q : BitVec 2) (e : BitVec 1) (s : State) : Out :=
  run (.redaf d i k l q e) (redBody 4 (mform i k q e) (fun s old l => redafWord s old (xget s l d.toNat).toNat)) s

end Sys2Proof.Machine
end

