-- ==== Sys2Proof/Machine/Tensors.lean ====
section
/-! DEFINITION. Records in memory, tensor records and the elements and scales of a tensor (07 R206 to R209, 02 R60). -/

namespace Sys2Proof.Machine

/-- An unsigned little-endian field of a record. -/
def recNat (bs : List Byte) (off n : Nat) : Nat := leNat ((bs.drop off).take n)

/-- A signed little-endian field of a record. -/
def recInt (bs : List Byte) (off n : Nat) : Int := signedOf true (8 * n) (recNat bs off n)

/-- The byte at an offset of a record. -/
def recByte (bs : List Byte) (off : Nat) : Nat := recNat bs off 1

/-- Faults of a record by byte offset: reserved bytes that are not 0. -/
def reservedBytes (bs : List Byte) (off n : Nat) : List (Nat × Bool) :=
  (List.range n).map (fun j => (off + j, recByte bs (off + j) != 0))

/-- The lowest offset at which a record is bad. -/
def badOffset (checks : List (Nat × Bool)) : Option Nat := leastAddr ((checks.filter (fun c => c.2)).map (fun c => c.1))

/-- A record read by an agent: alignment first, then the checks of R167, the bytes, or the cause and TRAPV. -/
def readRecordBy (r : Reader) (s : State) (n : Need) (align va size : Nat) : Except (Byte × Nat) (List Byte) :=
  if va % align ≠ 0 then .error (cAlign, va)
  else match readRunBy r s n va size with
    | .error e => .error e
    | .ok bs =>
      match (List.range size).find? (fun i => match translate s (va + i) with
        | .ok p => poisonedAt s p.key
        | _ => false) with
      | some i => .error (cEccfatal, va + i)
      | none => .ok bs

/-- A record that an instruction reads at issue, on the lane path (R398). -/
def readRecord (s : State) (n : Need) (align va size : Nat) : Except (Byte × Nat) (List Byte) :=
  readRecordBy (laneReader s) s n align va size

/-- Element size in bytes by code; t6 counts as 4 and s4 as 1 (R208, R209). -/
def elemSize (fmt : Nat) : Nat :=
  match fmt with
  | 0x0 | 0x1 | 0x6 | 0xE => 4
  | 0x2 | 0x3 | 0x7 | 0x8 => 2
  | 0xC | 0xD => 8
  | _ => 1

/-- Extent of a dimension. -/
def Tensor.dim (t : Tensor) (i : Nat) : Nat := t.dims.getD i 1

/-- Byte stride of a dimension from 1 on. -/
def Tensor.stride (t : Tensor) (i : Nat) : Nat := t.strides.getD (i - 1) 0

/-- An index vector lies inside a tensor. -/
def Tensor.inside (t : Tensor) (ix : List Int) : Bool :=
  (List.range 4).all (fun d => decide (0 ≤ ix.getD d 0) && decide (ix.getD d 0 < (t.dim d : Int)))

/-- The coordinate of an index vector inside a tensor. -/
def at_ (ix : List Int) (d : Nat) : Nat := (ix.getD d 0).toNat

/-- off of R209. -/
def elemOff (fmt i0 : Nat) : Nat := if fmt = 0xE then 4 * (i0 / 5) else if fmt = 0xF then i0 / 2 else i0 * elemSize fmt

/-- The lowest bit of an element in the bytes that hold it (R209). -/
def elemBit (fmt i0 : Nat) : Nat := if fmt = 0xE then 6 * (i0 % 5) else if fmt = 0xF then 4 * (i0 % 2) else 0

/-- The address of the bytes that hold an element (R209). -/
def Tensor.addr (t : Tensor) (ix : List Int) : Nat :=
  t.base + elemOff t.fmt (at_ ix 0) + at_ ix 1 * t.stride 1 + at_ ix 2 * t.stride 2 + at_ ix 3 * t.stride 3

/-- Row number q of an index vector (R209). -/
def Tensor.rowOf (t : Tensor) (ix : List Int) : Nat := at_ ix 1 + t.dim 1 * (at_ ix 2 + t.dim 2 * at_ ix 3)

/-- Scale size in bytes by scale format (R209). -/
def scaleSize (f : Nat) : Nat :=
  match f with
  | 1 => 2
  | 2 => 4
  | _ => 1

/-- Scale group size along a dimension of some extent (R60, R209). -/
def scaleGroup (shape extent : Nat) : Nat :=
  match shape with
  | 1 => 32
  | 2 => 128
  | _ => extent

/-- The address of the scale of group g of row q, along a dimension 0 of some extent (R209). -/
def Tensor.scaleAddr (t : Tensor) (extent q i0 : Nat) : Nat :=
  let g := scaleGroup t.group extent
  t.sbase + (q * ((extent + g - 1) / g) + i0 / g) * scaleSize t.scaleFmt

/-- A scale's value (R60). -/
def scaleValue (f v : Nat) : FV :=
  match f with
  | 1 => decodeF .bf16 v
  | 2 => decodeF .f32 v
  | 3 => if v = 255 then .nan else .fin false 1 ((v : Int) - 127)
  | _ => .fin false 1 0

/-- A value read on an engine's path: its bits, or the cause and address of the fault it meets; poison is ECCFATAL
(R222, R385). -/
def engineRead (r : Reader) (s : State) (n : Need) (va size : Nat) : Except (Byte × Nat) Nat :=
  match checkAccess s n va size with
  | .bad c => .error (c, va)
  | .ok key => if poisonedRange s key size then .error (cEccfatal, va) else .ok (readAs r s key size)

/-- An element's bits. -/
def Tensor.readBits (r : Reader) (s : State) (t : Tensor) (ix : List Int) : Except (Byte × Nat) Nat :=
  match engineRead r s needR (t.addr ix) (elemSize t.fmt) with
  | .error e => .error e
  | .ok v => .ok (bitsOf v (elemBit t.fmt (at_ ix 0)) (typeWidth t.fmt))

/-- The value of element bits under a tensor's format, never flushed (R212). -/
def elemValue (fmt v : Nat) : FV := valueOf false fmt v

/-- A tensor record's fields (R207). -/
def tensorOf (bs : List Byte) : Tensor :=
  { base := recNat bs 0 8, dims := [recNat bs 8 4, recNat bs 12 4, recNat bs 16 4, recNat bs 20 4],
    strides := [recNat bs 24 4, recNat bs 28 4, recNat bs 32 4], sbase := recNat bs 36 8, fmt := recByte bs 48,
    rank := recByte bs 49, scaleFmt := recByte bs 50 % 4, group := recByte bs 50 / 4 % 4, cform := recByte bs 51,
    strict := recByte bs 52 % 2 == 1 }

/-- The checks of a tensor record's fields, by byte offset (R206 to R209). -/
def tensorChecks (bs : List Byte) : List (Nat × Bool) :=
  let t := tensorOf bs
  let size := elemSize t.fmt
  let flat := t.cform == 0
  [(0, t.base % size != 0)] ++
  (List.range 4).map (fun d => (8 + 4 * d, t.dim d == 0 || (decide (t.rank ≤ d) && t.dim d != 1))) ++
  [1, 2, 3].map (fun d => (20 + 4 * d, flat && (t.stride d % size != 0 || (decide (t.rank ≤ d) && t.stride d != 0)))) ++
  [(36, if t.scaleFmt = 0 then t.sbase != 0 else t.sbase % scaleSize t.scaleFmt != 0)] ++
  reservedBytes bs 44 4 ++
  [(48, decide (0x10 ≤ t.fmt)), (49, t.rank == 0 || decide (4 < t.rank)),
   (50, t.group == 3 || decide (16 ≤ recByte bs 50)), (51, decide (2 < t.cform)), (52, decide (1 < recByte bs 52))] ++
  reservedBytes bs 53 11

/-- A defined tensor of the context (R206). -/
def tensorAt (s : State) (id : Nat) : Option Tensor := sget none s.ctx.tensors id

/-- TDEF: its checks in order; the context's definition of the id is replaced in one step (R206). -/
def execTdef (a b : BitVec 6) (s : State) : Out :=
  run (.tdef a b) (fun s => once s (fun s =>
    let id := (kget s a.toNat).toNat
    if 255 < id then trapHere s cOperand id
    else match readRecord s needR 64 (kget s b.toNat).toNat 64 with
      | .error (c, v) => trapHere s c v
      | .ok bs => match badOffset (tensorChecks bs) with
        | some o => trapHere s cOperand o
        | none => .ok { s with ctx := { s.ctx with tensors := sset none s.ctx.tensors id (some (tensorOf bs)) } })) s

end Sys2Proof.Machine
end

