-- ==== Sys2Proof/Machine/Rings.lean ====
section
/-! DEFINITION. Rings, collective copies and grow requests: the instructions (06 R185 to R200, 18 R378 to R380). -/

namespace Sys2Proof.Machine

/-- A ring of the focused crew. -/
def ringAt (s : State) (r : Nat) : Ring := s.crew.rings.getD r Ring.blank

/-- A ring of the focused crew changed. -/
def onRing (s : State) (r : Nat) (f : Ring → Ring) : State := { s with crew := s.crew.withRing r f }

/-- A live crew by id. -/
def crewAt (s : State) (id : Nat) : Option Crew := s.allCrews.find? (fun c => c.id == id)

/-- The chunks of a slot (R185). -/
def Ring.chunkCount (r : Ring) : Nat := (r.slotBytes + 4095) / 4096

/-- SlotAddr (R185). -/
def Ring.slotAddr (r : Ring) (n : Nat) : Nat := r.base + n % r.depth * r.slotBytes

/-- The cursor of a warp (R186). -/
def Ring.cursor (r : Ring) (w : Nat) : Nat := sget 0 r.cursors w

/-- A slot is free to reserve (R186). -/
def Ring.hasRoom (r : Ring) : Bool := decide (r.res - r.rel < r.depth)

/-- The ring holds a fault record; delivering a restartable fault clears it (R196). -/
def Ring.faulted (r : Ring) : Bool :=
  match r.fault with
  | some f => !f.delivered
  | none => false

/-- A trap of the issuing split would be delivered: the handler entered, or the crew parked for want of one (R222, R250,
R253; log 25). -/
def deliverable (s : State) : Bool :=
  s.crew.state == .running && !heldByCrew s && !handlerBusy s && s.sp.level == 0

/-- The fields of a ring descriptor, as a bound ring (R185, R186). -/
def ringOf (desc : DWord) (v : Nat) : Ring :=
  { Ring.blank with bound := true, desc := desc, base := bitsOf v 0 56, slotBytes := bitsOf v 64 13 * 256,
                    depth := bitsOf v 80 8 + 1, nrel := bitsOf v 92 5 + 1, nslice := bitsOf v 97 6 }

/-- A ring descriptor's fields are out of range (R185). -/
def ringBad (v : Nat) : Bool :=
  bitsOf v 56 8 != 0 || bitsOf v 77 3 != 0 || bitsOf v 89 3 != 0 || decide (2 ^ 103 ≤ v) || bitsOf v 0 8 != 0 ||
    bitsOf v 64 13 == 0 || decide (4096 < bitsOf v 64 13) || decide (32 < bitsOf v 97 6)

/-- A range lies in the focused crew's memory (R36). -/
def inCrewMemory (s : State) (a size : Nat) : Bool :=
  decide (s.crew.cmbase ≤ a) && decide (a + size ≤ s.crew.cmbase + s.crew.cmsize)

/-- A neighbour-list operation streams into a ring of the focused crew (R228). -/
def streamsInto (s : State) (r : Nat) (o : NleOp) : Bool :=
  o.kind == .stream && o.crew == s.crew.id && o.ring == r && o.outcome.isNone

/-- A ring carries a neighbour-list stream (R228). -/
def hasStream (s : State) (r : Nat) : Bool := s.nles.any (streamsInto s r)

/-- A command of a ring of the focused crew is queued, a neighbour-list stream among them (R187, R228). -/
def ringQueued (s : State) (r : Nat) : Bool :=
  s.clus.copies.any (fun c => c.crew == s.crew.id && c.ring == r) || hasStream s r

/-- RNGDEF is refused (R187). -/
def rngRefused (s : State) (r : Nat) : Bool :=
  let x := ringAt s r
  x.bound && !x.faulted && (!x.collectives.isEmpty || ringQueued s r || x.res != x.rel)

/-- Everything in a ring discarded: its place in others' multicasts, its stream, and its commands, whose entries other
collectives take once the ring's own are gone (R187, R189, R228). Slots that a faulted multicast has reserved in other crews'
rings stay reserved, and nothing fills them (log 47). -/
def discardRing (s : State) (r : Nat) : State :=
  let mine : Crew → Crew := fun c => { c with rings := c.rings.mapIdx (fun i x =>
    if i = r then { x with collectives := x.collectives.map (fun g =>
      { g with receivers := g.receivers.filter (fun p => p.1 != s.crew.id) }) } else x) }
  let t := { s with
    crew := mine s.crew
    crews := s.crews.map (fun c => if c.clus = s.crew.clus then mine c else c)
    nles := s.nles.filter (fun o => !streamsInto s r o) }
  dropCommands (onRing (forgetSlots t s.crew.id r) r (fun x => { x with collectives := [] }))
    (fun c => c.crew == s.crew.id && c.ring == r)

/-- A split waits in a CPY or CPYM on a ring. -/
def waitsOnRing (r : Nat) (p : Split) : Bool :=
  match p.wait with
  | some (.cpy n _ _) | some (.cpym _ n _ _) => n.toNat == r
  | _ => false

/-- The slices of the focused crew's splits that wait on a ring are to be checked again, the ring being another; their waits
are as old as they were (R187, R378; log 88). -/
def forgetSlices (s : State) (r : Nat) : State :=
  let f : Split → Split := fun p => if waitsOnRing r p then { p with slice := none } else p
  { s with
    w := { s.w with splits := s.w.splits.map f, overflow := s.w.overflow.map f }
    warps := s.warps.map (fun v => if v.crew = s.crew.id then
      { v with splits := v.splits.map f, overflow := v.overflow.map f } else v) }

/-- A ring bound or unbound, with its bit of the multicast acceptance set (R186, R187). -/
def bindRing (s : State) (r : Nat) (x : Ring) (accept : Bool) : State :=
  let t := discardRing (forgetSlices s r) r
  let bit : BitVec 8 := BitVec.ofNat 8 (2 ^ r)
  { onRing t r (fun _ => x) with
    crew := { (onRing t r (fun _ => x)).crew with
      mcast := if accept then s.crew.mcast ||| bit else s.crew.mcast &&& ~~~bit } }

def execRngdef (r b : BitVec 6) (s : State) : Out :=
  run (.rngdef r b) (fun s => once s (fun s =>
    let va := (kget s b.toNat).toNat
    if s.crew.dispatch then trapOpen s cProt
    else if rngRefused s r.toNat then trapHere s cOperand 2
    else if va = 0 then .ok (bindRing s r.toNat Ring.blank false)
    else if va % 32 ≠ 0 then trapHere s cAlign va
    else if !inCrewMemory s va 32 then trapHere s cProt va
    else match readRecord s needR 32 va 32 with
      | .error (c, v) => trapHere s c v
      | .ok bs =>
        let v := leNat bs
        let x := ringOf (kget s b.toNat) v
        if ringBad v then trapHere s cOperand 3
        else if !inCrewMemory s x.base (x.depth * x.slotBytes) then trapHere s cOperand 4
        else .ok (bindRing s r.toNat x (bitsOf v 88 1 == 1)))) s

/-- Byte offset of an element in a layout whose base is the slot's address; indices may be negative (R188, R209). -/
def Tensor.slotOff (t : Tensor) (ix : List Int) : Int :=
  let i0 := ix.getD 0 0
  (if t.fmt = 0xE then 4 * i0.fdiv 5 else if t.fmt = 0xF then i0.fdiv 2 else i0 * elemSize t.fmt) +
    ix.getD 1 0 * t.stride 1 + ix.getD 2 0 * t.stride 2 + ix.getD 3 0 * t.stride 3

/-- The lowest bit of an element in its bytes, for an index that may be negative. -/
def slotBit (fmt : Nat) (i0 : Int) : Nat :=
  if fmt = 0xE then 6 * (i0.emod 5).toNat else if fmt = 0xF then 4 * (i0.emod 2).toNat else 0

/-- Dimensions 0 and 1 exchanged under T8 and T16 (R190). -/
def exchange (qual : Nat) (ix : List Int) : List Int :=
  if qual = 0 then ix else [ix.getD 1 0, ix.getD 0 0, ix.getD 2 0, ix.getD 3 0]

/-- Index vectors added. -/
def addIx (a b : List Int) : List Int := (List.range 4).map (fun d => a.getD d 0 + b.getD d 0)

/-- A slice as a warp gives it, from its descriptor and tensors (R188). -/
def sliceOf (w qual : Nat) (src dst : Tensor) (bs : List Byte) : Slice :=
  { warp := w, at_ := 0, qual := qual, src := src, dst := dst
    srcO := (List.range 4).map (fun d => recInt bs (4 + 4 * d) 4)
    dstO := (List.range 4).map (fun d => recInt bs (20 + 4 * d) 4)
    ext := (List.range 4).map (fun d => recNat bs (36 + 4 * d) 4) }

/-- Every destination element of a slice lies in a slot of some bytes (R189). -/
def Slice.fits (x : Slice) (bytes : Nat) : Bool :=
  if x.ext.any (fun e => e == 0) then true
  else
    let top := x.ext.map (fun (e : Nat) => (e : Int) - 1)
    let lo := x.dst.slotOff x.dstO
    let hi := x.dst.slotOff (addIx x.dstO (exchange x.qual top))
    decide (0 ≤ lo) && decide (hi + elemSize x.dst.fmt ≤ (bytes : Int))

/-- Widths and qualifier of a slice are refused (R189). -/
def Slice.unsuited (x : Slice) : Bool :=
  typeWidth x.src.fmt != typeWidth x.dst.fmt ||
    (x.qual != 0 && (typeWidth x.src.fmt != 8 * x.qual || decide (x.src.rank < 2) || decide (x.dst.rank < 2)))

/-- The checks of a KIND 0 slice on a ring: the slice, or the TRAPV of OPERAND; the lowest that applies is raised, but for
8, which is judged when the slice joins a collective and so comes after 9 (R189, R195; logs 45, 82). A tensor of a compressed
form is taken as its strides say (log 89). -/
def checkSlice (s : State) (r qual : Nat) (bs : List Byte) : Except Nat Slice :=
  let x := ringAt s r
  if !x.bound then .error 1
  else match tensorAt s (recByte bs 1), tensorAt s (recByte bs 2) with
    | some src, some dst =>
      let g := sliceOf s.w.id qual src dst bs
      if recByte bs 0 ≠ 0 || recByte bs 3 != 0 || recNat bs 52 12 != 0 ||
          (List.range 4).any (fun d => decide (src.rank ≤ d) && g.ext.getD d 0 != 1) then .error 3
      else if !g.fits x.slotBytes then .error 4
      else if g.unsuited then .error 5
      else if hasStream s r then .error 9
      else .ok g
    | _, _ => .error 3

/-- The oldest open collective of a ring without a slice of the issuing warp (R189). -/
def openFor (s : State) (r : Nat) : Option Collective :=
  (ringAt s r).collectives.find? (fun g => !g.complete && !g.slices.any (fun x => x.warp == s.w.id))

/-- The crews that would receive a multicast of the focused crew now (R191). -/
def receiversOf (s : State) (r mask : Nat) : List Crew :=
  s.allCrews.filter (fun c => c.clus == s.crew.clus && c.id != s.crew.id && !c.dispatch && c.mcast.getLsbD r &&
    (c.rings.getD r Ring.blank).bound && (c.rings.getD r Ring.blank).slotBytes == (ringAt s r).slotBytes &&
    (s.warpsOf c.id).any (fun w => mask.testBit w.core && w.core != s.w.core))

/-- Named cores without a receiver (R191). -/
def skippedCores (s : State) (mask : Nat) (cs : List Crew) : Nat :=
  ((List.range 8).filter (fun n => mask.testBit n && n != s.w.core &&
    !cs.any (fun c => (s.warpsOf c.id).any (fun w => w.core == n)))).length

/-- The rings a collective of the focused crew reserves in, by crew (R191). -/
def namedRings (s : State) (r : Nat) (mask : Option Nat) : List (Nat × Nat) :=
  (s.crew.id, r) :: (match mask with
    | none => []
    | some m => (receiversOf s r m).map (fun c => (c.id, r)))

/-- A waiting CPY or CPYM: its warp, the clock its wait began, its ring and its core mask. -/
structure Waiter where
  warp : Nat
  since : Nat
  ring : Nat
  mask : Option Nat
  deriving DecidableEq, Repr

/-- The collective a waiting split waits to open; a grow request is none. -/
def waiterOf (w : Warp) (p : Split) : Option Waiter :=
  match p.wait with
  | some (.cpy r _ _) => if p.args.getD 1 0 = 0 then some ⟨w.id, p.since, r.toNat, none⟩ else none
  | some (.cpym _ r _ _) => some ⟨w.id, p.since, r.toNat, some (p.args.getD 2 0).toNat⟩
  | _ => none

/-- The waiting collectives of the focused cluster, the issuing split's own apart. -/
def waiters (s : State) : List Waiter :=
  (s.w.splits ++ s.w.overflow).filterMap (waiterOf s.w) ++
    (s.warps.filter (fun w => w.clus == s.w.clus)).flatMap (fun w => (w.splits ++ w.overflow).filterMap (waiterOf w))

/-- The rings a waiting collective names, judged from its own warp (R378). -/
def Waiter.names (s : State) (x : Waiter) : List (Nat × Nat) := namedRings (focusWarp s x.warp) x.ring x.mask

/-- An older collective waits for a ring the issuing split would reserve in (R378; ties go to the lower warp id). -/
def mustWait (s : State) (r : Nat) (mask : Option Nat) (since : Nat) : Bool :=
  let mine := namedRings s r mask
  (waiters s).any (fun x =>
    (decide (x.since < since) || (x.since == since && decide (x.warp < s.w.id))) &&
      (x.names s).any (fun n => mine.contains n))

/-- A collective of a ring changed by its slot. -/
def onCollective (s : State) (r slot : Nat) (f : Collective → Collective) : State :=
  onRing s r (fun x => { x with collectives := x.collectives.map (fun g => if g.slot = slot then f g else g) })

/-- The collective holds every slice it needs (R189). -/
def isComplete (s : State) (x : Ring) (g : Collective) : Bool :=
  if x.nslice = 0 then (members s).all (fun w => g.slices.any (fun y => y.warp == w.id))
  else decide (x.nslice ≤ g.slices.length)

/-- The collectives of the focused crew judged complete (R189). -/
def judgeCollectives (s : State) : State :=
  { s with crew := { s.crew with rings := s.crew.rings.map (fun x =>
    { x with collectives := x.collectives.map (fun g => if isComplete s x g then { g with complete := true } else g) }) } }

/-- Slices given or membership changed: completion judged, commands queued (R189). -/
def settleCopies (s : State) : State := enqueueCopies (judgeCollectives s) 64

/-- A slice joins a collective (R181, R189). -/
def joinSlice (s : State) (r slot : Nat) (x : Slice) : State :=
  settleCopies (onCollective (stamp s).2 r slot (fun g => { g with slices := g.slices ++ [{ x with at_ := (stamp s).1 }] }))

/-- A slot reserved, where one is free (R186). -/
def Ring.reserve (x : Ring) : Ring := if x.hasRoom then { x with res := x.res + 1 } else x

/-- A slot reserved in a receiver's ring (R191). -/
def reserveIn (s : State) (r id : Nat) : State := onCrew s id (fun c => c.withRing r Ring.reserve)

/-- A collective opened, its slots reserved in one step, or none where one of them is not free (R189, R191). -/
def openCollective (s : State) (r : Nat) (mask : Option Nat) : Option State :=
  let cs := match mask with
    | none => []
    | some m => receiversOf s r m
  if !(ringAt s r).hasRoom || cs.any (fun c => !(c.rings.getD r Ring.blank).hasRoom) then none
  else
    let skip := match mask with
      | none => 0
      | some m => skippedCores s m cs
    let g : Collective :=
      { slot := (ringAt s r).res, mask := mask, slices := [], opened := s.cycle.toNat, complete := false, queued := false
        receivers := cs.map (fun c => (c.id, (c.rings.getD r Ring.blank).res)) }
    let t := onRing s r (fun x => { x with res := x.res + 1, skips := min 255 (x.skips + skip)
                                           collectives := x.collectives ++ [g] })
    some (cs.foldl (fun u c => reserveIn u r c.id) t)

/-- A slice judged: it joins the oldest open collective without one of the warp, or opens one, or waits (R189, R191). -/
def placeSlice (s : State) (r : Nat) (mask : Option Nat) (x : Slice) (since : Nat) : Res :=
  match openFor s r with
  | some g => if g.mask ≠ mask then trapHere s cOperand 8 else .ok (joinSlice s r g.slot x)
  | none =>
    if mustWait s r mask since then .wait s
    else match openCollective s r mask with
      | none => .wait s
      | some t => .ok (joinSlice t r (ringAt s r).res x)

/-- A slice descriptor as kept operands of a waiting split, and back. -/
def descArgs (bs : List Byte) : List DWord := (List.range 8).map (fun j => BitVec.ofNat 64 (recNat bs (8 * j) 8))
def argDesc (s : State) (n : Nat) : List Byte := (List.range 8).flatMap (fun j => natLE (argN s (n + j)).toNat 8)

/-- The checks of a KIND 0 slice, made at issue, and its placing, judged until it succeeds; where RNGDEF has bound another
ring meanwhile, the slice is checked again (R187, R189). -/
def sliceTry (r : Nat) (qual : BitVec 2) (mask : Option Nat) (bs : List Byte) (since : Nat) (s : State) : Res :=
  match s.sp.slice with
  | some x => placeSlice s r mask x since
  | none => match checkSlice s r qual.toNat bs with
    | .error v => trapHere s cOperand v
    | .ok x => placeSlice { s with sp := { s.sp with slice := some x } } r mask x since

/-- Other crews of the cluster whose memory overlaps a range (R380). -/
def holdersOf (s : State) (crew lo hi : Nat) : List Crew :=
  s.allCrews.filter (fun c => c.clus == s.clus.id && !c.dispatch && c.id != crew && c.cmsize != 0 &&
    decide (c.cmbase < hi) && decide (lo < c.cmbase + c.cmsize))

/-- The range a grow request asks for (R200). -/
def growRange (c : Crew) (g : Grow) : Nat × Nat := (c.cmbase + c.cmsize, c.cmbase + c.cmsize + g.size)

/-- The request fails at once (R200). -/
def growImpossible (c : Crew) (g : Grow) : Bool :=
  decide (sliceBase c.clus + 0x400000 < (growRange c g).2) || decide (0x400000 < c.cmsize + g.size)

/-- A request's result recorded for the split that waits for it. -/
def setResult (s : State) (id v : Nat) : State :=
  { s with clus := { s.clus with grows := s.clus.grows.map (fun g => if g.id = id then { g with result := some v } else g) } }

/-- A request granted: CMSIZE rises and the added bytes read zero, whoever wrote them before (R199). -/
def grantGrow (s : State) (c : Crew) (g : Grow) : State :=
  let (lo, hi) := growRange c g
  let u := setResult (onCrew s c.id (fun x => { x with cmsize := x.cmsize + g.size })) g.id (c.cmsize + g.size)
  let t := forgetKeys u (fun k => decide (lo ≤ k) && decide (k < hi))
  { t with
    mem := t.mem.filter (fun e => !(decide (lo ≤ e.1) && decide (e.1 < hi)))
    poison := t.poison.filter (fun n => !(decide (lo ≤ n * 32) && decide (n * 32 < hi))) }

/-- The undecided requests, one for each crew at a time, oldest first (R199). -/
def openGrows (s : State) : List Grow :=
  (s.clus.grows.filter (fun g => g.result.isNone)).foldl
    (fun acc g => if acc.any (fun h => h.crew == g.crew) then acc else acc ++ [g]) []

/-- The undecided request of a crew that is waiting; a parked crew is not waiting (R380). -/
def waitingGrow (s : State) (c : Crew) : Option Grow :=
  if c.state = .running then (openGrows s).find? (fun g => g.crew == c.id) else none

/-- A request is more recent than another (R380). -/
def moreRecent (a b : Grow) : Bool :=
  decide (b.since < a.since) || (a.since == b.since && (decide (b.rank < a.rank) ||
    (a.rank == b.rank && decide (b.number < a.number))))

/-- The most recent of some requests. -/
def mostRecent (g : Grow) : List Grow → Grow
  | [] => g
  | h :: t => mostRecent (if moreRecent h g then h else g) t

/-- One judgement of a request: granted, failed, or a set of waiting holders broken; none where it goes on waiting
(R200). -/
def judgeGrow (s : State) (g : Grow) : Option State :=
  match crewAt s g.crew with
  | none => none
  | some c =>
    let hs := holdersOf s c.id (growRange c g).1 (growRange c g).2
    if growImpossible c g then some (setResult s g.id 0)
    else if hs.isEmpty then some (grantGrow s c g)
    else if g.limit = 0 then some (setResult s g.id 0)
    else if hs.all (fun h => (waitingGrow s h).isSome) then
      some (setResult s (mostRecent g (hs.filterMap (waitingGrow s))).id 0)
    else none

/-- The first request that can be decided is. -/
def growStep (s : State) : List Grow → Option State
  | [] => none
  | g :: t => match judgeGrow s g with
    | some u => some u
    | none => growStep s t

/-- A grow descriptor's checks (R188, R199). -/
def growBad (bs : List Byte) : Bool :=
  recNat bs 1 3 != 0 || recNat bs 12 52 != 0 || recNat bs 4 4 == 0 || recNat bs 4 4 % 4096 != 0

/-- A grow request issued and judged (R199, R200). -/
def growIssue (bs : List Byte) (s : State) : State :=
  let (id, t) := freshId s
  let g : Grow := { id := id, crew := s.crew.id, size := recNat bs 4 4, limit := recNat bs 8 4, since := s.cycle.toNat,
                    rank := s.w.core * 4 + s.w.quad, number := s.crew.number.toNat, result := none }
  let u := keepArgs { t with clus := { t.clus with grows := t.clus.grows ++ [g] } } [BitVec.ofNat 64 id]
  match (openGrows u).find? (fun h => h.id == id) with
  | some h => (judgeGrow u h).getD u
  | none => u

/-- A grow request's result taken by its split, or the wait (R199). -/
def growTry (b : BitVec 6) (s : State) : Res :=
  let id := (argN s 0).toNat
  match s.clus.grows.find? (fun g => g.id == id) with
  | some g => match g.result with
    | some v => .ok (kset { s with clus := { s.clus with grows := s.clus.grows.filter (fun h => h.id != id) } } b.toNat
                      (BitVec.ofNat 64 v))
    | none => .wait s
  | none => .ok (kset s b.toNat 0)

/-- CPY: a slice of a collective, or a grow request (R189, R199). Its first kept operand is the request's id, or 0. -/
def execCpy (r b : BitVec 6) (q : BitVec 2) (s : State) : Out :=
  runW (.cpy r b q) (fun again s =>
    if again then
      (if argN s 0 ≠ 0 then growTry b s else sliceTry r.toNat q none (argDesc s 1) s.sp.since s)
    else once s (fun s =>
      if s.crew.dispatch then trapOpen s cProt
      else match readRecord s needRec 64 (kget s b.toNat).toNat 64 with
        | .error (c, v) => trapHere s c v
        | .ok bs =>
          if recByte bs 0 = 1 then
            (if growBad bs then trapHere s cOperand 3
             else if q ≠ 0 then trapHere s cOperand 5
             else growTry b (growIssue bs s))
          else sliceTry r.toNat q none bs s.cycle.toNat (keepArgs s (0 :: descArgs bs)))) s

/-- CPYM: a slice of a multicast collective (R191). Its kept operands are 0, the mask and the descriptor. -/
def execCpym (m r b : BitVec 6) (q : BitVec 2) (s : State) : Out :=
  runW (.cpym m r b q) (fun again s =>
    if again then sliceTry r.toNat q (some (argN s 1).toNat) (argDesc s 2) s.sp.since s
    else once s (fun s =>
      let mask := kget s m.toNat
      if s.crew.dispatch then trapOpen s cProt
      else if 256 ≤ mask.toNat then .trap cMcast mask s.sp.pc s
      else match readRecord s needRec 64 (kget s b.toNat).toNat 64 with
        | .error (c, v) => trapHere s c v
        | .ok bs => sliceTry r.toNat q (some mask.toNat) bs s.cycle.toNat (keepArgs s (0 :: mask :: descArgs bs)))) s

/-- A command of a ring goes on (R196, R399). -/
def restartCommand (s : State) (r : Nat) : State :=
  { onRing s r (fun x => { x with fault := none }) with
    clus := { s.clus with copies := s.clus.copies.map (fun c =>
      if c.crew = s.crew.id && c.ring = r then { c with stalled := false } else c) }
    nles := s.nles.map (fun o => if streamsInto s r o then { o with fault := none } else o) }

/-- A ring's held fault met by an AWAITF that waits on its slot: raised, or, once delivered, waited out (R196). -/
def awaitFault (s : State) (r : Nat) (f : HeldFault) : Res :=
  if f.delivered then .wait s
  else .trap f.cause f.addr s.sp.pc
    (if f.cause = cPage && deliverable s then onRing s r (fun x => { x with fault := some { f with delivered := true } })
     else s)

/-- The cause of a held fault that can be restarted is still present at its address (R399). -/
def stillMissing (s : State) (f : HeldFault) : Bool :=
  match translate s f.addr.toNat with
  | .page => true
  | _ => false

/-- What is wrong with an AWAITF whatever the ring's slots hold, by its TRAPV (R195). One that waits while RNGDEF unbinds or
rebinds its ring is judged against the ring as it then stands (log 90). -/
def awaitBad (x : Ring) (chunk : Option Nat) : Option Nat :=
  if !x.bound then some 1
  else if (chunk.map (fun j => decide (x.chunkCount ≤ j))).getD false then some 7
  else none

/-- An AWAITF returns for the slot of its warp's cursor: its writes, and what was released with the slot before, happen before
what the lanes read next (R197, R297). -/
def awaitDone (r : Nat) (chunk : Option Nat) (s : State) : State :=
  let x := ringAt s r
  let c := x.cursor s.w.id
  awaitMem s r c chunk ((x.pasts.filter (fun q => q.1 + x.depth == c)).map (fun q => q.2))

/-- AWAITF's judgement, in chunk mode with a chunk (R192). -/
def awaitTry (r : Nat) (chunk : Option Nat) (s : State) : Res :=
  let x := ringAt s r
  let c := x.cursor s.w.id
  match awaitBad x chunk with
  | some v => trapHere s cOperand v
  | none =>
    if c < x.fil then .ok (awaitDone r chunk s)
    else if c = x.fil && (chunk.map (fun j => x.chunks.contains j)).getD false then .ok (awaitDone r chunk s)
    else match x.fault with
      | some f => if f.slot = c then awaitFault s r f else .wait s
      | none => .wait s

/-- An AWAITF issued on a slot whose fault has been delivered sets the engine going again before it is judged; where the
mapping is still missing, the engine holds the fault anew and the AWAITF raises it (R196, R399). One that is itself bad
changes nothing (R134, R195). -/
def awaitIssue (r : Nat) (chunk : Option Nat) (s : State) : Res :=
  match (ringAt s r).fault with
  | some f =>
    if f.delivered && f.slot == (ringAt s r).cursor s.w.id && (awaitBad (ringAt s r) chunk).isNone then
      (if stillMissing s f then awaitFault s r { f with delivered := false }
       else awaitTry r chunk (restartCommand s r))
    else awaitTry r chunk s
  | none => awaitTry r chunk s

def execAwaitf (r : BitVec 6) (s : State) : Out :=
  runW (.awaitf r) (fun again s =>
    if again then awaitTry r.toNat none s
    else once s (fun s =>
      if s.crew.dispatch then trapOpen s cProt
      else awaitIssue r.toNat none (keepArgs s []))) s

def execAwaitfC (r b : BitVec 6) (s : State) : Out :=
  runW (.awaitfC r b) (fun again s =>
    if again then awaitTry r.toNat (some (argN s 0).toNat) s
    else once s (fun s =>
      if s.crew.dispatch then trapOpen s cProt
      else awaitIssue r.toNat (some (kget s b.toNat).toNat) (keepArgs s [kget s b.toNat]))) s

/-- Wholly released slots freed (R193). The bound is the number of filled slots. -/
def freeSlots (x : Ring) : Nat → Ring
  | 0 => x
  | n + 1 =>
    if x.rel < x.fil && sget 0 x.counts x.rel == x.nrel then
      freeSlots { x with counts := sset 0 x.counts x.rel 0, rel := x.rel + 1 } n
    else x

/-- A release by a warp, before which its lanes have done something (R193, R197); what was released with slots that are
released anew is of no more use. -/
def releaseSlot (x : Ring) (w : Nat) (p : Past) : Ring :=
  let c := x.cursor w
  freeSlots { x with
    counts := sset 0 x.counts c (sget 0 x.counts c + 1), cursors := sset 0 x.cursors w (c + 1)
    pasts := (c, p) :: x.pasts.filter (fun q => decide (x.rel ≤ q.1 + x.depth)) } (x.fil - x.rel)

def execRels (r : BitVec 6) (s : State) : Out :=
  run (.rels r) (fun s => once s (fun s =>
    let x := ringAt s r.toNat
    if s.crew.dispatch then trapOpen s cProt
    else if !x.bound then trapHere s cOperand 1
    else if x.fil ≤ x.cursor s.w.id then trapHere s cOperand 6
    else .ok (onRing (takePast s).2 r.toNat (fun y => releaseSlot y s.w.id (takePast s).1)))) s

/-- The word of RNGST (R194). -/
def ringWord (s : State) (r : Nat) : DWord :=
  let x := ringAt s r
  if !x.bound then 0
  else BitVec.ofNat 64 ((if x.faulted then 2 ^ 58 else 0) + (if s.crew.mcast.getLsbD r then 2 ^ 57 else 0) + 2 ^ 56 +
    x.skips * 2 ^ 48 + x.rel % 2 ^ 16 * 2 ^ 32 + x.fil % 2 ^ 16 * 2 ^ 16 + x.cursor s.w.id % 2 ^ 16)

def execRngst (d r : BitVec 6) (s : State) : Out :=
  run (.rngst d r) (fun s => once s (fun s =>
    if s.crew.dispatch then trapOpen s cProt else .ok (kset s d.toNat (ringWord s r.toNat)))) s

end Sys2Proof.Machine
end

