-- ==== Sys2Proof/Machine/CopyEngine.lean ====
section
/-! DEFINITION. The copy engine's events: commands start, chunks fill, source reads fault, grow requests are decided
(06 R190, R191, R196, R200; 18 R377, R380). -/

namespace Sys2Proof.Machine

/-- The index vectors of a box, dimension 0 fastest. -/
def boxOf (ext : List Nat) : List (List Int) :=
  (List.range (ext.getD 3 1)).flatMap (fun i3 => (List.range (ext.getD 2 1)).flatMap (fun i2 =>
    (List.range (ext.getD 1 1)).flatMap (fun i1 => (List.range (ext.getD 0 1)).map (fun i0 =>
      [(i0 : Int), (i1 : Int), (i2 : Int), (i3 : Int)]))))

/-- One write of a slice: where its source lies, and its destination in the slot (R190). -/
structure CopyWrite where
  src : Tensor
  from_ : List Int
  dst : Tensor
  off : Nat
  bit : Nat
  deriving DecidableEq, Repr

/-- The writes of a slice in the order of its box (R190). -/
def Slice.writes (x : Slice) : List CopyWrite :=
  (boxOf x.ext).map (fun ix =>
    let d := addIx x.dstO (exchange x.qual ix)
    { src := x.src, from_ := addIx x.srcO ix, dst := x.dst, off := (x.dst.slotOff d).toNat
      bit := slotBit x.dst.fmt (d.getD 0 0) })

/-- The writes of a collective that fall in a chunk (R190). -/
def chunkWrites (g : Collective) (chunk : Nat) : List CopyWrite :=
  (g.slices.flatMap Slice.writes).filter (fun x => x.off / 4096 == chunk)

/-- An element's bits put into the bytes that hold it, by an engine; a t6 word's two top bits are written 0 (R50, R209). -/
def putElem (s : State) (e : Late) (fmt key bit v : Nat) (bad : Bool) : State :=
  let size := elemSize fmt
  let w := typeWidth fmt
  let old := readKey s key size
  let new := old - bitsOf old bit w * 2 ^ bit + v * 2 ^ bit
  let new := if fmt = 0xE then new % 2 ^ 30 else new
  let t := storeKey e s key (natLE new size)
  if bad then { t with poison := ninsert (key / 32) t.poison } else t

/-- The work of a collective of the focused crew, attributed to the warps that joined it (R181). -/
def copyJob (s : State) (g : Collective) : Job :=
  { path := .copy, id := ((g.slices.head?).map (fun x => x.at_)).getD 0
    posters := g.slices.map (fun x => (x.warp, x.at_)), clus := some s.clus.id, die := dieOf s.clus.id, ctx := s.ctx.id }

/-- A slot that a command fills: its crew and number, and its address. -/
structure Filling where
  crew : Nat
  slot : Nat
  base : Nat
  deriving DecidableEq, Repr

/-- A source element, as a collective's work reads memory: its bits and whether they are poisoned; an element outside
the source is zero bits (R190). -/
def copySource (s : State) (j : Job) (x : CopyWrite) : Except (Byte × Nat) (Nat × Bool) :=
  if !x.src.inside x.from_ then .ok (0, false)
  else match checkRun s needR (x.src.addr x.from_) (elemSize x.src.fmt) with
    | .error e => .error e
    | .ok ks =>
      .ok (bitsOf (leNat (gatherBy (.job j) s ks)) (elemBit x.src.fmt (at_ x.from_ 0))
             (typeWidth x.src.fmt), ks.any (poisonedAt s))

/-- Writes of a chunk performed in order in every slot of a ring that a command fills, up to the first source read that
faults: how many were performed, and the fault (R190, R191, R196). -/
def performWrites (job : Job) (ring chunk : Nat) (fs : List Filling) :
    List CopyWrite → Nat → State → State × Nat × Option (Byte × Nat)
  | [], n, s => (s, n, none)
  | x :: xs, n, s =>
    match copySource s job x with
    | .error e => (s, n, some e)
    | .ok (v, bad) =>
      performWrites job ring chunk fs xs (n + 1)
        (fs.foldl (fun t b => putElem t (jobWrite job false (some (b.crew, ring, b.slot)) chunk) x.dst.fmt (b.base + x.off)
          x.bit v bad) s)

/-- Sectors that the writes of a chunk cover whole lose their poison (R384). -/
def clearCovered (s : State) (bases : List Filling) (ws : List CopyWrite) : State :=
  clearSectors s (fun c => (List.range 32).all (fun i =>
    bases.any (fun b => ws.any (fun x => decide (b.base + x.off ≤ c * 32 + i) &&
      decide (c * 32 + i < b.base + x.off + elemSize x.dst.fmt)))))

/-- A command's collective. -/
def collectiveOf (s : State) (c : Command) : Option Collective :=
  (ringAt s c.ring).collectives.find? (fun g => g.slot == c.slot)

/-- The rings a command fills, by crew and slot: the issuer's and those of the receivers that are still bound. -/
def fillsOf (s : State) (c : Command) (g : Collective) : List (Nat × Nat) :=
  (c.crew, c.slot) :: g.receivers.filter (fun p => match crewAt s p.1 with
    | some x => (x.rings.getD c.ring Ring.blank).bound
    | none => false)

/-- The ring a command fills in a crew. -/
def ringIn (s : State) (crew r : Nat) : Ring := ((crewAt s crew).getD Crew.blank).rings.getD r Ring.blank

/-- The machine with a command's crew in focus, and the command, or none. -/
def focusCommand (s : State) (cluster n : Nat) : Option (State × Command) :=
  match (findCluster (pack s).cluss cluster).copies[n]? with
  | none => none
  | some c => some (focusCrew s c.crew, c)

/-- A command replaced in the focused cluster's queue. -/
def setCommand (s : State) (old new : Command) : State :=
  { s with clus := { s.clus with copies := s.clus.copies.map (fun c => if c = old then new else c) } }

/-- A command may start: every earlier slot of its rings is filled, and it is not held by a fault (R190, R377). -/
def startable (s : State) (c : Command) : Bool :=
  !c.running && !c.stalled &&
    (let t := focusCrew s c.crew
     match collectiveOf t c with
     | none => false
     | some g => (fillsOf t c g).all (fun p => (ringIn t p.1 c.ring).fil == p.2))

/-- A chunk of slot FIL, a reserved one, filled; FIL advances with its last chunk (R186, R190). -/
def fillChunk (j slot : Nat) (x : Ring) : Ring :=
  if x.fil ≠ slot || x.res ≤ slot then x
  else
    let cs := ninsert j x.chunks
    if cs.length = x.chunkCount then { x with fil := x.fil + 1, chunks := [] } else { x with chunks := cs }

/-- A command that has filled its slot leaves the queue, and the next collective takes its entry (R189). -/
def endCommand (s : State) (c : Command) : State :=
  if (ringAt s c.ring).fil ≤ c.slot then s
  else
    let t := onRing s c.ring (fun x => { x with collectives := x.collectives.filter (fun g => g.slot != c.slot) })
    enqueueCopies { t with clus := { t.clus with
      copies := t.clus.copies.filter (fun d => !(d.crew == c.crew && d.ring == c.ring && d.slot == c.slot)) } } 64

/-- Chunks of a command's slot filled in every ring it fills. -/
def fillChunks (s : State) (c : Command) (g : Collective) (js : List Nat) : State :=
  js.foldl (fun u j => (fillsOf u c g).foldl (fun x p => onCrew x p.1 (fun y => y.withRing c.ring (fillChunk j p.2))) u) s

/-- The chunks of a command's slot that no slice writes (R190). -/
def idleChunks (s : State) (c : Command) (g : Collective) : List Nat :=
  let used := (g.slices.flatMap Slice.writes).map (fun x => x.off / 4096)
  (List.range (ringAt s c.ring).chunkCount).filter (fun j => !used.contains j)

/-- A command of the focused crew starts: the chunks that nothing writes are filled at once (R190). -/
def beginCommand (s : State) (c : Command) : State :=
  let c' := { c with running := true }
  let t := setCommand s c c'
  match collectiveOf t c' with
  | none => t
  | some g => endCommand (fillChunks t c' g (idleChunks t c' g)) c'

/-- The oldest queued command of a cluster that may start does, four at most (R377). -/
def startCopy (s : State) (cluster : Nat) : Option State :=
  let q := (findCluster (pack s).cluss cluster).copies
  if 4 ≤ (q.filter (fun c => c.running)).length then none
  else (q.find? (startable s)).map (fun c => beginCommand (focusCrew s c.crew) c)

/-- COPY_COMMAND_START (R377), in the first cluster where a command may start. -/
def copyCommandStartEvent (s : State) : Option State := (pack s).cluss.findSome? (fun k => startCopy s k.id)

def execCopyCommandStart (s : State) : Out := event (copyCommandStartEvent s) s

/-- The chunks of a command's slot that are not filled. -/
def openChunks (s : State) (c : Command) : List Nat :=
  (List.range (ringAt s c.ring).chunkCount).filter (fun j => !(ringAt s c.ring).chunks.contains j)

/-- The chunk a command fills next: the manual gives no order, so it is free (log 46). -/
def nextChunk (s : State) (c : Command) : Nat :=
  match c.chunk, openChunks s c with
  | some j, _ => j
  | none, [j] => j
  | none, js => js.getD (Config.freeNat s.env.free % js.length) 0

/-- A chunk of a command worked on: the machine, the writes performed, and the fault met. -/
def workChunk (s : State) (c : Command) (g : Collective) : State × Nat × Option (Byte × Nat) :=
  let ws := chunkWrites g (nextChunk s c)
  let fs : List Filling := (fillsOf s c g).map (fun p => ⟨p.1, p.2, (ringIn s p.1 c.ring).slotAddr p.2⟩)
  let t := if c.pos = 0 then clearCovered s fs ws else s
  performWrites (copyJob s g) c.ring (nextChunk s c) fs (ws.drop c.pos) c.pos { t with env := { t.env with free := t.env.free + 1 } }

/-- CHUNK_FILLED (R190): the writes of a running command that fall in its next chunk are performed. -/
def chunkFilledEvent (cluster command : Nat) (s : State) : Option State :=
  match focusCommand s cluster command with
  | none => none
  | some (t, c) => match collectiveOf t c with
    | none => none
    | some g =>
      let j := nextChunk t c
      if !c.running || c.stalled then none
      else match workChunk t c g with
        | (_, _, some _) => none
        | (u, _, none) =>
          let c' := { c with chunk := none, pos := 0 }
          some (endCommand (fillChunks (setCommand u c c') c' g [j]) c')

def execChunkFilled (cluster command : Nat) (s : State) : Out := event (chunkFilledEvent cluster command s) s

/-- COPY_FAULT (R196): the next source read of a running command faults; its ring keeps the record. -/
def copyFaultEvent (cluster command : Nat) (s : State) : Option State :=
  match focusCommand s cluster command with
  | none => none
  | some (t, c) => match collectiveOf t c with
    | none => none
    | some g =>
      if !c.running || c.stalled then none
      else match workChunk t c g with
        | (_, _, none) => none
        | (u, n, some (cause, addr)) =>
          some (onRing (setCommand u c { c with running := false, stalled := true, chunk := some (nextChunk t c), pos := n })
            c.ring (fun x => { x with fault := some { cause := cause, addr := BitVec.ofNat 64 addr, slot := c.slot,
                                                      delivered := false } }))

def execCopyFault (cluster command : Nat) (s : State) : Out := event (copyFaultEvent cluster command s) s

/-- The first cluster in which a change can be made is changed. -/
def firstCluster (s : State) (f : State → Option State) : List Cluster → Option State
  | [] => none
  | c :: t => match f (focusOn s 0 0 c.id) with
    | some u => some u
    | none => firstCluster s f t

/-- GROW_DECIDED (R200): a waiting request that can be decided is. -/
def growDecidedEvent (s : State) : Option State :=
  firstCluster s (fun t => growStep t (openGrows t)) (pack s).cluss

def execGrowDecided (s : State) : Out := event (growDecidedEvent s) s

/-- A request has waited WAIT clocks (R200). -/
def growLate (s : State) (g : Grow) : Bool :=
  g.result.isNone && g.limit != 0xFFFFFFFF && decide (g.since + g.limit ≤ s.cycle.toNat)

/-- GROW_TIMEOUT (R200): a request that has waited WAIT clocks fails. -/
def growTimeoutEvent (s : State) : Option State :=
  firstCluster s (fun t => (t.clus.grows.find? (growLate t)).map (fun g => setResult t g.id 0)) (pack s).cluss

def execGrowTimeout (s : State) : Out := event (growTimeoutEvent s) s

end Sys2Proof.Machine
end

