-- ==== Sys2Proof/Machine/MajorityOps.lean ====
section
/-! DEFINITION. Majority loads, stores and compare-stores, and token-ready cells (06 R176 to R179, 07 R243). -/

namespace Sys2Proof.Machine

/-- The address checks of R176; what is kept is the address, the cell and further operands. -/
def majIssue (n : Need) (addr : DWord) (vs : List DWord) (f : State → Res) (s : State) : Res :=
  once s (fun s =>
    match checkCell s n addr.toNat with
    | .bad c => .trap c addr s.sp.pc s
    | .ok key => f (keepArgs s (addr :: BitVec.ofNat 64 (cellOf key) :: vs)))

/-- The cell a waiting majority instruction works on. -/
def argCell (s : State) : Nat := (argN s 1).toNat

/-- MAJFAIL at the cell address (R176). -/
def majFail (s : State) : Res := .trap cMajfail (argN s 0) s.sp.pc s

/-- The outcome predicate of MST and MCAS (R178). -/
def setOutcome (s : State) (p : BitVec 3) (b : Bool) : State :=
  { s with w := setPred s.w p.toNat (argLanes s) (if b then allLanes else 0) }

/-- An attempt of a majority instruction: MAJFAIL at once where too few stacks are in service, or where a retirement has
left too few since its issue (R375), and a wait behind the quadrant's stores on the cell (R176). -/
def attempt (f : State → Res) (s : State) : Res :=
  if s.sp.doomed || tooFew s (argCell s) then majFail s
  else if cellBusy s (argCell s) then .wait s
  else f s

/-- MLD's attempt (R178). MLD has acquire (R179). -/
def mldTry (d : BitVec 6) (s : State) : Res :=
  attempt (fun s => match majLoad s (argCell s) with
    | .fail => majFail s
    | .wait => .wait s
    | .done _ v t => .ok (ksetQuad (acquireCell t (argCell s)) d.toNat v)) s

def execMld (d : BitVec 6) (k : BitVec 5) (l : BitVec 4) (s : State) : Out :=
  runW (.mld d k l) (fun again s =>
    if again then mldTry d s else majIssue needR (kget s k.toNat) [] (mldTry d) s) s

/-- The payload a waiting MST or MCAS read at its issue, from its n-th kept operand on (R176). -/
def argPayload (s : State) (n : Nat) : Payload := argN s (n + 3) ++ argN s (n + 2) ++ argN s (n + 1) ++ argN s n

/-- The registers of a payload as kept operands. -/
def payloadArgs (s : State) (d : BitVec 6) : List DWord :=
  (List.range 4).map (fun j => kget s (d.toNat + j))

/-- The store phase of MST or MCAS after the read phase, at once, or parted from it by other agents' steps when the
model's input says so (log 10). -/
def storeOrPart (s : State) (tag : BitVec 64) (f : State → BitVec 64 → Res) : Res :=
  match s.env.parted with
  | true :: rest => .wait { s with sp := { s.sp with phase := some ⟨argCell s, tag⟩ }, env := { s.env with parted := rest } }
  | false :: rest => f { s with env := { s.env with parted := rest } } tag
  | [] => f s tag

/-- What a store of the issuing split to a majority cell releases, a read-modify-write or not (R179, R297). -/
def releaseStore (s : State) (cell : Nat) (rmw : Bool) : State :=
  releaseCell (releaseNow s).2 cell rmw (releaseNow s).1

/-- MST's store phase (R178). MST has release (R179), which a superseded store hands to nobody. A phase that fails has sent
no line: after its MAJFAIL the value is in no copy (log 93). -/
def mstStore (p : BitVec 3) (s : State) (tag : BitVec 64) : Res :=
  match storePhase s (argCell s) (warpWid s.w) tag (argPayload s 2) with
  | .fail => majFail s
  | .wait => .wait s
  | .done b _ t => .ok (setOutcome (if b then releaseStore t (argCell s) false else t) p b)

/-- MST's attempt (R178). -/
def mstTry (p : BitVec 3) (s : State) : Res :=
  match s.sp.phase with
  | some ph => if s.sp.doomed then majFail s else mstStore p s ph.tag
  | none => attempt (fun s => match readPhase s (argCell s) with
      | none => .wait s
      | some (_, line) => storeOrPart s line.tag (mstStore p)) s

def execMst (d : BitVec 6) (k : BitVec 5) (l : BitVec 4) (p : BitVec 3) (s : State) : Out :=
  runW (.mst d k l p) (fun again s =>
    if again then mstTry p s else majIssue needW (kget s k.toNat) (payloadArgs s d) (mstTry p) s) s

/-- MCAS's store phase: a superseded store answers the newest rejecting copy's payload (R178). MCAS has acquire, and
release where it stores (R179). -/
def mcasStore (d : BitVec 6) (p : BitVec 3) (s : State) (tag : BitVec 64) : Res :=
  match storePhase s (argCell s) (warpWid s.w) tag (argPayload s 3) with
  | .fail => majFail s
  | .wait => .wait s
  | .done true _ t => .ok (setOutcome (releaseStore (acquireCell t (argCell s)) (argCell s) true) p true)
  | .done false v t => .ok (setOutcome (ksetQuad (acquireCell t (argCell s)) d.toNat v) p false)

/-- MCAS's attempt (R178). -/
def mcasTry (d : BitVec 6) (p : BitVec 3) (s : State) : Res :=
  match s.sp.phase with
  | some ph => if s.sp.doomed then majFail s else mcasStore d p s ph.tag
  | none => attempt (fun s => match readPhase s (argCell s) with
      | none => .wait s
      | some (q, line) =>
        if line.payload.extractLsb' 0 64 ≠ argN s 2 then
          let t := repairPoison (sendAll s (argCell s) line q) (argCell s) line
          .ok (setOutcome (ksetQuad (acquireCell t (argCell s)) d.toNat line.payload) p false)
        else storeOrPart s line.tag (mcasStore d p)) s

def execMcas (d e : BitVec 6) (k : BitVec 5) (l : BitVec 4) (p : BitVec 3) (s : State) : Out :=
  runW (.mcas d e k l p) (fun again s =>
    if again then mcasTry d p s
    else majIssue needAtomicCell (kget s k.toNat) (kget s e.toNat :: payloadArgs s d) (mcasTry d p) s) s
where
  needAtomicCell : Need := ⟨true, true, false, false⟩

/-- READY of a token-ready cell's payload (R243). -/
def readyOf (v : Payload) : Nat := (v.extractLsb' 0 64).toNat

/-- TRWAIT's attempt; a completed MLD that does not satisfy it starts the next one, which translates the address anew
(R243, R372). It returns with acquire (R179). -/
def trwaitTry (s : State) : Res :=
  attempt (fun s => match majLoad s (argCell s) with
    | .fail => majFail s
    | .wait => .wait s
    | .done _ v t =>
      if (argN s 2).toNat ≤ readyOf v then .ok (acquireCell t (argCell s))
      else .wait { t with sp := { t.sp with since := t.cycle.toNat } }) s

/-- A repeated MLD of TRWAIT: the address is checked again, and a failure raises what it would at issue (R176, R372). -/
def trwaitAgain (s : State) : Res :=
  match checkCell s needR (argN s 0).toNat with
  | .bad c => .trap c (argN s 0) s.sp.pc s
  | .ok key => trwaitTry { s with sp := { s.sp with args := s.sp.args.set 2 (BitVec.ofNat 64 (cellOf key)) } }

def execTrwait (a b : BitVec 6) (s : State) : Out :=
  runW (.trwait a b) (fun again s =>
    if again then trwaitAgain s else majIssue needR (kget s a.toNat) [kget s b.toNat] trwaitTry s) s

/-- TRSIG hands an update to the quadrant's majority unit and continues; the update has release (R179, R243). -/
def execTrsig (a b : BitVec 6) (s : State) : Out :=
  run (.trsig a b) (fun s => once s (fun s =>
    let addr := kget s a.toNat
    match checkCell s ⟨true, true, false, false⟩ addr.toNat with
    | .bad c => .trap c addr s.sp.pc s
    | .ok key =>
      .ok { (releaseNow s).2 with
        trsigs := s.trsigs ++ [{ cell := cellOf key, addr := addr, value := kget s b.toNat
                                 warp := { s.w with splits := [], overflow := [] }
                                 number := s.crew.number, flog := s.crew.flog, pc := s.sp.pc
                                 since := s.cycle.toNat, past := (releaseNow s).1 }] })) s

/-- READY raised to a value by a writer, bytes 8 to 31 kept, with a release of some past (R243, R297): the machine after a
completed update. -/
def raiseReady (s : State) (cell wid : Nat) (value : DWord) (p : Past) : MajRes :=
  match majLoad s cell with
  | .done _ v t =>
    if value.toNat ≤ readyOf v then .done true v t
    else match majCas t cell wid (v.extractLsb' 0 64) (v.extractLsb' 64 192 ++ value) with
      | .done true w u => .done true w (releaseCell u cell true p)
      | r => r
  | r => r

/-- An earlier store of the update's quadrant on its cell is in flight (R176). -/
def updateBusy (s : State) (u : TrsigUpdate) : Bool :=
  let wid := warpWid u.warp
  (s.trsigs.takeWhile (fun v => v != u)).any (fun v => warpWid v.warp == wid && v.cell == u.cell) ||
    s.services.any (fun v => v.wid == wid && v.cell == u.cell && decide (v.since ≤ u.since)) ||
    (quadSplits s wid).any (fun p => storesOn u.cell p && p.ahead (some u.since))

/-- An update completes (R243). -/
def finishTrsig (s : State) (u : TrsigUpdate) : Option State :=
  if updateBusy s u then none
  else match raiseReady s u.cell (warpWid u.warp) u.value u.past with
    | .done true _ t => some { t with trsigs := t.trsigs.erase u }
    | _ => none

/-- The first pending update that completes. -/
def firstTrsig (s : State) : List TrsigUpdate → Option State
  | [] => none
  | u :: t => match finishTrsig s u with
    | some r => some r
    | none => firstTrsig s t

/-- TRSIG_UPDATE_DONE (R243): the oldest update that a majority answers stores READY. -/
def trsigUpdateDoneEvent (s : State) : Option State := firstTrsig s s.trsigs

def execTrsigUpdateDone (s : State) : Out := event (trsigUpdateDoneEvent s) s

/-- Clocks a majority operation waits for its replies (R176). -/
def majLimit : Nat := 65536

/-- TRSIG_ABANDON (R243): an update past the limit is dropped and logged for the warp that issued it, whose oldest live
split WHERE names, under its crew's root, whether or not the crew has ended (R258). -/
def trsigAbandonEvent (s : State) : Option State :=
  match s.trsigs.find? (fun u => decide (u.since + majLimit ≤ s.cycle.toNat)) with
  | none => none
  | some u =>
    some (onAll { s with trsigs := s.trsigs.erase u } (fun p =>
      pack (logRecord (focusOn p 0 u.warp.ctx u.warp.clus) u.flog u.warp false (logBytes p u.number u.warp
        { cause := cMajfail, where_ := whereOldest (findWarp p.warps u.warp.id), flags := 0, pc := u.pc
          trapv := u.addr } 0))))

def execTrsigAbandon (s : State) : Out := event (trsigAbandonEvent s) s

/-- A waiting split of some warp taken as the issuing one, its instruction gone on with, and the focus left there. -/
def onWaiting (s : State) (id slot : Nat) (f : State → Option State) : Option State :=
  let t := focusSplit s id slot
  if !t.w.live || !t.sp.alive then none else f t

/-- A split waits in an instruction for replies of a majority. -/
def awaitsMajority (p : Split) : Bool :=
  match p.wait with
  | some (.mld _ _ _) | some (.mst _ _ _ _) | some (.mcas _ _ _ _ _) | some (.trwait _ _) | some (.frule _ _) => true
  | _ => false

/-- A split put among others in the order of age (R253). -/
def insertAge (p : Split) : List Split → List Split
  | [] => [p]
  | q :: t => if p.age ≤ q.age then p :: q :: t else q :: insertAge p t

/-- Splits in the order of age. -/
def byAge (ps : List Split) : List Split := ps.foldr insertAge []

/-- The splits of all warps that meet a condition, by warp and slot, a warp's in the order of age (R253). -/
def splitsWhere (s : State) (f : Warp → Split → Bool) : List (Nat × Nat) :=
  s.allWarps.flatMap (fun w => (byAge (w.splits.filter (fun p => p.alive && f w p))).map (fun p => (w.id, p.slot)))

/-- A waiting TRWAIT's repeated MLD has the replies it needs. -/
def hears (s : State) (w : Warp) (p : Split) : Bool :=
  match p.wait with
  | some (.trwait _ _) =>
    let t := focusSplit s w.id p.slot
    !cellBusy t (argCell t) && (match majLoad t (argCell t) with | .done _ _ _ => true | _ => false)
  | _ => false

/-- The MLDs that waiting TRWAITs of a packed machine repeat: the clocks of one that has its replies run anew (R176, R243;
log 1). -/
def repeatLoads (s : State) : State :=
  { s with warps := s.warps.map (fun w => { w with splits := w.splits.map (fun p =>
      if hears s w p then { p with since := s.cycle.toNat } else p) }) }

/-- A split has waited for replies past the limit (R176). -/
def majorityLate (cycle : Nat) (p : Split) : Bool := awaitsMajority p && decide (p.since + majLimit ≤ cycle)

/-- MAJORITY_TIMEOUT (R176): a majority instruction that has waited 65,536 clocks for replies raises MAJFAIL. -/
def majorityTimeoutEvent (s : State) : Option State :=
  match splitsWhere s (fun _ p => majorityLate s.cycle.toNat p) with
  | [] => none
  | (id, slot) :: _ => onWaiting s id slot (fun t => t.sp.wait.map (fun i => finish i true (majFail t)))

def execMajorityTimeout (s : State) : Out := event (majorityTimeoutEvent s) s

/-- TRWAIT_RETRY (R243): a waiting TRWAIT repeats its MLD and is judged again. -/
def trwaitRetryEvent (id slot : Nat) (s : State) : Option State :=
  onWaiting s id slot (fun t => match t.sp.wait with
    | some (.trwait a b) => some (finish (.trwait a b) true (trwaitAgain t))
    | _ => none)

def execTrwaitRetry (id slot : Nat) (s : State) : Out := event (trwaitRetryEvent id slot s) s

/-- MAJFAIL made pending at the outstanding majority instructions of the splits whose set a retirement has left with too
few stacks (R375). -/
def doomSplits (s : State) : State :=
  let doom : Split → Split := fun p =>
    if p.alive && awaitsMajority p && tooFew s (p.args.getD 2 0).toNat then { p with doomed := true } else p
  { s with
    sp := doom s.sp
    w := { s.w with splits := s.w.splits.map doom, overflow := s.w.overflow.map doom }
    warps := s.warps.map (fun w => { w with splits := w.splits.map doom, overflow := w.overflow.map doom }) }

end Sys2Proof.Machine
end

