-- ==== Sys2Proof/Machine/Crews.lean ====
section
/-! DEFINITION. Roles, crews and named barriers (05 R158 to R162; 18 R379). -/

namespace Sys2Proof.Machine

/-- Every live context. -/
def State.allCtxs (s : State) : List Ctx := (if s.ctx.live then [s.ctx] else []) ++ s.ctxs

/-- The allotments bound in a quadrant: its warps', without one of them, and those of its empty dispatch slots (R17;
log 50). -/
def quadUsed (s : State) (clus core quad without : Nat) : Nat :=
  (s.allWarps.filter (fun w => w.clus == clus && w.core == core && w.quad == quad && w.id != without)).foldl
      (fun n w => n + w.allot) 0 +
    ((s.allCtxs.filter (fun c => c.place == .running)).flatMap (fun c => c.launches.flatMap (fun l => l.dispSlots.filter (fun d =>
      d.clus == clus && d.core == core && d.quad == quad && !d.busy)))).foldl (fun n d => n + d.allot) 0

/-- An allotment in range (R17). -/
def allotOk (a : Nat) : Bool := decide (64 ≤ a) && decide (a ≤ 256) && a % 16 == 0

/-- A role record is read and written, on RC or SO pages (R158, R398). -/
def needRole : Need := ⟨true, true, true, true⟩

/-- A role record's fields are bad (R158). -/
def roleBad (v : Nat) : Bool :=
  bitsOf v 56 8 != 0 || decide (2 ^ 76 ≤ v) || !allotOk (bitsOf v 64 9) || bitsOf v 0 56 % 4 != 0

/-- A role record's value. -/
def roleValue (entry : DWord) (allot prio : Nat) : Nat := entry.toNat % 2 ^ 56 + allot * 2 ^ 64 + prio * 2 ^ 73

/-- No other split of the warp is live. -/
def onlySplit (s : State) : Bool := (s.w.splits ++ s.w.overflow).all (fun p => !p.alive)

/-- The exchange of ROLE: the record's check and steps 3 to 5, which only a warp's one live split takes (R158). Its kept
operands are the record's address and value. -/
def roleTry (s : State) : Res :=
  let va := (argN s 0).toNat
  let v := (argN s 1).toNat + (argN s 2).toNat * 2 ^ 64
  let allot := bitsOf v 64 9
  if roleBad v then trapHere s cOperand 3
  else if !onlySplit s || decide (1024 < quadUsed s s.w.clus s.w.core s.w.quad s.w.id + allot) then .wait s
  else match writeRun s needRole va (natLE (roleValue (s.sp.pc + 4) s.w.allot s.w.prio) 16) with
    | .error (c, a) => trapHere s c a
    | .ok t =>
      let u := { t with
        w := { t.w with allot := allot, prio := bitsOf v 73 3 }
        sp := { t.sp with sig := 0, wbase := 0, sfloor := 0, pc := BitVec.ofNat 64 (bitsOf v 0 56) } }
      .jump (wildRegs u u.sp.active ((List.range (allot - 64)).map (fun j => 64 + j)))

/-- The warp has one live split, which holds every lane that has neither ended nor been stranded (R158). -/
def soleSplit (s : State) : Bool := onlySplit s && s.sp.active == ~~~(s.w.strand ||| s.w.exited)

def execRole (a : BitVec 6) (s : State) : Out :=
  runW (.role a) (fun again s =>
    if again then roleTry s
    else once s (fun s =>
      if s.crew.dispatch then trapOpen s cProt
      else if s.sp.depth ≠ 0 then trapHere s cOperand 1
      else if !soleSplit s then trapHere s cOperand 2
      else match readRecord s needRole 16 (kget s a.toNat).toNat 16 with
        | .error (c, v) => trapHere s c v
        | .ok bs => roleTry (keepArgs s [kget s a.toNat, BitVec.ofNat 64 (recNat bs 0 8), BitVec.ofNat 64 (recNat bs 8 8)]))) s

/-- The focused warp's place in its crew given up: higher WARPs move down, its arrivals and cursors leave (R159, R198). -/
def leaveCrew (s : State) : State :=
  let id := s.w.id
  { s with
    warps := s.warps.map (fun w => if w.crew = s.crew.id && decide (s.w.index < w.index) then { w with index := w.index - 1 } else w)
    crew := { s.crew with
      nwarp := s.crew.nwarp - 1
      bars := s.crew.bars.map (fun b => { b with arrived := serase b.arrived id })
      rings := s.crew.rings.map (fun r => { r with cursors := serase r.cursors id }) } }

/-- What a change of membership brings about in the focused crew: barriers and collectives judged again (R160, R189). -/
def membershipChanged (s : State) : State := settleCopies (judgeBarriers s)

/-- The focused warp moved from its crew to another, which becomes the crew in focus (R159, R198). -/
def joinCrew (s : State) (target : Crew) : State :=
  let t := leaveCrew s
  let old := t.crew
  let left := membershipChanged { t with w := { t.w with crew := target.id }, crew := old }
  let target := (left.crews.find? (fun c => c.id == target.id)).getD target
  let u := { left with
    crews := insertCrew left.crew (left.crews.filter (fun c => c.id != target.id))
    crew := { target with
      nwarp := target.nwarp + 1
      rings := target.rings.map (fun r => if r.bound then { r with cursors := sset 0 r.cursors s.w.id r.rel } else r) }
    w := { left.w with index := target.nwarp } }
  membershipChanged u

/-- CJOIN's target: a crew of the same launch in the same cluster, other than the warp's own, that has started (R159;
log 82). -/
def joinTarget (s : State) (v : DWord) : Option Crew :=
  s.crews.find? (fun c => c.ctx == s.crew.ctx && c.launch == s.crew.launch && c.clus == s.crew.clus && !c.dispatch &&
    (c.state == .running || c.state == .parked) && c.number.setWidth 64 == v)

/-- The warp's crew has one warp: live warps are counted, since an ended one has left it (R159; log 82). -/
def aloneInCrew (s : State) : Bool := decide ((members s).length ≤ 1)

def execCjoin (d a : BitVec 6) (s : State) : Out :=
  run (.cjoin d a) (fun s => once s (fun s =>
    if s.crew.dispatch then trapOpen s cProt
    else match joinTarget s (kget s a.toNat) with
      | none => .ok (kset s d.toNat 0)
      | some c =>
        if 32 ≤ c.nwarp || aloneInCrew s then .ok (kset s d.toNat 0)
        else .ok (kset (joinCrew s c) d.toNat 1))) s

/-- Allotments of a cluster's crews in its tile slice, sorted by address (R379). -/
def insertRange (x : Nat × Nat) : List (Nat × Nat) → List (Nat × Nat)
  | [] => [x]
  | y :: t => if x.1 ≤ y.1 then x :: y :: t else y :: insertRange x t

def crewRanges (s : State) (clus : Nat) : List (Nat × Nat) :=
  ((s.allCrews.filter (fun c => c.clus == clus && !c.dispatch && c.cmsize != 0)).map (fun c => (c.cmbase, c.cmbase + c.cmsize))).foldl
    (fun acc x => insertRange x acc) []

/-- The gaps between sorted ranges, from an address to an end: base and size. -/
def gapsFrom (lo hi : Nat) : List (Nat × Nat) → List (Nat × Nat)
  | [] => [(lo, hi - lo)]
  | r :: t => (lo, r.1 - lo) :: gapsFrom (max lo r.2) hi t

/-- The first of the largest gaps. -/
def largestGap : List (Nat × Nat) → Nat × Nat
  | [] => (0, 0)
  | [g] => g
  | g :: t => let h := largestGap t; if g.2 < h.2 then h else g

/-- Where a crew's memory of some size goes: the lowest address of the largest free gap, if it holds the size (R379). -/
def placeMemory (s : State) (clus size : Nat) : Option Nat :=
  let g := largestGap (gapsFrom (sliceBase clus) (sliceBase clus + 0x400000) (crewRanges s clus))
  if size ≤ g.2 then some g.1 else none

/-- The launch of the focused crew changed. -/
def onLaunch (s : State) (id : Nat) (f : Launch → Launch) : State :=
  { s with ctx := { s.ctx with launches := s.ctx.launches.map (fun l => if l.id = id then f l else l) } }

/-- A launch of the focused context. -/
def launchAt (s : State) (id : Nat) : Option Launch := s.ctx.launches.find? (fun l => l.id == id)

/-- CLEAVE's new crew of one (R159). -/
def cleaveCrew (s : State) (base : Nat) : State :=
  let (id, s1) := freshId s
  let number := ((launchAt s s.crew.launch).map (fun l => l.nextNumber)).getD 0
  let fresh : Crew := { Crew.blank with
    id := id, live := true, ctx := s.crew.ctx, clus := s.crew.clus, launch := s.crew.launch
    number := BitVec.ofNat 32 number, nwarp := 0, cmbase := base, flog := s.crew.flog, handler := s.crew.handler
    budget := s.crew.budget, state := .running }
  joinCrew (onLaunch s1 s.crew.launch (fun l => { l with nextNumber := l.nextNumber + 1 })) fresh

/-- CLEAVE: it writes 0 too where the new crew's memory, of size 0, finds no place, by the model's choice (R159, R379;
log 102). -/
def execCleave (d : BitVec 6) (s : State) : Out :=
  run (.cleave d) (fun s => once s (fun s =>
    if s.crew.dispatch then trapOpen s cProt
    else if aloneInCrew s then .ok (kset s d.toNat 0)
    else match placeMemory s s.crew.clus 0 with
      | none => .ok (kset s d.toNat 0)
      | some base => .ok (kset (cleaveCrew s base) d.toNat 1))) s

/-- A barrier of the focused crew. -/
def barAt (s : State) (n : Nat) : Barrier := s.crew.bars.getD n Barrier.blank

/-- Lanes of the issuing warp pending at a barrier (R160). -/
def pendingAt (s : State) (n : Nat) : Mask := sget 0 (barAt s n).arrived s.w.id

/-- The arrival of some lanes with an expected count, all at once, so that lanes past the count are of the same phase
(R160; log 82). What precedes it precedes the phase's end (R162). -/
def arrive (s : State) (n e : Nat) (m : Mask) : State :=
  judgeBarriers { (takePast s).2 with crew := { s.crew with bars := s.crew.bars.mapIdx (fun i b =>
    if i = n then { b with arrived := sset 0 b.arrived s.w.id (sget 0 b.arrived s.w.id ||| m)
                           expect := some (b.expect.getD e)
                           pasts := addPast { pastNow s with lanes := m } b.pasts } else b) } }

/-- BARA and BARS: the checks of an arrival, the count's range first, then what follows it (R160; log 82). -/
def arriveThen (i : Instr) (a b : BitVec 6) (f : State → Res) (s : State) : Res :=
  let e := (kget s b.toNat).toNat
  let x := barAt s a.toNat
  if s.crew.dispatch then trapOpen s cProt
  else if 1024 < e then trapWord s i
  else if pendingAt s a.toNat &&& partMask s ≠ 0 || (x.expect.map (fun v => v != e)).getD false then
    trapHere s cOperand a.toNat
  else f (arrive (keepArgs s []) a.toNat e (partMask s))

/-- The wait of BARW and BARS: while some lane that took part is pending (R161). At its return what preceded the end of the
phase that those lanes arrived in last happens before what the split accesses next (R162, R297; log 82). -/
def barWait (n : Nat) (s : State) : Res :=
  if pendingAt s n &&& argLanes s ≠ 0 then .wait s else .ok (acquire s ((barAt s n).after s.w.id (argLanes s)))

def execBara (a b : BitVec 6) (s : State) : Out :=
  run (.bara a b) (fun s => once s (arriveThen (.bara a b) a b .ok)) s

def execBarw (a b : BitVec 6) (s : State) : Out :=
  runW (.barw a b) (fun again s =>
    if again then barWait a.toNat s
    else once s (fun s => if s.crew.dispatch then trapOpen s cProt else barWait a.toNat (keepArgs s []))) s

def execBars (a b : BitVec 6) (s : State) : Out :=
  runW (.bars a b) (fun again s =>
    if again then barWait a.toNat s else once s (arriveThen (.bars a b) a b (barWait a.toNat))) s

end Sys2Proof.Machine
end

