-- ==== Sys2Proof/Machine/CrossLane.lean ====
section
/-! DEFINITION. Cross-lane instructions: they read and write only participating lanes of the issuing split
(05 R135 to R140). -/

namespace Sys2Proof.Machine

/-- The kinds of SHFL (R136). -/
inductive ShflOp where
  | from_ | rot | rotn | xor
  deriving DecidableEq, Repr

/-- The source lane of lane l, or none where the count makes it invalid (R136). -/
def shflSource (op : ShflOp) (l v : Nat) : Option Nat :=
  match op with
  | .from_ => if v > 31 then none else some v
  | .rot => some ((l + v) % 32)
  | .rotn => some ((l + 32 - v % 32) % 32)
  | .xor => if v > 31 then none else some (l ^^^ v)

/-- SHFL: an invalid source gives 0 and makes the lane fail the guard (R136). -/
def shflBody (op : ShflOp) (d a b : BitVec 6) (s : State) : Res :=
  let part := partMask s
  .ok (perLane s (fun l r =>
    let src := (shflSource op l (xget s l b.toNat).toNat).filter (fun k => part.getLsbD k)
    match src with
    | some k => xset r l d.toNat (xget s k a.toNat)
    | none => psetLane (xset r l d.toNat 0) (modeGuard s.w.mode) l (!modeSense s.w.mode)))

def execShflFrom (d a b : BitVec 6) (l : BitVec 4) (s : State) : Out := run (.shflFrom d a b l) (shflBody .from_ d a b) s
def execShflRot (d a b : BitVec 6) (l : BitVec 4) (s : State) : Out := run (.shflRot d a b l) (shflBody .rot d a b) s
def execShflRotn (d a b : BitVec 6) (l : BitVec 4) (s : State) : Out := run (.shflRotn d a b l) (shflBody .rotn d a b) s
def execShflXor (d a b : BitVec 6) (l : BitVec 4) (s : State) : Out := run (.shflXor d a b l) (shflBody .xor d a b) s

/-- Participating lanes in which a predicate holds. -/
def votes (s : State) (a : BitVec 6) : Mask := predMask s.w a.toNat &&& partMask s

/-- The quorum of R137: threshold 0 asks for every participating lane. -/
def quorumHolds (t : DWord) (n p : Nat) : Bool := if t = 0 then n == p else decide (t.toNat ≤ n)

def execVoteQuorum (d a b : BitVec 6) (l : BitVec 4) (s : State) : Out :=
  run (.voteQuorum d a b l) (fun s => .ok (pset s d.toNat
    (if quorumHolds (kget s b.toNat) (laneCount (votes s a)) (laneCount (partMask s)) then allLanes else 0))) s

def execVoteUnan (d a : BitVec 6) (l : BitVec 4) (s : State) : Out :=
  run (.voteUnan d a l) (fun s => .ok (pset s d.toNat
    (if votes s a = 0 || votes s a = partMask s then allLanes else 0))) s

def execVoteMask (d a : BitVec 6) (l : BitVec 4) (s : State) : Out :=
  run (.voteMask d a l) (fun s => once s (fun s => .ok (kset s d.toNat ((votes s a).setWidth 64)))) s

def execVoteCount (d a : BitVec 6) (l : BitVec 4) (s : State) : Out :=
  run (.voteCount d a l) (fun s => once s (fun s => .ok (kset s d.toNat (BitVec.ofNat 64 (laneCount (votes s a)))))) s

/-- MODE.TYPE is f32. -/
def isF32 (s : State) : Bool := modeType s.w.mode == 0x6

/-- The values of the participating lanes as integers of MODE.TYPE, in ascending lane order. -/
def laneInts (s : State) (a : BitVec 6) : List Int :=
  (lanesOf (partMask s)).map (fun l => signedOf (typeSigned (modeType s.w.mode)) 32 (xget s l a.toNat).toNat)

/-- The codes of the participating lanes, in ascending lane order. -/
def laneCodes (s : State) (a : BitVec 6) : List Nat := (lanesOf (partMask s)).map (fun l => (xget s l a.toNat).toNat)

/-- The sum of R138 in f32: exact, NaN beside any NaN, NV when both infinities are present, a zero sum's sign as a sum
rounded with RNE gives it. -/
def sumF32 (cs : List Nat) : Nat × BitVec 5 :=
  let vs := cs.map (decodeF .f32)
  let both := vs.any (fun v => v == .inf false) && vs.any (fun v => v == .inf true)
  if both then (Fmt.f32.nanCode, flNV)
  else
    let v := match vs with
      | [] => FV.fin false 0 0
      | v :: t => t.foldl (fun acc x => (fvAdd 0 acc x).1) v
    roundTo 0 false .f32 0 v

/-- The extreme of some integers. -/
def extremeInt (isMax : Bool) : List Int → Int
  | [] => 0
  | v :: t => t.foldl (fun acc x => if isMax then (if acc < x then x else acc) else (if x < acc then x else acc)) v

/-- The extreme of some f32 codes under R111, without flushing. -/
def extremeF32 (isMax : Bool) : List Nat → Nat
  | [] => 0
  | c :: t => t.foldl (fun acc x => fminmax isMax false .f32 acc x) (if (v32' c).isNan then Fmt.f32.nanCode else c)
where
  v32' (c : Nat) : FV := decodeF .f32 c

/-- A 64-bit register from an integer. -/
def k64 (v : Int) : DWord := BitVec.ofInt 64 v

def execRedxAdd (d a : BitVec 6) (l : BitVec 4) (s : State) : Out :=
  run (.redxAdd d a l) (fun s => once s (fun s =>
    if isF32 s then
      let r := sumF32 (laneCodes s a)
      .ok (orFlags (kset s d.toNat (BitVec.ofNat 64 r.1)) r.2)
    else .ok (kset s d.toNat (k64 ((laneInts s a).foldl (· + ·) 0))))) s

/-- REDX.MIN and MAX (R138). -/
def redxExtreme (isMax : Bool) (d a : BitVec 6) (s : State) : Res :=
  once s (fun s =>
    if isF32 s then .ok (kset s d.toNat (BitVec.ofNat 64 (extremeF32 isMax (laneCodes s a))))
    else .ok (kset s d.toNat (k64 (extremeInt isMax (laneInts s a)))))

def execRedxMin (d a : BitVec 6) (l : BitVec 4) (s : State) : Out := run (.redxMin d a l) (redxExtreme false d a) s
def execRedxMax (d a : BitVec 6) (l : BitVec 4) (s : State) : Out := run (.redxMax d a l) (redxExtreme true d a) s

/-- The lowest lane that holds a code; under f32 a NaN extreme names the lowest lane of all (R138). -/
def holder (s : State) (a : BitVec 6) (code : Nat) : Nat :=
  ((lanesOf (partMask s)).find? (fun l => (xget s l a.toNat).toNat == code)).getD (lowestLane (partMask s))

/-- ARGMX: the extreme value and the lowest lane that holds it (R138). -/
def argmx (isMax : Bool) (d a : BitVec 6) (s : State) : Res :=
  once s (fun s =>
    let v := if isF32 s then extremeF32 isMax (laneCodes s a) else wrapInt 32 (extremeInt isMax (laneInts s a))
    let n := if isF32 s && (decodeF .f32 v).isNan then lowestLane (partMask s) else holder s a v
    .ok (kset s d.toNat (BitVec.ofNat 64 (v + n * 2 ^ 32))))

def execArgmxMax (d a : BitVec 6) (l : BitVec 4) (s : State) : Out := run (.argmxMax d a l) (argmx true d a) s
def execArgmxMin (d a : BitVec 6) (l : BitVec 4) (s : State) : Out := run (.argmxMin d a l) (argmx false d a) s

/-- The lanes of P a scan gathers for lane l (R139). -/
def scanLanes (s : State) (incl : Bool) (l : Nat) : List Nat :=
  (lanesOf (partMask s)).filter (fun m => if incl then decide (m ≤ l) else decide (m < l))

/-- SCAN.ADD: each lane's sum fitted (R93, R139). -/
def scanAdd (incl : Bool) (d a : BitVec 6) (s : State) : Res :=
  let sg := typeSigned (modeType s.w.mode)
  lanes32 d.toNat (fun l => BitVec.ofNat 32 (fit (modeSat s.w.mode) sg 32
    ((scanLanes s incl l).foldl (fun acc m => acc + signedOf sg 32 (xget s m a.toNat).toNat) 0))) s

/-- SCAN.MAX and MIN (R139). -/
def scanExtreme (isMax : Bool) (d a : BitVec 6) (s : State) : Res :=
  let sg := typeSigned (modeType s.w.mode)
  lanes32 d.toNat (fun l => BitVec.ofNat 32 (wrapInt 32 (extremeInt isMax
    ((scanLanes s true l).map (fun m => signedOf sg 32 (xget s m a.toNat).toNat))))) s

def execScanAddIncl (d a : BitVec 6) (l : BitVec 4) (s : State) : Out := run (.scanAddIncl d a l) (scanAdd true d a) s
def execScanAddExcl (d a : BitVec 6) (l : BitVec 4) (s : State) : Out := run (.scanAddExcl d a l) (scanAdd false d a) s
def execScanMax (d a : BitVec 6) (l : BitVec 4) (s : State) : Out := run (.scanMax d a l) (scanExtreme true d a) s
def execScanMin (d a : BitVec 6) (l : BitVec 4) (s : State) : Out := run (.scanMin d a l) (scanExtreme false d a) s

/-- The group descriptor of a lane: LEAD, SIZE and RANK (R140). -/
def matchDesc (s : State) (a : BitVec 6) (l : Nat) : Nat :=
  let e := (lanesOf (partMask s)).filter (fun m => xget s m a.toNat == xget s l a.toNat)
  e.headD 0 + e.length * 2 ^ 5 + (e.filter (fun m => decide (m < l))).length * 2 ^ 11

def execMatchLanes (d a : BitVec 6) (l : BitVec 4) (s : State) : Out :=
  run (.matchLanes d a l) (fun s => lanes32 d.toNat (fun k => BitVec.ofNat 32 (matchDesc s a k)) s) s

def execX2k (d a b : BitVec 6) (l : BitVec 4) (s : State) : Out :=
  run (.x2k d a b l) (fun s => once s (fun s => .ok (kset s d.toNat
    (if (partMask s).getLsbD b.toNat then (xget s b.toNat a.toNat).setWidth 64 else 0)))) s

end Sys2Proof.Machine
end

