-- ==== Sys2Proof/Machine/DispatchQueue.lean ====
section
/-! DEFINITION. Work items and dispatch warps: DISPQ, QEND and the forming of a dispatch warp (05 R150 to R152). -/

namespace Sys2Proof.Machine

/-- A callee table entry as an agent reads it: its entry PC, a multiple of 4, and allotment; none where it is empty (R89,
R241; log 83). Its bytes [15:10] are not looked at: the spec names no check of them (log 105). -/
def calleeEntry (r : Reader) (s : State) (table : DWord) (n : Nat) : Except (Byte × Nat) (Option (DWord × Nat)) :=
  if table = 0 then .ok none
  else match readRecordBy r s needR 1 (table.toNat + 16 * n) 16 with
    | .error e => .error e
    | .ok bs =>
      if recNat bs 0 8 = 0 then .ok none else .ok (some (aligned (BitVec.ofNat 64 (recNat bs 0 8)), recNat bs 8 2))

/-- The callee table of the focused warp's launch. -/
def calleeTable (s : State) : DWord := ((launchAt s s.w.launch).map (fun l => l.record.callees)).getD 0

/-- The check of one lane's callee index: the cause and TRAPV it raises. The spec gives DISPQ's checks at execution no
order: ILLEGAL in a dispatch warp comes first, then the lanes one after another, from the lowest, each with its index above
63 before its table entry (R150; log 97). -/
def dispqCheck (s : State) (a l : Nat) : Option (Byte × Nat) :=
  let n := (xget s l a).toNat
  if 63 < n then some (cOperand, n)
  else match calleeEntry (laneReader s) s (calleeTable s) n with
    | .error e => some e
    | .ok none => some (cOperand, n)
    | .ok (some _) => none

/-- Items of a callee's queue of the focused cluster (R150). -/
def queueOf (s : State) (ctx launch callee : Nat) : List Item :=
  s.clus.items.filter (fun i => i.ctx == ctx && i.launch == launch && i.callee == callee)

/-- A lane's item put into its queue if it has room: the machine and the lanes still to be queued (R150). -/
def enqueueLane (a : Nat) (p : State × Mask) (l : Nat) : State × Mask :=
  let s := p.1
  let n := (xget s l a).toNat
  if 512 ≤ (queueOf s s.ctx.id s.w.launch n).length then p
  else
    ({ s with clus := { s.clus with items := s.clus.items ++
      [{ ctx := s.ctx.id, launch := s.w.launch, callee := n, regs := (List.range 8).map (xget s l),
         handle := { warp := s.w.id, lane := l } }] } }, p.2 &&& ~~~laneBit l)

/-- A lane's item has not ended: it is queued, or in a dispatch warp. -/
def itemOpen (s : State) (l : Nat) : Bool :=
  let h : ReturnHandle := { warp := s.w.id, lane := l }
  s.clus.items.any (fun i => i.handle == h) ||
    s.allWarps.any (fun w => w.handles.zipIdx.any (fun x => x.1 == h && !(w.exited ||| w.strand).getLsbD x.2))

/-- DISPQ's judgement: lanes join their queues as there is room, and the split goes on when every item has ended
(R150). The kept operand holds the lanes still to be queued. -/
def dispqTry (a : Nat) (s : State) : Res :=
  let todo := (argN s 0).setWidth 32 &&& s.sp.active
  let (t, rest) := (lanesOf todo).foldl (enqueueLane a) (s, todo)
  let u := { t with sp := { t.sp with args := [t.sp.args.headD 0, rest.setWidth 64] } }
  if rest = 0 && (lanesOf (argLanes u)).all (fun l => !itemOpen u l) then .ok u else .wait u

def execDispq (a : BitVec 6) (s : State) : Out :=
  runW (.dispq a) (fun again s =>
    if again then dispqTry a.toNat s
    else once s (fun s =>
      if s.crew.dispatch then .trap cIllegal (wordOf (.dispq a)) s.sp.pc s
      else match (lanesOf (partMask s)).findSome? (dispqCheck s a.toNat) with
        | some (c, v) => trapHere s c v
        | none => dispqTry a.toNat (keepArgs s [(partMask s).setWidth 64]))) s

/-- Results put into x0 to x7 of a lane, in the window of the split that holds it (R150). -/
def Warp.deliver (w : Warp) (lane : Nat) (vals : List Word) : Warp :=
  match (w.splits ++ w.overflow).find? (fun p => p.active.getLsbD lane) with
  | none => w
  | some p => vals.zipIdx.foldl (fun v x => physSet v (physKey v lane (p.wbase + x.2)) x.1) w

/-- A lane of a dispatch warp ends its item (R152). -/
def endItem (s : State) (l : Nat) : State :=
  match s.w.handles[l]? with
  | none => s
  | some h =>
    let vals := (List.range 8).map (xget s l)
    { s with warps := s.warps.map (fun w => if w.id = h.warp then w.deliver h.lane vals else w) }

def execQend (s : State) : Out :=
  run .qend (fun s => once s (fun s =>
    if !s.crew.dispatch then .trap cIllegal (wordOf .qend) s.sp.pc s
    else
      let m := partMask s
      .jump (rejudge (advance (leaveLanes ((lanesOf m).foldl endItem s) m)) none))) s

/-- The fullest queue of a launch, the lowest callee among equals (R151): callee and length. -/
def fullestQueue (s : State) (ctx launch : Nat) : Nat × Nat :=
  (List.range 64).foldl (fun best n =>
    let k := (queueOf s ctx launch n).length
    if best.2 < k then (n, k) else best) (0, 0)

/-- The dispatch warp of some items in a slot (R151). -/
def dispatchWarp (s : State) (l : Launch) (d : DispSlot) (id crew callee : Nat) (entry : DWord) (allot : Nat)
    (items : List Item) : Warp :=
  let m : Mask := BitVec.ofNat 32 (2 ^ items.length - 1)
  let w0 : Warp := { Warp.blank with
    id := id, live := true, clus := d.clus, core := d.core, quad := d.quad, place := d.place, ctx := s.ctx.id
    launch := l.id, crew := crew, mode := l.record.mode, savedMode := l.record.mode, exited := ~~~m, spillb := d.spillb
    spillsz := l.record.spillsz, allot := allot, prio := l.prio, handles := items.map (fun i => i.handle)
    splits := [{ Split.blank with state := .ready, pc := entry, active := m, entry := m, age := s.nextAge,
                                  lastIssue := s.cycle.toNat }] }
  let w1 := { w0 with k := sset 0 (sset 0 [] 1 l.record.param) 2 (BitVec.ofNat 64 callee) }
  items.zipIdx.foldl (fun w x => x.1.regs.zipIdx.foldl (fun v y => physSet v (physKey v x.2 y.2) y.1) w) w1

/-- The hidden crew of a dispatch warp (R151, log 1). It has no budget: the spec gives the record's BUDGET to crews and does
not say what a dispatch warp's is (R255; log 105). -/
def dispatchCrew (s : State) (l : Launch) (id : Nat) : Crew :=
  { Crew.blank with
    id := id, live := true, dispatch := true, ctx := s.ctx.id, clus := s.clus.id, launch := l.id
    number := 0xFFFFFFFF, nwarp := 1, flog := l.record.flog, handler := l.record.handler, state := .running }

/-- What precedes a launch's LAUNCH happens before every access of a warp of it, those of the collectives it joins and the
tasks it posts among them (R242, R297, R309). -/
def launchedAfter (s : State) (l : Launch) (warp : Nat) : State :=
  receive s l.past.toList (.lanes (.warp warp) (BitVec.allOnes 32) :: [.cr, .cw, .mr, .mw].map (.later warp))

/-- A dispatch warp formed in a free slot of a launch, in the focused cluster, or none (R151). -/
def formIn (s : State) (l : Launch) : Option State :=
  match l.dispSlots.find? (fun d => d.clus == s.clus.id && !d.busy) with
  | none => none
  | some d =>
    let (callee, n) := fullestQueue s s.ctx.id l.id
    if n = 0 then none
    else match calleeEntry (.device (dieOf s.clus.id)) s l.record.callees callee with
      | .ok (some (entry, allot)) =>
        if !allotOk allot || decide (1024 < quadUsed s d.clus d.core d.quad 0 - d.allot + allot) then none
        else
          let items := (queueOf s s.ctx.id l.id callee).take 32
          let w := dispatchWarp s l d s.nextId (s.nextId + 1) callee entry allot items
          let t := onLaunch s l.id (fun x => { x with dispSlots := x.dispSlots.map (fun e =>
            if e = d then { e with busy := true } else e) })
          some (launchedAfter { t with
            warps := insertWarp w t.warps, crews := insertCrew (dispatchCrew s l (s.nextId + 1)) t.crews
            clus := { t.clus with items := t.clus.items.filter (fun i => !items.contains i) }
            nextId := s.nextId + 2, nextAge := s.nextAge + 1 } l s.nextId)
      | _ => none

/-- The first launch for which a dispatch warp forms, by context. -/
def formFirst (s : State) (clus : Nat) : List (Nat × Nat) → Option State
  | [] => none
  | (c, l) :: t =>
    let u := focusOn s 0 c clus
    match (launchAt u l).bind (formIn u) with
    | some v => some v
    | none => formFirst s clus t

/-- DISPATCH_WARP_FORM (R151), in the first cluster that can form a warp. -/
def dispatchWarpFormEvent (s : State) : Option State :=
  (pack s).cluss.findSome? (fun k =>
    formFirst s k.id (s.allCtxs.flatMap (fun c => c.launches.map (fun l => (c.id, l.id)))))

def execDispatchWarpForm (s : State) : Out := event (dispatchWarpFormEvent s) s

end Sys2Proof.Machine
end

