-- ==== Sys2Proof/Machine/Neighbour.lean ====
section
/-! DEFINITION. Neighbour lists: descriptors, geometry and the instructions (07 R225 to R231). Coordinates are compared and
subtracted exactly, as integers: an s32 coordinate as it is, an f32 one in units of 2^-149. -/

namespace Sys2Proof.Machine

/-- Flags of a descriptor (R225). -/
def nlInt (d : List Byte) : Bool := bitsOf (recByte d 12) 0 1 == 1
def nlBlock (d : List Byte) : Bool := bitsOf (recByte d 12) 1 1 == 1
def nlPeriodic (d : List Byte) (a : Nat) : Bool := bitsOf (recByte d 12) (2 + a) 1 == 1
def nlStaleTrap (d : List Byte) : Bool := bitsOf (recByte d 12) 5 1 == 1
def nlCount (d : List Byte) : Nat := recNat d 8 4
def nlCells (d : List Byte) (a : Nat) : Nat := recNat d (36 + 2 * a) 2
def nlMaxp (d : List Byte) : Nat := recNat d 72 4

/-- An f32 code in units of 2^-149; none for a NaN or an infinity. -/
def f32Units (c : Nat) : Option Int :=
  match decodeF .f32 c with
  | .fin neg m e => let v : Int := m * 2 ^ (e + 149).toNat; some (if neg then -v else v)
  | _ => none

/-- A coordinate or length of a descriptor's mode (R225). -/
def nlValue (d : List Byte) (c : Nat) : Option Int := if nlInt d then some (signedOf true 32 c) else f32Units c

/-- Box length of an axis. -/
def nlLength (d : List Byte) (a : Nat) : Option Int := nlValue d (recNat d (16 + 4 * a) 4)

/-- The least integer whose square is at least n. -/
def ceilSqrt (n : Nat) : Nat := if n = 0 then 0 else (n - 1).sqrt + 1

/-- w of R226: rc + s, or the least integer with w^2 ≥ CUT; none where rc or s is refused itself. -/
def nlReach (d : List Byte) : Option Int :=
  if nlInt d then some (ceilSqrt (recNat d 28 4))
  else match f32Units (recNat d 28 4), f32Units (recNat d 32 4) with
    | some rc, some sk => if 0 < rc ∧ 0 ≤ sk then some (rc + sk) else none
    | _, _ => none

/-- The cells of an axis are outside their range (R225). -/
def nlCellsBad (d : List Byte) (a : Nat) : Bool := nlCells d a == 0 || decide (256 < nlCells d a)

/-- The box conditions of an axis fail (R226). They are judged on values within their ranges (log 45). -/
def nlAxisBad (d : List Byte) (a : Nat) : Bool :=
  match nlLength d a, nlReach d with
  | some l, some w => decide (l ≤ 0) ||
      (!nlCellsBad d a && (decide (l < nlCells d a * w) || (nlPeriodic d a && decide (l < 2 * w))))
  | some l, none => decide (l ≤ 0)
  | none, _ => true

/-- Bytes the work area must hold (R226). -/
def nlWork (d : List Byte) : Nat := 256 * nlCells d 0 * nlCells d 1 * nlCells d 2 + 20 * nlCount d + 4096

/-- A value is none or not positive; none or negative. -/
def notPositive : Option Int → Bool
  | some v => decide (v ≤ 0)
  | none => true
def notNatural : Option Int → Bool
  | some v => decide (v < 0)
  | none => true

/-- NLBIN's checks of a descriptor, by byte offset (R225, R226). -/
def nlChecks (d : List Byte) : List (Nat × Bool) :=
  [(0, recNat d 0 8 % 16 != 0),
   (8, nlCount d == 0 || decide ((if nlBlock d then 1048560 else 2 ^ 24) < nlCount d)),
   (12, decide (64 ≤ recByte d 12) || (nlBlock d && !nlInt d)),
   (13, decide (2 < recByte d 13))] ++ reservedBytes d 14 2 ++
  [0, 1, 2].map (fun a => (16 + 4 * a, nlAxisBad d a)) ++
  [(28, !nlInt d && notPositive (f32Units (recNat d 28 4))),
   (32, if nlInt d then recNat d 32 4 != 0 else notNatural (f32Units (recNat d 32 4)))] ++
  [0, 1, 2].map (fun a => (36 + 2 * a, nlCellsBad d a)) ++ reservedBytes d 42 6 ++
  [(48, recNat d 48 8 % 256 != 0), (56, decide (recNat d 56 8 < nlWork d)),
   (64, nlBlock d && recNat d 64 8 % 16 != 0)] ++ reservedBytes d 88 40

/-- Status bits of R231. -/
def nsBinned : BitVec 8 := 1
def nsBusy : BitVec 8 := 2
def nsDone : BitVec 8 := 4
def nsOvf : BitVec 8 := 8
def nsLovf : BitVec 8 := 16
def nsStale : BitVec 8 := 32
def nsBadpt : BitVec 8 := 64
def nsFault : BitVec 8 := 128

/-- What the engines keep for a descriptor no operation has named. -/
def NleStat.blank (ctx : Nat) (addr : DWord) : NleStat :=
  { ctx := ctx, addr := addr, flags := 0, cause := 0, maxocc := 0, npair := 0, geom := [], snapshot := [], work := [],
    since := 0, own := 0, job := 0, resume := 0, held := none }

/-- The engines' record of a descriptor. -/
def statOf (s : State) (ctx : Nat) (addr : DWord) : NleStat :=
  (s.nleStats.find? (fun x => x.ctx == ctx && x.addr == addr)).getD (NleStat.blank ctx addr)

/-- The engines' record of a descriptor changed. -/
def onStat (s : State) (ctx : Nat) (addr : DWord) (f : NleStat → NleStat) : State :=
  { s with nleStats := f (statOf s ctx addr) :: s.nleStats.filter (fun x => !(x.ctx == ctx && x.addr == addr)) }

/-- Operations that name a descriptor, in the order they reached the engines (R227). -/
def opsOf (s : State) (ctx : Nat) (addr : DWord) : List NleOp :=
  s.nles.filter (fun o => o.ctx == ctx && o.addr == addr && o.outcome.isNone)

/-- Status bits [7:0] as they stand (R231). -/
def nlFlags (s : State) (ctx : Nat) (addr : DWord) : BitVec 8 :=
  (statOf s ctx addr).flags ||| (if (opsOf s ctx addr).isEmpty then 0 else nsBusy)

/-- The live status word (R231). -/
def nlWord (s : State) (ctx : Nat) (addr : DWord) : DWord :=
  let x := statOf s ctx addr
  BitVec.ofNat 64 ((nlFlags s ctx addr).toNat + min 255 x.maxocc * 2 ^ 8 + x.cause.toNat * 2 ^ 16 +
    x.npair % 2 ^ 32 * 2 ^ 32)

/-- An operation's accesses, attributed to the warp that issued it as those of a collective (R231). -/
def NleOp.job (o : NleOp) : Job :=
  { path := .copy, id := o.at_, posters := [(o.warp, o.at_)], clus := none, die := dieOf o.clus, ctx := o.ctx }

/-- An operation is in an engine of a die. -/
def NleOp.inEngine (o : NleOp) (die e : Nat) : Bool := o.engine == some e && dieOf o.clus == die && o.outcome.isNone

/-- The lowest free engine of a die's two (R2). -/
def freeNle (s : State) (die : Nat) : Option Nat := [0, 1].find? (fun e => !s.nles.any (fun o => o.inEngine die e))

/-- An operation may enter an engine: it is the first on its descriptor, no fault holds it, its context runs, and an engine
of its die is free (R2, R227). -/
def mayBegin (s : State) (o : NleOp) : Bool :=
  o.engine.isNone && o.fault.isNone && ((opsOf s o.ctx o.addr).head?.map (fun x => x.id)) == some o.id &&
    (s.ctxs ++ [s.ctx]).any (fun c => c.live && c.id == o.ctx && c.place == .running) && (freeNle s (dieOf o.clus)).isSome

/-- An operation enters an engine; where it begins, what it replaces in the status word is cleared (R227, R229). -/
def enterEngine (s : State) (o : NleOp) : State :=
  let t := { s with nles := s.nles.map (fun x =>
    if x.id = o.id then { x with started := true, engine := freeNle s (dieOf o.clus) } else x) }
  if o.started then t
  else onStat t o.ctx o.addr (fun x =>
    if o.kind = .bin then { x with flags := x.flags &&& ~~~(nsBinned ||| nsBadpt ||| nsOvf) }
    else { x with flags := x.flags &&& ~~~(nsDone ||| nsLovf ||| nsStale), npair := 0, job := o.at_ })

/-- Operations enter the engines that are free, in the order in which they reached them. The bound is their number. -/
def enterEngines (s : State) : Nat → State
  | 0 => s
  | n + 1 => match s.nles.find? (mayBegin s) with
    | none => s
    | some o => enterEngines (enterEngine s o) n

/-- The operations that can begin do. -/
def beginOps (s : State) : State := enterEngines s s.nles.length

/-- An operation handed to the engines of the issuing cluster's die (R227). CAUSE is kept until then (R231). -/
def submitOp (s : State) (kind : NleKind) (ring : Nat) (addr : DWord) (d : List Byte) : State :=
  let (id, r) := freshId s
  let (at', t) := stamp r
  let o : NleOp := { id := id, kind := kind, ctx := s.ctx.id, crew := s.crew.id, warp := s.w.id, clus := s.w.clus
                     ring := ring, addr := addr, desc := d, at_ := at', engine := none, started := false, todo := none
                     resume := none, fault := none, outcome := none }
  beginOps (onStat { t with nles := t.nles ++ [o] } s.ctx.id addr
    (fun x => if x.flags &&& nsFault = 0 then { x with cause := 0 } else x))

def execNlbin (a : BitVec 6) (s : State) : Out :=
  run (.nlbin a) (fun s => once s (fun s =>
    match readRecord s needRec 64 (kget s a.toNat).toNat 128 with
    | .error (c, v) => trapHere s c v
    | .ok d => match badOffset (nlChecks d) with
      | some o => trapHere s cOperand o
      | none => .ok (submitOp s .bin 0 (kget s a.toNat) d))) s

/-- NLPAIR with STALETRAP waits for the engine's check; the kept operand is the operation's id (R229). -/
def nlpairTry (s : State) : Res :=
  let id := (argN s 0).toNat
  match s.nles.find? (fun o => o.id == id) with
  | none => .ok s
  | some o => match o.outcome with
    | some (c, v) => .trap c v s.sp.pc { s with nles := s.nles.filter (fun x => x.id != id) }
    | none => if o.todo.isSome then .ok s else .wait s

def execNlpair (a r : BitVec 6) (s : State) : Out :=
  runW (.nlpair a r) (fun again s =>
    if again then nlpairTry s
    else once s (fun s =>
      match readRecord s needRec 64 (kget s a.toNat).toNat 128 with
      | .error (c, v) => trapHere s c v
      | .ok d =>
        if nlBlock d then .ok (submitOp s .table 0 (kget s a.toNat) d)
        else if s.crew.dispatch then trapOpen s cProt
        else if !(ringAt s r.toNat).bound then trapHere s cOperand 1
        else
          let t := submitOp s .stream r.toNat (kget s a.toNat) d
          if nlStaleTrap d then nlpairTry (keepArgs t [BitVec.ofNat 64 s.nextId]) else .ok t)) s

/-- A descriptor's held fault met by an NLSTAT: raised, or, once delivered, the engine restarted, unless the cause is still
present, which raises it anew (R231, R399). -/
def nlstatFault (s : State) (addr : DWord) (f : HeldFault) (next : State → Res) : Res :=
  if f.delivered && !stillMissing s f then
    next (beginOps { onStat s s.ctx.id addr (fun x => { x with held := none }) with
      nles := s.nles.map (fun o => if o.ctx = s.ctx.id && o.addr = addr then { o with fault := none } else o) })
  else .trap f.cause f.addr s.sp.pc
    (if deliverable s then onStat s s.ctx.id addr (fun x =>
      { x with flags := x.flags &&& ~~~nsFault,
               held := if f.cause = cPage then some { f with delivered := true } else none })
     else s)

/-- An NLSTAT that shows DONE has observed the writes of the latest stream or table (R231). -/
def nlstatMem (s : State) (addr : DWord) : State :=
  if (nlFlags s s.ctx.id addr) &&& nsDone = 0 then s else observeJob s (statOf s s.ctx.id addr).job .cw

def execNlstat (d a : BitVec 6) (s : State) : Out :=
  run (.nlstat d a) (fun s => once s (fun s =>
    let addr := kget s a.toNat
    let fin : State → Res := fun t => .ok (kset (nlstatMem t addr) d.toNat (nlWord t t.ctx.id addr))
    match (statOf s s.ctx.id addr).held with
    | some f => nlstatFault s addr f fin
    | none => fin s)) s

end Sys2Proof.Machine
end

