-- ==== Sys2Proof/Machine/TileMath.lean ====
section
/-! DEFINITION. What a tile task computes: operands, masks, scales, the order of sums, conversions (02 R60 to R62;
07 R212 to R216). -/

namespace Sys2Proof.Machine

/-- A function that may fail, on every element of a list. -/
def mapE {α β ε : Type} (f : α → Except ε β) : List α → Except ε (List β)
  | [] => .ok []
  | a :: t => match f a with
    | .error e => .error e
    | .ok b => match mapE f t with
      | .error e => .error e
      | .ok bs => .ok (b :: bs)

/-- A fault an engine meets: its cause and address (R222). -/
abbrev Faulty (α : Type) := Except (Byte × Nat) α

/-- A task's accesses, attributed to the warp that posted it (R181). -/
def Task.job (s : State) (t : Task) : Job :=
  { path := .matrix, id := t.at_, posters := [(t.warp, t.at_)], clus := some s.clus.id, die := dieOf s.clus.id, ctx := t.ctx }

/-- A task as a reader of memory (R221). -/
def tileReader (s : State) (t : Task) : Reader := .job (t.job s)

/-- Fields of a tile-task record (R210). -/
def Task.kind (t : Task) : Nat := recByte t.record 0
def Task.accz (t : Task) : Bool := recByte t.record 1 % 2 == 1
def Task.cbar (t : Task) : Option Nat := if 128 ≤ recByte t.record 2 then none else some (recByte t.record 2 % 64)
def Task.waits (t : Task) : List (Nat × Nat) :=
  (List.range (recByte t.record 3)).map (fun e => (recByte t.record (4 + e), recNat t.record (16 + 4 * e) 4))
def Task.m0 (t : Task) : Int := recInt t.record 32 4
def Task.n0 (t : Task) : Int := recInt t.record 36 4
def Task.k0 (t : Task) : Int := recInt t.record 40 4
def Task.klen (t : Task) : Nat := recNat t.record 44 4
def Task.mt (t : Task) : Nat := recNat t.record 48 2
def Task.nt (t : Task) : Nat := recNat t.record 50 2
def Task.batch (t : Task) : Nat := recNat t.record 52 2
def Task.kspec (t : Task) : Nat := recNat t.record 56 8
def Task.kbyte (t : Task) (i : Nat) : Nat := recByte t.record (56 + i)

/-- The index vector of an operand; BATCH is omitted for rank 1 and 2 (R212). -/
def Task.ix (t : Task) (x : Tensor) (i j : Int) : List Int := [i, j, if 3 ≤ x.rank then (t.batch : Int) else 0, 0]

/-- Group size, values kept, and groups per metadata word of an SMMA pattern (R214). -/
def pruning (p : Nat) : Nat × Nat × Nat :=
  match p with
  | 1 => (4, 2, 4)
  | 2 => (4, 1, 4)
  | _ => (8, 4, 1)

/-- The indices a metadata field names, slot 0 first, and whether its unused bits are 0 (R214). -/
def metaFields (p v : Nat) : List Nat × Bool :=
  match p with
  | 1 => ([bitsOf v 0 2, bitsOf v 2 2], true)
  | 2 => ([bitsOf v 0 2], bitsOf v 2 2 == 0)
  | _ => ([bitsOf v 0 3, bitsOf v 3 3, bitsOf v 6 3, bitsOf v 9 3], bitsOf v 12 4 == 0)

/-- Numbers rise strictly. -/
def rising : List Nat → Bool
  | a :: b :: t => decide (a < b) && rising (b :: t)
  | _ => true

/-- The kept indices of group g of row m, none where its metadata word lies outside TMETA (R214). -/
def metaOf (s : State) (t : Task) (m : Nat) (g : Int) : Faulty (Option (List Nat)) :=
  let p := t.kbyte 0
  let w : Int := (pruning p).2.2
  let ix := t.ix t.tmeta (g.fdiv w) (t.m0 + m)
  if !t.tmeta.inside ix then .ok none
  else match t.tmeta.readBits (tileReader s t) s ix with
    | .error e => .error e
    | .ok v =>
      let f := metaFields p (if p = 3 then v else bitsOf v (4 * (g.emod w).toNat) 4)
      if f.2 && rising f.1 then .ok (some f.1) else .error (cOperand, 0)

/-- A block of a BMMA table is present (R215). -/
def blockPresent (tab : List Byte) (r c : Nat) : Bool :=
  let rb := recNat tab 0 2
  let cb := recNat tab 2 2
  decide (r < rb) && decide (c < cb) &&
    (if recByte tab 4 = 0 then bitsOf (recByte tab (16 + (r * cb + c) / 8)) ((r * cb + c) % 8) 1 == 1
     else (List.range (recNat tab 8 4)).any (fun e => recNat tab (16 + 4 * e) 2 == r && recNat tab (18 + 4 * e) 2 == c))

/-- A BMMA table masks the element that block (r, c) of MASKON on holds (R215). -/
def Task.blocked (t : Task) (on r c : Nat) : Bool :=
  match t.table with
  | some tab => t.kind == 3 && recByte tab 5 == on && !blockPresent tab r c
  | none => false

/-- An element of a tensor as an agent reads it, none where it lies outside. -/
def element (r : Reader) (s : State) (x : Tensor) (ix : List Int) : Faulty (Option FV) :=
  if !x.inside ix then .ok none
  else match x.readBits r s ix with
    | .error e => .error e
    | .ok v => .ok (some (elemValue x.fmt v))

/-- A[m][k], none where it is masked (R212, R214, R215). -/
def elemA (s : State) (t : Task) (m : Nat) (k : Int) : Faulty (Option FV) :=
  if t.kind = 2 then
    let (gs, h, _) := pruning (t.kbyte 0)
    let g := k.fdiv gs
    match metaOf s t m g with
    | .error e => .error e
    | .ok none => .ok none
    | .ok (some is) => match is.findIdx? (fun i => i == (k.emod gs).toNat) with
      | none => .ok none
      | some j => element (tileReader s t) s t.ta (t.ix t.ta (g * h + j) (t.m0 + m))
  else if t.blocked 1 (m / 16) ((k - t.k0).toNat / 16) then .ok none
  else element (tileReader s t) s t.ta (t.ix t.ta k (t.m0 + m))

/-- B[k][n], none where it is masked. -/
def elemB (s : State) (t : Task) (k : Int) (n : Nat) : Faulty (Option FV) :=
  if t.blocked 2 ((k - t.k0).toNat / 16) (n / 16) then .ok none
  else element (tileReader s t) s t.tb (t.ix t.tb k (t.n0 + n))

/-- The product of A[m][k] and B[k][n], none where one is masked. A masked element is never read (R62). -/
def productAt (s : State) (t : Task) (m n : Nat) (k : Int) : Faulty (Option FV) :=
  if !t.tb.inside (t.ix t.tb k (t.n0 + n)) || t.blocked 2 ((k - t.k0).toNat / 16) (n / 16) then .ok none
  else match elemA s t m k with
    | .error e => .error e
    | .ok none => .ok none
    | .ok (some a) => match elemB s t k n with
      | .error e => .error e
      | .ok none => .ok none
      | .ok (some b) => .ok (some (fvMul a b).1)

/-- The logical extent of a tensor along K: TA of an SMMA task holds the kept values only (R214). -/
def Task.extentA (t : Task) : Nat :=
  if t.kind = 2 then t.ta.dim 0 * (pruning (t.kbyte 0)).1 / (pruning (t.kbyte 0)).2.1 else t.ta.dim 0

/-- The scale of block j of a row or column of an operand with some extent along K; none where none exists (R60, R61). -/
def scaleAt (r : Reader) (s : State) (x : Tensor) (extent : Nat) (ix : List Int) (j : Int) : Faulty (Option FV) :=
  if x.scaleFmt = 0 then .ok (some (.fin false 1 0))
  else if j < 0 || decide ((extent : Int) ≤ 32 * j) || !x.inside (0 :: ix.drop 1) then .ok none
  else match engineRead r s needR (x.scaleAddr extent (x.rowOf ix) (32 * j).toNat) (scaleSize x.scaleFmt) with
    | .error e => .error e
    | .ok v => .ok (some (scaleValue x.scaleFmt v))

/-- Values that exist, summed exactly, with the sign of an exact zero as R61 gives it. -/
def sumExact : List FV → FV
  | [] => .fin false 0 0
  | a :: t => t.foldl (fun x y => (fvAdd 0 x y).1) a

/-- An f32 rounding of the sum's order (R61): nearest even, no flush. -/
def round32 (v : FV) : FV := decodeF .f32 (roundTo 0x045 false .f32 0 v).1

/-- One step of R61: block j added to the accumulator, with whether SCNAN is set. -/
def blockStep (s : State) (t : Task) (m n : Nat) (acc : FV × Bool) (j : Int) : Faulty (FV × Bool) :=
  let ks := ((List.range 32).map (fun (i : Nat) => 32 * j + (i : Int))).filter
    (fun k => decide (t.k0 ≤ k) && decide (k < t.k0 + t.klen))
  match mapE (productAt s t m n) ks with
  | .error e => .error e
  | .ok ps =>
    match scaleAt (tileReader s t) s t.ta t.extentA (t.ix t.ta 0 (t.m0 + m)) j with
    | .error e => .error e
    | .ok sa => match scaleAt (tileReader s t) s t.tb (t.tb.dim 0) (t.ix t.tb 0 (t.n0 + n)) j with
      | .error e => .error e
      | .ok sb =>
        let products := ps.filterMap id
        let one : FV := .fin false 1 0
        if products.isEmpty then
          .ok (acc.1, acc.2 || (sa.map FV.isNan).getD false || (sb.map FV.isNan).getD false)
        else
          let p := round32 (fvMul (fvMul (sumExact products) (sa.getD one)).1 (sb.getD one)).1
          .ok (round32 (fvAdd 0 acc.1 p).1, acc.2)

/-- The blocks of K in order (R61). -/
def blockSteps (s : State) (t : Task) (m n : Nat) : FV × Bool → List Int → Faulty (FV × Bool)
  | acc, [] => .ok acc
  | acc, j :: js => match blockStep s t m n acc j with
    | .error e => .error e
    | .ok a => blockSteps s t m n a js

/-- The blocks that meet the K range, ascending. -/
def Task.blocks (t : Task) : List Int :=
  let lo := t.k0.fdiv 32
  let hi := (t.k0 + t.klen - 1).fdiv 32
  (List.range (hi - lo + 1).toNat).map (fun (i : Nat) => lo + (i : Int))

/-- An output of a task: where it goes and its code; the status bits it adds (R211). -/
structure TileOut where
  ix : List Int
  code : Nat
  flags : Nat
  deriving DecidableEq, Repr

/-- Status bits of R211. -/
def stNan : Nat := 16
def stScnan : Nat := 32
def stOvf : Nat := 64

/-- A code of an output format is a NaN. -/
def codeNan (fmt c : Nat) : Bool := typeFloat fmt && (decodeF (fmtOfType fmt) c).isNan

/-- A value converted into an output format, with the status bits it gives (R211, R212, R216). -/
def tileOut (s : State) (fmt rnd : Nat) (ix : List Int) (v : FV) (scnan : Bool) : TileOut :=
  let r := convert (ovtNat s) false fmt rnd v
  let lost := if typeFloat fmt then r.2 &&& flOF != 0 else r.2 &&& flNV != 0
  { ix := ix, code := r.1
    flags := (if codeNan fmt r.1 then stNan else 0) + (if scnan then stScnan else 0) + (if lost then stOvf else 0) }

/-- The initial accumulator (R212). -/
def initialAcc (s : State) (t : Task) (m n : Nat) : Faulty FV :=
  if t.accz then .ok (.fin false 0 0)
  else match element (tileReader s t) s t.tc (t.ix t.tc (t.n0 + n) (t.m0 + m)) with
    | .error e => .error e
    | .ok v => .ok (v.getD (.fin false 0 0))

/-- An output element of MMA, SMMA or BMMA; none where it is neither computed nor written (R212, R215). -/
def mmaElement (s : State) (t : Task) (m n : Nat) : Faulty (Option TileOut) :=
  let ix := t.ix t.td (t.n0 + n) (t.m0 + m)
  if !t.td.inside ix || t.blocked 0 (m / 16) (n / 16) then .ok none
  else match initialAcc s t m n with
    | .error e => .error e
    | .ok a => match blockSteps s t m n (a, false) t.blocks with
      | .error e => .error e
      | .ok (acc, scnan) => .ok (some (tileOut s t.td.fmt 0 ix acc scnan))

/-- An output element of TCVT (R216). -/
def cvtElement (s : State) (t : Task) (m n : Nat) : Faulty (Option TileOut) :=
  let src := t.ix t.ta (t.n0 + n) (t.m0 + m)
  let dst := if t.kbyte 2 = 1 then t.ix t.td (t.m0 + m) (t.n0 + n) else t.ix t.td (t.n0 + n) (t.m0 + m)
  if !t.ta.inside src || !t.td.inside dst then .ok none
  else match element (tileReader s t) s t.ta src with
    | .error e => .error e
    | .ok none => .ok none
    | .ok (some v) =>
      if t.kbyte 0 = 0 then .ok (some (tileOut s t.td.fmt (t.kbyte 1) dst v false))
      else
        let scale := t.ta.scaleAddr (t.ta.dim 0) (t.ta.rowOf src) (at_ src 0)
        match engineRead (tileReader s t) s needR scale (scaleSize t.ta.scaleFmt) with
        | .error e => .error e
        | .ok c => .ok (some (tileOut s t.td.fmt (t.kbyte 1) dst (fvMul v (scaleValue t.ta.scaleFmt c)).1 false))

/-- The rows of the group a task computes next (R218). -/
def Task.group (t : Task) : List Nat := (List.range 16).map (fun i => t.row + i) |>.filter (fun m => decide (m < t.mt))

/-- The groups of an SMMA task's K range (R214). -/
def Task.groups (t : Task) : List Int :=
  let g := (pruning (t.kbyte 0)).1
  (List.range (t.klen / g)).map (fun (i : Nat) => t.k0.fdiv g + (i : Int))

/-- A row's metadata, every group of which must be well formed, whatever is masked or written (R214). -/
def checkMeta (s : State) (t : Task) (m : Nat) : Faulty (List (Option (List Nat))) :=
  if t.kind = 2 then mapE (metaOf s t m) t.groups else .ok []

/-- The outputs of a row. -/
def rowOutputs (s : State) (t : Task) (m : Nat) : Faulty (List (Option TileOut)) :=
  match checkMeta s t m with
  | .error e => .error e
  | .ok _ => mapE (fun n => if t.kind = 4 then cvtElement s t m n else mmaElement s t m n) (List.range t.nt)

/-- The outputs of a row group. -/
def groupOutputs (s : State) (t : Task) : Faulty (List TileOut) :=
  match mapE (rowOutputs s t) t.group with
  | .error e => .error e
  | .ok rows => .ok (rows.flatMap (fun r => r.filterMap id))

/-- The memory keys of a group's outputs, or the first fault (R222). -/
def outputKeys (s : State) (t : Task) (outs : List TileOut) : Faulty (List (Nat × TileOut)) :=
  mapE (fun o => match checkAccess s needW (t.td.addr o.ix) (elemSize t.td.fmt) with
    | .bad c => .error (c, t.td.addr o.ix)
    | .ok key => .ok (key, o)) outs

/-- The addresses of the bytes of a tensor's last element lie below this one. -/
def Tensor.top (x : Tensor) : Nat := x.addr ((List.range 4).map (fun d => ((x.dim d - 1 : Nat) : Int))) + elemSize x.fmt

/-- Some bytes from an address on are bytes of a tensor's elements (R209). -/
def Tensor.meets (x : Tensor) (a size : Nat) : Bool :=
  decide (a < x.top) && decide (x.base < a + size) &&
    (List.range (x.dim 3)).any (fun i3 => (List.range (x.dim 2)).any (fun i2 => (List.range (x.dim 1)).any (fun i1 =>
      let row := x.addr [0, i1, i2, i3]
      decide (a < row + elemOff x.fmt (x.dim 0 - 1) + elemSize x.fmt) && decide (row < a + size))))

/-- An output element's bytes are also bytes of TA, or of TB where the kind reads it: its value is unpredictable (R213). -/
def Task.clashes (t : Task) (o : TileOut) : Bool :=
  let a := t.td.addr o.ix
  t.ta.meets a (elemSize t.td.fmt) || (t.kind != 4 && t.tb.meets a (elemSize t.td.fmt))

/-- The codes a group writes, those of clashing elements free (R213; log 80). -/
def groupCodes (s : State) (t : Task) (ks : List (Nat × TileOut)) : List (Nat × TileOut) :=
  ks.zipIdx.map (fun x => (x.1.1, if t.clashes x.1.2 then
    { x.1.2 with code := bitsOf (Config.freeDWord (s.env.free + x.2)).toNat 0 (typeWidth t.td.fmt) } else x.1.2))

/-- A group's outputs written; sectors they cover whole lose their poison (R218, R384). -/
def writeOutputs (s : State) (t : Task) (ks : List (Nat × TileOut)) : State :=
  let size := elemSize t.td.fmt
  let covered : Nat → Bool := fun b => ks.any (fun x => decide (x.1 ≤ b) && decide (b < x.1 + size))
  let s1 := clearSectors { s with env := { s.env with free := s.env.free + ks.length } }
    (fun c => (List.range 32).all (fun i => covered (c * 32 + i)))
  (groupCodes s t ks).foldl (fun u x =>
    putElem u (jobWrite (t.job s) (uoAt s (t.td.addr x.2.ix)) none 0) t.td.fmt x.1
      (elemBit t.td.fmt (at_ x.2.ix 0)) x.2.code false) s1

/-- The bytes a BMMA table takes, from its header (R215). -/
def tableBytes (h : List Byte) : Nat :=
  16 + (if recByte h 4 = 0 then (recNat h 0 2 * recNat h 2 2 + 7) / 8 else 4 * recNat h 8 4)

/-- The block table of a BMMA task, read when it starts; none for the other kinds (R215, R398). -/
def readTable (s : State) (t : Task) : Faulty (Option (List Byte)) :=
  if t.kind ≠ 3 then .ok none
  else match readRecordBy (tileReader s t) s needRecPage 16 t.kspec 16 with
    | .error e => .error e
    | .ok h =>
      if 2 < recByte h 5 || 1 < recByte h 4 || recNat h 6 2 != 0 || recNat h 12 4 != 0 then .error (cOperand, t.kspec)
      else match readRecordBy (tileReader s t) s needRecPage 16 t.kspec (tableBytes h) with
        | .error e => .error e
        | .ok bs => .ok (some bs)

/-- A row group computed and its places checked, so that nothing is written before every read and place is good: the
task with its table, and the writes (R215, R218, R222). -/
def groupWork (s : State) (t : Task) : Faulty (Task × List (Nat × TileOut)) :=
  match (if t.kind = 3 && t.table.isNone then readTable s t else .ok t.table) with
  | .error e => .error e
  | .ok tab =>
    let u := { t with table := tab }
    match groupOutputs s u with
    | .error e => .error e
    | .ok outs => match outputKeys s u outs with
      | .error e => .error e
      | .ok ks => .ok (u, ks)

end Sys2Proof.Machine
end

