-- ==== Sys2Proof/Machine/Tasks.lean ====
section
/-! DEFINITION. Tile tasks: posting, waiting, polling, status, and the scheduler's and engines' events
(07 R210 to R223; 16 R339). -/

namespace Sys2Proof.Machine

/-- Holds (R218). -/
def countHolds (c t : Nat) : Bool := decide (((c : Int) - t).emod (2 ^ 32) < 2 ^ 31)

/-- The key of completion count n of a cluster (R218). -/
def countKey (clus n : Nat) : Nat := clus * 64 + n

/-- A completion count of the focused context. -/
def countAt (s : State) (clus n : Nat) : Nat := (sget 0 s.ctx.counts (countKey clus n)).toNat

/-- The failed tasks' records of a barrier, oldest first (R222). -/
def marksAt (s : State) (clus n : Nat) : List DWord := sget [] s.ctx.failed (countKey clus n)

/-- The tensors a record names by kind, with those it does not read left out (R212 to R217). -/
def neededTensors (bs : List Byte) : List Nat :=
  match recByte bs 0 with
  | 4 => [recByte bs 28, recByte bs 31]
  | k => [recByte bs 28, recByte bs 29, recByte bs 31] ++ (if recByte bs 1 % 2 = 1 then [] else [recByte bs 30]) ++
      (if k = 2 then [recByte bs 57] else [])

/-- A record breaks row 1 of R217's table. -/
def taskBad1 (bs : List Byte) : Bool :=
  let k := recByte bs 0
  k == 0 || decide (4 < k) || decide (1 < recByte bs 1) || bitsOf (recByte bs 2) 6 1 == 1 || decide (3 < recByte bs 3) ||
    [4, 5, 6].any (fun e => decide (63 < recByte bs e)) || recByte bs 7 != 0 || recNat bs 54 2 != 0 ||
    (k == 1 && recNat bs 56 8 != 0)

/-- Formats of TA and TB, and of TC and TD (R213). -/
def fmtAB (f : Nat) : Bool := [0x7, 0x8, 0x9, 0xA, 0xB, 0xE, 0xF].contains f
def fmtCD (f : Nat) : Bool := [0x6, 0x7, 0x8].contains f

/-- An A or B operand is accepted (R213). -/
def Tensor.operandOk (t : Tensor) : Bool := fmtAB t.fmt && decide (2 ≤ t.rank) && t.cform == 0

/-- A record's operands break row 3 of R217's table. -/
def taskBad3 (k : Nat) (accz : Bool) (t : Task) : Bool :=
  t.td.scaleFmt != 0 || t.td.cform != 0 || t.ta.cform != 0 ||
    (k != 4 && (!t.ta.operandOk || !t.tb.operandOk || !fmtCD t.td.fmt ||
      (!accz && (!fmtCD t.tc.fmt || t.tc.cform != 0)))) || (k == 2 && t.tmeta.cform != 0)

/-- Row 4. -/
def taskBad4 (t : Task) : Bool :=
  let g := (pruning (t.kbyte 0)).1
  t.mt == 0 || decide (256 < t.mt) || t.nt == 0 || decide (256 < t.nt) ||
    (t.kind != 4 && (t.klen == 0 || decide (2 ^ 24 < t.klen))) ||
    (t.kind == 2 && decide (1 ≤ t.kbyte 0 ∧ t.kbyte 0 ≤ 3) && (t.k0.emod g != 0 || t.klen % g != 0))

/-- Row 5 (R214 to R216; log 19). A reserved byte that is not 0, and an SCMODE above 1, of a known kind count here (log 94). -/
def taskBad5 (t : Task) : Bool :=
  match t.kind with
  | 2 => t.kbyte 0 == 0 || decide (3 < t.kbyte 0) || t.tmeta.fmt != 0x3 || !(t.tmeta.rank == 2 || t.tmeta.rank == 3) ||
      recNat t.record 58 6 != 0
  | 3 => t.kspec % 16 != 0
  | 4 => decide (1 < t.kbyte 0) || (t.kbyte 0 == 1 && t.ta.scaleFmt == 0) || decide (4 < t.kbyte 1) ||
      decide (1 < t.kbyte 2) || recNat t.record 59 5 != 0
  | _ => false

/-- STATUS.ROWS of a record, and whether its STATE is DISCARDED (R211). -/
def statusRows (bs : List Byte) : Nat := recNat bs 10 2
def wasDiscarded (bs : List Byte) : Bool := recByte bs 8 % 16 == 7

/-- Row 6. -/
def taskBad6 (t : Task) : Bool :=
  wasDiscarded t.record && (decide (t.mt < statusRows t.record) ||
    (statusRows t.record % 16 != 0 && statusRows t.record != t.mt))

/-- A tensor that a record does not read. -/
def Tensor.unused : Tensor :=
  { base := 0, dims := [1, 1, 1, 1], strides := [0, 0, 0], sbase := 0, fmt := 6, rank := 1, scaleFmt := 0, group := 0,
    cform := 0, strict := false }

/-- The queue entry a record makes, with its tensors as they stand (R217). -/
def captureTask (s : State) (addr : DWord) (bs : List Byte) : Task :=
  let at' : Nat → Tensor := fun o => (tensorAt s (recByte bs o)).getD Tensor.unused
  { addr := addr, record := bs, ta := at' 28, tb := at' 29, tc := at' 30, td := at' 31, tmeta := at' 57, ctx := s.ctx.id
    crew := s.crew.id, warp := s.w.id, at_ := s.writes, state := .queued, row := if wasDiscarded bs then statusRows bs else 0, engine := 0
    flags := 0, table := none, fault := none }

/-- The number of the lowest row of R217's table a record breaks. -/
def taskRefusal (s : State) (t : Task) : Option Nat :=
  if taskBad1 t.record then some 1
  else if (neededTensors t.record).any (fun n => (tensorAt s n).isNone) then some 2
  else if taskBad3 t.kind t.accz t then some 3
  else if taskBad4 t then some 4
  else if taskBad5 t then some 5
  else if taskBad6 t then some 6
  else none

/-- A task waits for its entries (R218). -/
def taskReady (s : State) (t : Task) : Bool := t.waits.all (fun e => countHolds (countAt s s.clus.id e.1) e.2)

/-- The status word of a task in some state (R211). -/
def statusWord (state : Nat) (t : Task) (cause : Nat) : Nat :=
  state + t.flags + cause * 2 ^ 8 + t.row * 2 ^ 16 + t.engine * 2 ^ 32

/-- The status word written to a record; a write that its page does not admit is dropped (R217, R218; log 53). The record
takes it when the task is queued, done, failed or discarded; what lies between shows through TSTAT alone, where the spec
does not say when the record follows (log 105). -/
def writeStatus (s : State) (t : Task) (state cause : Nat) : State :=
  match jobRun s (t.job s) none 0 needW (t.addr.toNat + 8) (natLE (statusWord state t cause) 8) with
  | .ok u => u
  | .error _ => s

/-- A task's live status (R211, R220). -/
def liveStatus (s : State) (t : Task) : Nat :=
  let st := match t.state with
    | .queued | .waiting => if taskReady s t then 1 else 2
    | .running => 3
    | .suspended => 4
  statusWord st t 0

/-- TQPUT's last steps: a queue entry taken, or the wait for one (R217). -/
def tqputTry (addr : DWord) (bs : List Byte) (s : State) : Res :=
  let t := captureTask s addr bs
  match taskRefusal s t with
  | some n => trapHere s cOperand n
  | none =>
    if 256 ≤ (s.clus.tasks.filter (fun x => x.ctx == s.ctx.id)).length then .wait s
    else .ok (writeStatus { (stamp s).2 with clus := { s.clus with tasks := s.clus.tasks ++ [t] } } t 1 0)

def execTqput (a : BitVec 6) (s : State) : Out :=
  runW (.tqput a) (fun again s =>
    if again then tqputTry (argN s 0) (argDesc s 1) s
    else once s (fun s => match readRecord s needR 64 (kget s a.toNat).toNat 64 with
      | .error (c, v) => trapHere s c v
      | .ok bs => tqputTry (kget s a.toNat) bs (keepArgs s (kget s a.toNat :: descArgs bs)))) s

/-- A task of the focused cluster's queue changed. -/
def onTask (s : State) (old new : Task) : State :=
  { s with clus := { s.clus with tasks := s.clus.tasks.map (fun t => if t = old then new else t) } }

/-- A suspended task's fault raised: clear of the engine once the trap is delivered (R222, R253, R399). -/
def raiseHeld (s : State) (t : Task) (f : HeldFault) : Res :=
  .trap f.cause f.addr s.sp.pc (onTask s t { t with fault := some { f with delivered := deliverable s } })

/-- The faults of some tasks met in turn by an instruction named for them: raised, or, once delivered, the work set going
again by one that issues; where the cause is still present, that one raises it anew (R222, R399). -/
def meetFaults (s : State) (again : Bool) (next : State → Res) : List Task → Res
  | [] => next s
  | t :: ts => match t.fault with
    | none => meetFaults s again next ts
    | some f =>
      if !f.delivered then raiseHeld s t f
      else if again then meetFaults s again next ts
      else if stillMissing s f then raiseHeld s t f
      else meetFaults (onTask s t { t with state := .queued, fault := none }) again next ts

/-- A task out of the queue. -/
def dropTask (s : State) (t : Task) : State :=
  { s with clus := { s.clus with tasks := s.clus.tasks.filter (fun x => x != t) } }

/-- A task's failure: its status with the cause, and its barrier's mark (R222). -/
def failTask (s : State) (old t : Task) (cause : Byte) : State :=
  let u := writeStatus (dropTask s old) t 6 cause.toNat
  match t.cbar with
  | none => u
  | some n =>
    let key := countKey s.clus.id n
    { u with ctx := { u.ctx with failed := sset [] u.ctx.failed key (sget [] u.ctx.failed key ++ [t.addr]) } }

/-- A queued task depends on a marked barrier (R222). -/
def dependsOnFailure (s : State) (t : Task) : Bool :=
  (t.state == .queued || t.state == .waiting) && t.waits.any (fun e => !(marksAt s s.clus.id e.1).isEmpty)

/-- The queued tasks of the focused context that depend on a marked barrier fail, and then those that depend on these, at
most a number of them (R222). -/
def failDependents (s : State) : Nat → State
  | 0 => s
  | n + 1 => match s.clus.tasks.find? (fun t => t.ctx == s.ctx.id && dependsOnFailure s t) with
    | none => s
    | some t => failDependents (failTask s t t cTaskflt) n

/-- The delivery of a barrier's TASKFLT clears its mark; what depends on a marked barrier has failed by then (R222;
log 78). -/
def clearMark (s : State) (n : Nat) : State :=
  let u := failDependents s s.clus.tasks.length
  { u with ctx := { u.ctx with failed := sset [] u.ctx.failed (countKey s.w.clus n) [] } }

/-- A TWAIT or TPOLL of a barrier: a fail mark raises TASKFLT, a suspended task of the crew its PAGE (R222). -/
def barrierFaults (s : State) (again : Bool) (n : Nat) (next : State → Res) : Res :=
  match marksAt s s.w.clus n with
  | v :: _ =>
    .trap cTaskflt v s.sp.pc
      (if deliverable s then clearMark s n else s)
  | [] => meetFaults s again next (s.clus.tasks.filter (fun t => t.crew == s.crew.id && t.cbar == some n))

/-- The count an instruction waits for holds (R219). -/
def countReached (s : State) (n : Nat) (k : DWord) : Bool := countHolds (countAt s s.w.clus n) (k.toNat % 2 ^ 32)

/-- The warp has observed the completions a count of its cluster stands for (R181, R219). -/
def observeCount (s : State) (n : Nat) : State := observeMem s s.ctx.id (countKey s.w.clus n)

/-- TWAIT's judgement. -/
def twaitTry (n : Nat) (again : Bool) (s : State) : Res :=
  barrierFaults s again n (fun s => if countReached s n (argN s 0) then .ok (observeCount s n) else .wait s)

def execTwait (c b : BitVec 6) (s : State) : Out :=
  runW (.twait c b) (fun again s =>
    if again then twaitTry c.toNat true s else once s (fun s => twaitTry c.toNat false (keepArgs s [kget s b.toNat]))) s

def execTpoll (d c b : BitVec 6) (s : State) : Out :=
  run (.tpoll d c b) (fun s => once s (fun s => barrierFaults s false c.toNat (fun s =>
    if countReached s c.toNat (kget s b.toNat) then .ok (pset (observeCount s c.toNat) d.toNat allLanes)
    else .ok (pset s d.toNat 0)))) s

/-- The youngest queue entry posted from an address (R220). -/
def taskOf (s : State) (addr : DWord) : Option Task :=
  (s.clus.tasks.filter (fun t => t.ctx == s.ctx.id && t.addr == addr)).getLast?

def execTstat (d a : BitVec 6) (s : State) : Out :=
  run (.tstat d a) (fun s => once s (fun s =>
    let addr := kget s a.toNat
    if addr.toNat % 64 ≠ 0 then .trap cAlign addr s.sp.pc s
    else match taskOf s addr with
      | some t =>
        meetFaults s false (fun u => .ok (kset u d.toNat (BitVec.ofNat 64 (liveStatus u ((taskOf u addr).getD t)))))
          (if t.crew = s.crew.id then [t] else [])
      | none =>
        let va := addr.toNat + 8
        match checkAccess s needR va 8 with
        | .bad c => trapHere s c va
        | .ok key => if poisonedRange s key 8 then trapHere s cEccfatal va
                     else .ok (kset s d.toNat (BitVec.ofNat 64 (readAs (statusReader s) s key 8))))) s

/-- The machine with a task of a cluster's queue and its context in focus, or none. -/
def focusTask (s : State) (cluster : Nat) (p : State → Task → Bool) : Option (State × Task) :=
  let q := (findCluster (pack s).cluss cluster).tasks
  (q.find? (fun t => p (focusOn s t.crew t.ctx cluster) t)).map (fun t => (focusOn s t.crew t.ctx cluster, t))

/-- The lowest engine of a cluster that runs no task, tap encoder tasks among them: which free engine takes a task is the
model's choice (R11, R218, R351; log 95). -/
def freeEngine (s : State) (cluster : Nat) : Option Nat :=
  let k := findCluster (pack s).cluss cluster
  (List.range 4).find? (fun e => !k.tasks.any (fun t => t.state == .running && t.engine == e) &&
    !k.encoders.any (fun t => t.engine == e))

/-- A task that may start: queued, its entries hold, and none names a marked barrier (R218, R222). -/
def canStart (s : State) (t : Task) : Bool :=
  (t.state == .queued || t.state == .waiting) && taskReady s t && t.waits.all (fun e => (marksAt s s.clus.id e.1).isEmpty)

/-- The oldest ready task of a cluster starts on a free engine; a BMMA task reads its block table (R218). -/
def startTask (s : State) (cluster : Nat) : Option State :=
  match freeEngine s cluster, focusTask s cluster canStart with
  | some e, some (v, t) =>
    let u := startMem v v.ctx.id t.at_ (t.waits.map (fun w => countKey cluster w.1))
    let tab := match readTable u t with
      | .ok x => x
      | .error _ => none
    some (onTask u t { t with state := .running, engine := e, table := tab })
  | _, _ => none

/-- A task's completion: its status, then its count (R218). -/
def completeTask (s : State) (old t : Task) : State :=
  let u := writeStatus (dropTask s old) t 5 0
  match t.cbar with
  | none => u
  | some n =>
    let key := countKey s.clus.id n
    let v := countMem u (t.job s) key
    { v with ctx := { v.ctx with counts := sset 0 v.ctx.counts key (sget 0 v.ctx.counts key + 1) } }

/-- The status bits of some outputs together. -/
def orFlagsOf (outs : List TileOut) (flags : Nat) : Nat := outs.foldl (fun n o => n ||| o.flags) flags

/-- The running task of an engine. -/
def runningOn (engine : Nat) (_ : State) (t : Task) : Bool := t.state == .running && t.engine == engine

/-- ROW_GROUP_WRITTEN (R218): an engine computes and writes a row group; once the last is written the task completes, in a
step of its own, so that a save may come between (R223, R331). A thermal halt stops the matrix engines (R395). -/
def rowGroupWrittenEvent (cluster engine : Nat) (s : State) : Option State :=
  if s.dev.halted then none
  else match focusTask s cluster (runningOn engine) with
  | none => none
  | some (u, t) =>
    if t.mt ≤ t.row then some (completeTask u t t)
    else match groupWork u t with
      | .error _ => none
      | .ok (t1, ks) =>
        some (onTask (writeOutputs u t1 ks) t
          { t1 with row := min t.mt (t.row + 16), flags := orFlagsOf (ks.map (fun x => x.2)) t.flags })

def execRowGroupWritten (cluster engine : Nat) (s : State) : Out := event (rowGroupWrittenEvent cluster engine s) s

/-- TASK_FAULT (R222): the fault of the task on an engine suspends or fails it; from engine number 4 on, the oldest
queued task that depends on a failed one fails. -/
def taskFaultEvent (cluster engine : Nat) (s : State) : Option State :=
  if 4 ≤ engine then
    match focusTask s cluster dependsOnFailure with
    | some (u, t) => some (failTask u t t cTaskflt)
    | none => none
  else match focusTask s cluster (runningOn engine) with
    | none => none
    | some (u, t) => match groupWork u t with
      | .ok _ => none
      | .error (c, a) =>
        if c = cPage then
          some (onTask u t { t with
            state := .suspended
            fault := some { cause := c, addr := BitVec.ofNat 64 a, slot := 0, delivered := false } })
        else some (failTask u t t c)

def execTaskFault (cluster engine : Nat) (s : State) : Out := event (taskFaultEvent cluster engine s) s

end Sys2Proof.Machine
end

