-- ==== Sys2Proof/Machine/NeighbourEngine.lean ====
section
/-! DEFINITION. What the neighbour-list engines do: binning, the staleness check, the pair stream, block tables and
faults (07 R227 to R231). Binned geometry is the descriptor NLBIN read; MAXP, STALETRAP, BLOCK, BTAB and MASKON are those
NLPAIR read. -/

namespace Sys2Proof.Machine

/-- The words of a point. -/
abbrev Point := Word × Word × Word

/-- A point's word on an axis. -/
def Point.word (p : Point) (a : Nat) : Word := if a = 0 then p.1 else if a = 1 then p.2.1 else p.2.2

/-- A point's coordinate on an axis, none for a NaN or an infinity. -/
def nlCoord (d : List Byte) (p : Point) (a : Nat) : Option Int := nlValue d (p.word a).toNat

/-- The points of a descriptor as an operation reads them (R225, R231). -/
def nlPoints (s : State) (o : NleOp) (d : List Byte) : Faulty (List Point) :=
  match readRecordBy (.job o.job) s needR 1 (recNat d 0 8) (16 * nlCount d) with
  | .error e => .error e
  | .ok bs =>
    let word : Nat → Word := fun o => BitVec.ofNat 32 (recNat bs o 4)
    .ok ((List.range (nlCount d)).map (fun i => (word (16 * i), word (16 * i + 4), word (16 * i + 8))))

/-- A point's cell index on an axis, none for a bad coordinate (R227). -/
def nlCellOn (d : List Byte) (p : Point) (a : Nat) : Option Nat :=
  match nlCoord d p a, nlLength d a with
  | some x, some l => if 0 ≤ x ∧ x < l then some ((x * nlCells d a) / l).toNat else none
  | _, _ => none

/-- A point's cell, axis by axis. -/
def nlCell (d : List Byte) (p : Point) : Option (List Nat) :=
  match nlCellOn d p 0, nlCellOn d p 1, nlCellOn d p 2 with
  | some x, some y, some z => some [x, y, z]
  | _, _, _ => none

/-- c of R228. -/
def cellNumber (d : List Byte) (c : List Nat) : Nat :=
  c.getD 0 0 + nlCells d 0 * (c.getD 1 0 + nlCells d 1 * c.getD 2 0)

/-- The largest occupancy of some cells. -/
def largestCell (cs : List (List Nat)) : Nat := cs.foldl (fun n c => max n (cs.count c)) 0

/-- CURSOR for a place to resume at: its low 32 bits, or 1 where those are 0, so that it is not 0 (R229). -/
def cursorWord (place : Nat) : Nat := if place = 0 then 0 else if place % 2 ^ 32 = 0 then 1 else place % 2 ^ 32

/-- CURSOR as it stands in a descriptor; the value read at issue where it cannot be read. -/
def nlCursor (s : State) (o : NleOp) : Nat :=
  match readRun s needR (o.addr.toNat + 76) 4 with
  | .ok bs => leNat bs
  | .error _ => recNat o.desc 76 4

/-- Where a stream or table goes on: where the last part was cut off, if CURSOR is as that part left it; a CURSOR that
software has written is taken as it is (R229; log 55). -/
def nlPlace (s : State) (o : NleOp) : Nat :=
  let c := nlCursor s o
  let kept := (statOf s o.ctx o.addr).resume
  if c = cursorWord kept then kept else c

/-- A device-written field of a descriptor; a write its page does not admit is dropped (log 53). -/
def nlWrite (s : State) (o : NleOp) (off n v : Nat) : State :=
  match writeRun s needW (o.addr.toNat + off) (natLE v n) with
  | .ok t => t
  | .error _ => s

/-- An operation leaves its engine: STATUS is written, and the next ones begin (R2, R227). -/
def endOp (s : State) (o : NleOp) : State :=
  let t := { s with nles := s.nles.filter (fun x => x.id != o.id) }
  beginOps (nlWrite t o 80 8 (nlWord t o.ctx o.addr).toNat)

/-- An operation changed. -/
def onOp (s : State) (id : Nat) (f : NleOp → NleOp) : State :=
  { s with nles := s.nles.map (fun x => if x.id = id then f x else x) }

/-- The machine with an operation's crew, context and cluster in focus, and the operation, if it may go on: it is in an
engine, no fault holds it, and its context runs. Operations that can enter an engine because others were discarded do so
here (R2, R227, R228). -/
def focusOp (s : State) (id : Nat) (kind : NleKind) : Option (State × NleOp) :=
  let start := beginOps s
  match start.nles.find? (fun o => o.id == id) with
  | none => none
  | some o =>
    let t := focusOn start o.crew o.ctx o.clus
    if o.kind = kind && o.engine.isSome && o.outcome.isNone && o.fault.isNone && t.ctx.place == .running then some (t, o)
    else none

/-- What binning does: the points read, WORK filled with what the engine keeps there (its layout is not stated), and the
result (R227). -/
def binWork (s : State) (o : NleOp) : Faulty State :=
  match nlPoints s o o.desc with
  | .error e => .error e
  | .ok ps =>
    let work := (List.range (nlWork o.desc)).map (fun j => Config.freeByte (s.env.free + j))
    match writeRun s needSpillW (recNat o.desc 48 8) work with
    | .error e => .error e
    | .ok t =>
      let u := { t with env := { t.env with free := t.env.free + nlWork o.desc } }
      let cells := ps.filterMap (nlCell o.desc)
      let n := largestCell cells
      .ok (if cells.length < ps.length then onStat u o.ctx o.addr (fun x => { x with flags := x.flags ||| nsBadpt })
        else nlWrite (onStat u o.ctx o.addr (fun x => { x with
          flags := x.flags ||| nsBinned ||| (if 64 < n then nsOvf else 0)
          maxocc := n, geom := o.desc, snapshot := ps, work := work, since := o.at_, own := s.writes })) o 76 4 0)

/-- NLBIN_COMPLETE (R227). -/
def nlbinCompleteEvent (op : Nat) (s : State) : Option State :=
  match focusOp s op .bin with
  | none => none
  | some (t, o) => match binWork t o with
    | .error _ => none
    | .ok u => some (endOp u o)

def execNlbinComplete (op : Nat) (s : State) : Out := event (nlbinCompleteEvent op s) s

/-- n_a and d_a of a difference: the least image, ties to the smaller n_a (R228). -/
def leastImage (d : List Byte) (a : Nat) (x : Int) : Int × Int :=
  if !nlPeriodic d a then (0, x)
  else
    let l := (nlLength d a).getD 0
    [0, 1].foldl (fun best (n : Int) => if (x + n * l).natAbs < best.2.natAbs then (n, x + n * l) else best) (-1, x - l)

/-- The least images of the difference of two points by axis; none for a coordinate that is no number. -/
def nlDiff (d : List Byte) (p q : Point) : Option (List (Int × Int)) :=
  (List.range 3).foldr (fun a acc => match nlCoord d p a, nlCoord d q a, acc with
    | some x, some y, some t => some (leastImage d a (y - x) :: t)
    | _, _, _ => none) (some [])

/-- A sum of exact squares. -/
def sumSquares (ds : List (Int × Int)) : Nat := ds.foldl (fun n x => n + x.2.natAbs ^ 2) 0

/-- Twice the distance a point may move before it is stale, squared: s in integer units (R229). -/
def nlSkin (d : List Byte) : Nat := if nlInt d then 0 else ((f32Units (recNat d 32 4)).getD 0).natAbs

/-- A point has moved too far from its snapshot (R229). -/
def moved (d : List Byte) (was now : Point) : Bool :=
  match nlDiff d was now with
  | none => true
  | some ds => decide (nlSkin d ^ 2 < 4 * sumSquares ds)

/-- The lowest moved point. -/
def lowestMoved (d : List Byte) (snap now : List Point) : Option Nat :=
  (List.range now.length).find? (fun i => moved d (snap.getD i (0, 0, 0)) (now.getD i (0, 0, 0)))

/-- A value in units of 2^-149 rounded to f32. -/
def unitsF32 (ovt : Nat) (v : Int) : FV := decodeF .f32 (roundTo ovt false .f32 0 (.fin (decide (v < 0)) v.natAbs (-149))).1

/-- DIST2 of a difference, and whether the pair is included (R228). -/
def dist2 (ovt : Nat) (d : List Byte) (ds : List (Int × Int)) : Nat × Bool :=
  if nlInt d then (sumSquares ds % 2 ^ 32, decide (sumSquares ds ≤ recNat d 28 4))
  else
    let sum := ds.foldl (fun acc x => (fvAdd 0 acc (fvMul (unitsF32 ovt x.2) (unitsF32 ovt x.2)).1).1) (.fin false 0 0)
    let code := (roundTo ovt false .f32 0 sum).1
    let rc := decodeF .f32 (recNat d 28 4)
    let top := (roundTo ovt false .f32 0 (fvMul rc rc).1).1
    (code, !fvLt false (decodeF .f32 top) (decodeF .f32 code))

/-- The image code of a difference (R228). -/
def imageCode (ds : List (Int × Int)) : Nat :=
  let code : Nat → Nat := fun a => match (ds.getD a (0, 0)).1 with
    | .ofNat 0 => 0
    | .ofNat _ => 1
    | .negSucc _ => 3
  code 0 + code 1 * 4 + code 2 * 16

/-- A pair record (R228). -/
def pairRecord (i j dist image : Nat) : BitVec 128 := BitVec.ofNat 128 (i + j * 2 ^ 32 + dist * 2 ^ 64 + image * 2 ^ 96)

/-- Two cells are one or one step apart on every axis, wrapping on periodic ones (R228). -/
def nearCells (d : List Byte) (c e : List Nat) : Bool :=
  (List.range 3).all (fun a =>
    let x := c.getD a 0
    let y := e.getD a 0
    let n := nlCells d a
    decide (x ≤ y + 1 ∧ y ≤ x + 1) || (nlPeriodic d a && ((x + 1) % n == y || (y + 1) % n == x)))

/-- A point put before the first of a later cell, or of the same cell with a greater number. -/
def insertCell (x : Nat × Nat) : List (Nat × Nat) → List (Nat × Nat)
  | [] => [x]
  | y :: t => if x.1 < y.1 ∨ x.1 = y.1 ∧ x.2 ≤ y.2 then x :: y :: t else y :: insertCell x t

/-- The candidates of a binned descriptor in the stream's order: each point with every later one of its cell and the
neighbouring cells (R228). -/
def nlCandidates (d : List Byte) (snap : List Point) : List (Nat × Nat) :=
  let cells := snap.map (fun p => (nlCell d p).getD [])
  let order := (cells.zipIdx).foldr (fun c acc => insertCell (cellNumber d c.1, c.2) acc) []
  order.flatMap (fun e => ((List.range snap.length).filter (fun j =>
    decide (e.2 < j) && nearCells d (cells.getD e.2 []) (cells.getD j []))).map (fun j => (e.2, j)))

/-- The record of a candidate that is included (R228). -/
def nlRecord (ovt : Nat) (d : List Byte) (now : List Point) (i j : Nat) : Option (BitVec 128) :=
  match nlDiff d (now.getD i (0, 0, 0)) (now.getD j (0, 0, 0)) with
  | none => none
  | some ds => if (dist2 ovt d ds).2 then some (pairRecord i j (dist2 ovt d ds).1 (imageCode ds)) else none

/-- The pairs of a binned descriptor in the stream's order, each with its candidate's place (R228). -/
def nlPairs (ovt : Nat) (d : List Byte) (snap now : List Point) : List (Nat × BitVec 128) :=
  (nlCandidates d snap).zipIdx.filterMap (fun c => (nlRecord ovt d now c.1.1 c.1.2).map (fun r => (c.2, r)))

/-- The work area is not as binning left it, or something else has written into it since the NLBIN was issued: the pairs of
what follows are unpredictable (R227; log 81). -/
def workChanged (s : State) (x : NleStat) : Bool :=
  match checkRun s needR (recNat x.geom 48 8) x.work.length with
  | .ok ks => gather s ks != x.work ||
      s.late.any (fun e => decide (x.since ≤ e.id) && e.id != x.own && e.bytes.any (fun b => ks.contains b.1))
  | .error _ => false

/-- Unpredictable entries: any number of them, each of any value (R227; log 81). -/
def freeEntries {α : Type} (draw : Nat) (f : Nat → α) : List (Nat × α) :=
  (List.range (Config.freeNat draw)).map (fun i => (i, f (draw + 1 + 2 * i)))

/-- An unpredictable pair record. -/
def freeRecord (draw : Nat) : BitVec 128 := Config.freeDWord (draw + 1) ++ Config.freeDWord draw

/-- What a part of a stream or table delivers: the entries from CURSOR on, MAXP at most, and, where more remain, the place
after the last of them (R229; log 55). -/
def partOf {α : Type} (s : State) (o : NleOp) (xs : List (Nat × α)) : List α × Option Nat :=
  let rest := xs.filter (fun x => decide (nlPlace s o ≤ x.1))
  let n := nlMaxp o.desc
  if n ≠ 0 ∧ n < rest.length then
    ((rest.take n).map (fun x => x.2), some (((rest.take n).getLast?.map (fun x => x.1)).getD 0 + 1))
  else (rest.map (fun x => x.2), none)

/-- The pairs a stream delivers from. -/
def streamPairs (s : State) (x : NleStat) (now : List Point) : List (Nat × BitVec 128) :=
  if workChanged s x then freeEntries s.env.free freeRecord else nlPairs (ovtNat s) x.geom x.snapshot now

/-- Further draws taken. -/
def skipDraws (s : State) (n : Nat) : State := { s with env := { s.env with free := s.env.free + n } }

/-- The reads of the check before a stream: every point, and the snapshot in WORK it is compared with (R229). -/
def checkReads (s : State) (o : NleOp) (x : NleStat) : Faulty (List Point) :=
  match nlPoints s o x.geom with
  | .error e => .error e
  | .ok ps => match checkRun s needR (recNat x.geom 48 8) x.work.length with
    | .error e => .error e
    | .ok _ => .ok ps

/-- The check before a stream, and what is to be delivered (R229): an operation with its pairs, or with the STALE it is
to raise. -/
def streamCheck (s : State) (o : NleOp) : Faulty State :=
  let x := statOf s o.ctx o.addr
  if x.flags &&& nsBinned = 0 then .ok (onOp s o.id (fun y => { y with todo := some [] }))
  else match checkReads s o x with
    | .error e => .error e
    | .ok ps => match lowestMoved x.geom x.snapshot ps with
      | some i =>
        let t := onStat s o.ctx o.addr (fun y => { y with flags := y.flags ||| nsStale })
        .ok (if nlStaleTrap o.desc then
            let u := onOp t o.id (fun y => { y with outcome := some (cStale, BitVec.ofNat 64 i) })
            beginOps (nlWrite u o 80 8 (nlWord u o.ctx o.addr).toNat)
          else onOp t o.id (fun y => { y with todo := some [] }))
      | none =>
        let p := partOf s o (streamPairs s x ps)
        .ok (onOp (skipDraws s (1 + 2 * Config.freeNat s.env.free)) o.id (fun y =>
          { y with todo := some p.1, resume := p.2 }))

/-- The end of a stream or table, or of a part of one: DONE, and LOVF where more remain, with CURSOR telling the place to
resume at, or 0 (R229). -/
def endStream (s : State) (o : NleOp) : State :=
  let t := onStat s o.ctx o.addr (fun x => { x with
    flags := x.flags ||| nsDone ||| (if o.resume.isSome then nsLovf else 0), resume := o.resume.getD 0 })
  endOp (nlWrite t o 76 4 (cursorWord (o.resume.getD 0))) o

/-- The bytes of a slot: records, then copies of the terminator (R229). -/
def slotRecords (recs : List (BitVec 128)) (per status : Nat) : List Byte :=
  let term := pairRecord 0xFFFFFFFF 0xFFFFFFFF status 0
  (recs ++ List.replicate (per - recs.length) term).flatMap (fun r => natLE r.toNat 16)

/-- The stream is the first of its ring and may reserve a slot, every earlier one being filled (R228). -/
def streamReady (s : State) (o : NleOp) : Bool :=
  let x := ringAt s o.ring
  x.bound && x.hasRoom && x.fil == x.res && (s.nles.find? (streamsInto s o.ring)).map (fun y => y.id) == some o.id

/-- Bytes of a slot written by an operation, chunk by chunk (R190, R231). -/
def writeSlot (s : State) (o : NleOp) (slot base : Nat) (bs : List Byte) : State :=
  (List.range ((bs.length + 4095) / 4096)).foldl (fun t j =>
    storeKey (jobWrite o.job false (some (o.crew, o.ring, slot)) j) t (base + 4096 * j) ((bs.drop (4096 * j)).take 4096)) s

/-- One slot of a stream filled (R228, R229; log 55). -/
def fillSlot (s : State) (o : NleOp) (recs : List (BitVec 128)) : State :=
  let x := ringAt s o.ring
  let per := x.slotBytes / 16
  let last := decide (recs.length < per)
  let status := ((statOf s o.ctx o.addr).flags ||| nsDone ||| (if o.resume.isSome then nsLovf else 0)).toNat
  let bs := slotRecords (recs.take per) per status
  let t := writeSlot s o x.res (x.slotAddr x.res) bs
  let u := onRing t o.ring (fun y => { y with res := y.res + 1, fil := y.fil + 1 })
  let v := onStat u o.ctx o.addr (fun y => { y with npair := y.npair + min recs.length per })
  if last then endStream v o else onOp v o.id (fun y => { y with todo := some (recs.drop per) })

/-- NLE_SLOT_FILLED (R228, R229): the first of a stream makes the check; each later one fills a slot. -/
def nleSlotFilledEvent (op : Nat) (s : State) : Option State :=
  match focusOp s op .stream with
  | none => none
  | some (t, o) => match o.todo with
    | none => (match streamCheck t o with
      | .error _ => none
      | .ok u => some u)
    | some recs => if streamReady t o then some (fillSlot t o recs) else none

def execNleSlotFilled (op : Nat) (s : State) : Out := event (nleSlotFilledEvent op s) s

/-- The block pairs within the cut-off, ascending, each with its place among all (R230). -/
def blockPairs (d : List Byte) (ps : List Point) : List (Nat × Nat × Nat) :=
  let n := (ps.length + 15) / 16
  let near : Nat → Nat → Bool := fun i j => match nlDiff d (ps.getD i (0, 0, 0)) (ps.getD j (0, 0, 0)) with
    | some ds => decide (sumSquares ds ≤ recNat d 28 4)
    | none => false
  let inBlock : Nat → List Nat := fun b => ((List.range 16).map (fun i => 16 * b + i)).filter (fun i => decide (i < ps.length))
  (List.range n).flatMap (fun bi => ((List.range n).filter (fun bj =>
    (inBlock bi).any (fun i => (inBlock bj).any (near i)))).map (fun bj => (bi * n + bj, bi, bj)))

/-- The bytes of a block table (R215, R230). -/
def tableImage (o : NleOp) (es : List (Nat × Nat)) : List Byte :=
  let b := (nlCount o.desc + 15) / 16
  natLE b 2 ++ natLE b 2 ++ [1, BitVec.ofNat 8 (recByte o.desc 13), 0, 0] ++ natLE es.length 4 ++ natLE 0 4 ++
    es.flatMap (fun e => natLE e.1 2 ++ natLE e.2 2)

/-- The entries a block table is made from. -/
def tableEntries (s : State) (x : NleStat) (ps : List Point) : List (Nat × Nat × Nat) :=
  if workChanged s x then
    freeEntries s.env.free (fun n => (Config.freeNat n % 2 ^ 16, Config.freeNat (n + 1) % 2 ^ 16))
  else blockPairs x.geom ps

/-- What a block-mode NLPAIR does: the machine, and where the table is to be resumed; a descriptor that is not binned gives
an empty table (R229, R230). -/
def tableWork (s : State) (o : NleOp) : Faulty (State × Option Nat) :=
  let x := statOf s o.ctx o.addr
  let part : Faulty (List (Nat × Nat) × Option Nat) :=
    if x.flags &&& nsBinned = 0 then .ok ([], none)
    else match nlPoints s o x.geom with
      | .error e => .error e
      | .ok ps => .ok (partOf s o (tableEntries s x ps))
  match part with
  | .error e => .error e
  | .ok (es, more) =>
    match jobRun s o.job none 0 needW (recNat o.desc 64 8) (tableImage o es) with
    | .error e => .error e
    | .ok t => .ok (onStat (skipDraws t (1 + 2 * Config.freeNat s.env.free)) o.ctx o.addr (fun y =>
        { y with npair := es.length }), more)

/-- NLE_BLOCK_TABLE_DONE (R230). -/
def nleBlockTableDoneEvent (op : Nat) (s : State) : Option State :=
  match focusOp s op .table with
  | none => none
  | some (t, o) => match tableWork t o with
    | .error _ => none
    | .ok (u, more) => some (endStream u { o with resume := more })

def execNleBlockTableDone (op : Nat) (s : State) : Out := event (nleBlockTableDoneEvent op s) s

/-- The fault an operation meets when it is next worked on. -/
def opFault (s : State) (o : NleOp) : Option (Byte × Nat) :=
  let err : {α : Type} → Faulty α → Option (Byte × Nat) := fun r => match r with
    | .error e => some e
    | .ok _ => none
  match o.kind with
  | .bin => err (binWork s o)
  | .table => err (tableWork s o)
  | .stream => if o.todo.isSome then none else err (streamCheck s o)

/-- A fault of an operation held for NLSTAT; PAGE keeps the operation, out of its engine until it goes on, any other ends it
(R231; log 96). -/
def holdOp (s : State) (o : NleOp) (c : Byte) (a : Nat) : State :=
  let f : HeldFault := { cause := c, addr := BitVec.ofNat 64 a, slot := 0, delivered := false }
  let t := onStat s o.ctx o.addr (fun x => { x with flags := x.flags ||| nsFault, cause := c, held := some f })
  if c = cPage then
    let u := onOp t o.id (fun y => { y with fault := some f, engine := none })
    beginOps (nlWrite u o 80 8 (nlWord u o.ctx o.addr).toNat)
  else endOp t o

/-- A fault of a stream's check (R229, R231): raised by the NLPAIR itself under STALETRAP, else held by the ring;
poison is held for NLSTAT. -/
def holdStream (s : State) (o : NleOp) (c : Byte) (a : Nat) : State :=
  if c ≠ cPage && c ≠ cProt then holdOp s o c a
  else if nlStaleTrap o.desc then
    beginOps (onOp s o.id (fun y => { y with outcome := some (c, BitVec.ofNat 64 a) }))
  else
    let f : HeldFault := { cause := c, addr := BitVec.ofNat 64 a, slot := (ringAt s o.ring).res, delivered := false }
    beginOps (onOp (onRing s o.ring (fun x => { x with fault := some f })) o.id (fun y =>
      { y with fault := some f, engine := none }))

/-- NLE_FAULT (R231): the operation meets a fault and holds it. -/
def nleFaultEvent (op : Nat) (s : State) : Option State :=
  match s.nles.find? (fun o => o.id == op) with
  | none => none
  | some x => match focusOp s op x.kind with
    | none => none
    | some (t, o) => match opFault t o with
      | none => none
      | some (c, a) => some (if o.kind = .stream then holdStream t o c a else holdOp t o c a)

def execNleFault (op : Nat) (s : State) : Out := event (nleFaultEvent op s) s

end Sys2Proof.Machine
end

