-- ==== Sys2Proof/Machine/Taps.lean ====
section
/-! DEFINITION. Feature taps: rules, taps, trap records and their resolution, the instructions (07 R232 to R238, 17 R348,
R356, R359). -/

namespace Sys2Proof.Machine

/-- Both permissions. -/
def needRW : Need := ⟨true, true, false, false⟩

/-- Fields of a rule record (R233). -/
def ruleFeature (r : List Byte) : Nat := recNat r 0 4
def ruleVal (r : List Byte) : Nat := recNat r 4 4
def ruleHi (r : List Byte) : Nat := recNat r 8 4
def ruleKind (r : List Byte) : Nat := recByte r 12
/-- A WATCH of ACTION 0, which traps. -/
def ruleTraps (r : List Byte) : Bool := ruleKind r == 1 && bitsOf (recByte r 13) 1 1 == 0
/-- A CLAMP or ADD. -/
def ruleEdits (r : List Byte) : Bool := ruleKind r == 2 || ruleKind r == 3

/-- FRULE's TRAPV 1 (R234). -/
def ruleBad (r : List Byte) : Bool :=
  let val := decodeF .f32 (ruleVal r)
  let hi := decodeF .f32 (ruleHi r)
  decide (2 ^ 20 ≤ ruleFeature r) || decide (3 < ruleKind r) || decide (15 < recByte r 14) || recByte r 15 != 0 ||
    decide (3 < recByte r 13) || (ruleKind r != 1 && recByte r 13 != 0) || (ruleKind r != 2 && ruleHi r != 0) ||
    val.isNan || hi.isNan || (ruleKind r == 2 && fvLt false hi val)

/-- Fields of a root's payload (R233). -/
def rootList (v : Payload) : Nat := (v.extractLsb' 0 64).toNat
def rootNreq (v : Payload) : Nat := (v.extractLsb' 64 32).toNat

/-- The root with EPOCH + 1 (R234). -/
def nextEpoch (v : Payload) : Payload :=
  v.extractLsb' 128 128 ++ (v.extractLsb' 96 32 + 1#32) ++ v.extractLsb' 0 96

/-- The bytes at some keys kept by the taps that are reading lists under a root, as they are (R354, R362). -/
def keepLists (s : State) (cell : Nat) (ks : List Nat) : State :=
  let reads : Tap → Bool := fun t => t.root.isSome && t.stage == .root && (match checkCell s needR t.desc.ruleroot.toNat with
    | .ok key => cellOf key == cell
    | .bad _ => false)
  { s with ctx := { s.ctx with taps := s.ctx.taps.map (fun t =>
      if reads t then { t with before := t.before ++ ks.map (fun k => (k, byteAt s.mem k)) } else t) } }

/-- A run that FRULE stores on the lane path, an access of all of the split's lanes (R181); the failing address and cause, and
nothing written, where a check fails (R29, R167, R234). -/
def laneRun (s : State) (va : Nat) (bs : List Byte) : Faulty State :=
  match checkRun s needW va bs.length with
  | .error e => .error e
  | .ok ks => .ok (storeRun (fun a => { laneWrite s s.sp.active a with whole := false })
      (keepLists s (argCell s) ks) va ks bs)

/-- The list change of FRULE, or the cause and TRAPV it raises (R234). -/
def installRule (s : State) (q : DWord) (rec : List Byte) (root : Payload) : Except (Byte × Nat) State :=
  let base := rootList root + (q.toNat * 16 + recByte rec 14) * 1024
  if ruleBad rec then .error (cOperand, 1)
  else if rootNreq root ≤ q.toNat then .error (cOperand, 2)
  else if ruleKind rec = 0 then laneRun s base (List.replicate 1024 0)
  else match readRecord s needR 1 base 1024 with
    | .error e => .error e
    | .ok bs => match (List.range 64).find? (fun i => recByte bs (16 * i + 12) == 0) with
      | none => .error (cOperand, 3)
      | some i => laneRun s (base + 16 * i) rec

/-- An FRULE other than the issuing one has changed a list of the root and not yet stored it (R234). -/
def fruleBusy (s : State) (cell : Nat) : Bool :=
  let busy : Split → Bool := fun p => p.alive && (match p.wait with
    | some (.frule _ _) => p.args.getD 2 0 == BitVec.ofNat 64 cell && p.args.getD 6 0 != 0
    | _ => false)
  (s.w.splits ++ s.w.overflow).any busy || s.warps.any (fun v => (v.splits ++ v.overflow).any busy)

/-- FRULE's MCAS of the root, with acquire and release, repeated while it is superseded (R179, R234). -/
def fruleStore (s : State) (v : Payload) : Res :=
  match majCas s (argCell s) (warpWid s.w) (v.extractLsb' 0 64) (nextEpoch v) with
  | .fail => majFail s
  | .wait => .wait s
  | .done true _ t => .ok (releaseStore (acquireCell t (argCell s)) (argCell s) true)
  | .done false _ t => .wait t

/-- FRULE's attempt: the kept operands are the root, its cell, q, the record, and whether the list is changed. The MLD of the
root acquires, so that the list is read as the FRULEs before this one have left it (R296, R234). -/
def fruleTry (s : State) : Res :=
  attempt (fun s =>
    if fruleBusy s (argCell s) then .wait s
    else match majLoad s (argCell s) with
      | .fail => majFail s
      | .wait => .wait s
      | .done _ v t =>
        if argN t 5 ≠ 0 then fruleStore t v
        else match installRule (acquireCell t (argCell t)) (argN t 2) (natLE (argN t 3).toNat 8 ++ natLE (argN t 4).toNat 8) v with
          | .error (c, a) => trapHere t c a
          | .ok u => fruleStore { u with sp := { u.sp with args := u.sp.args.take 6 ++ [1] } } v) s

def execFrule (a b : BitVec 6) (s : State) : Out :=
  runW (.frule a b) (fun again s =>
    if again then fruleTry s
    else once s (fun s => match readRecord s needR 16 (kget s a.toNat).toNat 16 with
      | .error (c, v) => trapHere s c v
      | .ok bs => majIssue needRW (kget s (b.toNat + 1))
          [kget s b.toNat, BitVec.ofNat 64 (recNat bs 0 8), BitVec.ofNat 64 (recNat bs 8 8), 0] fruleTry s)) s

/-- The handler crew a descriptor names (R232). -/
def handlerCrew (s : State) (bs : List Byte) : Option Crew :=
  let launch := if recNat bs 44 4 = 0 then s.w.launch else recNat bs 44 4
  s.allCrews.find? (fun c => !c.dispatch && c.ctx == s.ctx.id && c.launch == launch && c.number.toNat == recNat bs 40 4 &&
    c.clus == s.w.clus && c.handler != 0)

/-- HLAUNCH names no launch of the context. -/
def launchBad (s : State) (bs : List Byte) : Bool :=
  recNat bs 44 4 != 0 && !s.ctx.launches.any (fun l => l.id == recNat bs 44 4)

/-- A tensor of a tap is defined, uncompressed (log 92), and as its field asks (R232). -/
def tapTensor (s : State) (bs : List Byte) (off : Nat) (p : Tensor → Bool) : Nat × Bool :=
  (off, !(match tensorAt s (recByte bs off) with
    | some t => t.cform == 0 && p t
    | none => false))

/-- TAP's checks of a descriptor, by byte offset (R232, R235; log 56). -/
def tapChecks (s : State) (bs : List Byte) : List (Nat × Bool) :=
  let d := ((tensorAt s (recByte bs 4)).map (fun t => t.dim 0)).getD 0
  let top := recNat bs 12 4 + recNat bs 16 4
  let f := recNat bs 20 4
  [(0, decide (15 < recByte bs 0))] ++ reservedBytes bs 1 1 ++
  [tapTensor s bs 4 (fun t => fmtCD t.fmt && t.rank == 2 && decide (top ≤ t.dim 1)),
   tapTensor s bs 5 (fun t => t.fmt == 0xD && t.rank == 1 && decide (top ≤ t.dim 0)),
   tapTensor s bs 6 (fun t => fmtAB t.fmt && t.dim 0 == d && decide (f ≤ t.dim 1)),
   tapTensor s bs 7 (fun t => fmtAB t.fmt && t.dim 0 == d && decide (f ≤ t.dim 1)),
   tapTensor s bs 8 (fun t => fmtCD t.fmt && t.rank == 1 && decide (f ≤ t.dim 0)),
   tapTensor s bs 9 (fun t => fmtCD t.fmt && t.rank == 1 && t.dim 0 == d)] ++ reservedBytes bs 10 2 ++
  [(16, recNat bs 16 4 == 0), (20, f == 0 || decide (2 ^ 20 < f)),
   (24, recByte bs 24 == 0 || decide (64 < recByte bs 24))] ++ reservedBytes bs 25 7 ++
  [(32, match checkCell s needR (recNat bs 32 8) with
        | .bad c => c != cPage
        | .ok _ => false),
   (40, !launchBad s bs && (handlerCrew s bs).isNone), (44, launchBad s bs), (56, recNat bs 56 8 % 16 != 0)]

/-- A tensor of a tap, once its checks have passed. -/
def tapTensorAt (s : State) (bs : List Byte) (off : Nat) : Tensor := (tensorAt s (recByte bs off)).getD Tensor.unused

/-- The fields of a tap descriptor (R232). -/
def tapDesc (s : State) (bs : List Byte) : TapDesc :=
  { slot := recByte bs 0, layer := recNat bs 2 2, tact := tapTensorAt s bs 4, tmap := tapTensorAt s bs 5
    tenc := tapTensorAt s bs 6, tdec := tapTensorAt s bs 7, tbenc := tapTensorAt s bs 8, tbdec := tapTensorAt s bs 9
    first := recNat bs 12 4, nrows := recNat bs 16 4, f := recNat bs 20 4, topk := recByte bs 24
    ruleroot := BitVec.ofNat 64 (recNat bs 32 8), hcrew := ((handlerCrew s bs).map (fun c => c.id)).getD 0
    snap := BitVec.ofNat 64 (recNat bs 48 8), repair := BitVec.ofNat 64 (recNat bs 56 8) }

/-- The current tap of a slot of the context. -/
def slotTap (s : State) (slot : Nat) : Option Tap := (s.ctx.taps.filter (fun t => t.desc.slot == slot)).getLast?

/-- A tap of the focused context by id. -/
def tapOf (s : State) (id : Nat) : Option Tap := s.ctx.taps.find? (fun t => t.id == id)

/-- A row of a tap is released (R236, R348). -/
def Tap.rowReleased (t : Tap) (r : Nat) : Bool :=
  match t.rows.find? (fun x => x.row == r) with
  | some x => x.released
  | none => t.intakeDone

/-- The tap holds a row. -/
def Tap.holds (t : Tap) : Bool := !t.intakeDone || t.rows.any (fun x => !x.released)

/-- An unresolved record of a tap is in some crew's queue. -/
def hasRecords (s : State) (tap : Nat) : Bool := s.allCrews.any (fun c => c.records.any (fun r => r.tap == tap))

/-- TAP (R235). -/
def execTap (a : BitVec 6) (s : State) : Out :=
  run (.tap a) (fun s => once s (fun s =>
    match readRecord s needRecPage 64 (kget s a.toNat).toNat 64 with
    | .error (c, v) => trapHere s c v
    | .ok bs => match badOffset (tapChecks s bs) with
      | some o => trapHere s cOperand o
      | none =>
        let busy := match slotTap s (recByte bs 0) with
          | some t => t.holds || hasRecords s t.id
          | none => false
        if busy then trapHere s cOperand 64
        else
          let (id, v) := freshId s
          let (at', u) := stamp v
          let t : Tap := { id := id, clus := s.w.clus, desc := tapDesc s bs, crew := s.crew.id, warp := s.w.id
                           number := s.crew.number, index := s.w.index, core := s.w.core, quad := s.w.quad
                           flog := s.crew.flog, pc := s.sp.pc, stage := .root, since := s.cycle.toNat, at_ := at'
                           root := none, before := [], taken := [], rows := [], intakeDone := false, fault := none }
          let old := u.ctx.taps.filter (fun x => x.stage != .done || x.desc.slot != recByte bs 0 || hasRecords u x.id)
          .ok { u with ctx := { u.ctx with taps := old ++ [t] } })) s

/-- A tap of the focused context changed. -/
def onTap (s : State) (id : Nat) (f : Tap → Tap) : State :=
  { s with ctx := { s.ctx with taps := s.ctx.taps.map (fun t => if t.id = id then f t else t) } }

/-- The rows of block b of a tap (R236). -/
def Tap.block (t : Tap) (b : Nat) : List Nat :=
  (List.range 32).filterMap (fun j =>
    if 32 * b + j < t.desc.nrows then some (t.desc.first + 32 * b + j) else none)

/-- A wait for the rows of a block; its return orders the feature unit's writes of them before what the lanes read next
(R236, R297). -/
def tapwWait (slot b : Nat) (s : State) : Res :=
  match slotTap s slot with
  | none => trapHere s cOperand 1
  | some t => if (t.block b).all t.rowReleased then .ok (tapwMem s t.at_ [(t.warp, t.at_)] (t.block b)) else .wait s

/-- The cause of a tap's held fault is still present (R359, R399). -/
def tapStuck (s : State) (t : Tap) (f : HeldFault) : Bool :=
  if f.cause = cMajfail then
    match checkCell s needR t.desc.ruleroot.toNat with
    | .ok key => tooFew s (cellOf key)
    | .bad _ => false
  else stillMissing s f

/-- A tap's held fault raised; its delivery clears it from the feature unit (R399). -/
def raiseTap (s : State) (t : Tap) (f : HeldFault) : Res :=
  .trap f.cause f.addr s.sp.pc (onTap s t.id (fun x => { x with fault := some { f with delivered := deliverable s } }))

/-- A tap of a slot whose held faults are the focused crew's to raise: the slot's current one, or one before it whose shadow
rows are still at work (R236, R359, R399). -/
def owedTap (s : State) (slot : Nat) (t : Tap) : Bool := t.desc.slot == slot && t.crew == s.crew.id

/-- The fault a TAPW raises: one held for the crew and not delivered yet; or, of those delivered, where the TAPW issues, one
whose cause is still present (R359, R399). -/
def raisedTap (s : State) (slot : Nat) (again : Bool) : Option (Tap × HeldFault) :=
  let held := (s.ctx.taps.filter (owedTap s slot)).filterMap (fun t => t.fault.map (fun f => (t, f)))
  (held.find? (fun x => !x.2.delivered)).or (if again then none else held.find? (fun x => tapStuck s x.1 x.2))

/-- The taps whose held faults have been delivered go on (R399). -/
def restartTaps (s : State) (slot : Nat) : State :=
  { s with ctx := { s.ctx with taps := s.ctx.taps.map (fun t =>
      if owedTap s slot t && t.fault.isSome then { t with fault := none, since := s.cycle.toNat } else t) } }

/-- TAPW's judgement: a fault held for the crew is raised; once all are delivered, a TAPW that issues sets the feature unit
going, or, where the cause is still present, raises it anew (R236, R359, R399). -/
def tapwTry (slot : Nat) (again : Bool) (s : State) : Res :=
  match slotTap s slot with
  | none => trapHere s cOperand 1
  | some _ => match raisedTap s slot again with
    | some (t, f) => raiseTap s t f
    | none => tapwWait slot (argN s 0).toNat (if again then s else restartTaps s slot)

def execTapw (sn b : BitVec 6) (s : State) : Out :=
  runW (.tapw sn b) (fun again s =>
    if again then tapwTry sn.toNat true s
    else once s (fun s => tapwTry sn.toNat false (keepArgs s [kget s b.toNat]))) s

/-- An instruction about the crew's oldest record; a crew with none raises OPERAND (R237, R238). -/
def withRecord (f : TapRecord → List TapRecord → State → Res) (s : State) : Res :=
  once s (fun s => match s.crew.records with
    | [] => trapHere s cOperand 1
    | r :: rest => f r rest s)

/-- The words of TAPRD (R237). -/
def recordWords (r : TapRecord) (more : Nat) : List DWord :=
  [BitVec.ofNat 64 (r.position * 2 ^ 32 + r.request),
   BitVec.ofNat 64 (r.rule * 2 ^ 40 + r.layer * 2 ^ 24 + r.slot * 2 ^ 20 + r.feature),
   BitVec.ofNat 64 (r.threshold.toNat * 2 ^ 32 + r.value.toNat), BitVec.ofNat 64 (more * 2 ^ 32 + r.row % 2 ^ 32)]

/-- TAPRD (R237). A later EDIT needs a TAPED of its own (R238). -/
def execTaprd (d : BitVec 6) (s : State) : Out :=
  run (.taprd d) (withRecord (fun r rest s =>
    let t := { s with crew := { s.crew with edit := none } }
    .ok ((recordWords r rest.length).zipIdx.foldl (fun u x => kset u (d.toNat + x.2) x.1) t))) s

/-- d of a tap, and the bytes of a row (R235). -/
def Tap.width (t : Tap) : Nat := t.desc.tact.dim 0
def Tap.rowBytes (t : Tap) : Nat := t.width * elemSize t.desc.tact.fmt

/-- TAPED (R238). -/
def execTaped (a : BitVec 6) (s : State) : Out :=
  run (.taped a) (withRecord (fun r _ s => match tapOf s r.tap with
    | none => .ok s
    | some t => match readRecord s needR (elemSize t.desc.tact.fmt) (kget s a.toNat).toNat t.rowBytes with
      | .error (c, v) => trapHere s c v
      | .ok bs => .ok { s with crew := { s.crew with edit := some bs } })) s

/-- Flag bits of a row-map entry (R232). -/
def mapAbort : Nat := 2 ^ 29
def mapRepair : Nat := 2 ^ 30
def mapPending : Nat := 2 ^ 31

/-- The address of a row's map entry. -/
def Tap.entryAddr (t : Tap) (r : Nat) : Nat := t.desc.tmap.addr [r]

/-- A tap's accesses, attributed to the warp that issued it (R350). -/
def Tap.job (s : State) (t : Tap) : Job :=
  { path := .feature, id := t.at_, posters := [(t.warp, t.at_)], clus := some t.clus, die := dieOf t.clus, ctx := s.ctx.id }

/-- A tap as a reader of memory (R350). -/
def fduReader (s : State) (t : Tap) : Reader := .job (t.job s)

/-- A run the feature unit writes for a row of a tap (R350). -/
def fduWrite (s : State) (t : Tap) (row : Nat) (n : Need) (va : Nat) (bs : List Byte) : Faulty State :=
  jobRun s (t.job s) none row n va bs

/-- The one write of a row-map entry, single-copy atomic: bits cleared, then set (R168, R356). -/
def entrySet (s : State) (t : Tap) (r set clear : Nat) : Faulty State :=
  match engineRead (fduReader s t) s needRW (t.entryAddr r) 8, checkRun s needRW (t.entryAddr r) 8 with
  | .error e, _ | .ok _, .error e => .error e
  | .ok v, .ok ks => .ok (storeRun (fun a => { jobWrite (t.job s) (uoAt s a) none r with whole := true }) s (t.entryAddr r) ks
      (natLE (v - (v &&& clear) ||| set) 8))

/-- A record of a row is in some crew's queue. -/
def rowHasRecord (s : State) (tap r : Nat) : Bool :=
  s.allCrews.any (fun c => c.records.any (fun x => x.tap == tap && x.row == r))

/-- A row of a tap changed. -/
def onRow (s : State) (id r : Nat) (f : TapRow → TapRow) : State :=
  onTap s id (fun t => { t with rows := t.rows.map (fun x => if x.row = r then f x else x) })

/-- A tap is done once intake is and every row's decision is final. -/
def settleTap (s : State) (id : Nat) : State :=
  onTap s id (fun t => if t.intakeDone && t.rows.all (fun x => x.finished) then { t with stage := .done } else t)

/-- Nothing but its records holds a row's decision open: a shadow row's rules have all been applied, a held row has been
written back (R355, R356). -/
def Tap.rowDecided (t : Tap) (r : Nat) : Bool :=
  match t.rows.find? (fun x => x.row == r) with
  | some x => x.finished || (!x.held && x.selected && decide (x.rules.length ≤ x.nextRule))
  | none => true

/-- A row's decision is final: nothing of the tap writes its entry again (R356). -/
def endRow (s : State) (id r : Nat) : State := settleTap (onRow s id r (fun y => { y with finished := true })) id

/-- The oldest record of the crew resolved: it leaves the queue with the staged edit (log 91), and its row's entry takes a
flag, PENDING clearing in the same write with the row's last record once nothing else holds its decision open (R238, R356;
log 57). -/
def resolveRecord (s : State) (r : TapRecord) (rest : List TapRecord) (flag : Nat) : Faulty State :=
  let t := { s with crew := { s.crew with records := rest, edit := none } }
  match tapOf t r.tap with
  | none => .ok t
  | some x =>
    let last := !rowHasRecord t r.tap r.row && x.rowDecided r.row
    match entrySet t x r.row flag (if last then mapPending else 0) with
    | .error e => .error e
    | .ok u => .ok (if last then endRow u x.id r.row else u)

/-- TAPRES.CONT and TAPRES.ABORT. -/
def resolveBody (flag : Nat) : State → Res := withRecord (fun r rest s =>
  match resolveRecord s r rest flag with
  | .error (c, a) => trapHere s c a
  | .ok t => .ok t)

def execTapresCont (s : State) : Out := run .tapresCont (resolveBody 0) s
def execTapresAbort (s : State) : Out := run .tapresAbort (resolveBody mapAbort) s

/-- The address of a row of SNAP (R232). -/
def Tap.snapAddr (t : Tap) (r : Nat) : Nat := t.desc.snap.toNat + (r - t.desc.first) * t.rowBytes

/-- The 16 bytes of a repair-list entry (R238). -/
def repairEntry (r : TapRecord) : List Byte :=
  natLE r.request 4 ++ natLE r.position 4 ++ natLE r.layer 2 ++ natLE r.slot 1 ++ natLE 0 5

/-- TAPRES.EDIT's writes, each checked before any is made (R238). -/
def applyEdit (s : State) (t : Tap) (r : TapRecord) (rest : List TapRecord) (edit : List Byte) : Faulty State :=
  let rep := t.desc.repair.toNat
  match fduWrite s t r.row needW (t.snapAddr r.row) edit with
  | .error e => .error e
  | .ok s1 => match engineRead (fduReader s t) s needRW rep 4 with
    | .error e => .error e
    | .ok n => match fduWrite s1 t r.row needW (rep + 16 + 16 * n) (repairEntry r) with
      | .error e => .error e
      | .ok s2 => match fduWrite s2 t r.row needRW rep (natLE (n + 1) 4) with
        | .error e => .error e
        | .ok s3 => resolveRecord s3 r rest mapRepair

def execTapresEdit (s : State) : Out :=
  run .tapresEdit (withRecord (fun r rest s => match s.crew.edit, tapOf s r.tap with
    | none, _ => trapHere s cOperand 2
    | some _, none => .ok s
    | some bs, some t => match applyEdit s t r rest bs with
      | .error (c, a) => trapHere s c a
      | .ok u => .ok u)) s

/-- Every unresolved record of the focused crew resolved as ABORT, in order (R359); a write an entry's page does not
admit is dropped (log 53). The bound is the number of records. -/
def abortRecords (s : State) : Nat → State
  | 0 => s
  | n + 1 => match s.crew.records with
    | [] => s
    | r :: rest => match resolveRecord s r rest mapAbort with
      | .ok t => abortRecords t n
      | .error _ => abortRecords { s with crew := { s.crew with records := rest, edit := none } } n

end Sys2Proof.Machine
end

