-- ==== Sys2Proof/Machine/TapUnit.lean ====
section
/-! DEFINITION. The feature unit's events: the root, intake, encoder, selector, rules, write-back and faults (07 R235,
R237; 17 R347 to R359). One event does a stage's work for one row block, or one row at write-back. -/

namespace Sys2Proof.Machine

/-- A tap by id, with its context and cluster in focus, if the context runs and no fault holds the tap (R347). -/
def focusTap (s : State) (id : Nat) : Option (State × Tap) :=
  match (pack s).ctxs.find? (fun c => c.taps.any (fun t => t.id == id)) with
  | none => none
  | some c => match c.taps.find? (fun t => t.id == id) with
    | none => none
    | some t => if t.fault.isNone && c.place == .running then some (focusOn s 0 c.id t.clus, t) else none

/-- What the fault log needs of the warp that issued a tap (R258). -/
def Tap.warpConcerned (s : State) (t : Tap) : Warp :=
  match s.allWarps.find? (fun w => w.id == t.warp) with
  | some w => w
  | none => { Warp.blank with clus := t.clus, core := t.core, quad := t.quad, index := t.index }

/-- An entry in the log of the crew that issued a tap (R258). -/
def tapLog (s : State) (t : Tap) (c : Byte) (v : Nat) : State :=
  let w := t.warpConcerned s
  logRecord s t.flog w false (logBytes s t.number w
    { cause := c, where_ := whereOldest w, flags := 0, pc := t.pc, trapv := BitVec.ofNat 64 v } 0)

/-- A row without rules, released. -/
def TapRow.ended (r : Nat) : TapRow :=
  { row := r, request := 0, position := 0, rules := [], held := false, x := [], sent := 0, pre := [], selected := false, f := []
    g := [], nextRule := 0, finished := true, released := true }

/-- A row receives PENDING at the end of intake (R348). -/
def TapRow.pends (x : TapRow) : Bool := !x.rules.isEmpty && (!x.held || x.rules.any (fun e => ruleTraps e.2))

/-- What a fault's write clears in a row's entry beside setting ABORT: before the end of intake every other flag; later
PENDING alone, so that a REPAIR made before stays (R348, R356, R359; log 57). -/
def abortClears (t : Tap) : Nat := if t.intakeDone then mapPending else mapRepair + mapPending

/-- A crew without the records of a row of a tap; with the oldest record its staged edit goes (R238, R359; log 57). -/
def Crew.withoutRow (c : Crew) (tap r : Nat) : Crew :=
  let mine : TapRecord → Bool := fun x => x.tap == tap && x.row == r
  { c with records := c.records.filter (fun x => !mine x)
           edit := if (c.records.head?.map mine).getD false then none else c.edit }

/-- The records of a row of a tap resolved by the end of its decision (R359). -/
def dropRecords (s : State) (tap r : Nat) : State :=
  { s with crew := s.crew.withoutRow tap r, crews := s.crews.map (fun c => c.withoutRow tap r) }

/-- A row ended by a fault: released unedited, ABORT set and PENDING cleared in its entry, and logged (R359). -/
def abortRow (s0 : State) (t : Tap) (r : Nat) (c : Byte) (a : Nat) : State :=
  let s := dropRecords s0 t.id r
  let s1 := match entrySet s t r mapAbort (abortClears t) with
    | .ok u => u
    | .error _ => s
  let s2 := onTap (freeRows s1 (t.job s1) [r]) t.id (fun x => { x with
    rows := x.rows.filter (fun y => y.row != r) ++ [TapRow.ended r] })
  settleTap (tapLog s2 t (if c = cEccfatal then cEccfatal else cProt) a) t.id

/-- A fault held by a tap for TAPW (R235, R359). -/
def holdTap (s : State) (t : Tap) (c : Byte) (a : Nat) : State :=
  onTap s t.id (fun x => { x with
    fault := some { cause := c, addr := BitVec.ofNat 64 a, slot := 0, delivered := false } })

/-- The request id and token position of a row-map entry (R232). -/
def entryRequest (v : Nat) : Nat := v % 2 ^ 29
def entryPosition (v : Nat) : Nat := v / 2 ^ 32

/-- The bytes of a rule list, as they stood at the tap's root MLD (R235, R354). -/
def listBytes (s : State) (t : Tap) (va : Nat) : Faulty (List Byte) :=
  match readRecordBy (fduReader s t) s needR 1 va 1024, checkRun s needR va 1024 with
  | .error e, _ | _, .error e => .error e
  | .ok bs, .ok ks => .ok ((ks.zip bs).map (fun x => ((t.before.find? (fun b => b.1 == x.1)).map (fun b => b.2)).getD x.2))

/-- The rules of a request for a tap's slot under a root, by index (R233, R235). -/
def requestRules (s : State) (t : Tap) (root : Payload) (q : Nat) : Faulty (List (Nat × List Byte)) :=
  if rootNreq root ≤ q then .ok []
  else match listBytes s t (rootList root + (q * 16 + t.desc.slot) * 1024) with
    | .error e => .error e
    | .ok bs => .ok (((List.range 64).map (fun i => (i, (bs.drop (16 * i)).take 16))).filter (fun e => ruleKind e.2 != 0))

/-- A row's request, position and rules under a root (R235, R348). -/
def rootRow (s : State) (t : Tap) (root : Payload) (r : Nat) : Faulty TapRow :=
  match engineRead (fduReader s t) s needRW (t.entryAddr r) 8 with
  | .error e => .error e
  | .ok v => match requestRules s t root (entryRequest v) with
    | .error e => .error e
    | .ok rules =>
      let held := rules.any (fun e => ruleEdits e.2)
      .ok { TapRow.ended r with
        request := entryRequest v, position := entryPosition v, rules := rules, held := held
        finished := rules.isEmpty, released := !held }

/-- Rows of the range that no fault has ended. -/
def Tap.openRows (t : Tap) : List Nat :=
  ((List.range t.desc.nrows).map (fun j => t.desc.first + j)).filter (fun r => !t.rows.any (fun x => x.row == r))

/-- The MLD of a tap's root: an FRULE that has changed a list of it stores it first, and one that waits for replies too
long, or finds too few stacks, ends in MAJFAIL (R176, R234, R235, R375). -/
def rootLoad (s : State) (t : Tap) (cell : Nat) : MajRes :=
  if tooFew s cell then .fail
  else if fruleBusy s cell then .wait
  else match majLoad s cell with
    | .wait => if t.since + majLimit ≤ s.cycle.toNat then .fail else .wait
    | r => r

/-- Rows of the range whose entries and lists are still to be read. -/
def Tap.unread (t : Tap) : List Nat := t.openRows.filter (fun r => !t.taken.any (fun x => x.row == r))

/-- Rows read in order up to the first whose reads fault, and whether all were. -/
def readRows (s : State) (t : Tap) (root : Payload) : List Nat → List TapRow × Bool
  | [] => ([], true)
  | r :: rs => match rootRow s t root r with
    | .error _ => ([], false)
    | .ok x => let more := readRows s t root rs
               (x :: more.1, more.2)

/-- The entries and lists of a tap's rows read under its root, from the first that is still to be read on; once none is
left, intake begins (R235, R354). None where the next row's reads fault. -/
def readLists (s : State) (t : Tap) (root : Payload) : Option State :=
  let more := readRows s t root t.unread
  if more.1.isEmpty && !more.2 then none
  else some (onTap s t.id (fun x => { x with
    taken := x.taken ++ more.1, stage := if more.2 then .intake else .root, before := if more.2 then [] else x.before }))

/-- The MLD of a tap's root completes, with acquire, once; an FRULE that stores the root later does not affect the tap
(R234, R235, R354, R362). -/
def rootRead (s : State) (t : Tap) (cell : Nat) (v : Payload) : State :=
  onTap (receive s (sget [] s.cellPasts cell) [.job t.at_]) t.id (fun x => { x with root := some v })

/-- FDU_ROOT_READ (R235): the MLD of the root completes, or ends in MAJFAIL; then the row map and the requests' lists are
read, from a suspended read on (R354, R359). -/
def fduRootReadEvent (tap : Nat) (s : State) : Option State :=
  match focusTap s tap with
  | none => none
  | some (u, t) =>
    if t.stage ≠ .root then none
    else match t.root with
      | some v => readLists u t v
      | none => match checkCell u needR t.desc.ruleroot.toNat with
        | .bad _ => none
        | .ok key => match rootLoad u t (cellOf key) with
          | .wait => none
          | .fail => some (holdTap u t cMajfail t.desc.ruleroot.toNat)
          | .done _ v s1 =>
            let w := rootRead s1 t (cellOf key) v
            some ((readLists w { t with root := some v } v).getD w)

def execFduRootRead (tap : Nat) (s : State) : Out := event (fduRootReadEvent tap s) s

/-- The bytes of a row of SNAP (R235). -/
def snapBytes (t : Tap) (x : List Word) : List Byte := x.flatMap (fun v => natLE v.toNat (elemSize t.desc.tact.fmt))

/-- Intake of one row: its elements read, and the places of its writes checked (R235, R347, R349; log 57). -/
def intakeRow (s : State) (t : Tap) (y : TapRow) : Faulty TapRow :=
  match engineRead (fduReader s t) s needRW (t.entryAddr y.row) 8 with
  | .error e => .error e
  | .ok _ =>
    if y.rules.isEmpty then .ok y
    else match mapE (fun (c : Nat) => t.desc.tact.readBits (fduReader s t) s [(c : Int), (y.row : Int)])
        (List.range t.width) with
      | .error e => .error e
      | .ok xs =>
        let x : List Word := xs.map (BitVec.ofNat 32)
        match fduWrite s t y.row needW (t.snapAddr y.row) (snapBytes t x) with
        | .error e => .error e
        | .ok _ => .ok { y with x := x }

/-- The rows of the range that intake has still to take in. -/
def Tap.intakeRows (t : Tap) : List TapRow := t.taken.filter (fun y => !t.rows.any (fun x => x.row == y.row))

/-- Every open row taken in, or the first fault. -/
def intakeAll (s : State) (t : Tap) : Faulty (List TapRow) := mapE (intakeRow s t) t.intakeRows

/-- One row's SNAP and flags written (R348). -/
def intakeWrite (t : Tap) (s : State) (x : TapRow) : State :=
  let s1 := if x.rules.isEmpty then s else match fduWrite s t x.row needW (t.snapAddr x.row) (snapBytes t x.x) with
    | .ok u => u
    | .error _ => s
  match entrySet s1 t x.row (if x.pends then mapPending else 0) (mapAbort + mapRepair + mapPending) with
  | .ok u => u
  | .error _ => s1

/-- FDU_INTAKE_END (R348). -/
def fduIntakeEndEvent (tap : Nat) (s : State) : Option State :=
  match focusTap s tap with
  | none => none
  | some (u, t) =>
    if t.stage ≠ .intake then none
    else match intakeAll u t with
      | .error _ => none
      | .ok xs =>
        let s1 := xs.foldl (intakeWrite t) u
        let s2 := freeRows s1 (t.job s1) ((xs.filter (fun x => !x.held)).map (fun x => x.row))
        some (settleTap (onTap s2 t.id (fun x => { x with
          stage := .rows, intakeDone := true, taken := [], rows := x.rows ++ xs.filter (fun y => !y.rules.isEmpty) })) t.id)

def execFduIntakeEnd (tap : Nat) (s : State) : Out := event (fduIntakeEndEvent tap s) s

/-- The row block of a row (R236). -/
def Tap.blockOf (t : Tap) (x : TapRow) : Nat := (x.row - t.desc.first) / 32

/-- The rows of the lowest block, held rows before watch-only ones, among those that meet a condition (R349). -/
def firstBlock (t : Tap) (p : TapRow → Bool) : List TapRow :=
  let pick : Bool → List TapRow := fun h =>
    let xs := t.rows.filter (fun x => !x.finished && x.held == h && p x)
    match xs with
    | [] => []
    | y :: ys =>
      let b := ys.foldl (fun n x => min n (t.blockOf x)) (t.blockOf y)
      xs.filter (fun x => t.blockOf x == b)
  if (pick true).isEmpty then pick false else pick true

/-- u of R235. -/
def tapInput (s : State) (t : Tap) (x : TapRow) : Faulty (List FV) :=
  mapE (fun (c : Nat) => match element (fduReader s t) s t.desc.tbdec [(c : Int)] with
    | .error e => .error e
    | .ok b => .ok (round32 (fvAdd 0 (elemValue t.desc.tact.fmt (x.x.getD c 0).toNat) (b.getD (.fin false 0 0)).neg).1))
    (List.range t.width)

/-- The blocks of R61 for one pre value, TENC's scales among them (R235, R352). -/
def encodeSteps (s : State) (t : Tap) (u : List FV) (j : Nat) : FV → List Nat → Faulty FV
  | acc, [] => .ok acc
  | acc, b :: bs =>
    match mapE (fun (c : Nat) => element (fduReader s t) s t.desc.tenc [(c : Int), (j : Int)])
        (((List.range 32).map (fun i => 32 * b + i)).filter (fun c => decide (c < t.width))) with
    | .error e => .error e
    | .ok es =>
      match scaleAt (fduReader s t) s t.desc.tenc t.width [0, (j : Int)] (b : Int) with
      | .error e => .error e
      | .ok sc =>
        let ps := es.zipIdx.map (fun e => (fvMul (u.getD (32 * b + e.2) .nan) (e.1.getD (.fin false 0 0))).1)
        encodeSteps s t u j
          (round32 (fvAdd 0 acc (round32 (fvMul (sumExact ps) (sc.getD (.fin false 1 0))).1)).1) bs

/-- pre[j] as an f32 code (R235). -/
def preValue (s : State) (t : Tap) (u : List FV) (j : Nat) : Faulty Word :=
  match element (fduReader s t) s t.desc.tbenc [(j : Int)] with
  | .error e => .error e
  | .ok b => match encodeSteps s t u j (b.getD (.fin false 0 0)) (List.range ((t.width + 31) / 32)) with
    | .error e => .error e
    | .ok v => .ok (BitVec.ofNat 32 (roundTo 0x045 false .f32 0 v).1)

/-- A row with its next 256 pre values (R351). -/
def encodeRow (s : State) (t : Tap) (x : TapRow) : Faulty TapRow :=
  match tapInput s t x with
  | .error e => .error e
  | .ok u =>
    let js := ((List.range 256).map (fun i => x.pre.length + i)).filter (fun j => decide (j < t.desc.f))
    match mapE (preValue s t u) js with
    | .error e => .error e
    | .ok vs => .ok { x with pre := x.pre ++ vs }

/-- A row waits for an encoder task to be started. -/
def needsEncoder (t : Tap) (x : TapRow) : Bool := !x.finished && decide (x.sent < t.desc.f)

/-- A tap whose row blocks the encoder may take next: held rows of any tap before watch-only ones, taps in the order they
entered intake (R349). -/
def tapToEncode (s : State) (clus : Nat) : Option Tap :=
  let waits : Bool → Tap → Bool := fun h t => t.clus == clus && t.fault.isNone && t.intakeDone &&
    t.rows.any (fun x => x.held == h && needsEncoder t x)
  match s.ctx.taps.find? (waits true) with
  | some t => some t
  | none => s.ctx.taps.find? (waits false)

/-- The oldest encoder task of a cluster started on its lowest free engine: one row block of one tap and the next 256
features; at most TAPENG run at once (R351). -/
def startEncoder (s : State) (clus : Nat) : Option State :=
  match (pack s).ctxs.find? (fun c => c.live && c.place == .running && c.taps.any (fun t => t.clus == clus && t.fault.isNone &&
      t.intakeDone && t.rows.any (needsEncoder t))) with
  | none => none
  | some c =>
    let u := focusOn s 0 c.id clus
    match freeEngine u clus, tapToEncode u clus with
    | some e, some t =>
      let rows := (firstBlock t (needsEncoder t)).map (fun x => x.row)
      if u.ctx.tapeng ≤ u.clus.encoders.length then none
      else
        let v := { u with clus := { u.clus with encoders := u.clus.encoders ++ [{ tap := t.id, rows := rows, engine := e }] } }
        some (onTap v t.id (fun y => { y with rows := y.rows.map (fun x =>
          if rows.contains x.row then { x with sent := x.sent + 256 } else x) }))
    | _, _ => none

/-- The encoder task that starts, in the first tap's cluster where one may. -/
def nextEncoder (s : State) : Option State :=
  ((pack s).ctxs.flatMap (fun c => c.taps.map (fun t => t.clus))).findSome? (startEncoder s)

/-- TILE_TASK_DISPATCH (R218), in the first cluster where a task may start: tap encoder tasks go ahead of all others. A
thermal halt stops the matrix engines (R395). -/
def tileTaskDispatchEvent (s : State) : Option State :=
  if s.dev.halted then none
  else match nextEncoder s with
  | some t => some t
  | none => (pack s).cluss.findSome? (fun k => startTask s k.id)

def execTileTaskDispatch (s : State) : Out := event (tileTaskDispatchEvent s) s

/-- The oldest encoder task of a tap on an engine of the focused cluster, and its rows. -/
def encoderTask (s : State) (t : Tap) : Option EncoderTask := s.clus.encoders.find? (fun e => e.tap == t.id)
def encoderRows (s : State) (t : Tap) : List TapRow :=
  match encoderTask s t with
  | some e => t.rows.filter (fun x => e.rows.contains x.row && !x.finished)
  | none => []

/-- Rows of a tap replaced by their new forms. -/
def putRows (s : State) (id : Nat) (xs : List TapRow) : State := xs.foldl (fun u x => onRow u id x.row (fun _ => x)) s

/-- FDU_ENCODER_TASK_DONE (R351, R352): the tap's oldest encoder task leaves its engine, which issues unless a thermal halt
has stopped it (R395). -/
def fduEncoderTaskDoneEvent (tap : Nat) (s : State) : Option State :=
  if s.dev.halted then none
  else match focusTap s tap with
  | none => none
  | some (u, t) => match encoderTask u t with
    | none => none
    | some e => match mapE (encodeRow u t) (encoderRows u t) with
      | .error _ => none
      | .ok xs => some (putRows { u with clus := { u.clus with encoders := u.clus.encoders.erase e } } t.id xs)

/-- The encoder tasks of a tap taken off their engines, to be started again (R359). -/
def stopEncoders (s : State) (tap : Nat) : State :=
  onTap { s with clus := { s.clus with encoders := s.clus.encoders.filter (fun e => e.tap != tap) } } tap (fun t =>
    { t with rows := t.rows.map (fun x => { x with sent := x.pre.length }) })

def execFduEncoderTaskDone (tap : Nat) (s : State) : Out := event (fduEncoderTaskDoneEvent tap s) s

/-- A feature put in order of value, ties to the lower index: it stands after all of its value (R353). -/
def insertTop (x : Nat × Nat) : List (Nat × Nat) → List (Nat × Nat)
  | [] => [x]
  | y :: t => if y.1 < x.1 then x :: y :: t else y :: insertTop x t

/-- f of R235: the TOPK largest positive values; a NaN is not selected (R353). -/
def selectTop (k : Nat) (pre : List Word) : Sparse Word :=
  let top := pre.zipIdx.foldl (fun acc e =>
    if 0 < e.1.toNat ∧ e.1.toNat ≤ 0x7F800000 then (insertTop (e.1.toNat, e.2) acc).take k else acc) []
  top.foldl (fun m e => sset 0 m e.2 (BitVec.ofNat 32 e.1)) []

/-- FDU_SELECT_DONE (R353). -/
def fduSelectDoneEvent (tap : Nat) (s : State) : Option State :=
  match focusTap s tap with
  | none => none
  | some (u, t) =>
    let xs := firstBlock t (fun x => !x.selected && x.pre.length == t.desc.f)
    if xs.isEmpty then none
    else some (putRows u t.id (xs.map (fun x =>
      let f := selectTop t.desc.topk x.pre
      { x with selected := true, f := f, g := f })))

def execFduSelectDone (tap : Nat) (s : State) : Out := event (fduSelectDoneEvent tap s) s

/-- A WATCH fires on a value; comparisons with a NaN are false (R235). -/
def watchFires (r : List Byte) (v : Word) : Bool :=
  let a := decodeF .f32 v.toNat
  let b := decodeF .f32 (ruleVal r)
  if bitsOf (recByte r 13) 0 1 = 0 then fvLt false b a else fvLt false a b

/-- A CLAMP or ADD applied to a value (R111, R235). -/
def applyRule (r : List Byte) (v : Word) : Word :=
  if ruleKind r = 2 then
    BitVec.ofNat 32 (fminmax false false .f32 (fminmax true false .f32 v.toNat (ruleVal r)) (ruleHi r))
  else if ruleKind r = 3 then
    BitVec.ofNat 32 (roundTo 0x045 false .f32 0 (fvAdd 0 (decodeF .f32 v.toNat) (decodeF .f32 (ruleVal r))).1).1
  else v

/-- A trap record appended to HCREW's queue, and its warp 0 notified; a handler crew that has ended resolves it as
ABORT (R237, R359; log 57). None while the queue is full. -/
def appendRecord (s : State) (t : Tap) (x : TapRow) (e : Nat × List Byte) (v : Word) : Option State :=
  match crewAt s t.desc.hcrew with
  | none => some (match entrySet s t x.row mapAbort 0 with
      | .ok u => u
      | .error _ => s)
  | some c =>
    if 64 ≤ c.records.length then none
    else
      let r : TapRecord := { tap := t.id, request := x.request, position := x.position, rule := e.1, layer := t.desc.layer
                             slot := t.desc.slot, feature := ruleFeature e.2
                             threshold := BitVec.ofNat 32 (ruleVal e.2), value := v, row := x.row }
      let u := onCrew s c.id (fun y => { y with records := y.records ++ [r] })
      some { u with warps := u.warps.map (fun w =>
        if w.crew = c.id && w.index = 0 then { w with notes := w.notes ++ [some (BitVec.ofNat 64 x.request)] } else w) }

/-- The next rule of a row applied; none while its trap record has no place (R235, R237). -/
def ruleStep (s : State) (t : Tap) (x : TapRow) : Option State :=
  match x.rules[x.nextRule]? with
  | none => none
  | some e =>
    let v := sget 0 x.g (ruleFeature e.2)
    let go : State → State := fun u => onRow u t.id x.row (fun y => { y with nextRule := y.nextRule + 1 })
    if t.desc.f ≤ ruleFeature e.2 then some (go s)
    else if ruleKind e.2 = 1 then
      if !watchFires e.2 v then some (go s)
      else if ruleTraps e.2 then (appendRecord s t x e v).map go
      else some (go (tapLog s t cWatch x.request))
    else some (onRow (go s) t.id x.row (fun y => { y with g := sset 0 y.g (ruleFeature e.2) (applyRule e.2 v) }))

/-- A row has rules to apply. -/
def needsRules (x : TapRow) : Bool := x.selected && decide (x.nextRule < x.rules.length)

/-- The entry of a row that received PENDING at intake once its decision is final but for its records: PENDING clears
unless one remains; no other entry is written (R355, R357). -/
def clearPending (s : State) (t : Tap) (x : TapRow) : Faulty State :=
  if !x.pends || rowHasRecord s t.id x.row then .ok s else entrySet s t x.row 0 mapPending

/-- A shadow row whose rules have been applied (R355). -/
def closeRow (s : State) (t : Tap) (x : TapRow) : Faulty State :=
  match clearPending s t x with
  | .error e => .error e
  | .ok u => .ok (endRow u t.id x.row)

/-- A held row of the tap is not yet written back. -/
def Tap.heldOpen (t : Tap) : Bool := t.rows.any (fun x => x.held && !x.finished)

/-- The shadow row to close next; held rows go first (R349). -/
def rowToClose (t : Tap) : Option TapRow :=
  if t.heldOpen then none
  else t.rows.find? (fun x => !x.finished && !x.held && x.selected && decide (x.rules.length ≤ x.nextRule))

/-- The rows of the first block that take their next rule (R349, R354). -/
def ruleRows (t : Tap) : List TapRow := (firstBlock t needsRules).filter (fun x => x.held || !t.heldOpen)

/-- FDU_RULE_UNIT (R354, R355): each row of the first block takes its next rule; with none left, a shadow row's decision
becomes final. A full record queue stalls the slot (R237). -/
def fduRuleUnitEvent (tap : Nat) (s : State) : Option State :=
  match focusTap s tap with
  | none => none
  | some (u, t) => match rowToClose t with
    | some x => (match closeRow u t x with
      | .ok v => some v
      | .error _ => none)
    | none =>
      let xs := ruleRows t
      if xs.all (fun x => (ruleStep u t x).isNone) then none
      else some (xs.foldl (fun v x => (ruleStep v t x).getD v) u)

def execFduRuleUnit (tap : Nat) (s : State) : Out := event (fduRuleUnitEvent tap s) s

/-- The features whose g differs from f, as values (R235). -/
def changedFeatures (x : TapRow) : List Nat :=
  ((x.f ++ x.g).map (fun e => e.1)).foldl (fun acc j =>
    if fvEq (decodeF .f32 (sget 0 x.g j).toNat) (decodeF .f32 (sget 0 x.f j).toNat) then acc else ninsert j acc) []

/-- An element of an edited row (R235): the exact sum rounded once. -/
def editedElement (s : State) (t : Tap) (x : TapRow) (c : Nat) : Faulty Nat :=
  let delta : Nat → Faulty FV := fun j => match element (fduReader s t) s t.desc.tdec [(c : Int), (j : Int)] with
    | .error e => .error e
    | .ok w => .ok (fvMul (fvAdd 0 (decodeF .f32 (sget 0 x.g j).toNat) (decodeF .f32 (sget 0 x.f j).toNat).neg).1
        (w.getD (.fin false 0 0))).1
  match mapE delta (changedFeatures x) with
  | .error e => .error e
  | .ok ds =>
    let v := ds.foldl (fun acc d => (fvAdd 0 acc d).1) (elemValue t.desc.tact.fmt (x.x.getD c 0).toNat)
    .ok (roundTo (ovtNat s) false (fmtOfType t.desc.tact.fmt) 0 v).1

/-- An element to be written: its key, whether its page is UO, and its bits. -/
structure EditedElement where
  key : Nat
  uo : Bool
  bits : Nat
  deriving DecidableEq, Repr

/-- The writes of an edited row, each place checked (log 57). -/
def editedRow (s : State) (t : Tap) (x : TapRow) : Faulty (List EditedElement) :=
  mapE (fun (c : Nat) =>
    let a := t.desc.tact.addr [(c : Int), (x.row : Int)]
    match checkAccess s needW a (elemSize t.desc.tact.fmt) with
    | .bad e => .error (e, a)
    | .ok key => match editedElement s t x c with
      | .error e => .error e
      | .ok v => .ok ⟨key, uoAt s a, v⟩) (List.range t.width)

/-- The held row to write back next. -/
def rowToWrite (t : Tap) : Option TapRow :=
  (firstBlock t (fun x => x.held && x.selected && decide (x.rules.length ≤ x.nextRule))).head?

/-- A held row written whole, its entry after it, and released (R354, R355). -/
def writeBack (s : State) (t : Tap) (x : TapRow) : Faulty State :=
  match editedRow s t x with
  | .error e => .error e
  | .ok ws =>
    let size := elemSize t.desc.tact.fmt
    let s1 := ws.foldl (fun u w => storeKey (jobWrite (t.job s) w.uo none x.row) u w.key (natLE w.bits size)) s
    match clearPending s1 t x with
    | .error e => .error e
    | .ok u =>
      let v := freeRows (performPart u (t.job s) x.row) (t.job s) [x.row]
      .ok (settleTap (onRow v t.id x.row (fun y => { y with finished := true, released := true })) t.id)

/-- FDU_WRITEBACK (R354). -/
def fduWritebackEvent (tap : Nat) (s : State) : Option State :=
  match focusTap s tap with
  | none => none
  | some (u, t) => match rowToWrite t with
    | none => none
    | some x => match writeBack u t x with
      | .error _ => none
      | .ok v => some v

def execFduWriteback (tap : Nat) (s : State) : Out := event (fduWritebackEvent tap s) s

/-- The fault a piece of work meets. -/
def faultOf {α : Type} (r : Faulty α) : Option (Byte × Nat) :=
  match r with
  | .error e => some e
  | .ok _ => none

/-- The first of some rows whose work meets a fault, with the fault. -/
def firstRowFault (f : Nat → Option (Byte × Nat)) : List Nat → Option (Nat × Byte × Nat)
  | [] => none
  | r :: rs => match f r with
    | some (c, a) => some (r, c, a)
    | none => firstRowFault f rs

/-- The fault of a tap's next work, with the row it serves. One of the unit's own writes (SNAP, an element, a row-map entry)
is treated as one of a read, of which alone R359 speaks (log 57). -/
def tapFault (s : State) (t : Tap) : Option (Nat × Byte × Nat) :=
  let row : Nat → TapRow := fun r => ((t.rows ++ t.taken).find? (fun x => x.row == r)).getD (TapRow.ended r)
  let first : (TapRow → Option (Byte × Nat)) → List TapRow → Option (Nat × Byte × Nat) := fun f xs =>
    firstRowFault (fun r => f (row r)) (xs.map (fun x => x.row))
  match t.stage with
  | .root => t.root.bind (fun v => firstRowFault (fun r => faultOf (rootRow s t v r)) t.unread)
  | .intake => first (fun x => faultOf (intakeRow s t x)) t.intakeRows
  | .rows => (first (fun x => faultOf (encodeRow s t x)) (encoderRows s t)).or
      ((first (fun x => faultOf (closeRow s t x)) (rowToClose t).toList).or
        (first (fun x => faultOf (writeBack s t x)) (rowToWrite t).toList))
  | .done => none

/-- The root's address fails its checks: a missing translation suspends the slot, any other fault ends every row of the
range (R359). -/
def rootFault (s : State) (t : Tap) (c : Byte) : State :=
  if c = cPage then holdTap s t c t.desc.ruleroot.toNat
  else
    let v := t.openRows.foldl (fun x r => abortRow x t r c t.desc.ruleroot.toNat) s
    settleTap (onTap v t.id (fun x => { x with intakeDone := true })) t.id

/-- FDU_FAULT (R359): a missing translation suspends the slot; any other fault ends the rows the read serves, every row
of the range for the root. -/
def fduFaultEvent (tap : Nat) (s : State) : Option State :=
  match focusTap s tap with
  | none => none
  | some (u, t) =>
    match t.stage, t.root, checkCell u needR t.desc.ruleroot.toNat with
    | .root, none, .bad c => some (rootFault u t c)
    | _, _, _ => match tapFault u t with
      | none => none
      | some (r, c, a) => some (if c = cPage then stopEncoders (holdTap u t c a) t.id else abortRow u t r c a)

def execFduFault (tap : Nat) (s : State) : Out := event (fduFaultEvent tap s) s

end Sys2Proof.Machine
end

