-- ==== Sys2Proof/Machine/Launch.lean ====
section
/-! DEFINITION. The generation loop and the way from the launch queue to bound warps: LAUNCH, SHAPE, ACCUP, admission,
bind records and the service cores' majority operations (07 R240 to R246; 16 R332 to R337, R341). -/

namespace Sys2Proof.Machine

/-- LAUNCH's checks of a record, by byte offset (R240, R242; log 58). -/
def launchChecks (s : State) (bs : List Byte) : List (Nat × Bool) :=
  let n := fun o k => recNat bs o k
  [(0, n 0 8 % 4 != 0)] ++ reservedBytes bs 16 12 ++
  [(28, n 28 4 == 0 || decide (2 ^ 20 < n 28 4)), (32, n 32 4 % 4096 != 0 || decide (0x400000 < n 32 4)),
   (36, n 36 1 % 16 == 0), (37, decide (32 ≤ n 37 1)), (38, n 38 1 != 0), (39, n 39 1 != 0), (40, n 40 8 % 4 != 0),
   (64, n 64 1 != 0), (65, n 65 1 == 0 || decide (32 < n 65 1)), (66, !allotOk (n 66 2)), (68, decide (7 < n 68 1)),
   (69, decide (64 < n 69 1))] ++ reservedBytes bs 70 2 ++
  [(72, (List.range 32).any (fun c => bitsOf (n 72 4) c 1 == 1 && c / 4 != s.ctx.part)),
   (76, n 76 4 % 4096 != 0 || decide (n 76 4 < 12288)), (80, n 80 8 % 4096 != 0), (88, n 88 8 % 16 != 0)] ++
  reservedBytes bs 104 24

/-- The fields of a launch record (R240). -/
def launchFields (bs : List Byte) (shapes : Option (List DWord)) : LaunchRec :=
  let d : Nat → DWord := fun o => BitVec.ofNat 64 (recNat bs o 8)
  { entry := d 0, param := d 8, ncrew := recNat bs 28 4, cmsize := recNat bs 32 4
    mode := BitVec.ofNat 18 (recNat bs 36 4), handler := d 40, flog := d 48, budget := d 56, creww := recNat bs 65 1
    allot := recNat bs 66 2, prio := recNat bs 68 1, ndisp := recNat bs 69 1, clmask := BitVec.ofNat 32 (recNat bs 72 4)
    spillsz := recNat bs 76 4, spillpool := d 80, callees := d 88, shapes := shapes, bytes := bs }

/-- The checks of draft shape entries, by byte offset (R245). -/
def shapeChecks (bs : List Byte) : List (Nat × Bool) :=
  (List.range 16).flatMap (fun i =>
    [(8 * i + 1, bitsOf (recByte bs (8 * i + 1)) 4 4 != 0 || decide (8 < recByte bs (8 * i + 1) % 16)),
     (8 * i + 6, recByte bs (8 * i + 6) != 0), (8 * i + 7, recByte bs (8 * i + 7) != 0)])

/-- The draft shape entries a record names, as an agent reads them, or the cause and TRAPV (R245). -/
def readShapes (r : Reader) (s : State) (va : Nat) : Except (Byte × Nat) (Option (List DWord)) :=
  if va = 0 then .ok none
  else match readRecordBy r s needR 8 va 128 with
    | .error e => .error e
    | .ok bs => match badOffset (shapeChecks bs) with
      | some o => .error (cOperand, 128 + o)
      | none => .ok (some ((List.range 16).map (fun i => BitVec.ofNat 64 (recNat bs (8 * i) 8))))

/-- A launch record read by an agent and checked in the focused context (R240, R242, R332). -/
def readLaunch (r : Reader) (s : State) (va : Nat) : Except (Byte × Nat) LaunchRec :=
  match readRecordBy r s needRecPage 128 va 128 with
  | .error e => .error e
  | .ok bs => match badOffset (launchChecks s bs) with
    | some o => .error (cOperand, o)
    | none => match readShapes r s (recNat bs 96 8) with
      | .error e => .error e
      | .ok shapes => .ok (launchFields bs shapes)

/-- Launches of the context with crews still unbound, which hold queue entries (R332). -/
def queuedLaunches (s : State) : List Launch := s.ctx.launches.filter (fun l => decide (l.nextCrew < l.record.ncrew))

/-- A record entered into the launch queue, with what precedes every access of the warps it launches: the launch id, or 0
where the queue is full (R242, R297). -/
def enterLaunch (s : State) (r : LaunchRec) (past : Option Past) : State × Nat :=
  if 64 ≤ (queuedLaunches s).length then (s, 0)
  else
    let id := s.ctx.nextLaunch
    let l : Launch := { id := id, record := r, admitted := false, unbindable := false, prio := r.prio, nextCrew := 0
                        boundWarps := 0, nextNumber := r.ncrew, crewsEnded := 0, dispSlots := [], past := past }
    ({ s with ctx := { s.ctx with launches := s.ctx.launches ++ [l], nextLaunch := id % (2 ^ 32 - 1) + 1 } }, id)

/-- LAUNCH, which is a release (R242). -/
def execLaunch (d a : BitVec 6) (s : State) : Out :=
  run (.launch d a) (fun s => once s (fun s => match readLaunch (laneReader s) s (kget s a.toNat).toNat with
    | .error (c, v) => trapHere s c v
    | .ok r =>
      let (p, t) := releaseNow s
      let (u, id) := enterLaunch t r (some p)
      .ok (kset u d.toNat (BitVec.ofNat 64 id)))) s

/-- SHAPE (R244). -/
def execShape (d a : BitVec 6) (s : State) : Out :=
  run (.shape d a) (fun s => once s (fun s =>
    let v := (kget s a.toNat).toNat
    if 2 ^ 16 ≤ v then trapWord s (.shape d a) else .ok (kset s d.toNat (BitVec.ofNat 64 (min 15 (v / 128)))))) s

/-- ACCUP (R244). -/
def execAccup (d a : BitVec 6) (s : State) : Out :=
  run (.accup d a) (fun s => once s (fun s =>
    let e := kget s d.toNat
    let v := kget s a.toNat
    if 65280 < e.toNat then .trap cOperand e s.sp.pc s
    else if 255 < v.toNat then .trap cOperand v s.sp.pc s
    else .ok (kset s d.toNat (BitVec.ofInt 64 ((e.toNat : Int) + ((v.toNat : Int) * 256 - e.toNat).fdiv 4))))) s

/-- The bytes of a capture record (R390). -/
def captureBytes (s : State) (kind : Nat) (payload : List Byte) : List Byte :=
  let pad := (32 - payload.length % 32) % 32
  natLE kind 4 ++ natLE payload.length 4 ++ natLE s.cycle.toNat 8 ++ natLE s.ctx.ctxid.toNat 4 ++ natLE 0 12 ++
    payload ++ List.replicate pad 0

/-- A record appended to the focused context's capture buffer; capture stops where it has no room (R390). -/
def capture (s : State) (kind : Nat) (payload : List Byte) : State :=
  match s.ctx.capture with
  | none => s
  | some c =>
    let bs := captureBytes s kind payload
    if c.stopped || c.replayed.isSome then s
    else if c.size < c.used + bs.length then { s with ctx := { s.ctx with capture := some { c with stopped := true } } }
    else writeKey { s with ctx := { s.ctx with capture := some { c with used := c.used + bs.length } } }
      (c.buffer + c.used) bs

/-- A record appended to every context's capture buffer. -/
def captureAll (s : State) (kind : Nat) (payload : List Byte) : State :=
  (s.allCtxs.map (fun c => c.id)).foldl (fun t id => capture (focusOn t 0 id 0) kind payload) s

/-- The machine with a live context in focus, or none. -/
def focusCtx (s : State) (id : Nat) : Option State :=
  let t := focusOn s 0 id 0
  if t.ctx.live then some t else none

/-- SERVICE_LAUNCH (R332): the same checks, of a record that the service's control interface reads; a refused record
enters nothing. The interface reads as an agent of the partition's die that nothing has ordered after anything, and nothing
precedes the launch: the spec does not say (log 105). -/
def serviceLaunchEvent (ctx : Nat) (record : DWord) (s : State) : Option State :=
  match focusCtx s ctx with
  | none => none
  | some t => match readLaunch (.device (dieOf (t.ctx.part * 4))) t record.toNat with
    | .error _ => some t
    | .ok r => some (enterLaunch t r none).1

def execServiceLaunch (ctx : Nat) (record : DWord) (s : State) : Out := event (serviceLaunchEvent ctx record s) s

/-- The class a launch is admitted at (R333). -/
def admitClass (s : State) (l : Launch) : Nat := min l.record.prio s.ctx.ceiling

/-- The first of the highest class (R332). -/
def firstOfClass (s : State) : List Launch → Option Launch
  | [] => none
  | l :: t => match firstOfClass s t with
    | none => some l
    | some m => if admitClass s l < admitClass s m then some m else some l

/-- A launch admitted: at its class, its draft shapes loaded, and unbindable where no cluster may hold its crews (R245,
R332, R333). -/
def admitLaunch (s : State) (l : Launch) : State :=
  let t := onLaunch s l.id (fun x => { x with
    admitted := true, prio := admitClass s l, unbindable := x.record.clmask &&& s.ctx.quotaMask == 0 })
  match l.record.shapes with
  | none => t
  | some es => { t with ctx := { t.ctx with
      shapes := es.zipIdx.foldl (fun m e => sset 0 m e.2 e.1) [] } }

/-- LAUNCH_ADMIT (R332). -/
def launchAdmitEvent (ctx : Nat) (s : State) : Option State :=
  match focusCtx s ctx with
  | none => none
  | some t => match firstOfClass t (t.ctx.launches.filter (fun l => !l.admitted)) with
    | none => none
    | some l => some (capture (admitLaunch t l) 1 (natLE l.id 4 ++ l.record.bytes))

def execLaunchAdmit (ctx : Nat) (s : State) : Out := event (launchAdmitEvent ctx s) s

/-- Fields of a bind record (R335). -/
structure Bind where
  op : Nat
  clus : Nat
  place : Nat
  quad : Nat
  core : Nat
  warp : Nat
  prio : Nat
  allot : Nat
  launch : Nat
  crew : Nat
  spillb : Nat
  entry : Nat
  ranges : Bool
  deriving DecidableEq, Repr

def bindOf (r : BitVec 256) : Bind :=
  let n := fun lo k => bitsOf r.toNat lo k
  { op := n 248 8, clus := n 240 5, place := n 224 4, quad := n 228 2, core := n 230 3, warp := n 216 5, prio := n 208 3
    allot := n 192 16, launch := n 160 32, crew := n 128 32, spillb := n 64 64, entry := n 0 64
    ranges := n 245 3 == 0 && n 233 7 == 0 && n 221 3 == 0 && n 211 5 == 0 }

/-- The context that runs in a cluster's partition. -/
def ctxOfCluster (s : State) (clus : Nat) : Option Ctx :=
  s.allCtxs.find? (fun c => c.part == clus / 4 && c.place == .running)

/-- A warp or a dispatch slot holds a warp slot (R336). -/
def slotTaken (s : State) (b : Bind) : Bool :=
  s.allWarps.any (fun w => w.clus == b.clus && w.core == b.core && w.quad == b.quad && w.place == b.place) ||
    (s.allCtxs.filter (fun c => c.place == .running)).any (fun c => c.launches.any (fun l => l.dispSlots.any (fun d =>
      d.clus == b.clus && d.core == b.core && d.quad == b.quad && d.place == b.place)))

/-- The crew a crew warp's record binds into, while it is being bound. -/
def bindingCrew (s : State) (b : Bind) : Option Crew :=
  s.allCrews.find? (fun c => c.ctx == s.ctx.id && c.launch == b.launch && c.number.toNat == b.crew && c.state == .binding)

/-- Warp slots of a quadrant that the focused context holds (R333). -/
def slotsHeld (s : State) (b : Bind) : Nat :=
  (s.allWarps.filter (fun w => w.handles.isEmpty && w.ctx == s.ctx.id && w.clus == b.clus && w.core == b.core &&
    w.quad == b.quad)).length +
    (s.ctx.launches.flatMap (fun l => l.dispSlots.filter (fun d =>
      d.clus == b.clus && d.core == b.core && d.quad == b.quad))).length

/-- The spill area of warp w of crew n of a launch (R240). -/
def warpSpill (l : Launch) (n w : Nat) : Nat := l.record.spillpool.toNat + (n * l.record.creww + w) * l.record.spillsz

/-- The spill area of dispatch slot n of a cluster (R240). -/
def slotSpill (l : Launch) (clus n : Nat) : Nat :=
  l.record.spillpool.toNat + (l.record.ncrew * l.record.creww + clus * l.record.ndisp + n) * l.record.spillsz

/-- A spill area that R240 gives a dispatch slot of a cluster which no slot of the launch has yet. -/
def slotSpillOk (l : Launch) (clus spillb : Nat) : Bool :=
  (List.range l.record.ndisp).any (fun n => slotSpill l clus n == spillb) &&
    !l.dispSlots.any (fun d => d.clus == clus && d.spillb.toNat == spillb)

/-- A record that agrees with its launch: crews are bound in ascending order, each in one cluster that may hold them,
each warp once and with the spill area R240 gives it; a dispatch slot is one of NDISP, in a cluster of the quota's mask,
and a quadrant keeps to the context's quota (R240, R333, R334, R336; log 59). -/
def bindAgrees (s : State) (l : Launch) (b : Bind) : Bool :=
  decide (slotsHeld s b < s.ctx.warpSlots) &&
  if b.op = 1 then
    b.crew == l.nextCrew && decide (b.crew < l.record.ncrew) && decide (b.warp < l.record.creww) && !l.unbindable &&
      b.spillb == warpSpill l b.crew b.warp &&
      (l.record.clmask &&& s.ctx.quotaMask).getLsbD b.clus && b.entry % 4 == 0 &&
      (match bindingCrew s b with
       | some c => c.clus == b.clus && !(s.warpsOf c.id).any (fun w => w.index == b.warp)
       | none => true)
  else
    b.crew == 0xFFFFFFFF && b.warp == 0 && b.entry == 0 && s.ctx.quotaMask.getLsbD b.clus && slotSpillOk l b.clus b.spillb &&
      decide ((l.dispSlots.filter (fun d => d.clus == b.clus)).length < l.record.ndisp)

/-- The launch a record binds for, unless dispatch refuses it (R336). -/
def bindLaunch (s : State) (b : Bind) : Option Launch :=
  match s.ctx.launches.find? (fun l => l.id == b.launch && l.admitted) with
  | none => none
  | some l =>
    if (b.op == 1 || b.op == 2) && b.ranges && allotOk b.allot && b.spillb % 4096 == 0 && decide (b.spillb < 2 ^ 56) &&
        !slotTaken s b && !s.dev.failing.contains (b.clus * 32 + b.core * 4 + b.quad) &&
        decide (quadUsed s b.clus b.core b.quad 0 + b.allot ≤ 1024) && bindAgrees s l b then some l
    else none

/-- The crew of a launch's first bound warp, with its memory at an address (R337, R379). -/
def newCrew (s : State) (l : Launch) (b : Bind) (id base : Nat) : Crew :=
  { Crew.blank with
    id := id, live := true, ctx := s.ctx.id, clus := b.clus, launch := l.id, number := BitVec.ofNat 32 b.crew
    nwarp := l.record.creww, cmbase := base, cmsize := l.record.cmsize, flog := l.record.flog
    handler := l.record.handler, budget := if l.record.budget = 0 then none else some l.record.budget
    state := .binding }

/-- The warp a record loads; its PRIO is at most the class its launch was admitted at (R22, R23, R25, R333, R337). -/
def newWarp (s : State) (l : Launch) (b : Bind) (id crew : Nat) : Warp :=
  { Warp.blank with
    id := id, live := true, clus := b.clus, core := b.core, quad := b.quad, place := b.place, ctx := s.ctx.id
    launch := l.id, crew := crew, index := b.warp, k := sset 0 [] 1 l.record.param, mode := l.record.mode
    savedMode := l.record.mode, spillb := BitVec.ofNat 64 b.spillb, spillsz := l.record.spillsz, allot := b.allot
    prio := min b.prio l.prio
    splits := [{ Split.blank with state := .ready, pc := BitVec.ofNat 64 b.entry, active := allLanes,
                                  entry := allLanes }] }

/-- The last warp of a crew loaded: every warp of it becomes ready (R337). Their ages follow WARP, where the spec gives no
order among warps that become ready in one clock (log 105). -/
def startCrew (s : State) (id : Nat) : State :=
  { s with
    crews := s.crews.map (fun c => if c.id = id then { c with state := .running } else c)
    warps := s.warps.map (fun w => if w.crew = id then { w with splits := w.splits.map (fun p =>
      { p with age := s.nextAge + w.index, lastIssue := s.cycle.toNat }) } else w)
    nextAge := s.nextAge + 32 }

/-- A crew warp bound into a crew, after what its launch comes after; the last one starts it (R242, R334, R337). -/
def loadWarp (s : State) (l : Launch) (b : Bind) (crew : Nat) : State :=
  let (id, t) := freshId s
  let u := launchedAfter { t with warps := insertWarp (newWarp t l b id crew) t.warps } l id
  let n := ((launchAt u l.id).map (fun x => x.boundWarps)).getD 0 + 1
  if n < l.record.creww then onLaunch u l.id (fun x => { x with boundWarps := n })
  else startCrew (onLaunch u l.id (fun x => { x with boundWarps := 0, nextCrew := x.nextCrew + 1 })) crew

/-- A record refused: counted for its cluster, and returned to the SMC with its cause, whose code is not stated (R336,
R388). -/
def refuseBind (s : State) (r : BitVec 256) : State :=
  let t := raiseCount s (bindOf r).clus nBindRefused 1
  { t with
    dev := { t.dev with outbox := t.dev.outbox ++ [natLE r.toNat 32 ++ [Config.freeByte s.env.free]] }
    env := { t.env with free := t.env.free + 1 } }

/-- A record consumed in its context and cluster, or none where its crew's memory has no room (R335 to R337, R379). -/
def bindOne (s : State) (r : BitVec 256) : Option State :=
  let b := bindOf r
  match bindLaunch s b with
  | none => some (refuseBind s r)
  | some l =>
    if b.op = 2 then
      some (onLaunch s l.id (fun x => { x with dispSlots := x.dispSlots ++
        [{ clus := b.clus, core := b.core, quad := b.quad, place := b.place, allot := b.allot,
           spillb := BitVec.ofNat 64 b.spillb, busy := false }] }))
    else match bindingCrew s b with
      | some c => some (loadWarp s l b c.id)
      | none => match placeMemory s b.clus l.record.cmsize with
        | none => none
        | some base =>
          let (id, t) := freshId s
          some (loadWarp { t with crews := insertCrew (newCrew t l b id base) t.crews } l b id)

/-- The records waiting in a cluster's ring consumed in order, as far as room allows. -/
def bindAll (clus : Nat) (s : State) : List (BitVec 256) → State
  | [] => s
  | r :: rs =>
    let wait : State := let t := focusOn s 0 0 clus; { t with clus := { t.clus with binds := r :: rs } }
    match ctxOfCluster s clus with
    | none => bindAll clus (refuseBind s r) rs
    | some c =>
      let u := focusOn s 0 c.id clus
      match bindOne u r with
      | none => wait
      | some t => bindAll clus (if (bindLaunch u (bindOf r)).isSome then capture t 2 (natLE r.toNat 32) else t) rs

/-- The records of a cluster's ring taken out and consumed. -/
def drainRing (s : State) (clus : Nat) (more : List (BitVec 256)) : State :=
  let t := focusOn s 0 0 clus
  bindAll clus { t with clus := { t.clus with binds := [] } } (t.clus.binds ++ more)

/-- The first cluster whose waiting records can go on. -/
def drainFirst (s : State) : List Cluster → Option State
  | [] => none
  | c :: cs =>
    let t := drainRing s c.id []
    if (findCluster (pack t).cluss c.id).binds = c.binds then drainFirst s cs else some t

/-- Entries of a cluster's ring of bind records (R335). -/
def ringSize : Nat := 256

/-- BIND_RECORD (R335): the SMC writes a record into its cluster's ring, if an entry is free, and dispatch consumes what
it can; in replay mode the SMC binds nothing of its own (R391). An empty one stands for dispatch looking at the rings
again, whose records may wait for crew memory (R379). -/
def bindRecordEvent (record : BitVec 256) (s : State) : Option State :=
  if (bindOf record).op = 0 then drainFirst s (pack s).cluss
  else if s.dev.replay || ringSize ≤ (findCluster (pack s).cluss (bindOf record).clus).binds.length then none
  else some (drainRing s (bindOf record).clus [record])

def execBindRecord (record : BitVec 256) (s : State) : Out := event (bindRecordEvent record s) s

/-- A service core's writer id (R177). -/
def serviceWid (core : Nat) : Nat := 0xF00 + core

/-- What replay capture keeps of a service store: the cell's address, the payload and the outcome (R390; log 63). -/
def storeRecord (cell : Nat) (payload : Payload) (outcome : Bool) : List Byte :=
  natLE (majBase + 32 * cell) 8 ++ natLE payload.toNat 32 ++ [if outcome then 1 else 0]

/-- A service operation is a store that replay capture keeps: a token-ready update is one where READY is to rise (R243,
R390). -/
def ServiceOp.stores (s : State) (o : ServiceOp) : Bool :=
  match o.kind with
  | .mst | .mcas | .hold => true
  | .mld => false
  | .trsig => (match cellValue s o.cell with
    | some v => decide (readyOf v < (o.payload.extractLsb' 0 64).toNat)
    | none => true)

/-- A service operation stores whatever others store before it, its MCAS repeated while it is superseded (R243, R345). -/
def ServiceKind.repeats : ServiceKind → Bool
  | .trsig | .hold => true
  | .mld | .mst | .mcas => false

/-- STATE of a commit record (R246). -/
def recordState (v : Payload) : Nat := bitsOf v.toNat 32 8

/-- A commit record made HELD, its other fields kept (R345). -/
def holdRecord (s : State) (cell wid : Nat) : MajRes :=
  match majLoad s cell with
  | .done _ v t =>
    majCas t cell wid (v.extractLsb' 0 64) (BitVec.ofNat 256 (v.toNat - recordState v * 2 ^ 32 + 3 * 2 ^ 32))
  | r => r

/-- What precedes what an operation releases: what the crew had done that sent it before a KILL, or what the service core
has done so far (R179, R256). -/
def ServiceOp.before (s : State) (o : ServiceOp) : Past :=
  o.past.getD { who := .service (o.core.getD 0), lanes := allLanes, core := 512 + o.core.getD 0, time := s.writes }

/-- The ordering of an operation that has been answered: every one but MST acquires for its core, and one that stores
releases (R179, R297, R341). -/
def serviceOrder (s : State) (o : ServiceOp) (stored : Bool) : State :=
  let t := match o.core with
    | some c => if o.kind = .mst then s else receive s (sget [] s.cellPasts o.cell) [.lanes (.service c) allLanes]
    | none => s
  if !stored || o.kind == .mld then t
  else
    let p := o.before t
    let u := spread { t with writes := t.writes + 1 } [.released] (fun e => e.before p)
    if o.kind = .trsig then u else releaseCell u o.cell (o.kind != .mst) p

/-- The reads and stores of a service operation, from the store phase on where it has read its tag (R178, R341). -/
def serviceWork (s : State) (o : ServiceOp) : MajRes :=
  match o.kind, o.tag with
  | .mld, _ => majLoad s o.cell
  | .trsig, _ => raiseReady s o.cell o.wid (o.payload.extractLsb' 0 64) (o.before s)
  | .hold, _ => holdRecord s o.cell o.wid
  | _, some tag => storePhase s o.cell o.wid tag o.payload
  | .mst, none => majStore s o.cell o.wid o.payload
  | .mcas, none => majCas s o.cell o.wid o.expect o.payload

/-- An earlier store of the operation's quadrant or core on its cell is in flight (R176). -/
def serviceBusy (s : State) (o : ServiceOp) : Bool :=
  (s.services.takeWhile (fun u => u != o)).any (fun u => u.wid == o.wid && u.cell == o.cell) ||
    s.trsigs.any (fun u => warpWid u.warp == o.wid && u.cell == o.cell && decide (u.since ≤ o.since)) ||
    (quadSplits s o.wid).any (fun p => p.phase.isSome && storesOn o.cell p)

/-- The end of a service operation, a store or not: its core hears of it, and a store is captured, whatever its outcome
(R178, R341, R390). -/
def endService (s : State) (o : ServiceOp) (stores answered outcome : Bool) (payload : Payload) : State :=
  let t := { s with services := s.services.erase o }
  match o.core with
  | none => t
  | some c =>
    let u := { t with dev := { t.dev with serviceReplies := t.dev.serviceReplies ++
      [{ core := c, cell := o.cell, kind := o.kind, answered := answered, outcome := outcome, payload := payload }] } }
    if stores then
      captureAll u 3 (storeRecord o.cell (if o.kind.repeats then payload else o.payload) outcome)
    else u

/-- A record to be made HELD is none of IDLE, DECIDED and COMMITTING, and is left as it is (R345). -/
def holdIdle (s : State) (o : ServiceOp) : Bool :=
  o.kind == .hold && (match cellValue s o.cell with
    | some v => decide (2 < recordState v)
    | none => false)

/-- A service operation gone on with: it ends, or waits for its replies, at most 65,536 clocks (R176, R341). -/
def advanceService (s : State) (o : ServiceOp) : State :=
  let stop : State := endService s o (o.stores s) false false 0
  if tooFew s o.cell then stop
  else if serviceBusy s o then s
  else if holdIdle s o then { s with services := s.services.erase o }
  else match serviceWork s o with
    | .done b v t =>
      let u := serviceOrder t o b
      if b || !o.kind.repeats then endService u o (o.stores s) true b v else u
    | .fail => stop
    | .wait => if o.since + majLimit ≤ s.cycle.toNat then stop else s

/-- Every service operation gone on with, in order. -/
def advanceServices (s : State) : State := s.services.foldl advanceService s

/-- A service core's operation on a cell of the region issued (R341). -/
def serviceOp (s : State) (core cell : Nat) (kind : ServiceKind) (expect : DWord) (payload : Payload) : Option State :=
  if 32 ≤ core || majEnd s.shape ≤ majBase + 32 * cell then none
  else
    let o : ServiceOp := { core := some core, wid := serviceWid core, cell := cell, kind := kind, expect := expect
                           payload := payload, since := s.cycle.toNat, tag := none, past := none }
    some (advanceService { s with services := s.services ++ [o] } o)

def serviceMldEvent (core cell : Nat) (s : State) : Option State := serviceOp s core cell .mld 0 0

def execServiceMld (core cell : Nat) (s : State) : Out := event (serviceMldEvent core cell s) s

def serviceMstEvent (core cell : Nat) (payload : Payload) (s : State) : Option State :=
  serviceOp s core cell .mst 0 payload

def execServiceMst (core cell : Nat) (payload : Payload) (s : State) : Out := event (serviceMstEvent core cell payload s) s

def serviceMcasEvent (core cell : Nat) (expect : DWord) (payload : Payload) (s : State) : Option State :=
  serviceOp s core cell .mcas expect payload

def execServiceMcas (core cell : Nat) (expect : DWord) (payload : Payload) (s : State) : Out :=
  event (serviceMcasEvent core cell expect payload s) s

/-- SERVICE_TRSIG_UPDATE (R341): READY raised, bytes 8 to 31 kept. -/
def serviceTrsigUpdateEvent (core cell : Nat) (value : DWord) (s : State) : Option State :=
  serviceOp s core cell .trsig 0 (value.setWidth 256)

def execServiceTrsigUpdate (core cell : Nat) (value : DWord) (s : State) : Out :=
  event (serviceTrsigUpdateEvent core cell value s) s

end Sys2Proof.Machine
end

