-- ==== Sys2Proof/Machine/Preempt.lean ====
section
/-! DEFINITION. What the service and firmware do to crews and contexts: budgets, RESUME and KILL, pre-emption with its two
saves, the darkslide, restore and restart, creation and destruction (01 R38, R39, R44; 07 R223; 08 R254 to R256, R265 to
R269; 16 R340). -/

namespace Sys2Proof.Machine

/-- The focused crew's warp with the lowest number. -/
def firstMember (s : State) : Warp :=
  (members s).foldl (fun b w => if !b.live || decide (w.index < b.index) then w else b) Warp.blank

/-- A running crew has no clocks left. -/
def Crew.spent (c : Crew) : Bool := c.state == .running && c.budget == some 0

/-- BUDGET_EXPIRY (R255): the first crew whose count has reached 0 is parked; no TRAP register is written. -/
def budgetExpiryEvent (s : State) : Option State :=
  match s.allCrews.find? Crew.spent with
  | none => none
  | some c =>
    let t := focusCrew s c.id
    some (parkIdle t cBudget (firstMember t))

def execBudgetExpiry (s : State) : Out := event (budgetExpiryEvent s) s

/-- The window slid back until DEPTH = TDEPTH - 1 (R254). The bound is the greatest depth. -/
def unwindLoop : Nat → State → Except Nat State
  | 0, s => .ok s
  | n + 1, s =>
    if s.sp.depth < s.w.tdepth then .ok s
    else match slideDown s with
      | .error a => .error a
      | .ok t => unwindLoop n t

/-- A split at TRAPPC: ready there whatever it waited for, but for one that a debugger has stopped, which stays stopped with
its PC there (R254, R260). -/
def Split.continuedAt (p : Split) (pc : DWord) (sig : Word) : Split :=
  let q := { p.cleared with sig := sig, level := 0, pc := pc }
  if p.state = .stopped then { q with state := .stopped, stoppedIn := .ready } else q

/-- A handler's split unwound as TRET would (R254). -/
def unwindSplit (s : State) : Except Nat State :=
  match unwindLoop 256 s with
  | .error a => .error a
  | .ok t => .ok { t with w := { t.w with mode := t.w.savedMode }
                          sp := t.sp.continuedAt t.w.trappc t.w.savedSig }

/-- A split of the focused warp at level 1 unwound, in the table or, where it has been moved there, in the overflow block
(R144, R254); or the split and the address where its fills fault. -/
def unwindOne (s : State) : Except (Split × Nat) State :=
  match s.w.splits.find? (fun p => p.alive && p.level != 0) with
  | some p =>
    (match unwindSplit (takeSplit s p.slot) with
     | .error a => .error (p, a)
     | .ok t => .ok (packSplit t))
  | none => match s.w.overflow.find? (fun p => p.alive && p.level != 0) with
    | none => .ok s
    | some p => match unwindSplit { s with sp := p } with
      | .error a => .error (p, a)
      | .ok t => .ok { t with sp := Split.blank, w := { t.w with overflow := t.w.overflow.map (fun q => if q = p then t.sp else q) } }

/-- The focused warp's splits at level 1 unwound, one after another: those of a handler that has divided, too (R254). The
bound is the number of its splits. -/
def unwindSplits : Nat → State → Except (Split × Nat) State
  | 0, s => .ok s
  | n + 1, s => match unwindOne s with
    | .error e => .error e
    | .ok t => unwindSplits n t

def unwindWarp (s : State) : Except (Split × Nat) State := unwindSplits (s.w.splits.length + s.w.overflow.length) s

/-- The handlers of some warps unwound in turn; the first that faults, with its warp, split and address. -/
def unwindAll : List Nat → State → Except (Nat × Split × Nat) State
  | [], s => .ok s
  | w :: rest, s => match unwindWarp (focusWarp s w) with
    | .error (p, a) => .error (w, p, a)
    | .ok t => unwindAll rest t

/-- A split at level 0 that nothing holds. -/
def Split.freed (p : Split) : Split := { p with level := 0, held := false }

/-- Every split and warp of a crew released, at level 0 (R254). -/
def releaseCrew (s : State) (crew : Nat) : State :=
  let t := pack s
  focusCrew { t with
    warps := t.warps.map (fun w => if w.crew = crew then
      { w with splits := w.splits.map Split.freed, overflow := w.overflow.map Split.freed } else w)
    crews := t.crews.map (fun c => if c.id = crew then { c with holder := none } else c) } crew

/-- The crew runs again; a BUDGET parking takes the new budget (R255). -/
def resumed (s : State) (crew : Nat) (budget : DWord) : State :=
  let t := releaseCrew s crew
  { t with crew := { t.crew with
      state := .running
      budget := if t.crew.parkCause = cBudget then (if budget = 0 then none else some budget) else t.crew.budget } }

/-- RESUME (R254). A WINDOW fault of the unwinding leaves everything as it was before any unwinding, in other warps too: the
spec does not say (log 17). -/
def resumeEvent (crew : Nat) (budget : DWord) (s : State) : Option State :=
  let t := focusCrew s crew
  if !t.crew.live || t.crew.state != .parked then none
  else if t.crew.parkKind ≠ .level1 then some (resumed t crew budget)
  else match unwindAll ((t.warpsOf crew).map (fun w => w.id)) t with
    | .ok u => some (resumed u crew budget)
    | .error (w, p, a) =>
      let u := focusWarp t w
      some (logEvent { u with crew := { u.crew with parkCause := cWindow, parkPc := p.pc } } u.w
        { cause := cWindow, where_ := whereOf p, flags := fgParked, pc := p.pc, trapv := BitVec.ofNat 64 a })

def execResume (crew : Nat) (budget : DWord) (s : State) : Out := event (resumeEvent crew budget s) s

/-- The majority operation that a split with its operands in focus has sent and waits for, to run on without it, with what
precedes its release; none where an earlier store of its quadrant still holds it back (R176, R179, R256). -/
def sentOp (s : State) : Option ServiceOp :=
  let op : ServiceKind → DWord → Payload → ServiceOp := fun kind expect payload =>
    { core := none, wid := warpWid s.w, cell := argCell s, kind := kind, expect := expect, payload := payload
      since := s.sp.since, tag := s.sp.phase.map (fun ph => ph.tag), past := some (pastNow s) }
  if s.sp.state ≠ .waiting || s.sp.doomed || (s.sp.phase.isNone && cellBusy s (argCell s)) then none
  else match s.sp.wait with
    | some (.mld _ _ _) | some (.trwait _ _) | some (.frule _ _) => some (op .mld 0 0)
    | some (.mst _ _ _ _) => some (op .mst 0 (argPayload s 2))
    | some (.mcas _ _ _ _ _) => some (op .mcas (argN s 2) (argPayload s 3))
    | _ => none

/-- The operations that the splits of a warp have sent (R256). -/
def sentOps (s : State) (id : Nat) : List ServiceOp :=
  let t := focusWarp s id
  (byAge (t.w.splits ++ t.w.overflow)).filterMap (fun p => sentOp { t with
    sp := p
    w := { t.w with splits := t.w.splits.filter (fun q => q != p), overflow := t.w.overflow.filter (fun q => q != p) } })

/-- The lanes that wait for a dispatch warp's unfinished items stranded (R269). -/
def loseItems (s : State) (w : Warp) : State :=
  (w.handles.zipIdx.filter (fun h => !(w.exited ||| w.strand).getLsbD h.2)).foldl (fun t h =>
    let u := focusWarp t h.1.warp
    if u.w.live then loseItem u h.1.lane else u) s

/-- The focused crew's engine work discarded: its tasks, its rings and what fills them (R256). -/
def discardWork (s : State) : State :=
  let t := (List.range 8).foldl discardRing s
  { t with clus := { t.clus with tasks := t.clus.tasks.filter (fun x => x.crew != t.crew.id) } }

/-- The focused crew's dispatch slot freed. -/
def freeDispatchSlot (s : State) (w : Warp) : State :=
  onLaunch s w.launch (fun l => { l with dispSlots := l.dispSlots.map (fun d =>
    if d.clus = w.clus && d.core = w.core && d.quad = w.quad && d.place = w.place then { d with busy := false } else d) })

/-- KILL (R256). -/
def killEvent (crew : Nat) (s : State) : Option State :=
  let t := focusCrew s crew
  if !t.crew.live || !(t.crew.state == .running || t.crew.state == .parked) then none
  else
    let w := firstMember t
    let parked := t.crew.state == .parked
    let s1 := logEvent t w { cause := if parked then t.crew.parkCause else 0, where_ := whereOldest w
                             flags := fgKilled + (if parked then fgParked else 0), pc := oldestPc w, trapv := 0 }
    let sent := (s1.warpsOf crew).flatMap (fun x => sentOps s1 x.id)
    let s3 := { s1 with services := s1.services ++ sent }
    let s4 := abortRecords s3 s3.crew.records.length
    let s5 := discardWork s4
    let gone := s5.warpsOf crew
    let s6 := { s5 with warps := s5.warps.filter (fun x => x.crew != crew) }
    if s6.crew.dispatch then
      let s7 := { freeDispatchSlot s6 w with crew := { s6.crew with live := false, state := .ended } }
      some (gone.foldl loseItems s7)
    else some (endCrew s6)

def execKill (crew : Nat) (s : State) : Out := event (killEvent crew s) s

/-- Clocks in a microsecond (R265). -/
def clocksPerUs : Nat := 1050

/-- PREEMPT_REQUEST: a deadline in microseconds, 0 for the context's own (R265), or an address at which a forced save is
armed (R330). A context has one such address: a later command replaces an earlier one, where the spec is silent (log 98). -/
def preemptRequestEvent (ctx : Nat) (time : SaveTime) (s : State) : Option State :=
  match focusCtx s ctx, time with
  | none, _ => none
  | some t, .reaching a => some { t with ctx := { t.ctx with armed := some a } }
  | some t, .within us =>
    if t.ctx.place ≠ .running || t.ctx.preempt.isSome || 1000 < us then none
    else
      let d := if us = 0 then t.ctx.deadline else us * clocksPerUs
      some { t with ctx := { t.ctx with preempt := some (t.cycle.toNat + d) } }

def execPreemptRequest (ctx : Nat) (time : SaveTime) (s : State) : Out := event (preemptRequestEvent ctx time s) s

/-- The live crews of the focused context. -/
def ctxCrews (s : State) : List Crew := s.allCrews.filter (fun c => c.ctx == s.ctx.id)

/-- A crew may take a light save (R44, R265). -/
def lightReady (s : State) (c : Crew) : Bool :=
  !c.dispatch && (s.warpsOf c.id).all (fun w => w.atSafePoint) &&
    (pack s).cluss.all (fun k => k.tasks.all (fun t => t.crew != c.id))

/-- The first of some events that can happen. -/
def firstOf (s : State) (fs : List (State → Option State)) : Option State := fs.findSome? (fun f => f s)

/-- Work of an engine carried on until none is left; the bound is never reached by the work there is. -/
def runOut (f : State → Option State) : Nat → State → State
  | 0, s => s
  | n + 1, s => match f s with
    | some t => runOut f n t
    | none => s

/-- The next work of a tap. -/
def tapWork (tap : Nat) (s : State) : Option State :=
  firstOf s [fduRootReadEvent tap, fduIntakeEndEvent tap, fduEncoderTaskDoneEvent tap, fduSelectDoneEvent tap,
    fduWritebackEvent tap, fduRuleUnitEvent tap, fduFaultEvent tap]

/-- The taps of a context. -/
def tapsOf (s : State) (ctx : Nat) : List Tap := (s.allCtxs.filter (fun c => c.id == ctx)).flatMap (fun c => c.taps)

/-- The next work on the taps of a context, their encoder tasks among it. -/
def tapsWork (ctx : Nat) (s : State) : Option State :=
  firstOf s ((tapsOf s ctx).flatMap (fun t => [tapWork t.id, fun u => startEncoder u t.clus]))

/-- The steps the taps of a context can take at most. -/
def tapSteps (s : State) (ctx : Nat) : Nat :=
  (tapsOf s ctx).foldl (fun n t => n + 10 + t.desc.nrows * (t.desc.f + 80)) 0

/-- The next work on the copies of a cluster (R198): each command runs to its end or its first fault. -/
def copyWork (clus : Nat) (s : State) : Option State :=
  let n := (findCluster (pack s).cluss clus).copies.length
  firstOf s ((List.range n).map (chunkFilledEvent clus) ++ (List.range n).map (copyFaultEvent clus) ++
    [fun t => startCopy t clus])

/-- The judgement of the majority instruction that the split in focus waits in. -/
def majorityTry (s : State) : Option (Instr × Res) :=
  match s.sp.wait with
  | some (.mld d k l) => some (.mld d k l, mldTry d s)
  | some (.mst d k l p) => some (.mst d k l p, mstTry p s)
  | some (.mcas d e k l p) => some (.mcas d e k l p, mcasTry d p s)
  | some (.frule a b) => some (.frule a b, fruleTry s)
  | _ => none

/-- The majority instruction that the split in focus waits in goes on at a save, and completes if it can, with the trap that
an FRULE raises of its own; one that reaches MAJFAIL keeps that trap pending (R266; log 60). -/
def completeMajority (s : State) : State :=
  match majorityTry s with
  | some (_, .wait u) => u
  | some (i, .trap c v pc u) =>
    if c = cMajfail then { s with sp := { s.sp with doomed := true, phase := none } } else finish i true (.trap c v pc u)
  | some (i, r) => finish i true r
  | none => s

/-- A majority instruction that the save has not completed for want of replies has MAJFAIL pending (R266; log 60). -/
def failMajority (s : State) : State :=
  if (majorityTry s).isSome then { s with sp := { s.sp with doomed := true, phase := none } } else s

/-- A change of the splits of a warp that wait in majority instructions, those of its overflow block among them. -/
def eachMajority (f : State → State) (s : State) (id : Nat) : State :=
  let t := focusWarp s id
  let u := (byAge (t.w.splits.filter awaitsMajority)).foldl (fun v p => onSplit v p.slot f) t
  (List.range u.w.overflow.length).foldl (fun v n => onOverflow v n f) u

/-- The majority work outstanding at a save gone on with: instructions, TRSIG updates, and what killed crews have sent, which
hold one another back (R176, R266). -/
def majorityRound (ids : List Nat) (s : State) : State :=
  let t := ids.foldl (eachMajority completeMajority) s
  advanceServices (t.trsigs.foldl (fun u x => (finishTrsig u x).getD u) t)

/-- What waits for a majority in the whole machine: at most so many rounds complete it, each operation's read and store
phases in rounds of their own. -/
def majorityRounds (s : State) : Nat :=
  2 * ((s.allWarps.flatMap (fun w => (w.splits ++ w.overflow).filter awaitsMajority)).length + s.trsigs.length +
    s.services.length + 1)

/-- The majority instructions of some warps completed at a save (R266). -/
def completeMajorities (s : State) (ids : List Nat) : State :=
  ids.foldl (eachMajority failMajority) ((List.range (majorityRounds s)).foldl (fun t _ => majorityRound ids t) s)

/-- The clusters of the focused context's partition. -/
def ctxClusters (s : State) : List Nat := (List.range 4).map (fun i => s.ctx.part * 4 + i)

/-- An NLBIN completes at a save, or reaches its fault: the first on its descriptor has an engine by then (R227, R266). -/
def completeBin (s : State) (o : NleOp) : State :=
  let t := match s.nles.find? (fun x => x.id == o.id) with
    | some x =>
      if x.engine.isNone && x.fault.isNone && (opsOf s x.ctx x.addr).head?.map (fun y => y.id) == some x.id then
        onOp (enterEngine s x) x.id (fun y => { y with engine := some (y.engine.getD 0) })
      else s
    | none => s
  (firstOf t [nlbinCompleteEvent o.id, nleFaultEvent o.id]).getD t

/-- Work outstanding at a save settled (R198, R266): majority instructions, TRSIG updates, NLBINs, taps, copies. -/
def settleWork (s : State) : State :=
  let ctx := s.ctx.id
  let s1 := completeMajorities s ((s.allWarps.filter (fun w => w.ctx == ctx)).map (fun w => w.id))
  let s2 := (s1.nles.filter (fun o => o.ctx == ctx && o.kind == .bin)).foldl completeBin s1
  let s3 := runOut (tapsWork ctx) (tapSteps s2 ctx) s2
  focusOn ((ctxClusters s).foldl (fun t k => runOut (copyWork k) 20000 t) s3) 0 ctx 0

/-- A task discarded at a row-group boundary (R223). -/
def discardTask (ctx clus : Nat) (s : State) (t : Task) : State :=
  let u := dropTask (writeStatus (focusOn s t.crew ctx clus) t 7 0) t
  { u with crew := { u.crew with discarded := true } }

/-- Every task of the context discarded (R223). -/
def discardTasks (s : State) : State :=
  let ctx := s.ctx.id
  focusOn ((ctxClusters s).foldl (fun t k =>
    ((findCluster (pack t).cluss k).tasks.filter (fun x => x.ctx == ctx)).foldl (discardTask ctx k) t) s) 0 ctx 0

/-- Every register of some lanes' allotments unpredictable, and p1 to p7 false (R21, R44, R268). -/
def Warp.scrambled (w : Warp) (draw : Nat) : Warp :=
  { w with
    preds := []
    marks := []
    wild := (List.range 32).foldl (fun m l => (List.range w.allot).foldl (fun m q => sset 0 m (l * 256 + q) (draw + 1)) m) [] }

/-- Lanes neither stranded nor ended. -/
def Warp.remaining (w : Warp) : Mask := ~~~(w.strand ||| w.exited)

/-- A split table with one split at an address (R44, R268). -/
def Warp.restartedAt (w : Warp) (pc : DWord) (age cycle : Nat) : Warp :=
  { w with
    splits := if w.remaining = 0 then [] else
      [{ Split.blank with state := .ready, pc := pc, active := w.remaining, entry := w.remaining, age := age,
                          lastIssue := cycle }]
    overflow := [] }

/-- A warp after a light save (R44). -/
def Warp.lightSaved (w : Warp) (draw age cycle : Nat) : Warp :=
  { (w.scrambled draw).restartedAt (oldestPc w + 4) age cycle with atSafePoint := false }

/-- Keys of the tile slices of a partition. -/
def inPartition (part key : Nat) : Bool :=
  decide (sliceBase (part * 4) ≤ key) && decide (key < sliceBase (part * 4 + 4))

/-- A split as a save keeps it: its outstanding accesses are complete (R266). -/
def Split.settled (p : Split) : Split := { p with out := [] }

/-- A warp as a full save keeps it (R266). -/
def Warp.fullSaved (w : Warp) : Warp :=
  { w with atSafePoint := false, splits := w.splits.map Split.settled, overflow := w.overflow.map Split.settled }

/-- What the focused context's save keeps, its crews' light saves made (R5, R44, R266, R384). -/
def imageOf (s : State) (light : List Nat) : Image :=
  let ids := (ctxCrews s).map (fun c => c.id)
  let per : {α : Type} → (Cluster → List α) → List (Nat × α) := fun f =>
    (pack s).cluss.flatMap (fun k => (f k).map (fun x => (k.id, x)))
  { crews := ctxCrews s
    warps := (s.allWarps.filter (fun w => w.ctx == s.ctx.id)).map (fun w =>
      if light.contains w.crew then w.lightSaved s.env.free (s.nextAge + w.index) s.cycle.toNat
      else w.fullSaved)
    copies := per (fun k => k.copies.filter (fun c => ids.contains c.crew))
    items := per (fun k => k.items.filter (fun i => i.ctx == s.ctx.id))
    grows := per (fun k => (k.grows.filter (fun g => ids.contains g.crew)).map (fun g =>
      { g with since := s.cycle.toNat - g.since }))
    mem := s.mem.filter (fun e => inPartition s.ctx.part e.1)
    poison := s.poison.filter (fun n => inPartition s.ctx.part (n * 32))
    spillPoison := s.spillPoison.filter (fun n => inPartition s.ctx.part (n * 4)) }

/-- The focused context saved and out of its partition, some of its crews lightly; its accesses have then been performed
for every agent (R265, R266). -/
def saveCtx (s : State) (light : List Nat) : State :=
  let t := settleMem (settleWork (discardTasks s)) s.ctx.id
  let ids := (ctxCrews t).map (fun c => c.id)
  let img := imageOf t light
  let p := forgetKeys (pack t) (inPartition t.ctx.part)
  focusOn { p with
    warps := p.warps.filter (fun w => w.ctx != t.ctx.id)
    crews := p.crews.filter (fun c => c.ctx != t.ctx.id)
    cluss := p.cluss.map (fun k => { k with
      copies := k.copies.filter (fun c => !ids.contains c.crew), items := k.items.filter (fun i => i.ctx != t.ctx.id)
      grows := k.grows.filter (fun g => !ids.contains g.crew) })
    ctxs := p.ctxs.map (fun c => if c.id = t.ctx.id then
      { c with place := .saved, preempt := none, image := some img } else c)
    mem := p.mem.filter (fun e => !inPartition t.ctx.part e.1)
    poison := p.poison.filter (fun n => !inPartition t.ctx.part (n * 32))
    spillPoison := p.spillPoison.filter (fun n => !inPartition t.ctx.part (n * 4))
    nles := p.nles.map (fun o => if o.ctx = t.ctx.id then { o with engine := none } else o)
    nextAge := p.nextAge + 32
    env := { p.env with free := p.env.free + 1 } } 0 t.ctx.id 0

/-- The crews of the focused context that take a light save. -/
def lightCrews (s : State) : List Nat := ((ctxCrews s).filter (lightReady s)).map (fun c => c.id)

/-- A split of the focused context reaches the address at which its save is armed: a full save (R330). -/
def armedAt (s : State) : Bool := s.ctx.armed == some s.sp.pc

/-- A context is to be saved now (R265). -/
def saveDue (s : State) (c : Ctx) : Bool :=
  match c.preempt with
  | none => false
  | some d =>
    let t := focusOn s 0 c.id 0
    decide (d ≤ t.cycle.toNat) || (ctxCrews t).all (lightReady t)

/-- PREEMPT_DEADLINE (R265): a context is saved when its deadline expires, or earlier when every crew is held at a safe
point. -/
def preemptDeadlineEvent (s : State) : Option State :=
  match s.allCtxs.find? (saveDue s) with
  | none => none
  | some c => let t := focusOn s 0 c.id 0
    some (saveCtx t (lightCrews t))

def execPreemptDeadline (s : State) : Out := event (preemptDeadlineEvent s) s

/-- A context runs in a partition. -/
def partitionBusy (s : State) (part : Nat) : Bool := s.allCtxs.any (fun c => c.part == part && c.place == .running)

/-- DARKSLIDE_SWAP (R5, R340; log 71), while no context runs in the partition, so that its cores have halted: a saved
context goes to its partition's darkslide, one already there moving to the second tier; a context there, or in the
second tier, comes back. With a context running there the swap changes nothing. -/
def darkslideSwapEvent (ctx : Nat) (s : State) : Option State :=
  match focusCtx s ctx with
  | none => none
  | some t => if partitionBusy t t.ctx.part then none else match t.ctx.place with
    | .running => none
    | .saved =>
      some { t with
        ctx := { t.ctx with place := .darkslide }
        ctxs := t.ctxs.map (fun c =>
          if c.part = t.ctx.part && c.place == .darkslide then { c with place := .secondTier } else c) }
    | _ => some { t with ctx := { t.ctx with place := .saved } }

def execDarkslideSwap (ctx : Nat) (s : State) : Out := event (darkslideSwapEvent ctx s) s

/-- A split as a restore leaves it (R267): a sleep is over, a TRWAIT issues again with its hash taken out of SIG, as the one
instruction of a debugger's step that it has not completed (R261), and waits begin anew. -/
def Split.restored (p : Split) (cycle : Nat) : Split :=
  match p.state, p.wait with
  | .sleeping, _ => { p with wake := 0 }
  | .waiting, some (.trwait _ _) =>
    { p with state := .ready, wait := none, args := [], sig := p.sigWas, stepping := min 1 p.stepping }
  | .waiting, some (.mld _ _ _) | .waiting, some (.mst _ _ _ _) | .waiting, some (.mcas _ _ _ _ _)
  | .waiting, some (.frule _ _) =>
    { p with since := cycle }
  | _, _ => p

/-- A warp restarted at its label (R268). -/
def Warp.restarted (w : Warp) (draw age cycle : Nat) : Warp :=
  { (w.scrambled draw).restartedAt w.rlabel age cycle with k := w.snap, notes := [], stranded := 0, atSafePoint := false }

/-- The focused crew restarted under R38 and R268. A crew that was parked stays parked (R254). -/
def restartCrew (s : State) : State :=
  { s with
    warps := s.warps.map (fun w => if w.crew = s.crew.id then
      w.restarted s.env.free (s.nextAge + w.index) s.cycle.toNat else w)
    nextAge := s.nextAge + 32
    env := { s.env with free := s.env.free + 1 }
    crew := { s.crew with
      bars := s.crew.bars.map (fun b => { b with arrived := [], expect := none }), holder := none
      parkKind := if s.crew.state = .parked then .noInstruction else s.crew.parkKind } }

/-- The focused crew parked with TASKFLT for want of a restart, its warps' TRAP registers written (R38, R269). -/
def parkTaskflt (s : State) : State :=
  let t := { s with warps := s.warps.map (fun w => if w.crew = s.crew.id then
    { w with trapc := cTaskflt, trapv := 0, trappc := oldestPc w } else w) }
  parkIdle t cTaskflt (firstMember t)

/-- The fate of a crew whose tile work was discarded (R38, R254, R269). -/
def afterDiscard (s : State) : State :=
  let t := { s with crew := { s.crew with discarded := false } }
  if !s.crew.discarded then s
  else if !t.crew.dispatch && (members t).all (fun w => w.rlabel != 0) then restartCrew t
  else if t.crew.state = .parked then
    logEvent t (firstMember t) { cause := cTaskflt, where_ := whereOldest (firstMember t), flags := fgParked
                                 pc := oldestPc (firstMember t), trapv := 0 }
  else parkTaskflt t

/-- Entries of an image put back into a cluster. -/
def ofCluster {α : Type} (id : Nat) (xs : List (Nat × α)) : List α := (xs.filter (fun x => x.1 == id)).map (fun x => x.2)

/-- A packed machine with an image put back. -/
def putImage (s : State) (ctx : Ctx) (img : Image) : State :=
  let c := s.cycle.toNat
  let clusters := (List.range 4).map (fun i => findCluster s.cluss (ctx.part * 4 + i))
  let filled := clusters.map (fun k => { k with
    copies := k.copies ++ ofCluster k.id img.copies, items := k.items ++ ofCluster k.id img.items
    grows := k.grows ++ (ofCluster k.id img.grows).map (fun g => { g with since := c - g.since }) })
  { s with
    warps := img.warps.foldl (fun ws w => insertWarp { w with
      splits := w.splits.map (fun p => p.restored c), overflow := w.overflow.map (fun p => p.restored c) } ws) s.warps
    crews := img.crews.foldl (fun cs x => insertCrew x cs) s.crews
    cluss := filled.foldl (fun ks k => insertCluster k (ks.filter (fun x => x.id != k.id))) s.cluss
    mem := img.mem.foldl (fun m e => sset 0 m e.1 e.2) s.mem
    poison := img.poison.foldl (fun ps n => ninsert n ps) s.poison
    spillPoison := img.spillPoison.foldl (fun ps n => ninsert n ps) s.spillPoison }

/-- CONTEXT_RESTORE (R267, R268). -/
def contextRestoreEvent (ctx : Nat) (s : State) : Option State :=
  match focusCtx s ctx with
  | none => none
  | some t =>
    if t.ctx.place ≠ .saved || partitionBusy t t.ctx.part then none
    else
      let img := t.ctx.image.getD { crews := [], warps := [], copies := [], items := [], grows := [], mem := [], poison := [], spillPoison := [] }
      let p := pack { t with ctx := { t.ctx with place := .running, image := none } }
      some ((img.crews.map (fun c => c.id)).foldl (fun u c => afterDiscard (focusCrew u c)) (putImage p t.ctx img))

def execContextRestore (ctx : Nat) (s : State) : Out := event (contextRestoreEvent ctx s) s

/-- CONTEXT_CREATION (R39): the context runs if its partition is free, and is saved, with nothing in it, if not. -/
def contextCreationEvent (partition : Nat) (ctxid : BitVec 16) (root : Nat) (s : State) : Option State :=
  if 8 ≤ partition then none
  else
    let p := pack s
    let (id, t) := freshId p
    some { t with ctxs := insertCtx { Ctx.blank with
      id := id, live := true, ctxid := ctxid, part := partition, root := root
      place := if partitionBusy p partition then .saved else .running } t.ctxs }

def execContextCreation (partition : Nat) (ctxid : BitVec 16) (root : Nat) (s : State) : Out :=
  event (contextCreationEvent partition ctxid root s) s

/-- CONTEXT_DESTRUCTION (R394): the context goes, and everything of it that still runs with it. -/
def contextDestructionEvent (ctx : Nat) (s : State) : Option State :=
  match focusCtx s ctx with
  | none => none
  | some t =>
    let ids := (ctxCrews t).map (fun c => c.id)
    let p := settleMem (pack t) ctx
    let taps := t.ctx.taps.map (fun x => x.id)
    some { p with
      ctxs := p.ctxs.filter (fun c => c.id != ctx)
      warps := p.warps.filter (fun w => w.ctx != ctx)
      crews := p.crews.filter (fun c => c.ctx != ctx)
      nles := p.nles.filter (fun o => o.ctx != ctx)
      nleStats := p.nleStats.filter (fun x => x.ctx != ctx)
      cluss := p.cluss.map (fun k => { k with
        tasks := k.tasks.filter (fun x => x.ctx != ctx), encoders := k.encoders.filter (fun x => !taps.contains x.tap)
        items := k.items.filter (fun i => i.ctx != ctx)
        copies := k.copies.filter (fun c => !ids.contains c.crew), grows := k.grows.filter (fun g => !ids.contains g.crew) }) }

def execContextDestruction (ctx : Nat) (s : State) : Out := event (contextDestructionEvent ctx s) s

end Sys2Proof.Machine
end

