-- ==== Sys2Proof/Machine/Events.lean ====
section
/-! DEFINITION. Events of the issue hardware and the debugger: completions, the overflow exchange, notifications, sleeps,
words that are no instruction, fetch faults, stops and steps (03 R88, R89; 05 R131, R144, R154; 08 R249, R260, R261; 11
R313; 19 R382, R383). -/

namespace Sys2Proof.Machine

/-- LONG_LATENCY_COMPLETE (R131): the oldest outstanding instruction of the issuing split completes; its destinations
already hold their values. -/
def longLatencyCompleteEvent (s : State) : Option State :=
  match s.sp.out with
  | [] => none
  | _ :: rest => some { s with sp := { s.sp with out := rest } }

def execLongLatencyComplete (s : State) : Out := event (longLatencyCompleteEvent s) s

/-- Clocks after which a split of the overflow block is exchanged (R144). -/
def overflowLimit : Nat := 512

/-- A split to which R144 applies: one that no debugger has stopped (R260). -/
def Split.movable (p : Split) : Bool := p.state != .stopped

/-- A split of the overflow block has waited long enough (R144). -/
def Split.overdue (p : Split) (cycle : Nat) : Bool := p.movable && decide (p.lastIssue + overflowLimit ≤ cycle)

/-- Some split of a warp's overflow block has waited long enough, and some entry of its table may make room for it. -/
def Warp.overdue (w : Warp) (cycle : Nat) : Bool :=
  w.overflow.any (fun p => p.overdue cycle) && w.splits.any (fun p => p.alive && p.movable)

/-- The table entry that has gone longest without issuing makes room for a split of the overflow block (R144). -/
def swapIn (s : State) (p : Split) : State :=
  let t := evict s Split.movable
  match freeSlot t with
  | none => t
  | some slot =>
    { t with w := { t.w with
      splits := insertSplit { p with slot := slot, lastIssue := t.cycle.toNat } t.w.splits, overflow := t.w.overflow.erase p } }

/-- SPLIT_OVERFLOW_EXCHANGE (R144): of the splits that have waited long enough, the one that entered the block first. -/
def splitOverflowExchangeEvent (s : State) : Option State :=
  match (pack s).warps.find? (fun w => w.overdue s.cycle.toNat) with
  | none => none
  | some w =>
    let t := focusWarp s w.id
    (t.w.overflow.find? (fun p => p.overdue s.cycle.toNat)).map (swapIn t)

def execSplitOverflowExchange (s : State) : Out := event (splitOverflowExchangeEvent s) s

/-- The oldest ready split of a warp that nothing holds, in the table or the overflow block (R249). -/
def oldestReady (w : Warp) : Option Split :=
  oldestSplit ((w.splits ++ w.overflow).filter (fun p => p.alive && p.state == .ready && !p.held))

/-- A change made with a split of a warp as the issuing one, wherever it is kept. -/
def atSplit (s : State) (id : Nat) (p : Split) (f : State → State) : State :=
  if p.slot < 16 then f (focusSplit s id p.slot)
  else
    let t := focusWarp s id
    onOverflow t (t.w.overflow.findIdx (fun q => q == p)) f

/-- A notification of a warp may be delivered: its crew runs, no kind F handler holds it, none of its splits is at level
1, and one is ready (R249, R250). -/
def noteReady (s : State) (w : Warp) : Bool :=
  let c := findCrew (pack s).crews w.crew
  !w.notes.isEmpty && c.state == .running && (c.holder.isNone || c.holder == some w.id) &&
    (w.splits ++ w.overflow).all (fun p => !p.alive || p.level == 0) && (oldestReady w).isSome

/-- NOTIFICATION_DELIVERY (R249, R263): the warp's first notification traps its oldest ready split. -/
def notificationDeliveryEvent (s : State) : Option State :=
  match (pack s).warps.find? (noteReady s) with
  | none => none
  | some w => match oldestReady w, w.notes with
    | some p, some v :: rest =>
      some (atSplit s w.id p (fun t => takeTrap { t with w := { t.w with notes := rest } } cWatch v t.sp.pc))
    | some p, none :: rest =>
      some (atSplit s w.id p (fun t => takeTrap { t with w := { t.w with notes := rest, stranded := 0 } } cStrand
        (t.w.stranded.setWidth 64) t.sp.pc))
    | _, _ => none

def execNotificationDelivery (s : State) : Out := event (notificationDeliveryEvent s) s

/-- A sleeping split whose time has come. -/
def sleepOver (cycle : Nat) (p : Split) : Bool := p.alive && p.state == .sleeping && decide (p.wake ≤ cycle)

/-- SLEEP_WAKE (R154): the split is ready again after its SLEEP; a stop that waited for that takes it (R260, R261). -/
def sleepWakeEvent (s : State) : Option State :=
  match (pack s).warps.find? (fun w => w.splits.any (sleepOver s.cycle.toNat)) with
  | none => none
  | some w => match w.splits.find? (sleepOver s.cycle.toNat) with
    | none => none
    | some p => some (stopSteps (advance (wake (focusSplit s w.id p.slot))))

def execSleepWake (s : State) : Out := event (sleepWakeEvent s) s

/-- REFUSED_WORD (R88): a word that matches no instruction raises the cause of the first check it fails. A privileged
SWR that is no instruction fails step 2 before step 3. -/
def refusedWordEvent (word : Word) (s : State) : Option State :=
  match decode word with
  | .ok _ => none
  | .error r => some (takeTrap s (match r with | .illegal => cIllegal | .operand => cOperand) (word.setWidth 64) s.sp.pc)

def execRefusedWord (word : Word) (s : State) : Out := event (refusedWordEvent word s) s

/-- A fetch of the word at an address: its memory key, or the cause (R41, R89, R385). -/
def fetchKey (s : State) (va : Nat) : Check :=
  if 2 ^ 56 ≤ va then .bad cProt
  else match translate s va with
    | .page => .bad cPage
    | .prot => .bad cProt
    | .ok p =>
      if !p.x || p.maj || p.tile then .bad cProt
      else if poisonedRange s p.key 4 then .bad cEccfatal
      else .ok p.key

/-- The word at the issuing split's PC, or the cause its fetch raises. -/
def fetchWord (s : State) : Except Byte Word :=
  match fetchKey s s.sp.pc.toNat with
  | .bad c => .error c
  | .ok key => .ok (wordOfBytes (bytesAt s.mem key 4))

/-- INSTRUCTION_FETCH_FAULT (R89). -/
def instructionFetchFaultEvent (s : State) : Option State :=
  match fetchWord s with
  | .error c => some (takeTrap s c s.sp.pc s.sp.pc)
  | .ok _ => none

def execInstructionFetchFault (s : State) : Out := event (instructionFetchFaultEvent s) s

/-- A freeze of a split: it stops at its next instruction boundary, at once where it stands at one; the cause and value of
its stop record are not stated (R260; log 61). -/
def freezeSplit (s : State) : State :=
  if s.sp.state = .stopped then s
  else
    let n := s.env.free
    let t := { s with env := { s.env with free := n + 2 } }
    let c : Byte := (Config.freeDWord n).setWidth 8
    let v := Config.freeDWord (n + 1)
    if s.sp.state = .ready then stopSplit t c v s.sp.pc else { t with sp := { t.sp with freeze := some (c, v) } }

/-- Every split of a warp frozen, those of its overflow block among them. -/
def freezeWarp (s : State) (id : Nat) : State :=
  let t := focusWarp s id
  let u := (t.w.splits.filter Split.alive).foldl (fun v p => onSplit v p.slot freezeSplit) t
  (List.range u.w.overflow.length).foldl (fun v n => onOverflow v n freezeSplit) u

/-- The warps a freeze names. -/
def frozenWarps (s : State) (scope : FreezeScope) (target : Nat) : List Nat :=
  (s.allWarps.filter (fun w => match scope with
    | .warp => w.id == target
    | .crew => w.crew == target
    | .context => w.ctx == target)).map (fun w => w.id)

/-- DEBUG_FREEZE (R260). -/
def debugFreezeEvent (scope : FreezeScope) (target : Nat) (s : State) : Option State :=
  match frozenWarps s scope target with
  | [] => none
  | ids => some (ids.foldl freezeWarp s)

def execDebugFreeze (scope : FreezeScope) (target : Nat) (s : State) : Out := event (debugFreezeEvent scope target s) s

/-- A change of a stopped split, in the table or, from number 16 on, in the overflow block; none where it is no such
split. -/
def onStopped (s : State) (warp slot : Nat) (f : State → State) : Option State :=
  if slot < 16 then
    let t := focusSplit s warp slot
    if t.w.live && t.sp.alive && t.sp.state == .stopped then some (f t) else none
  else
    let t := focusWarp s warp
    match t.w.overflow[slot - 16]? with
    | some p => if p.alive && p.state == .stopped then some (onOverflow t (slot - 16) f) else none
    | none => none

/-- The split goes on in the state its stop interrupted. -/
def unstop (s : State) : State := { s with sp := { s.sp with state := s.sp.stoppedIn, stoppedIn := .free } }

/-- DEBUG_STEP (R261): one instruction may issue; a split that waits in one stops when it completes. -/
def debugStepEvent (warp slot : Nat) (s : State) : Option State :=
  onStopped s warp slot (fun t =>
    { unstop t with sp := { (unstop t).sp with stepping := if t.sp.stoppedIn = .ready then 1 else 2 } })

def execDebugStep (warp slot : Nat) (s : State) : Out := event (debugStepEvent warp slot s) s

/-- DEBUG_CONTINUE (R260). -/
def debugContinueEvent (warp slot : Nat) (s : State) : Option State := onStopped s warp slot unstop

def execDebugContinue (warp slot : Nat) (s : State) : Out := event (debugContinueEvent warp slot s) s

/-- The split in focus has reached a breakpoint of its context that holds for its warp, and neither is it making a step nor
has that breakpoint stopped it already (R261, R313, R321). -/
def breakAt (s : State) : Bool :=
  s.sp.stepping != 1 && s.sp.pass != some s.sp.pc &&
    s.ctx.breaks.any (fun b => b.addr == s.sp.pc && (b.member.isNone || b.member == some s.w.index))

/-- A breakpoint stops the split in focus before the word at its PC issues; the manual names no cause and no value for it
(R313; log 61). -/
def stopAtBreak (s : State) : State :=
  let t := freezeSplit s
  { t with sp := { t.sp with pass := some s.sp.pc } }

/-- DEBUG_BREAKPOINT_HIT (R313, R321): the debugger sets a breakpoint, or a ready split that has reached one stops. -/
def debugBreakpointHitEvent (warp : Option Nat) (place : BreakPlace) (s : State) : Option State :=
  match place, warp with
  | .address ctx addr, member => (focusCtx s ctx).map (fun t =>
      { t with ctx := { t.ctx with breaks := t.ctx.breaks ++ [⟨addr, member⟩] } })
  | .split _, none => none
  | .split slot, some warp =>
    let t := focusSplit s warp slot
    if t.w.live && t.sp.alive && t.sp.state == .ready && breakAt t then some (stopAtBreak t) else none

def execDebugBreakpointHit (warp : Option Nat) (place : BreakPlace) (s : State) : Out :=
  event (debugBreakpointHitEvent warp place s) s

/-- SCOREBOARD_MISMATCH (R382, R383): the squashed instructions have changed nothing a program can see and are reissued;
the squash is counted, and after 16 in a row the quadrant is marked failing. -/
def scoreboardMismatchEvent (quadrant : Nat) (s : State) : Option State :=
  if 1024 ≤ quadrant then none
  else
    let n := sget 0 s.dev.squashRun quadrant + 1
    let t := raiseCount s (quadrant / 32) nSquash 1
    some { t with dev := { t.dev with
      squashRun := sset 0 t.dev.squashRun quadrant n
      failing := if 16 ≤ n then ninsert quadrant t.dev.failing else t.dev.failing } }

def execScoreboardMismatch (quadrant : Nat) (s : State) : Out := event (scoreboardMismatchEvent quadrant s) s

end Sys2Proof.Machine
end

