-- ==== Sys2Proof/Machine/Device.lean ====
section
/-! DEFINITION. The package around the clusters: the majority sets' scrubber and rebuild, stacks, translations, the
Breakwater, boot and attestation, the contact sheet, replay capture, the service cores' ordinary accesses, DMA, remote
accesses, egress marking, power and heat (16 R341, R344, R345; 18 R372 to R376; 19 R387 to R395). -/

namespace Sys2Proof.Machine

/-- Copy lines of a set on one stack (R376). -/
def setLines : Nat := 2 ^ 22

/-- The newest line held by a cell's serving stacks, sent to every one of them under the accept rule; the poisoned lines
among them are repaired (R376). -/
def repairCell (s : State) (cell : Nat) : State :=
  match (serving s cell).filter (fun k => (lineAt s k cell).holds) with
  | [] => s
  | ks => sendAll s cell (highestLine s cell ks) (serving s cell)

/-- SCRUB_VISIT (R376): the set's next cell, round and round; passes are counted (R388). -/
def scrubVisitEvent (set : Nat) (s : State) : Option State :=
  if setCount s.shape ≤ set then none
  else
    let n := sget 0 s.scrub set
    let t := repairCell s (n * setCount s.shape + set)
    let passes := sget 0 t.dev.scrubPasses set + (n + 1) / setLines
    some { t with
      scrub := sset 0 t.scrub set ((n + 1) % setLines)
      scrubbed := sset 0 t.scrubbed set (sget 0 t.scrubbed set + 1)
      dev := { t.dev with scrubPasses := sset 0 t.dev.scrubPasses set passes } }

def execScrubVisit (set : Nat) (s : State) : Out := event (scrubVisitEvent set s) s

/-- The stacks of a set that are being rebuilt. -/
def rebuildingIn (s : State) (set : Nat) : List Nat :=
  (setStacks s set).filter (fun k => s.hbm[k]? == some .rebuilding)

/-- REBUILD_VISIT (R374): at the end of the pass the set's stacks are in service. -/
def rebuildVisitEvent (set : Nat) (s : State) : Option State :=
  if setCount s.shape ≤ set || (rebuildingIn s set).isEmpty then none
  else
    let n := sget 0 s.rebuild set
    let u := repairCell s (n * setCount s.shape + set)
    let t := { u with rebuilt := sset 0 u.rebuilt set (sget 0 u.rebuilt set + 1) }
    if n + 1 < setLines then some { t with rebuild := sset 0 t.rebuild set (n + 1) }
    else some { t with
      rebuild := serase t.rebuild set
      hbm := t.hbm.zipIdx.map (fun x => if (rebuildingIn t set).contains x.2 then .inService else x.1) }

def execRebuildVisit (set : Nat) (s : State) : Out := event (rebuildVisitEvent set s) s

/-- Visits of a set's scrubber that have come due, one every 256 clocks (R376; log 2). -/
def scrubsDue (s : State) (set : Nat) : Nat := (s.cycle.toNat + 4 - set) / 256

/-- Visits of a set's rebuild pass that have come due, one every 64 clocks (R374; log 2). -/
def rebuildsDue (s : State) (set : Nat) : Nat := (s.cycle.toNat + 8 - set) / 64

/-- A set's scrubber brought up to the clock. -/
def scrubSet (s : State) (set : Nat) : State :=
  (List.range (scrubsDue s set - sget 0 s.scrubbed set)).foldl (fun t _ => (scrubVisitEvent set t).getD t) s

/-- A set's rebuild pass brought up to the clock; visits that found nothing to rebuild are over. -/
def rebuildSet (s : State) (set : Nat) : State :=
  let t := if (rebuildingIn s set).isEmpty then s
           else (List.range (rebuildsDue s set - sget 0 s.rebuilt set)).foldl (fun u _ => (rebuildVisitEvent set u).getD u) s
  { t with rebuilt := sset 0 t.rebuilt set (rebuildsDue s set) }

/-- The visits of every set that are due. -/
def visitCells (s : State) : State :=
  (List.range (setCount s.shape)).foldl (fun t set => rebuildSet (scrubSet t set) set) s

/-- A tap's outstanding MLD of its root ends in MAJFAIL where too few stacks of the root's set are left (R235, R375). -/
def failRoot (s : State) (tap : Nat) : State :=
  match focusTap s tap with
  | none => s
  | some (u, t) =>
    if t.stage ≠ .root || t.root.isSome then s
    else match checkCell u needR t.desc.ruleroot.toNat with
      | .bad _ => s
      | .ok key => if tooFew u (cellOf key) then holdTap u t cMajfail t.desc.ruleroot.toNat else s

/-- Lines on their way to some stacks never arrive (R374). -/
def dropLines (s : State) (gone : List Nat) : State :=
  { s with flying := s.flying.filter (fun f => !gone.contains f.1) }

/-- STACK_RETIRE (R374), of a spare too: what has been sent to it never arrives; operations outstanding on a set that is left with too few stacks raise MAJFAIL
(R375). -/
def stackRetireEvent (stack : Nat) (s : State) : Option State :=
  match s.hbm[stack]? with
  | some .inService | some .rebuilding | some .spare =>
    let t := doomSplits (dropLines { s with hbm := s.hbm.set stack .retired } [stack])
    some ((t.allCtxs.flatMap (fun c => c.taps.map (fun x => x.id))).foldl failRoot t)
  | _ => none

def execStackRetire (stack : Nat) (s : State) : Out := event (stackRetireEvent stack s) s

/-- The set a stack belongs to, or stands in for. -/
def setOfStack (s : State) (stack : Nat) : Option Nat :=
  (List.range (setCount s.shape)).find? (fun set => (setStacks s set).contains stack)

/-- A stack into service with every copy line reading VALID = 0, and the rebuild pass of its set from its first cell
(R374). -/
def serveStack (s : State) (stack : Nat) : State :=
  { s with
    hbm := s.hbm.set stack .rebuilding
    majority := s.majority.filter (fun e => e.1 / setLines != stack)
    cleared := ninsert stack s.cleared
    rebuild := match setOfStack s stack with
      | some set => serase s.rebuild set
      | none => s.rebuild }

/-- The spares that stand in for a stack, one for another. The bound is the number of stacks. -/
def standChain (s : State) : Nat → Nat → List (Nat × Nat)
  | 0, _ => []
  | n + 1, stack => match s.spares.find? (fun p => p.1 == stack) with
    | some p => p :: standChain s n p.2
    | none => []

/-- STACK_RETURN (R374; log 62): a retired stack returns to its own place, the spares that stood in for it going back, and a
retired spare that has no place any more is a spare again; what was on its way to such a spare never arrives; or a spare
takes the place of a retired stack that no spare stands in for. -/
def stackReturnEvent (stack place : Nat) (s : State) : Option State :=
  match s.hbm[stack]? with
  | some .retired =>
    if place ≠ stack then none
    else
      let ps := standChain s 12 stack
      let t := dropLines { s with
        hbm := s.hbm.zipIdx.map (fun x => if ps.any (fun p => p.2 == x.2) && x.1 != .retired then .spare else x.1)
        spares := s.spares.filter (fun p => !ps.contains p) } (ps.map (fun p => p.2))
      some (if (setOfStack t stack).isSome then serveStack t stack else { t with hbm := t.hbm.set stack .spare })
  | some .spare =>
    if s.hbm[place]? == some .retired && (setOfStack s place).isSome then
      some (serveStack { s with spares := s.spares ++ [(place, stack)] } stack)
    else none
  | _ => none

def execStackReturn (move : StackMove) (s : State) : Out := event (stackReturnEvent move.stack move.place s) s

/-- Some leaf entry below a table, with the size of its page, meets a condition (R369, R370). -/
def anyLeaf (s : State) (p : Nat → Nat → Bool) : List WalkLevel → Nat → Bool
  | [], _ => false
  | lv :: rest, table => (List.range (2 ^ lv.width)).any (fun i =>
    let e := readKey s (table + 8 * i) 8
    bitsOf e 0 1 == 1 && (if bitsOf e 7 1 == 1 then lv.leaf && p e (2 ^ lv.lo)
                          else anyLeaf s p rest (bitsOf e 8 44 * 256)))

/-- A context is sealed: it is, or has been, mapped to a page with SEAL = 1 (R394). -/
def ctxSealed (s : State) (c : Ctx) : Bool := c.sealedCtx || anyLeaf s (fun e _ => bitsOf e 59 1 == 1) walkLevels c.root

/-- A context maps some byte of a physical range. -/
def ctxMaps (s : State) (c : Ctx) (pa size : Nat) : Bool :=
  anyLeaf s (fun e n => let base := bitsOf e 8 44 * 256; decide (base < pa + size) && decide (pa < base + n)) walkLevels c.root

/-- A physical range holds memory of a sealed context (R394). -/
def sealedRange (s : State) (pa size : Nat) : Bool := s.allCtxs.any (fun c => ctxSealed s c && ctxMaps s c pa size)

/-- The contexts that have become sealed kept so (R394). -/
def noteSeals (s : State) : State :=
  { s with
    ctx := if s.ctx.live then { s.ctx with sealedCtx := ctxSealed s s.ctx } else s.ctx
    ctxs := s.ctxs.map (fun c => { c with sealedCtx := ctxSealed s c }) }

/-- A majority operation of a context that has translated an address of a range is outstanding: an instruction, a TRSIG or
fault-log update, or what a killed crew has sent. A TRWAIT translates it anew at each MLD (R372). -/
def majorityIn (s : State) (r : Nat × Nat × Nat) : Bool :=
  let inRange : Warp → Split → Bool := fun w p => p.alive && awaitsMajority p &&
    (match p.wait with
     | some (.trwait _ _) => false
     | _ => covers w.ctx (p.args.getD 1 0).toNat r)
  s.allWarps.any (fun w => (w.splits ++ w.overflow).any (inRange w)) ||
    s.trsigs.any (fun u => covers u.warp.ctx u.addr.toNat r) ||
    s.logs.any (fun j => covers j.ctx j.addr r) || s.services.any (fun o => o.core.isNone)

/-- An invalidation completes once every access translated by an old entry has been performed: no translation of the
range is made by one again, and the context's writes are performed for every agent (R372). -/
def finishInvalidation (s : State) (r : Nat × Nat × Nat) : State :=
  if majorityIn s r then s
  else settleMem { s with
    invalidations := s.invalidations.erase r
    oldEntries := s.oldEntries.map (fun o => { o with done := o.done ++ [r] }) } r.1

/-- The invalidations under way that can complete. -/
def finishInvalidations (s : State) : State := s.invalidations.foldl finishInvalidation s

/-- TRANSLATION_INVALIDATE (R372): begun, and completed at once where nothing it waits for is outstanding. -/
def translationInvalidateEvent (ctx : Nat) (va : DWord) (size : Nat) (s : State) : Option State :=
  if s.allCtxs.any (fun c => c.id == ctx) then
    some (finishInvalidations (noteSeals { s with
      invalidations := s.invalidations ++ [(ctx, va.toNat, va.toNat + size)] }))
  else none

def execTranslationInvalidate (ctx : Nat) (va : DWord) (size : Nat) (s : State) : Out :=
  event (translationInvalidateEvent ctx va size s) s

/-- A refused write counted, with the counts of cluster 0, as it belongs to none (R388, R393; log 32). -/
def refuseWrite (s : State) : State := raiseCount s 0 nRefusal 1

/-- A write that is made if it keeps its limit (R393). -/
def limited (s : State) (ok : Bool) (t : State) : State := if ok then t else refuseWrite s

/-- A quota's fields are in their ranges (R333, R351). -/
def quotaOk (ceiling slots deadline tapeng : Nat) : Bool :=
  decide (ceiling ≤ 7) && decide (slots ≤ 16) && decide (1 ≤ deadline) && decide (deadline ≤ 1000) &&
    decide (1 ≤ tapeng) && decide (tapeng ≤ 4)

/-- A page-table entry written by firmware, its old value kept until an invalidation completes (R372). -/
def writeEntry (s : State) (pa : Nat) (v : DWord) : State :=
  noteSeals (writeKey { s with
    oldEntries := { key := pa, value := readKey s pa 8, done := [] } :: s.oldEntries } pa (natLE v.toNat 8))

/-- FIRMWARE_LIMIT_WRITE (R393). -/
def firmwareLimitWriteEvent (limit : Limit) (s : State) : Option State :=
  match limit with
  | .keyStorage | .majorityShape _ | .hostWindow _ _ => some (refuseWrite s)
  | .pageEntry pa v =>
    if pa % 8 = 0 && physOk s.shape pa 8 then some (writeEntry s pa v) else none
  | .packageCap w =>
    some (limited s (decide (w ≤ s.dev.bootCap)) { s with dev := { s.dev with packageCap := w } })
  | .dieCap die w =>
    if 2 ≤ die then none
    else some (limited s (decide (w ≤ s.dev.bootCap)) { s with dev := { s.dev with dieCaps := s.dev.dieCaps.set die w } })
  | .quota ctx ceiling slots mask deadline tapeng =>
    match focusCtx s ctx with
    | none => none
    | some t => some (limited t (quotaOk ceiling slots deadline tapeng) { t with ctx := { t.ctx with
        ceiling := ceiling, warpSlots := slots, quotaMask := mask, deadline := deadline * clocksPerUs, tapeng := tapeng } })

def execFirmwareLimitWrite (limit : Limit) (s : State) : Out := event (firmwareLimitWriteEvent limit s) s

/-- A section of the contact sheet: its head and its entries (R388). -/
def sheetSection (kind size : Nat) (entries : List (List Byte)) : List Byte :=
  natLE kind 4 ++ natLE entries.length 4 ++ natLE size 4 ++ natLE 0 4 ++ entries.flatten

/-- n bytes of a record from an offset. -/
def bytesOfRecord (bs : List Byte) (off n : Nat) : List Byte := (bs.drop off).take n

/-- An image's entry: KIND, VERSION, SVN and the digest's first 20 bytes, in the order R388 names them (log 32). -/
def imageEntry (img : List Byte) : List Byte :=
  bytesOfRecord img 0 4 ++ bytesOfRecord img 4 4 ++ bytesOfRecord img 8 4 ++ bytesOfRecord img 16 20

/-- A sheet's entry: n32 fields in the order R388 names them, then zeros up to its size (log 32). -/
def entryOf (size : Nat) (fields : List Nat) : List Byte :=
  let bs := fields.flatMap (fun v => natLE v 4)
  bs ++ List.replicate (size - bs.length) 0

/-- A stack's entry: state, rebuild cursor, corrected and uncorrected count. -/
def stackEntry (s : State) (k : Nat) : List Byte :=
  let state := match s.hbm[k]? with
    | some .retired => 1 | some .rebuilding => 2 | some .spare => 3 | _ => 0
  let cursor := match setOfStack s k with
    | some set => if s.hbm[k]? == some .rebuilding then sget 0 s.rebuild set else 0
    | none => 0
  entryOf 16 [state, cursor, sget 0 s.dev.corrected k, sget 0 s.dev.uncorrected k]

/-- A majority set's entry: scrub passes, scrub cursor, poisoned lines repaired. -/
def setEntry (s : State) (set : Nat) : List Byte :=
  entryOf 16 [sget 0 s.dev.scrubPasses set, sget 0 s.scrub set, sget 0 s.dev.linesRepaired set]

/-- The context a partition's entry shows: the one that runs, else one being saved, else one in the darkslide or the
second tier. -/
def shownCtx (s : State) (part : Nat) : Option Ctx :=
  let pick : CtxPlace → Option Ctx := fun x => s.allCtxs.find? (fun c => c.part == part && c.place == x)
  ((pick .running).or (pick .saved)).or ((pick .darkslide).or (pick .secondTier))

/-- A partition's entry: CTXID, state, the quota of R333, TAPENG. -/
def partitionEntry (s : State) (part : Nat) : List Byte :=
  match shownCtx s part with
  | none => entryOf 32 []
  | some c =>
    let state := match c.place with
      | .running => 1 | .saved => 2 | .darkslide => 3 | .secondTier => 4
    entryOf 32 [c.ctxid.toNat, state, c.ceiling, c.warpSlots, c.quotaMask.toNat, c.deadline / clocksPerUs, c.tapeng]

/-- A launch's entry: CTXID, launch id, state, crews bound, crews ended. -/
def launchEntry (c : Ctx) (l : Launch) : List Byte :=
  entryOf 32 [c.ctxid.toNat, l.id, if l.unbindable then 2 else if l.admitted then 1 else 0, l.nextCrew, l.crewsEnded]

/-- HEAD and LHEAD of a crew's fault-log root (R257). -/
def logHeads (s : State) (c : Crew) : Nat × Nat :=
  let t := focusOn s 0 c.ctx 0
  match checkCell t needR c.flog.toNat with
  | .bad _ => (0, 0)
  | .ok key => match cellValue t (cellOf key) with
    | some v => if c.flog = 0 then (0, 0) else (bitsOf v.toNat 0 32, bitsOf v.toNat 32 32)
    | none => (0, 0)

/-- A crew's entry: CTXID, launch id, CREW, CLUS, state, cause and PC of its first parking, BUDGET, fault-log root, HEAD
and LHEAD; the 64-bit fields follow the others. -/
def crewEntry (s : State) (saved : Bool) (c : Crew) : List Byte :=
  let ctxid := ((s.allCtxs.find? (fun x => x.id == c.ctx)).map (fun x => x.ctxid.toNat)).getD 0
  let parked := c.state == .parked
  let heads := logHeads s c
  entryOf 24 [ctxid, c.launch, c.number.toNat, c.clus, if saved then 2 else if parked then 1 else 0,
    if parked then c.parkCause.toNat else 0] ++
  natLE (if parked then c.parkPc.toNat else 0) 8 ++ natLE ((c.budget.map (fun b => b.toNat)).getD (2 ^ 64 - 1)) 8 ++
  natLE c.flog.toNat 8 ++ natLE heads.1 4 ++ natLE heads.2 4 ++ natLE 0 8

/-- A cluster's entry: entries in use of its task, copy and callee queues and its bind ring, and its failing quadrants
(R383). -/
def clusterEntry (s : State) (c : Nat) : List Byte :=
  let k := findCluster (pack s).cluss c
  let mask := (List.range 32).foldl (fun m q => if s.dev.failing.contains (c * 32 + q) then m + 2 ^ q else m) 0
  entryOf 64 [k.tasks.length, k.copies.length, k.items.length, k.binds.length, mask]

/-- A cluster's counts, saturating. -/
def counterEntry (s : State) (c : Nat) : List Byte :=
  (List.range 8).flatMap (fun n => natLE (min (countOf s c n) (2 ^ 64 - 1)) 8) ++ List.replicate 64 0

/-- A context's entry on replay capture: CTXID, state (0 off, 1 on, 2 stopped), buffer, length and bytes used (R390). -/
def captureEntry (c : Ctx) : List Byte :=
  match c.capture with
  | none => entryOf 32 [c.ctxid.toNat]
  | some k => entryOf 8 [c.ctxid.toNat, if k.stopped then 2 else 1] ++ natLE k.buffer 8 ++ natLE k.size 8 ++ natLE k.used 8

/-- A crew that the sheet lists: one that runs or is parked; a dispatch warp, which belongs to none, where it is parked
(R254, R269, R388). -/
def Crew.listed (c : Crew) : Bool := c.state == .parked || (!c.dispatch && c.state == .running)

/-- The crews of a sheet, then those of saved contexts; each with whether it is saved. -/
def sheetCrews (s : State) : List (Bool × Crew) :=
  (s.allCrews.filter Crew.listed).map (fun c => (false, c)) ++
    (s.allCtxs.flatMap (fun c => match c.image with
      | some i => i.crews.filter (fun x => !x.dispatch || x.state == .parked)
      | none => [])).map (fun c => (true, c))

/-- The nine sections of a sheet (R388, R389). -/
def sheetBody (s : State) : List Byte :=
  sheetSection 1 32 (s.dev.accepted.map imageEntry) ++
    sheetSection 2 16 ((List.range 12).map (stackEntry s)) ++
    sheetSection 3 16 ((List.range (setCount s.shape)).map (setEntry s)) ++
    sheetSection 4 32 ((List.range 8).map (partitionEntry s)) ++
    sheetSection 5 32 (s.allCtxs.flatMap (fun c => c.launches.map (launchEntry c))) ++
    sheetSection 6 64 ((sheetCrews s).map (fun x => crewEntry s x.1 x.2)) ++
    sheetSection 7 64 ((List.range 32).map (clusterEntry s)) ++
    sheetSection 8 128 ((List.range 32).map (counterEntry s)) ++
    sheetSection 9 32 (s.allCtxs.map captureEntry)

/-- Some context's replay capture has stopped (R390). -/
def capStopped (s : State) : Bool := s.allCtxs.any (fun c => match c.capture with
  | some k => k.stopped
  | none => false)

/-- The header of a sheet (R388). -/
def sheetHeader (s : State) (trunc : Bool) (length : Nat) : List Byte :=
  let flags := (if trunc then 1 else 0) + (if capStopped s then 2 else 0) + (if s.dev.boot == .recovery then 4 else 0)
  natLE 0 12 ++ natLE 1 4 ++ natLE s.dev.devid.toNat 8 ++ natLE s.shape 4 ++ natLE flags 4 ++
    natLE 9 4 ++ natLE length 4 ++ natLE (s.dev.sheetSeq + 1) 8 ++ natLE s.cycle.toNat 8 ++ natLE s.cycle.toNat 8

/-- Bytes that leave the package, oldest first. -/
def send (s : State) (bs : List Byte) : State := { s with dev := { s.dev with outbox := s.dev.outbox ++ [bs] } }

/-- CONTACT (R387 to R389): the sheet, then the completion word, whose value is not stated. -/
def contactEvent (buffer length : Nat) (s : State) : Option State :=
  let body := sheetBody s
  let need := 64 + body.length
  let trunc := decide (length < need)
  let bs := sheetHeader s trunc need ++ (if trunc then [] else body)
  if buffer % 4096 ≠ 0 || length < 64 || !physOk s.shape buffer length then none
  else
    let n := s.env.free
    let t := writeKey s buffer bs
    some (send { t with dev := { t.dev with sheetSeq := t.dev.sheetSeq + 1 }, env := { t.env with free := n + 1 } }
      (natLE (Config.freeDWord n).toNat 8))

def execContact (buffer length : Nat) (s : State) : Out := event (contactEvent buffer length s) s

/-- CAPTURE_ENABLE (R390): into a buffer of the second tier. -/
def captureEnableEvent (ctx buffer length : Nat) (s : State) : Option State :=
  match focusCtx s ctx with
  | none => none
  | some t =>
    let c : Capture := { buffer := buffer, size := length, used := 0, stopped := false, replayed := none }
    if tier2Base ≤ buffer && buffer + length ≤ tier2End then some { t with ctx := { t.ctx with capture := some c } }
    else none

def execCaptureEnable (ctx buffer length : Nat) (s : State) : Out := event (captureEnableEvent ctx buffer length s) s

/-- The next bind record of a recorded buffer from an offset, with the offset after it; records end where the buffer
does, or where no record begins (R390, R391). The bound is the number of records the buffer may hold. -/
def nextBind (s : State) (c : Capture) : Nat → Nat → Option (BitVec 256 × Nat)
  | 0, _ => none
  | n + 1, pos =>
    let kind := readKey s (c.buffer + pos) 4
    if c.size < pos + 32 || kind = 0 || 5 < kind then none
    else
      let len := readKey s (c.buffer + pos + 4) 4
      let next := pos + 32 + (len + 31) / 32 * 32
      if kind = 2 then some (BitVec.ofNat 256 (readKey s (c.buffer + pos + 32) 32), next)
      else nextBind s c n next

/-- The replay of a recorded buffer that a context is in, or begins (R391). -/
def replayOf (c : Ctx) (buffer length : Nat) : Capture :=
  match c.capture with
  | some k => if k.replayed.isSome && k.buffer = buffer && k.size = length then k
              else { buffer := buffer, size := length, used := 0, stopped := false, replayed := some 0 }
  | none => { buffer := buffer, size := length, used := 0, stopped := false, replayed := some 0 }

/-- REPLAY (R391): the SMC is in replay mode, and consumes the next bind record of a recorded buffer of the second
tier in place of its policy; once there is none, the mode ends. -/
def replayEvent (ctx buffer length : Nat) (s : State) : Option State :=
  match focusCtx s ctx with
  | none => none
  | some t =>
    if buffer < tier2Base || tier2End < buffer + length then none
    else
      let c := replayOf t.ctx buffer length
      match nextBind t c (length / 32 + 1) (c.replayed.getD 0) with
      | none => some { t with dev := { t.dev with replay := false }, ctx := { t.ctx with capture := some c } }
      | some (r, pos) =>
        some (drainRing { t with
          dev := { t.dev with replay := true }
          ctx := { t.ctx with capture := some { c with replayed := some pos } } } (bindOf r).clus [r])

def execReplay (r : Recording) (s : State) : Out := event (replayEvent r.ctx r.buffer r.length s) s

/-- Parameter p of the accepted LM-OTS types: one-time signature chains (R392; RFC 8554, log 33). -/
def otsChains (code : Nat) : Nat := if code = 3 then 67 else 34

/-- A number of big-endian bytes. -/
def beNat (bs : List Byte) : Nat := leNat bs.reverse

/-- The LMS signature carries the header's type codes, and they are of the accepted types (R392; log 33). -/
def lmsTypesOk (img sig : List Byte) : Bool :=
  let ots := recNat img 168 2
  let lms := recNat img 170 2
  (ots == 3 || ots == 4) && (lms == 6 || lms == 7 || lms == 8) &&
    beNat (bytesOfRecord sig 4 4) == ots && beNat (bytesOfRecord sig (40 + 32 * otsChains ots) 4) == lms

/-- An image is accepted as one of a kind (R392). -/
def imageOk (s : State) (kind : Nat) (img : List Byte) : Bool :=
  let head := img.take 64
  let len := recNat img 12 4
  let off := recNat img 160 4
  let sig := bytesOfRecord img off (recNat img 164 4)
  recNat img 0 4 == kind && decide (256 + len ≤ img.length) && decide (256 + len ≤ off) &&
    decide (off + recNat img 164 4 ≤ img.length) && lmsTypesOk img sig &&
    Config.ecdsaVerifies head (bytesOfRecord img 64 96) && Config.lmsVerifies kind head sig &&
    Config.sha384 (bytesOfRecord img 256 len) == bytesOfRecord img 16 48 &&
    decide (s.dev.minSvn.getD (kind - 1) 0 ≤ recNat img 8 4)

/-- The image of a kind that verifies, from bank A or else from bank B (R392). -/
def chooseImage (s : State) (kind : Nat) : Option (List Byte) :=
  [s.dev.bankA.getD (kind - 1) [], s.dev.bankB.getD (kind - 1) []].find? (imageOk s kind)

/-- What the security firmware sets once it is accepted: the partitions' PA windows, and the windows it grants the host
(R392, R393; log 36). -/
def setWindows (s : State) : State :=
  { s with dev := { s.dev with partWindows := Config.partWindows, hostWindows := Config.hostWindows } }

/-- The boot: the three images verified in order, or recovery (R392). -/
def bootFrom (s : State) : State :=
  match chooseImage s 1, chooseImage s 2, chooseImage s 3 with
  | some a, some b, some c => setWindows { s with dev := { s.dev with boot := .running, accepted := [a, b, c] } }
  | some a, some b, none => setWindows { s with dev := { s.dev with boot := .recovery, accepted := [a, b] } }
  | some a, none, _ => setWindows { s with dev := { s.dev with boot := .recovery, accepted := [a] } }
  | none, _, _ => { s with dev := { s.dev with boot := .recovery } }

/-- The machine after a device reset: flash, fuses and the world's inputs stay, and the shape the security firmware sets
is free (R373, R392; log 36). -/
def resetKeeping (s : State) : State :=
  let five := Config.freeBool s.env.free
  { State.reset with
    shape := if five then 5 else 3
    hbm := (List.range 12).map (fun k => if five && decide (10 ≤ k) then .spare else .inService)
    dev := { Device.blank with bankA := s.dev.bankA, bankB := s.dev.bankB, minSvn := s.dev.minSvn, devid := s.dev.devid }
    env := { s.env with free := s.env.free + 1 } }

/-- DEVICE_RESET (R392). -/
def deviceResetEvent (s : State) : Option State := some (bootFrom (resetKeeping s))

def execDeviceReset (s : State) : Out := event (deviceResetEvent s) s

/-- ATTESTATION_REPORT (R392; the report's byte layout is the model's, log 33). -/
def attestationReportEvent (nonce : BitVec 256) (s : State) : Option State :=
  let report := natLE nonce.toNat 32 ++
    s.dev.accepted.flatMap (fun i => bytesOfRecord i 0 4 ++ bytesOfRecord i 8 4 ++ bytesOfRecord i 16 48) ++
    natLE s.dev.devid.toNat 8
  some (send s (report ++ Config.attestSign report))

def execAttestationReport (nonce : BitVec 256) (s : State) : Out := event (attestationReportEvent nonce s) s

/-- RECOVERY_IMAGE_LOAD (R392): in recovery the control window answers a status command (`none`) and image-load
commands; its answers, and what a loaded image then does, are not stated (log 36). -/
def recoveryImageLoadEvent (image : Option Nat) (s : State) : Option State :=
  if s.dev.boot ≠ .recovery then none
  else
    let n := s.env.free
    some (send { s with env := { s.env with free := n + 1 } }
      ((match image with
        | some i => natLE i 4
        | none => []) ++ natLE (Config.freeWord n).toNat 4))

def execRecoveryImageLoad (image : Option Nat) (s : State) : Out := event (recoveryImageLoadEvent image s) s

/-- A remote failure counted for the warp's cluster (R388, R393). -/
def remoteFailed (s : State) : State := raiseCount s s.w.clus nRemote 1

/-- The physical registers among some destinations. -/
def laneDests (ds : List Dest) : List Nat := ds.filterMap (fun d => match d with
  | .x q => some q
  | _ => none)

/-- A change of the issuing warp for each lane of an access and each register it writes, with 1 + the address of the
register's own word (R169, R259). -/
def eachDest (s : State) (o : Outstanding) (f : Warp → Nat → Nat → Warp) : State :=
  { s with w := o.addrs.foldl (fun w e =>
      (laneDests o.dests).zipIdx.foldl (fun v x => f v (e.1 * 256 + x.1) (e.2 + 4 * x.2)) w) s.w }

/-- A remote load delivers poisoned data to its registers, each with the address of its own datum (R259, R393). -/
def poisonLoad (s : State) (o : Outstanding) : State :=
  eachDest s o (fun w key a => { w with marks := sset 0 w.marks key a })

/-- A kept write is one of an outstanding access of the issuing split, made before the next access (R393). -/
def Late.ofAccess (s : State) (o : Outstanding) (upto : Nat) (e : Late) : Bool :=
  match e.by_, e.bytes.head? with
  | .lane who lanes _ _ _, some x => who == .warp s.w.id && decide (o.mark ≤ e.id) && decide (e.id < upto) &&
      o.addrs.any (fun a => lanes.getLsbD a.1 && (match translate s (a.2 - 1) with
        | .ok p => decide (p.key ≤ x.1) && decide (x.1 < p.key + 16)
        | _ => false))
  | _, _ => false

/-- A written byte that never reached memory taken back: what it replaced stands there, or is what the next write of it
replaced. -/
def dropByte (e : Late) (s : State) (x : Nat × Byte) : State :=
  match ((s.late.takeWhile (fun f => f.id != e.id)).filter (fun f => (f.oldAt x.1).isSome)).getLast? with
  | some f => mapLate s (fun g => if g.id = f.id then { g with bytes := g.bytes.map (fun y => if y.1 = x.1 then x else y) } else g)
  | none => { s with mem := sset 0 s.mem x.1 x.2 }

/-- A write that never reached memory taken back. -/
def dropWrite (s : State) (e : Late) : State :=
  let t := e.bytes.foldl (dropByte e) s
  { t with late := t.late.filter (fun f => f.id != e.id) }

/-- A remote store or atomic dropped: its bytes are taken back, what it would have returned is unpredictable, and each
of its lanes' accesses is logged (R258, R393; log 64). -/
def dropAccess (s : State) (o : Outstanding) (upto : Nat) : State :=
  let t := (s.late.filter (Late.ofAccess s o upto)).foldl dropWrite s
  let n := t.env.free
  let u := eachDest { t with env := { t.env with free := n + 1 } } o (fun w key _ => { w with wild := sset 0 w.wild key (n + 1) })
  o.addrs.foldl (fun v e => logEvent v v.wholeWarp
    { cause := cEccfatal, where_ := whereOldest v.wholeWarp, flags := 0, pc := o.pc, trapv := BitVec.ofNat 64 (e.2 - 1) }) u

/-- A KLD about to issue whose access is remote: it issues, and raises ECCFATAL (R168, R393). -/
def remoteKld (s : State) : Option State :=
  if s.sp.state ≠ .ready then none
  else match fetchWord s with
    | .error _ => none
    | .ok word => match decode word with
      | .ok (.kld d k l) => some (remoteFailed (issue (.kld d k l) (fun s => once s (fun s =>
          let a := (kget s k.toNat).toNat
          match checkAccess s needR a 8 with
          | .bad c => trapHere s c a
          | .ok _ => trapHere s cEccfatal a)) s))
      | _ => none

/-- A remote access gets no reply (R393): the n-th outstanding one of a split, the MLD it waits in, or the KLD it issues
next. -/
def loseAccess (s : State) (a : LostAccess) : Option State :=
  let t := focusSplit s a.warp a.slot
  if !t.w.live || !t.sp.alive then none
  else match t.sp.wait, t.sp.out[a.n]? with
    | some (.mld d k l), _ => some (remoteFailed (finish (.mld d k l) true (.trap cEccfatal (argN t 0) t.sp.pc t)))
    | _, none => remoteKld t
    | _, some o =>
      let upto := ((t.sp.out.drop (a.n + 1)).head?.map (fun x => x.mark)).getD t.writes
      let u := remoteFailed { t with sp := { t.sp with out := t.sp.out.eraseIdx a.n } }
      match o.kind with
      | .none => none
      | .load => some (poisonLoad u o)
      | .store | .atomic => some (dropAccess u o upto)

/-- REMOTE_TIMEOUT (R393): the oldest access that the model's input says gets no reply. Which addresses are remote is
not stated (log 64). -/
def remoteTimeoutEvent (s : State) : Option State :=
  match s.env.lost with
  | [] => none
  | a :: rest => let t := { s with env := { s.env with lost := rest } }
    some ((loseAccess t a).getD t)

def execRemoteTimeout (s : State) : Out := event (remoteTimeoutEvent s) s

/-- POWER_GATE_JUDGE (R395): the shares of the 1,024 quadrants and of the 128 matrix engines. -/
def powerGateJudgeEvent (s : State) : Option State :=
  some { s with
    dev := { s.dev with shares := (List.range 1152).map (fun i => Config.issueShare (s.env.free + i)) }
    env := { s.env with free := s.env.free + 1152 } }

def execPowerGateJudge (s : State) : Out := event (powerGateJudgeEvent s) s

/-- THERMAL_HALT (R395): issue halts device-wide, and the halt is reported. -/
def thermalHaltEvent (s : State) : Option State :=
  let n := s.env.free
  some (send { s with dev := { s.dev with halted := true }, env := { s.env with free := n + 1 } }
    (natLE (Config.freeWord n).toNat 4))

def execThermalHalt (s : State) : Out := event (thermalHaltEvent s) s

/-- A frame descriptor (R394; its byte layout is presumed, log 34). -/
structure Frame where
  pa : Nat
  width : Nat
  height : Nat
  format : Nat
  port : Nat
  deriving DecidableEq, Repr

/-- The marking stage as a reader: an agent of the package (R295, R394). -/
def markingStage : Reader := .device 0

def readFrame (s : State) (a : Nat) : Frame :=
  let n : Nat → Nat → Nat := fun o k => readAs markingStage s (a + o) k
  { pa := n 0 8, width := n 8 4, height := n 12 4, format := n 16 1, port := n 17 1 }

/-- Bytes of a frame (R394). -/
def Frame.bytes (f : Frame) : Nat := if f.format = 0 then f.width * f.height * 3 else f.width * f.height * 3 / 2

/-- The luma pixel of a frame byte, or none for chroma (R394). -/
def Frame.luma (f : Frame) (i : Nat) : Option Nat :=
  if f.format = 0 then some (i / 3) else if i < f.width * f.height then some i else none

/-- A byte one up or one down, within 0 to 255 (R394). -/
def nudge (plus : Bool) (b : Byte) : Byte :=
  if plus then (if b.toNat = 255 then b else b + 1) else (if b.toNat = 0 then b else b - 1)

/-- A frame byte as it leaves (R394). -/
def Frame.mark (f : Frame) (payload : DWord) (i : Nat) (b : Byte) : Byte :=
  match f.luma i with
  | none => b
  | some p =>
    let x := p % f.width
    let y := p / f.width
    nudge (Config.markPlus payload (y / 16 * (f.width / 16) + x / 16) (y % 16 * 16 + x % 16)) b

/-- EGRESS_REQUEST (R394): the frame of a launch of a context read, marked and sent to its port. A port of 8 or more, which
R4's eight ports do not have, goes out as it is written: the spec does not say (log 105). -/
def egressRequestEvent (ctx launch descriptor : Nat) (s : State) : Option State :=
  match focusCtx s ctx with
  | none => none
  | some t =>
    let f := readFrame t descriptor
    if !physOk t.shape descriptor 18 || f.width % 16 ≠ 0 || f.height % 16 ≠ 0 || 1 < f.format || !physOk t.shape f.pa f.bytes
    then none
    else
      let payload := BitVec.ofNat 64 (t.ctx.ctxid.toNat + launch % 2 ^ 32 * 2 ^ 16 + t.dev.frames % 2 ^ 16 * 2 ^ 48)
      let out := (gatherBy markingStage t (keysFrom f.pa f.bytes)).zipIdx.map (fun x => f.mark payload x.2 x.1)
      some (send { t with dev := { t.dev with frames := t.dev.frames + 1 } } (BitVec.ofNat 8 f.port :: out))

def execEgressRequest (l : LaunchRef) (descriptor : Nat) (s : State) : Out :=
  event (egressRequestEvent l.ctx l.launch descriptor s) s

/-- Service-core clocks a request's logit kernel may take where the request names no other budget (R344). -/
def kernelBudget : Nat := 200000

/-- SERVICE_KERNEL_WATCHDOG (R344): a request's kernel has run for some clocks, or, with none, has taken an exception.
Where it has overrun its budget or taken an exception it is cut off: its record is made HELD, and the cause logged in
the service's own log. -/
def serviceKernelWatchdogEvent (core cell : Nat) (ran budget : Option Nat) (s : State) : Option State :=
  if 32 ≤ core || majEnd s.shape ≤ majBase + 32 * cell then none
  else if (ran.map (fun n => decide (n ≤ budget.getD kernelBudget))).getD false then none
  else (serviceOp s core cell .hold 0 0).map (fun t =>
    { t with dev := { t.dev with serviceLog := t.dev.serviceLog ++ [(cell, ran.isSome)] } })

def execServiceKernelWatchdog (core : Nat) (k : KernelRun) (s : State) : Out :=
  event (serviceKernelWatchdogEvent core k.cell k.ran k.budget s) s

/-- A range of ordinary memory: HBM or the second tier (R364). -/
def ordinary (pa size : Nat) : Bool :=
  decide (pa + size ≤ hbmEnd) || (decide (tier2Base ≤ pa) && decide (pa + size ≤ tier2End))

/-- Bytes an access moves. -/
def accessSize : Access → Nat
  | .read n => n
  | .write bs | .poisoned bs | .published bs => bs.length
  | .send _ n => n
  | .seed _ _ => 8

/-- Bytes written by an agent outside the clusters; only an aligned write of eight bytes or fewer is kept whole (log 7). -/
def agentWrite (e : Late) (s : State) (a : Nat) (bs : List Byte) : State :=
  storeKey { e with whole := decide (bs.length ≤ 8) && a % bs.length == 0 } s a bs

/-- Poisoned data written: poison travels with them, and memory keeps it by sector (R384). -/
def poisonWrite (e : Late) (s : State) (a : Nat) (bs : List Byte) : State :=
  let t := agentWrite e s a bs
  { t with poison := (keysFrom a bs.length).foldl (fun ps k => ninsert (k / 32) ps) t.poison }

/-- Bytes read by an agent outside the device leave the package, but for those of a sealed context (R394). -/
def sendBytes (r : Reader) (s : State) (a n : Nat) (head tail : List Byte) : State :=
  if sealedRange s a n then s else send s (head ++ gatherBy r s (keysFrom a n) ++ tail)

/-- Which of some bytes are poisoned, as a Skerry link carries it with them (R384; log 82). -/
def poisonFlags (s : State) (a n : Nat) : List Byte := (keysFrom a n).map (fun k => if poisonedAt s k then 1 else 0)

/-- SERVICE_ORDINARY_ACCESS (R341, R390, R394): what a service core reads stays inside the device; a send leaves by one
of the eight Ultra Ethernet ports, never from a sealed context's memory; a capture record holds at most 64 KiB. -/
def serviceOrdinaryAccessEvent (core address : Nat) (access : Access) (s : State) : Option State :=
  let block : List Byte → List Byte := fun bs => natLE address 8 ++ natLE bs.length 8 ++ bs
  if 32 ≤ core || 65536 < accessSize access || !ordinary address (accessSize access) then none
  else match access with
    | .read n => some { s with dev := { s.dev with
        serviceReads := s.dev.serviceReads ++ [gatherBy (serviceReader core) s (keysFrom address n)] } }
    | .write bs => some (captureAll (agentWrite (serviceWrite core) s address bs) 4 (block bs))
    | .poisoned bs => some (captureAll (poisonWrite (serviceWrite core) s address bs) 4 (block bs))
    | .published _ => none
    | .send port n => if 8 ≤ port then none else some (sendBytes (.outside true) s address n [BitVec.ofNat 8 port] [])
    | .seed request v =>
      some (captureAll (agentWrite (serviceWrite core) s address (natLE v.toNat 8)) 5 (natLE request 4 ++ natLE v.toNat 8))

def execServiceOrdinaryAccess (core address : Nat) (access : Access) (s : State) : Out :=
  event (serviceOrdinaryAccessEvent core address access s) s

/-- A range lies in a window the security core has granted the host (R393). -/
def hostMay (s : State) (a size : Nat) : Bool :=
  s.dev.hostWindows.any (fun w => decide (w.1 ≤ a) && decide (a + size ≤ w.1 + w.2))

/-- HOST_DMA (R393, R394), by whichever of the host's functions: outside the granted windows nothing happens, and a
write there is counted as refused; a read of a sealed context's memory is refused. -/
def hostDmaEvent (_function address : Nat) (access : Access) (s : State) : Option State :=
  let may := hostMay s address (accessSize access) && ordinary address (accessSize access)
  match access with
  | .read n => some (if may then sendBytes (.outside true) s address n [] [] else s)
  | .write bs => some (if may then agentWrite (outsideWrite none) s address bs else refuseWrite s)
  | .poisoned bs => some (if may then poisonWrite (outsideWrite none) s address bs else refuseWrite s)
  | .published _ | .send _ _ | .seed _ _ => none

def execHostDma (function address : Nat) (access : Access) (s : State) : Out :=
  event (hostDmaEvent function address access s) s

/-- SKERRY_REMOTE_ACCESS (R295, R303, R384, R394): an access of another device to this device's memory, its poison with it
both ways; a sealed context's bytes do not leave. A release that the device's fence of the domain precedes publishes what
it has written before. -/
def skerryRemoteAccessEvent (device address : Nat) (access : Access) (s : State) : Option State :=
  if !ordinary address (accessSize access) then none
  else match access with
    | .read n => some (sendBytes (.outside false) s address n [] (poisonFlags s address n))
    | .write bs => some (agentWrite (outsideWrite (some device)) s address bs)
    | .poisoned bs => some (poisonWrite (outsideWrite (some device)) s address bs)
    | .published bs =>
      some (agentWrite { outsideWrite (some device) with rel := some (remoteRelease s device) } s address bs)
    | .send _ _ | .seed _ _ => none

def execSkerryRemoteAccess (_device address : Nat) (access : Access) (s : State) : Out :=
  event (skerryRemoteAccessEvent _device address access s) s

/-- A count of a stack raised (R384, R388). -/
def raiseAt (m : Sparse Nat) (stack : Nat) : Sparse Nat := sset 0 m stack (sget 0 m stack + 1)

/-- The 8 bytes that hold a byte poisoned (R384). -/
def poisonWords (s : State) (key : Nat) : State :=
  { s with spillPoison := ninsert (key / 8 * 2) (ninsert (key / 8 * 2 + 1) s.spillPoison) }

/-- An error in storage (R384): it leaves poison where it cannot be corrected; what it met is counted for its stack, an
ordinary HBM address lying on the stack R365 gives. -/
def applyUpset (s : State) (u : Upset) : State :=
  match u with
  | .corrected stack => { s with dev := { s.dev with corrected := raiseAt s.dev.corrected stack } }
  | .line stack cell =>
    let l := lineAt s stack cell
    { s with
      majority := sset (blankLine s stack) s.majority (lineKey s stack cell) { l with tag := l.tag ||| 2 }
      dev := { s.dev with uncorrected := raiseAt s.dev.uncorrected stack } }
  | .register warp lane q =>
    { s with warps := s.warps.map (fun w => if w.id = warp then { w with marks := sset 0 w.marks (lane * 256 + q) 1 } else w) }
  | .dieCache key => poisonWords s key
  | .sector key =>
    if tileBase ≤ key then poisonWords s key
    else
      let t := { s with poison := ninsert (key / 32) s.poison }
      if key < hbmEnd then
        { t with dev := { t.dev with uncorrected := raiseAt t.dev.uncorrected (key / 4096 % 12) } }
      else t

/-- Some errors in a packed machine, each taken out of the model's input (R384; log 1). -/
def applyUpsets (s : State) (us : List Upset) : State :=
  us.foldl applyUpset { s with env := { s.env with upsets := [] } }

end Sys2Proof.Machine
end

