-- ==== Sys2Proof/Machine/Fetch.lean ====
section
/-! DEFINITION. Fences, cache maintenance and the fetch unit (06 R180 to R184, R201 to R205). -/

namespace Sys2Proof.Machine

/-- A stream goes on only once a slot of its ring is released: no slot is free (R228, R306). -/
def streamFull (s : State) (o : NleOp) : Bool :=
  o.kind == .stream && o.todo.isSome && s.allCrews.any (fun c => c.id == o.crew &&
    decide ((c.rings.getD o.ring Ring.blank).depth ≤ (c.rings.getD o.ring Ring.blank).res - (c.rings.getD o.ring Ring.blank).rel))

/-- The warp joined a collective that is not done, or has a neighbour-list operation under way, but for a stream that waits
for a RELS: its later slots are not waited for, or the hand-over of its ring would not end (R181, R231, R306). -/
def copiesOpen (s : State) : Bool :=
  s.allCrews.any (fun c => c.rings.any (fun r => r.collectives.any (fun g => g.slices.any (fun x => x.warp == s.w.id)))) ||
    s.nles.any (fun o => o.warp == s.w.id && o.fault.isNone && !streamFull s o)

/-- A task or tap the warp posted is under way (R181, R350). -/
def tasksOpen (s : State) : Bool :=
  s.clus.tasks.any (fun t => t.warp == s.w.id) ||
    s.ctx.taps.any (fun t => t.warp == s.w.id && t.stage != .done)

/-- What a fence waits for under its masks (R180, R181). -/
def fenceHolds (s : State) (pred succ : BitVec 6) : Bool :=
  pred = 0 || succ = 0 ||
    !((pred.extractLsb' 2 2 != 0 && copiesOpen s) || (pred.extractLsb' 4 2 != 0 && tasksOpen s))

def execFence (p q c : BitVec 6) (s : State) : Out :=
  runW (.fence p q c) (fun again s =>
    if !again && !anyLane s then .ok s
    else if fenceHolds s p q then .ok (fenceMem s p.toNat q.toNat c.toNat)
    else .wait s) s

/-- The keys of the lines of a virtual range: for each page that has a translation, the first key and the end (R183). -/
def lineRanges (s : State) (base size : Nat) : List (Nat × Nat) :=
  let lo := base / 128 * 128
  let hi := (base + size + 127) / 128 * 128
  (List.range ((hi - 1) / 0x10000 - lo / 0x10000 + 1)).filterMap (fun i =>
    let page := (lo / 0x10000 + i) * 0x10000
    let a := max lo page
    let b := min hi (page + 0x10000)
    match translate s a with
    | .ok p => some (p.key, p.key + (b - a))
    | _ => none)

/-- The lines of a range written back and invalidated (R183). -/
def invalidateRange (s : State) (level base size : Nat) : State :=
  if s.late.isEmpty || size = 0 then s
  else
    let rs := lineRanges s base size
    invalidateLines s level (fun k => rs.any (fun r => decide (r.1 ≤ k) && decide (k < r.2)))

/-- CINV: its checks, the length's before the base's, and none for a length of 0 (R183; log 82). -/
def cinvBody (level : Nat) (a b : BitVec 6) (s : State) : Res :=
  once s (fun s =>
    if 2 ^ 30 < (kget s b.toNat).toNat then .trap cOperand (kget s b.toNat) s.sp.pc s
    else if kget s b.toNat ≠ 0 && !canonical (kget s a.toNat) then .trap cProt (kget s a.toNat) s.sp.pc s
    else .ok (invalidateRange s level (kget s a.toNat).toNat (kget s b.toNat).toNat))

def execCinvL1 (a b : BitVec 6) (s : State) : Out := run (.cinvL1 a b) (cinvBody 1 a b) s
def execCinvDie (a b : BitVec 6) (s : State) : Out := run (.cinvDie a b) (cinvBody 2 a b) s

/-- Lines a cluster's fetch cache holds (R366). -/
def fetchLines : Nat := 4096

/-- A line brought into the fetch cache, or dropped from it; where it is full, some line makes room, which one being free
(R366, log 8). -/
def putLine (n : Nat) (s : State) (line : Nat) (v : Option (Nat × BitVec 1024)) : State :=
  let held := serase s.clus.fetch line
  let m := if v.isSome && decide (fetchLines ≤ held.length) then
      held.eraseIdx (Config.freeNat (n * 2 ^ 45 + line) % held.length) else held
  { s with clus := { s.clus with fetch := sset none m line v } }

/-- A byte read through the cluster's fetch cache: a line held, if it was brought in no earlier than some clock, is read
as it was, or brought in again, as draw n decides (R205, log 8). A line with poison is not kept. -/
def cacheByte (n since : Nat) (s : State) (key : Nat) : Byte × Bool × State :=
  let line := key / 128
  let r := Reader.fetch s.clus.id
  let kept : Option (Nat × BitVec 1024) :=
    if poisonedRange s (line * 128) 128 then none
    else some (s.cycle.toNat, BitVec.ofNat 1024 (readAs r s (line * 128) 128))
  let fresh : Byte × Bool × State := (readByte r s key, poisonedAt s key, putLine n s line kept)
  match sget none s.clus.fetch line with
  | none => fresh
  | some (c, v) =>
    if since ≤ c + 1 && Config.freeBool (n * 2 ^ 45 + line) then (v.extractLsb' (8 * (key % 128)) 8, false, s) else fresh

/-- Bytes at keys read through the fetch cache, with whether one is poisoned. -/
def cacheBytes (n since : Nat) (s : State) : List Nat → List Byte × Bool × State
  | [] => ([], false, s)
  | k :: ks =>
    let (b, p, t) := cacheByte n since s k
    let (bs, q, u) := cacheBytes n since t ks
    (b :: bs, p || q, u)

/-- A draw of the fetch unit: its number, and 1 + the clock of the last FINV of the tensor in the cluster, 0 for none
(R205). -/
structure Draw where
  n : Nat
  since : Nat
  deriving DecidableEq, Repr

/-- A run of bytes read through the fetch cache. -/
def cacheRun (d : Draw) (s : State) (va size : Nat) : Except (Byte × Nat) (List Byte × Bool × State) :=
  match checkRun s needR va size with
  | .error e => .error e
  | .ok ks => .ok (cacheBytes d.n d.since s ks)

/-- A decoded block: its number, its address where it is malformed, whether its bytes are poisoned, and its 32
elements (R201 to R204, R385). -/
structure Block where
  num : Nat
  bad : Option Nat
  poisoned : Bool
  elems : List Nat
  deriving DecidableEq, Repr

/-- Values of some size in a byte list. -/
def unpackValues (size : Nat) (bs : List Byte) (n : Nat) : List Nat :=
  (List.range n).map (fun i => recNat bs (size * i) size)

/-- A bitmap's header is malformed (R202). -/
def bitmapBad (h : List Byte) : Bool :=
  decide (32 < recByte h 4) || laneCount (BitVec.ofNat 32 (recNat h 0 4)) != recByte h 4 || recNat h 5 3 != 0

/-- The elements of a bitmap block (R202). -/
def bitmapElems (map : Mask) (vs : List Nat) : List Nat :=
  lanes.map (fun i => if map.getLsbD i then vs.getD (((lanesOf map).filter (fun j => decide (j < i))).length) 0 else 0)

/-- The runs of a run-length block: counts and values (R203). -/
def runsOf (size : Nat) (bs : List Byte) (n : Nat) : List (Nat × Nat) :=
  (List.range n).map (fun i => (recByte bs ((size + 1) * i), recNat bs ((size + 1) * i + 1) size))

/-- The runs are malformed (R203). -/
def runsBad (rs : List (Nat × Nat)) : Bool := rs.any (fun r => r.1 == 0) || rs.foldl (fun n r => n + r.1) 0 != 32

/-- The decoded body of a block, from its bytes; none where it is malformed. -/
def blockBody (form size : Nat) (head body : List Byte) : Option (List Nat) :=
  if form = 1 then
    (if bitmapBad head then none
     else some (bitmapElems (BitVec.ofNat 32 (recNat head 0 4)) (unpackValues size body (recByte head 4))))
  else if recByte head 0 = 0 || decide (32 < recByte head 0) || recNat head 1 3 != 0 then none
  else
    let rs := runsOf size body (recByte head 0)
    if runsBad rs then none else some (rs.flatMap (fun r => List.replicate r.1 r.2))

/-- Bytes of a block's header and, from the header, of its body. -/
def headBytes (form : Nat) : Nat := if form = 1 then 8 else 4
def bodyBytes (form size : Nat) (head : List Byte) : Nat :=
  if form = 1 then (if bitmapBad head then 0 else recByte head 4 * size)
  else if decide (32 < recByte head 0) then 0 else recByte head 0 * (size + 1)

/-- A block of a compressed tensor read and decoded (R201 to R203). -/
def readBlock (n : Draw) (s : State) (t : Tensor) (b : Nat) : Except (Byte × Nat) (Block × State) :=
  match cacheRun n s (t.base + 4 * b) 4 with
  | .error e => .error e
  | .ok (dir, p0, s1) =>
    let start := t.base + leNat dir
    if start % 4 ≠ 0 then .ok ({ num := b, bad := some start, poisoned := p0, elems := [] }, s1)
    else match cacheRun n s1 start (headBytes t.cform) with
      | .error e => .error e
      | .ok (head, p1, s2) =>
        match cacheRun n s2 (start + headBytes t.cform) (bodyBytes t.cform (elemSize t.fmt) head) with
        | .error e => .error e
        | .ok (body, p2, s3) =>
          match blockBody t.cform (elemSize t.fmt) head body with
          | none => .ok ({ num := b, bad := some start, poisoned := p0 || p1 || p2, elems := [] }, s3)
          | some es => .ok ({ num := b, bad := none, poisoned := p0 || p1 || p2, elems := es }, s3)

/-- Several blocks read in turn. -/
def readBlocks (n : Draw) (s : State) (t : Tensor) : List Nat → Except (Byte × Nat) (List Block × State)
  | [] => .ok ([], s)
  | b :: bs =>
    match readBlock n s t b with
    | .error e => .error e
    | .ok (x, u) => match readBlocks n u t bs with
      | .error e => .error e
      | .ok (xs, v) => .ok (x :: xs, v)

/-- Numbers of a list, each once, in order of first appearance. -/
def distinct (l : List Nat) : List Nat := l.foldl (fun acc x => if acc.contains x then acc else acc ++ [x]) []

/-- Elements of a tensor: the product of its dimensions (R201). -/
def Tensor.count (t : Tensor) : Nat := t.dim 0 * t.dim 1 * t.dim 2 * t.dim 3

/-- One lane's result of a FETCH (R204); a poisoned block gives a marked register (R385). -/
def fetchLane (t : Tensor) (blocks : List Block) (d p c l : Nat) (s : State) : State :=
  if t.count ≤ c then psetLane (xset s l d 0) p l false
  else match blocks.find? (fun x => x.num == c / 32) with
    | none => s
    | some x =>
      if x.poisoned then psetLane (loadReg s l d 0 true (t.base + 4 * (c / 32))) p l true
      else if x.bad.isSome then psetLane (xset s l d 0) p l false
      else psetLane (xset s l d (BitVec.ofNat 32 (x.elems.getD (c % 32) 0))) p l true

/-- A malformed block logged once for the FETCH that met it (R204, R258). -/
def logFormat (s : State) (addr : Nat) : State :=
  logEvent s s.wholeWarp { cause := cFmterr, where_ := whereOldest s.wholeWarp, flags := 0, pc := s.sp.pc,
                           trapv := BitVec.ofNat 64 addr }

/-- A tensor that FETCH can read (R201, R204). -/
def fetchable (t : Tensor) : Bool := t.cform != 0 && [8, 16, 32].contains (typeWidth t.fmt)

/-- FETCH on a tensor of some id: every block read, then STRICT, then the lanes (R204). The lowest malformed block is the
one at the least address (log 82). -/
def fetchBody (id : Nat) (t : Tensor) (d a : BitVec 6) (p : Nat) (s0 : State) : Res :=
  let n : Draw := ⟨s0.env.free, sget 0 s0.clus.finvs (s0.ctx.id * 256 + id)⟩
  let s := { s0 with env := { s0.env with free := n.n + 1 } }
  let index := fun l => (xget s l a.toNat).toNat
  let want := distinct (((lanesOf (partMask s)).filter (fun l => decide (index l < t.count))).map (fun l => index l / 32))
  match readBlocks n s t want with
  | .error (c, v) => trapHere s c v
  | .ok (blocks, u) =>
    let bads := (blocks.filter (fun x => !x.poisoned)).filterMap (fun x => x.bad)
    match (if t.strict then leastAddr bads else none) with
    | some v => trapHere u cFmterr v
    | none =>
      .ok (bads.foldl logFormat ((lanesOf (partMask s)).foldl (fun w l => fetchLane t blocks d.toNat p (index l) l w) u))

def execFetch (d a b : BitVec 6) (l : BitVec 4) (s : State) : Out :=
  run (.fetch d a b l) (fun s => once s (fun s =>
    let h := (kget s b.toNat).toNat
    match (if h < 2 ^ 11 then tensorAt s (h % 256) else none) with
    | none => trapWord s (.fetch d a b l)
    | some t => if fetchable t then fetchBody (h % 256) t d a (h / 256) s else trapWord s (.fetch d a b l))) s

/-- The line of the fetch cache that holds a virtual byte. -/
def lineOf (s : State) (va : Nat) : List Nat :=
  match translate s va with
  | .ok p => [p.key / 128]
  | _ => []

/-- The bytes a compressed tensor's block takes, from its header in memory. -/
def blockExtent (s : State) (t : Tensor) (start : Nat) : Nat :=
  match readRun s needR start (headBytes t.cform) with
  | .ok head => headBytes t.cform + bodyBytes t.cform (elemSize t.fmt) head
  | .error _ => headBytes t.cform

/-- The lines that hold bytes of a tensor's region: the directory and the blocks, or the elements (R184, R201). -/
def tensorLines (s : State) (t : Tensor) : List Nat :=
  if t.cform = 0 then
    let last := t.addr [(t.dim 0 : Int) - 1, (t.dim 1 : Int) - 1, (t.dim 2 : Int) - 1, (t.dim 3 : Int) - 1]
    (List.range ((last + elemSize t.fmt - t.base + 127) / 128 + 1)).flatMap (fun j => lineOf s (t.base + 128 * j))
  else
    (List.range ((t.count + 31) / 32)).flatMap (fun b =>
      (List.range 4).flatMap (fun j => lineOf s (t.base + 4 * b + j)) ++
      (match readRun s needR (t.base + 4 * b) 4 with
       | .ok dir =>
         let start := t.base + leNat dir
         (List.range (blockExtent s t start)).flatMap (fun j => lineOf s (start + j))
       | .error _ => []))

def execFinv (a : BitVec 6) (s : State) : Out :=
  run (.finv a) (fun s => once s (fun s =>
    let id := (kget s a.toNat).toNat
    match (if id < 256 then tensorAt s id else none) with
    | none => trapWord s (.finv a)
    | some t =>
      let ls := tensorLines s t
      .ok { finvMem s with clus := { s.clus with
        fetch := s.clus.fetch.filter (fun e => !ls.contains e.1)
        finvs := sset 0 s.clus.finvs (s.ctx.id * 256 + id) (s.cycle.toNat + 1) } })) s

end Sys2Proof.Machine
end

