-- ==== Sys2Proof/Machine/Mpath.lean ====
section
/-! DEFINITION. Merge-path partitions (07 R224). -/

namespace Sys2Proof.Machine

/-- A merge-path descriptor's checks, by byte offset (R224). -/
def mpathChecks (bs : List Byte) : List (Nat × Bool) :=
  [(0, recNat bs 0 8 % 4 != 0), (16, recNat bs 16 4 == 0)] ++ reservedBytes bs 20 12

/-- A row pointer read as a lane-path access; poison raises ECCFATAL (R224, R167; log 40). -/
def rowPointer (s : State) (rptr mid : Nat) : Except (Byte × Nat) Nat :=
  engineRead (laneReader s) s needR ((rptr + 4 * mid) % 2 ^ 64) 4

/-- The search of R224: the row coordinate. The bound is the number of halvings. -/
def mpathSearch (s : State) (rptr g : Nat) : Nat → Nat → Nat → Except (Byte × Nat) Nat
  | 0, lo, _ => .ok lo
  | n + 1, lo, hi =>
    if hi ≤ lo then .ok lo
    else
      let mid := (lo + hi + 1) / 2
      match rowPointer s rptr mid with
      | .error e => .error e
      | .ok v => if v + mid ≤ g then mpathSearch s rptr g n mid hi else mpathSearch s rptr g n lo (mid - 1)

/-- One lane's coordinate, or the cause and TRAPV it raises (R224). -/
def mpathLane (s : State) (bs : List Byte) (i : Nat) : Except (Byte × Nat) (Nat × Nat) :=
  let rows := recNat bs 8 4
  let nnz := recNat bs 12 4
  let p := recNat bs 16 4
  if p < i then .error (cOperand, i)
  else
    let g := i * (rows + nnz) / p
    match mpathSearch s (recNat bs 0 8) g 33 (g - nnz) (min g rows) with
    | .error e => .error e
    | .ok lo => .ok (lo, g - lo)

/-- Every lane's coordinate in ascending order, or the lowest lane's fault. -/
def mpathLanes (s : State) (bs : List Byte) (a : Nat) : List Nat → Except (Byte × Nat) (List (Nat × Nat × Nat))
  | [] => .ok []
  | l :: t => match mpathLane s bs (xget s l a).toNat with
    | .error e => .error e
    | .ok r => match mpathLanes s bs a t with
      | .error e => .error e
      | .ok rs => .ok ((l, r) :: rs)

def execMpath (d a b : BitVec 6) (l : BitVec 4) (s : State) : Out :=
  run (.mpath d a b l) (fun s => once s (fun s =>
    match readRecord s needRecPage 32 (kget s b.toNat).toNat 32 with
    | .error (c, v) => trapHere s c v
    | .ok bs => match badOffset (mpathChecks bs) with
      | some o => trapHere s cOperand o
      | none => match mpathLanes s bs a.toNat (lanesOf (partMask s)) with
        | .error (c, v) => trapHere s c v
        | .ok rs => .ok (rs.foldl (fun t r =>
            xset (xset t r.1 d.toNat (BitVec.ofNat 32 r.2.1)) r.1 (d.toNat + 1) (BitVec.ofNat 32 r.2.2)) s))) s

end Sys2Proof.Machine
end

