-- ==== Sys2Proof/Machine/Tables.lean ====
section
/-! DEFINITION. The tables and constants of the special functions as binary32 codes, each the RoundTo(f32, formula, RNE)
of R63 (log 30), and π to 512 bits for the exact reduction of R66 (log 29). -/

namespace Sys2Proof.Machine

/-- Entries 0 to 63 of Trcp: 1 / (1 + (i + 0.5) / 128). -/
def tRcp0 : List Nat := [
  0x3F7F00FF, 0x3F7D08E5, 0x3F7B1885, 0x3F792FB2, 0x3F774E40, 0x3F757404, 0x3F73A0D5, 0x3F71D48C,
  0x3F700F01, 0x3F6E500F, 0x3F6C9791, 0x3F6AE564, 0x3F693965, 0x3F679373, 0x3F65F36D, 0x3F645933,
  0x3F62C4A7, 0x3F6135AA, 0x3F5FAC1F, 0x3F5E27EB, 0x3F5CA8F1, 0x3F5B2F17, 0x3F59BA42, 0x3F584A5A,
  0x3F56DF44, 0x3F5578E9, 0x3F541733, 0x3F52BA08, 0x3F516154, 0x3F500D01, 0x3F4EBCF9, 0x3F4D7127,
  0x3F4C2978, 0x3F4AE5D8, 0x3F49A634, 0x3F486A79, 0x3F473294, 0x3F45FE74, 0x3F44CE08, 0x3F43A13E,
  0x3F427806, 0x3F415250, 0x3F40300C, 0x3F3F112B, 0x3F3DF59D, 0x3F3CDD53, 0x3F3BC841, 0x3F3AB656,
  0x3F39A786, 0x3F389BC3, 0x3F379301, 0x3F368D31, 0x3F358A48, 0x3F348A3A, 0x3F338CFA, 0x3F32927C,
  0x3F319AB6, 0x3F30A59B, 0x3F2FB322, 0x3F2EC33E, 0x3F2DD5E6, 0x3F2CEB10, 0x3F2C02B0, 0x3F2B1CBE]

/-- Entries 64 to 127 of Trcp: 1 / (1 + (i + 0.5) / 128). -/
def tRcp1 : List Nat := [
  0x3F2A392F, 0x3F2957FB, 0x3F287917, 0x3F279C7B, 0x3F26C21E, 0x3F25E9F7, 0x3F2513FD, 0x3F244029,
  0x3F236E72, 0x3F229ECF, 0x3F21D13A, 0x3F2105A9, 0x3F203C17, 0x3F1F747A, 0x3F1EAECD, 0x3F1DEB07,
  0x3F1D2922, 0x3F1C6917, 0x3F1BAADF, 0x3F1AEE73, 0x3F1A33CD, 0x3F197AE7, 0x3F18C3BB, 0x3F180E41,
  0x3F175A75, 0x3F16A850, 0x3F15F7CC, 0x3F1548E5, 0x3F149B93, 0x3F13EFD2, 0x3F13459C, 0x3F129CEC,
  0x3F11F5BD, 0x3F115009, 0x3F10ABCC, 0x3F100901, 0x3F0F67A2, 0x3F0EC7AB, 0x3F0E2918, 0x3F0D8BE3,
  0x3F0CF009, 0x3F0C5584, 0x3F0BBC51, 0x3F0B246B, 0x3F0A8DCD, 0x3F09F874, 0x3F09645C, 0x3F08D181,
  0x3F083FDE, 0x3F07AF70, 0x3F072033, 0x3F069223, 0x3F06053C, 0x3F05797C, 0x3F04EEDD, 0x3F04655E,
  0x3F03DCF9, 0x3F0355AD, 0x3F02CF75, 0x3F024A4E, 0x3F01C636, 0x3F014328, 0x3F00C122, 0x3F004020]

/-- Trcp: 1 / (1 + (i + 0.5) / 128) (R63). -/
def tRcp : List Nat := tRcp0 ++ tRcp1

/-- Entries 0 to 63 of Trsq: 1 / sqrt(1 + (i + 0.5) / 128). -/
def tRsq0 : List Nat := [
  0x3F7F8060, 0x3F7E8358, 0x3F7D893A, 0x3F7C91F7, 0x3F7B9D83, 0x3F7AABCF, 0x3F79BCCF, 0x3F78D075,
  0x3F77E6B5, 0x3F76FF83, 0x3F761AD3, 0x3F75389A, 0x3F7458CD, 0x3F737B60, 0x3F72A048, 0x3F71C77C,
  0x3F70F0F1, 0x3F701C9D, 0x3F6F4A77, 0x3F6E7A74, 0x3F6DAC8D, 0x3F6CE0B7, 0x3F6C16EA, 0x3F6B4F1E,
  0x3F6A8949, 0x3F69C565, 0x3F690368, 0x3F68434A, 0x3F678505, 0x3F66C891, 0x3F660DE5, 0x3F6554FC,
  0x3F649DCE, 0x3F63E854, 0x3F633488, 0x3F628263, 0x3F61D1DE, 0x3F6122F3, 0x3F60759C, 0x3F5FC9D4,
  0x3F5F1F93, 0x3F5E76D5, 0x3F5DCF93, 0x3F5D29C8, 0x3F5C856F, 0x3F5BE282, 0x3F5B40FD, 0x3F5AA0D9,
  0x3F5A0212, 0x3F5964A3, 0x3F58C887, 0x3F582DBA, 0x3F579436, 0x3F56FBF8, 0x3F5664FA, 0x3F55CF39,
  0x3F553AB0, 0x3F54A75A, 0x3F541535, 0x3F53843B, 0x3F52F469, 0x3F5265BB, 0x3F51D82D, 0x3F514BBB]

/-- Entries 64 to 127 of Trsq: 1 / sqrt(1 + (i + 0.5) / 128). -/
def tRsq1 : List Nat := [
  0x3F50C062, 0x3F50361D, 0x3F4FACEA, 0x3F4F24C5, 0x3F4E9DAA, 0x3F4E1796, 0x3F4D9285, 0x3F4D0E76,
  0x3F4C8B63, 0x3F4C094B, 0x3F4B8829, 0x3F4B07FC, 0x3F4A88BF, 0x3F4A0A71, 0x3F498D0D, 0x3F491092,
  0x3F4894FD, 0x3F481A4A, 0x3F47A078, 0x3F472783, 0x3F46AF68, 0x3F463826, 0x3F45C1BA, 0x3F454C21,
  0x3F44D759, 0x3F44635F, 0x3F43F031, 0x3F437DCD, 0x3F430C31, 0x3F429B59, 0x3F422B45, 0x3F41BBF1,
  0x3F414D5C, 0x3F40DF84, 0x3F407266, 0x3F400600, 0x3F3F9A51, 0x3F3F2F56, 0x3F3EC50E, 0x3F3E5B76,
  0x3F3DF28C, 0x3F3D8A4F, 0x3F3D22BE, 0x3F3CBBD5, 0x3F3C5593, 0x3F3BEFF7, 0x3F3B8AFF, 0x3F3B26A9,
  0x3F3AC2F3, 0x3F3A5FDC, 0x3F39FD62, 0x3F399B84, 0x3F393A3F, 0x3F38D993, 0x3F38797D, 0x3F3819FD,
  0x3F37BB10, 0x3F375CB5, 0x3F36FEEC, 0x3F36A1B1, 0x3F364505, 0x3F35E8E5, 0x3F358D50, 0x3F353245]

/-- Entries 128 to 191 of Trsq: 1 / sqrt(1 + (i + 0.5) / 128). -/
def tRsq2 : List Nat := [
  0x3F34D7C3, 0x3F347DC7, 0x3F342452, 0x3F33CB61, 0x3F3372F3, 0x3F331B07, 0x3F32C39C, 0x3F326CB0,
  0x3F321643, 0x3F31C053, 0x3F316ADE, 0x3F3115E5, 0x3F30C165, 0x3F306D5E, 0x3F3019CE, 0x3F2FC6B4,
  0x3F2F7410, 0x3F2F21DF, 0x3F2ED022, 0x3F2E7ED7, 0x3F2E2DFD, 0x3F2DDD93, 0x3F2D8D97, 0x3F2D3E0A,
  0x3F2CEEEA, 0x3F2CA036, 0x3F2C51ED, 0x3F2C040E, 0x3F2BB698, 0x3F2B698A, 0x3F2B1CE4, 0x3F2AD0A4,
  0x3F2A84CA, 0x3F2A3955, 0x3F29EE43, 0x3F29A395, 0x3F295948, 0x3F290F5D, 0x3F28C5D2, 0x3F287CA7,
  0x3F2833DB, 0x3F27EB6D, 0x3F27A35C, 0x3F275BA7, 0x3F27144F, 0x3F26CD51, 0x3F2686AD, 0x3F264063,
  0x3F25FA72, 0x3F25B4D8, 0x3F256F96, 0x3F252AAA, 0x3F24E615, 0x3F24A1D4, 0x3F245DE8, 0x3F241A4F,
  0x3F23D70A, 0x3F239417, 0x3F235177, 0x3F230F27, 0x3F22CD28, 0x3F228B78, 0x3F224A18, 0x3F220907]

/-- Entries 192 to 255 of Trsq: 1 / sqrt(1 + (i + 0.5) / 128). -/
def tRsq3 : List Nat := [
  0x3F21C843, 0x3F2187CD, 0x3F2147A4, 0x3F2107C7, 0x3F20C835, 0x3F2088EF, 0x3F2049F3, 0x3F200B41,
  0x3F1FCCD9, 0x3F1F8EB9, 0x3F1F50E1, 0x3F1F1351, 0x3F1ED608, 0x3F1E9906, 0x3F1E5C4A, 0x3F1E1FD4,
  0x3F1DE3A2, 0x3F1DA7B6, 0x3F1D6C0D, 0x3F1D30A7, 0x3F1CF585, 0x3F1CBAA5, 0x3F1C8008, 0x3F1C45AB,
  0x3F1C0B90, 0x3F1BD1B6, 0x3F1B981C, 0x3F1B5EC1, 0x3F1B25A6, 0x3F1AECC9, 0x3F1AB42B, 0x3F1A7BCB,
  0x3F1A43A8, 0x3F1A0BC2, 0x3F19D419, 0x3F199CAC, 0x3F19657B, 0x3F192E85, 0x3F18F7CA, 0x3F18C149,
  0x3F188B03, 0x3F1854F6, 0x3F181F23, 0x3F17E988, 0x3F17B426, 0x3F177EFC, 0x3F174A0A, 0x3F17154F,
  0x3F16E0CB, 0x3F16AC7E, 0x3F167867, 0x3F164486, 0x3F1610DA, 0x3F15DD64, 0x3F15AA22, 0x3F157715,
  0x3F15443C, 0x3F151197, 0x3F14DF25, 0x3F14ACE6, 0x3F147ADA, 0x3F144900, 0x3F141758, 0x3F13E5E3]

/-- Entries 256 to 319 of Trsq: 1 / sqrt(1 + (i + 0.5) / 128). -/
def tRsq4 : List Nat := [
  0x3F13B49E, 0x3F13838B, 0x3F1352A8, 0x3F1321F6, 0x3F12F174, 0x3F12C122, 0x3F129100, 0x3F12610D,
  0x3F123148, 0x3F1201B3, 0x3F11D24B, 0x3F11A312, 0x3F117407, 0x3F114529, 0x3F111678, 0x3F10E7F4,
  0x3F10B99C, 0x3F108B72, 0x3F105D73, 0x3F102FA0, 0x3F1001F8, 0x3F0FD47C, 0x3F0FA72A, 0x3F0F7A04,
  0x3F0F4D08, 0x3F0F2036, 0x3F0EF38E, 0x3F0EC710, 0x3F0E9ABB, 0x3F0E6E8F, 0x3F0E428D, 0x3F0E16B3,
  0x3F0DEB01, 0x3F0DBF78, 0x3F0D9417, 0x3F0D68DD, 0x3F0D3DCB, 0x3F0D12E0, 0x3F0CE81C, 0x3F0CBD7F,
  0x3F0C9309, 0x3F0C68B9, 0x3F0C3E8F, 0x3F0C148B, 0x3F0BEAAD, 0x3F0BC0F4, 0x3F0B9760, 0x3F0B6DF1,
  0x3F0B44A7, 0x3F0B1B82, 0x3F0AF281, 0x3F0AC9A4, 0x3F0AA0EC, 0x3F0A7857, 0x3F0A4FE5, 0x3F0A2797,
  0x3F09FF6C, 0x3F09D764, 0x3F09AF7F, 0x3F0987BD, 0x3F09601C, 0x3F09389E, 0x3F091142, 0x3F08EA08]

/-- Entries 320 to 383 of Trsq: 1 / sqrt(1 + (i + 0.5) / 128). -/
def tRsq5 : List Nat := [
  0x3F08C2EF, 0x3F089BF8, 0x3F087522, 0x3F084E6D, 0x3F0827D8, 0x3F080165, 0x3F07DB12, 0x3F07B4DF,
  0x3F078ECD, 0x3F0768DA, 0x3F074308, 0x3F071D55, 0x3F06F7C1, 0x3F06D24D, 0x3F06ACF7, 0x3F0687C1,
  0x3F0662AA, 0x3F063DB1, 0x3F0618D6, 0x3F05F41A, 0x3F05CF7C, 0x3F05AAFC, 0x3F05869A, 0x3F056255,
  0x3F053E2E, 0x3F051A24, 0x3F04F638, 0x3F04D268, 0x3F04AEB5, 0x3F048B1F, 0x3F0467A6, 0x3F044449,
  0x3F042108, 0x3F03FDE4, 0x3F03DADB, 0x3F03B7EE, 0x3F03951D, 0x3F037268, 0x3F034FCE, 0x3F032D4F,
  0x3F030AEB, 0x3F02E8A2, 0x3F02C675, 0x3F02A461, 0x3F028269, 0x3F02608B, 0x3F023EC7, 0x3F021D1D,
  0x3F01FB8E, 0x3F01DA18, 0x3F01B8BC, 0x3F01977A, 0x3F017651, 0x3F015542, 0x3F01344C, 0x3F01136F,
  0x3F00F2AB, 0x3F00D200, 0x3F00B16E, 0x3F0090F5, 0x3F007094, 0x3F00504B, 0x3F00301B, 0x3F001003]

/-- Trsq: 1 / sqrt(1 + (i + 0.5) / 128) (R63). -/
def tRsq : List Nat := tRsq0 ++ tRsq1 ++ tRsq2 ++ tRsq3 ++ tRsq4 ++ tRsq5

/-- Entries 0 to 63 of Tlg: log2(1 + i / 128). -/
def tLg0 : List Nat := [
  0x00000000, 0x3C37F286, 0x3CB73CB4, 0x3D08E68F, 0x3D35D69C, 0x3D626FD6, 0x3D8759C5, 0x3D9D517F,
  0x3DB31FB8, 0x3DC8C50B, 0x3DDE4212, 0x3DF39761, 0x3E0462C4, 0x3E0EE68D, 0x3E19574F, 0x3E23B550,
  0x3E2E00D2, 0x3E383A17, 0x3E42615F, 0x3E4C76E8, 0x3E567AF1, 0x3E606DB6, 0x3E6A4F72, 0x3E74205F,
  0x3E7DE0B6, 0x3E83C857, 0x3E88983F, 0x3E8D602E, 0x3E92203D, 0x3E96D888, 0x3E9B8926, 0x3EA03232,
  0x3EA4D3C2, 0x3EA96DF0, 0x3EAE00D2, 0x3EB28C7F, 0x3EB7110E, 0x3EBB8E96, 0x3EC0052B, 0x3EC474E4,
  0x3EC8DDD4, 0x3ECD4012, 0x3ED19BB0, 0x3ED5F0C4, 0x3EDA3F60, 0x3EDE8797, 0x3EE2C97D, 0x3EE70525,
  0x3EEB3A9F, 0x3EEF69FF, 0x3EF39355, 0x3EF7B6B4, 0x3EFBD42B, 0x3EFFEBCD, 0x3F01FED4, 0x3F0404E8,
  0x3F060828, 0x3F08089E, 0x3F0A0650, 0x3F0C0146, 0x3F0DF989, 0x3F0FEF1F, 0x3F11E20F, 0x3F13D260]

/-- Entries 64 to 127 of Tlg: log2(1 + i / 128). -/
def tLg1 : List Nat := [
  0x3F15C01A, 0x3F17AB44, 0x3F1993E3, 0x3F1B7A00, 0x3F1D5DA0, 0x3F1F3ECA, 0x3F211D84, 0x3F22F9D5,
  0x3F24D3C2, 0x3F26AB53, 0x3F28808C, 0x3F2A5374, 0x3F2C2411, 0x3F2DF268, 0x3F2FBE80, 0x3F31885C,
  0x3F335004, 0x3F35157D, 0x3F36D8CB, 0x3F3899F5, 0x3F3A58FF, 0x3F3C15EE, 0x3F3DD0C8, 0x3F3F8991,
  0x3F41404F, 0x3F42F506, 0x3F44A7BA, 0x3F465872, 0x3F480731, 0x3F49B3FB, 0x3F4B5ED7, 0x3F4D07C7,
  0x3F4EAED0, 0x3F5053F7, 0x3F51F740, 0x3F5398AF, 0x3F553848, 0x3F56D60F, 0x3F587209, 0x3F5A0C3A,
  0x3F5BA4A4, 0x3F5D3B4E, 0x3F5ED039, 0x3F60636A, 0x3F61F4E5, 0x3F6384AD, 0x3F6512C7, 0x3F669F35,
  0x3F6829FB, 0x3F69B31E, 0x3F6B3A9F, 0x3F6CC083, 0x3F6E44CD, 0x3F6FC781, 0x3F7148A1, 0x3F72C832,
  0x3F744636, 0x3F75C2B0, 0x3F773DA4, 0x3F78B714, 0x3F7A2F04, 0x3F7BA578, 0x3F7D1A71, 0x3F7E8DF2]

/-- Tlg: log2(1 + i / 128) (R63). -/
def tLg : List Nat := tLg0 ++ tLg1

/-- Entries 0 to 63 of Tic: 128 / (128 + i). -/
def tIc0 : List Nat := [
  0x3F800000, 0x3F7E03F8, 0x3F7C0FC1, 0x3F7A232D, 0x3F783E10, 0x3F76603E, 0x3F74898D, 0x3F72B9D6,
  0x3F70F0F1, 0x3F6F2EB7, 0x3F6D7304, 0x3F6BBDB3, 0x3F6A0EA1, 0x3F6865AC, 0x3F66C2B4, 0x3F652598,
  0x3F638E39, 0x3F61FC78, 0x3F607038, 0x3F5EE95C, 0x3F5D67C9, 0x3F5BEB62, 0x3F5A740E, 0x3F5901B2,
  0x3F579436, 0x3F562B81, 0x3F54C77B, 0x3F53680D, 0x3F520D21, 0x3F50B6A0, 0x3F4F6475, 0x3F4E168A,
  0x3F4CCCCD, 0x3F4B8728, 0x3F4A4588, 0x3F4907DA, 0x3F47CE0C, 0x3F46980C, 0x3F4565C8, 0x3F443730,
  0x3F430C31, 0x3F41E4BC, 0x3F40C0C1, 0x3F3FA030, 0x3F3E82FA, 0x3F3D6910, 0x3F3C5264, 0x3F3B3EE7,
  0x3F3A2E8C, 0x3F392144, 0x3F381703, 0x3F370FBB, 0x3F360B61, 0x3F3509E7, 0x3F340B41, 0x3F330F63,
  0x3F321643, 0x3F311FD4, 0x3F302C0B, 0x3F2F3ADE, 0x3F2E4C41, 0x3F2D602B, 0x3F2C7692, 0x3F2B8F6A]

/-- Entries 64 to 127 of Tic: 128 / (128 + i). -/
def tIc1 : List Nat := [
  0x3F2AAAAB, 0x3F29C84A, 0x3F28E83F, 0x3F280A81, 0x3F272F05, 0x3F2655C4, 0x3F257EB5, 0x3F24A9CF,
  0x3F23D70A, 0x3F23065E, 0x3F2237C3, 0x3F216B31, 0x3F20A0A1, 0x3F1FD80A, 0x3F1F1166, 0x3F1E4CAD,
  0x3F1D89D9, 0x3F1CC8E1, 0x3F1C09C1, 0x3F1B4C70, 0x3F1A90E8, 0x3F19D723, 0x3F191F1A, 0x3F1868C8,
  0x3F17B426, 0x3F17012E, 0x3F164FDA, 0x3F15A025, 0x3F14F209, 0x3F144581, 0x3F139A86, 0x3F12F114,
  0x3F124925, 0x3F11A2B4, 0x3F10FDBC, 0x3F105A38, 0x3F0FB824, 0x3F0F177A, 0x3F0E7835, 0x3F0DDA52,
  0x3F0D3DCB, 0x3F0CA29C, 0x3F0C08C1, 0x3F0B7034, 0x3F0AD8F3, 0x3F0A42F8, 0x3F09AE41, 0x3F091AC7,
  0x3F088889, 0x3F07F781, 0x3F0767AB, 0x3F06D905, 0x3F064B8A, 0x3F05BF37, 0x3F053408, 0x3F04A9FA,
  0x3F042108, 0x3F039930, 0x3F03126F, 0x3F028CC0, 0x3F020821, 0x3F01848E, 0x3F010204, 0x3F008081]

/-- Tic: 128 / (128 + i) (R63). -/
def tIc : List Nat := tIc0 ++ tIc1

/-- Entries 0 to 63 of Tex: 2^(i / 64). -/
def tEx0 : List Nat := [
  0x3F800000, 0x3F8164D2, 0x3F82CD87, 0x3F843A29, 0x3F85AAC3, 0x3F871F62, 0x3F88980F, 0x3F8A14D5,
  0x3F8B95C2, 0x3F8D1ADF, 0x3F8EA43A, 0x3F9031DC, 0x3F91C3D3, 0x3F935A2B, 0x3F94F4F0, 0x3F96942D,
  0x3F9837F0, 0x3F99E046, 0x3F9B8D3A, 0x3F9D3EDA, 0x3F9EF532, 0x3FA0B051, 0x3FA27043, 0x3FA43516,
  0x3FA5FED7, 0x3FA7CD94, 0x3FA9A15B, 0x3FAB7A3A, 0x3FAD583F, 0x3FAF3B79, 0x3FB123F6, 0x3FB311C4,
  0x3FB504F3, 0x3FB6FD92, 0x3FB8FBAF, 0x3FBAFF5B, 0x3FBD08A4, 0x3FBF179A, 0x3FC12C4D, 0x3FC346CD,
  0x3FC5672A, 0x3FC78D75, 0x3FC9B9BE, 0x3FCBEC15, 0x3FCE248C, 0x3FD06334, 0x3FD2A81E, 0x3FD4F35B,
  0x3FD744FD, 0x3FD99D16, 0x3FDBFBB8, 0x3FDE60F5, 0x3FE0CCDF, 0x3FE33F89, 0x3FE5B907, 0x3FE8396A,
  0x3FEAC0C7, 0x3FED4F30, 0x3FEFE4BA, 0x3FF28177, 0x3FF5257D, 0x3FF7D0DF, 0x3FFA83B3, 0x3FFD3E0C]

/-- Tex: 2^(i / 64) (R63). -/
def tEx : List Nat := tEx0

/-! Constants of R63. -/
def cG1 : Nat := 0x3FB8AA3B
def cG2 : Nat := 0xBF38AA3B
def cG3 : Nat := 0x3EF6384F
def cG4 : Nat := 0xBEB8AA3B
def cD1 : Nat := 0x3F317218
def cD2 : Nat := 0x3E75FDF0
def cD3 : Nat := 0x3D635847
def cD4 : Nat := 0x3C1D955B
def cA3 : Nat := 0xBE2AAAAB
def cA5 : Nat := 0x3C088889
def cA7 : Nat := 0xB9500D01
def cA9 : Nat := 0x3638EF1D
def cB2 : Nat := 0xBF000000
def cB4 : Nat := 0x3D2AAAAB
def cB6 : Nat := 0xBAB60B61
def cB8 : Nat := 0x37D00D01
def cB10 : Nat := 0xB493F27E
def cH3 : Nat := 0xBEAAAAAB
def cH5 : Nat := 0x3E088889
def cH7 : Nat := 0xBD5D0DD1
def cH9 : Nat := 0x3CB327A4
def cH11 : Nat := 0xBC11371B
def cQ : Nat := 0x4038AA3B

/-- floor(π × 2^512) (R66). -/
def piScaled : Nat :=
  0x3243F6A8885A308D313198A2E03707344A4093822299F31D0082EFA98EC4E6C89452821E638D01377BE5466CF34E90C6CC0AC29B7C97C50DD3F84D5B5B5470917

end Sys2Proof.Machine
end

