-- ==== Sys2Proof/Machine/SpecialFn.lean ====
section
/-! DEFINITION. The approximate functions bit for bit, and the piecewise-polynomial unit (02 R63 to R69, 04 R122 to
R125). -/

namespace Sys2Proof.Machine

/-- A value rounded to binary32 with RNE, without flush or flags: an internal step (R63). -/
def r32 (v : FV) : Nat := (roundTo 0 false .f32 0 v).1
/-- The value of a binary32 code. -/
def v32 (c : Nat) : FV := decodeF .f32 c
def fadd32 (a b : Nat) : Nat := r32 (fvAdd 0 (v32 a) (v32 b)).1
def fmul32 (a b : Nat) : Nat := r32 (fvMul (v32 a) (v32 b)).1
def fma32 (a b c : Nat) : Nat := r32 (fvFma 0 (v32 a) (v32 b) (v32 c)).1
def neg32 (a : Nat) : Nat := if 2 ^ 31 ≤ a then a - 2 ^ 31 else a + 2 ^ 31

def one32 : Nat := 0x3F800000
def inf32 : Nat := 0x7F800000
def nan32 : Nat := 0x7FC00000
def signBit (neg : Bool) : Nat := if neg then 2 ^ 31 else 0

/-- Decomp of R63 on a non-zero finite magnitude: E and the 24-bit significand of m. -/
def decomp (m : Nat) (e : Int) : Int × Nat := (m.log2 + e, if m.log2 ≤ 23 then m * 2 ^ (23 - m.log2) else m / 2 ^ (m.log2 - 23))

/-- The binary32 code of a significand in [1, 2). -/
def mantCode (k : Nat) : Nat := one32 + (k - 2 ^ 23)

/-- A code scaled by a power of two, with a sign, exactly. -/
def scaled (y : Nat) (neg : Bool) (e : Int) : FV :=
  match v32 y with
  | .fin x m g => .fin (x != neg) m (g + e)
  | v => v

/-- RCPbody: Trcp and two Newton steps; the value before its RoundTo (R64). -/
def rcpBody (neg : Bool) (m : Nat) (e : Int) : FV :=
  let (ex, k) := decomp m e
  let mc := mantCode k
  let y0 := tRcp.getD ((k - 2 ^ 23) / 2 ^ 16) 0
  let y1 := fma32 y0 (fma32 (neg32 mc) y0 one32) y0
  let y2 := fma32 y1 (fma32 (neg32 mc) y1 one32) y1
  scaled y2 neg (-ex)

/-- What a function answers before its final rounding: a value to round, or a code with its flags. -/
abbrev FnRes := FV × BitVec 5 × Bool

/-- RCP (R64). -/
def rcpFn (x : FV) : FV × BitVec 5 :=
  match x with
  | .nan => (.nan, 0)
  | .inf neg => (.fin neg 0 0, 0)
  | .fin neg m e => if m = 0 then (.inf neg, flDZ) else (rcpBody neg m e, 0)

/-- RSQ (R64). -/
def rsqFn (x : FV) : FV × BitVec 5 :=
  match x with
  | .nan => (.nan, 0)
  | .inf neg => if neg then (.nan, flNV) else (.fin false 0 0, 0)
  | .fin neg m e =>
    if m = 0 then (.inf neg, flDZ)
    else if neg then (.nan, flNV)
    else
      let (ex, k) := decomp m e
      let odd := ex.emod 2 == 1
      let ex := if odd then ex - 1 else ex
      let mc := if odd then mantCode k + 2 ^ 23 else mantCode k
      let y := tRsq.getD (((if odd then 2 * k else k) - 2 ^ 23) / 2 ^ 16) 0
      let y := fmul32 y (fma32 (fmul32 mc 0xBF000000) (fmul32 y y) 0x3FC00000)
      (scaled y false (-(ex.fdiv 2)), 0)

/-- The binary32 code of an integer. -/
def int32 (n : Int) : Nat := r32 (fvOfInt n)

/-- LG2, which ends in an internal step (R65). -/
def lg2Fn (x : FV) : FV × BitVec 5 :=
  match x with
  | .nan => (.nan, 0)
  | .inf neg => if neg then (.nan, flNV) else (.inf false, 0)
  | .fin neg m e =>
    if m = 0 then (.inf true, flDZ)
    else if neg then (.nan, flNV)
    else
      let (ex, k) := decomp m e
      let i := (k - 2 ^ 23) / 2 ^ 16
      let r := fma32 (mantCode k) (tIc.getD i 0) (neg32 one32)
      let p := fmul32 r (fma32 r (fma32 r (fma32 r cG4 cG3) cG2) cG1)
      (v32 (fadd32 (int32 ex) (fadd32 (tLg.getD i 0) p)), 0)

/-- EX2body: the value before its RoundTo (R65). -/
def ex2Body (x : Nat) : FV :=
  match v32 x with
  | .fin neg m e =>
    let v : Int := if neg then -(m : Int) else m
    let j : Int := if 0 ≤ e + 6 then v * 2 ^ (e + 6).toNat else v.fdiv (2 ^ (-(e + 6)).toNat)
    let n := j.fdiv 64
    let i := (j - 64 * n).toNat
    let f := fadd32 x (r32 (.fin (decide (0 < j)) j.natAbs (-6)))
    let q := fmul32 f (fma32 f (fma32 f (fma32 f cD4 cD3) cD2) cD1)
    let t := tEx.getD i 0
    scaled (fma32 t q t) false n
  | v => v

/-- EX2 (R65). -/
def ex2Fn (x : FV) : FV × BitVec 5 :=
  match x with
  | .nan => (.nan, 0)
  | .inf neg => if neg then (.fin false 0 0, 0) else (.inf false, 0)
  | x =>
    if !fvLt false x (.fin false 128 0) then (.inf false, flOF ||| flNX)
    else if fvLt false x (.fin true 151 0) then (.fin false 0 0, flUF ||| flNX)
    else (ex2Body (r32 x), 0)

/-- n and r of R66: n nearest to x × 2 / π, and x − n × π / 2 rounded once. -/
def reduce (neg : Bool) (m : Nat) (e : Int) : Int × Nat :=
  let num : Int := (if neg then -(m : Int) else m) * 2 ^ (e + 513).toNat
  let p : Int := piScaled
  let n := (2 * num + p).fdiv (2 * p)
  let d := num - n * p
  (n, r32 (.fin (decide (d < 0)) d.natAbs (-513)))

/-- SIN and COS, which end in internal steps (R66). -/
def sinCosFn (isSin : Bool) (x : FV) : FV × BitVec 5 :=
  match x with
  | .nan => (.nan, 0)
  | .inf _ => (.nan, flNV)
  | .fin neg m e =>
    if m = 0 then (if isSin then .fin neg 0 0 else .fin false 1 0, 0)
    else
      let (n, r) := reduce neg m e
      let z := fmul32 r r
      let sv := fma32 r (fmul32 (fma32 z (fma32 z (fma32 z cA9 cA7) cA5) cA3) z) r
      let cv := fma32 z (fma32 z (fma32 z (fma32 z (fma32 z cB10 cB8) cB6) cB4) cB2) one32
      let q := (n.emod 4).toNat
      let c := if isSin then
          (match q with | 0 => sv | 1 => cv | 2 => neg32 sv | _ => neg32 cv)
        else (match q with | 0 => cv | 1 => neg32 sv | 2 => neg32 cv | _ => sv)
      (v32 c, 0)

/-- TANH, which ends in an internal step (R67). -/
def tanhFn (x : FV) : FV × BitVec 5 :=
  match x with
  | .nan => (.nan, 0)
  | .inf neg => (.fin neg 1 0, 0)
  | .fin neg m e =>
    if m = 0 then (.fin neg 0 0, 0)
    else if dyLe 10 0 m e then (.fin neg 1 0, 0)
    else if !dyLe 1 (-2) m e then
      let xc := r32 x
      let z := fmul32 xc xc
      let p := fma32 z (fma32 z (fma32 z (fma32 z cH11 cH9) cH7) cH5) cH3
      (v32 (fma32 xc (fmul32 p z) xc), 0)
    else
      let ea := r32 (ex2Body (fmul32 (r32 (.fin false m e)) cQ))
      let y := match v32 (fadd32 ea one32) with
        | .fin _ k g => fma32 0xC0000000 (r32 (rcpBody false k g)) one32
        | _ => one32
      (scaled y neg 0, 0)

/-- A function on a sub-element: the input flush, the algorithm to a binary32 value, and the final rounding, which is
the RoundTo that ends RCP, RSQ and EX2 under f32 (`closes`), or the RoundTo into a packed format (R63). -/
def specialCode (f : FV → FV × BitVec 5) (closes flush : Bool) (ovt : Nat) (fm : Fmt) (c : Nat) : Nat × BitVec 5 :=
  let (v, fl) := f (decodeFlush flush fm c)
  let r := if fm = .f32 then
      (let q := roundTo ovt flush .f32 0 v
       if closes then q else (q.1, 0))
    else roundTo ovt flush fm 0 (v32 (r32 v))
  (r.1, r.2 ||| fl)

/-- A special-function instruction (R122). -/
def specialBody (f : FV → FV × BitVec 5) (closes : Bool) (d a : BitVec 6) (s : State) : Res :=
  let t := modeType s.w.mode
  lanesF t d.toNat (fun l => packF t (fun i =>
    specialCode f closes (modeFlush s.w.mode) (ovtNat s) (fmtOfType t) (subElem (srcX a s l) (typeWidth t) i))) s

def execRcp (d a : BitVec 6) (l : BitVec 4) (s : State) : Out := run (.rcp d a l) (specialBody rcpFn true d a) s
def execRsq (d a : BitVec 6) (l : BitVec 4) (s : State) : Out := run (.rsq d a l) (specialBody rsqFn true d a) s
def execLg2 (d a : BitVec 6) (l : BitVec 4) (s : State) : Out := run (.lg2 d a l) (specialBody lg2Fn false d a) s
def execEx2 (d a : BitVec 6) (l : BitVec 4) (s : State) : Out := run (.ex2 d a l) (specialBody ex2Fn true d a) s
def execSin (d a : BitVec 6) (l : BitVec 4) (s : State) : Out :=
  run (.sin d a l) (specialBody (sinCosFn true) false d a) s
def execCos (d a : BitVec 6) (l : BitVec 4) (s : State) : Out :=
  run (.cos d a l) (specialBody (sinCosFn false) false d a) s
def execTanh (d a : BitVec 6) (l : BitVec 4) (s : State) : Out := run (.tanh d a l) (specialBody tanhFn false d a) s

/-- The value w of a segment of a PPU slot (R68). -/
def segVal (p : PpuSlot) (i w : Nat) : Nat := (sget 0 p.segs (5 * i + w)).toNat

/-- The segment PPE uses: the largest whose breakpoint is at most x (R69). -/
def segOf (p : PpuSlot) (x : FV) : Nat :=
  (List.range p.n).foldl (fun best i =>
    let b := v32 (segVal p i 0)
    if !b.isNan && !fvLt false x b then i else best) 0

/-- PPE on a binary32 value: the last step before its rounding, and NV (R69). -/
def ppeFn (p : PpuSlot) (x : FV) : FV × BitVec 5 :=
  match x with
  | .nan => (.nan, 0)
  | x =>
    let i := segOf p x
    let xr := fadd32 (r32 x) (neg32 (segVal p i 0))
    let t := fma32 (segVal p i 4) xr (segVal p i 3)
    let t := fma32 t xr (segVal p i 2)
    let y := (fvFma 0 (v32 t) (v32 xr) (v32 (segVal p i 1))).1
    (y, if y.isNan then flNV else 0)

def execPpe (d a : BitVec 6) (l : BitVec 4) (q : BitVec 2) (s : State) : Out :=
  run (.ppe d a l q) (fun s => specialBody (ppeFn (s.ctx.ppu.getD q.toNat PpuSlot.blank)) true d a s) s

/-- The words PPLD reads, each checked as a lane-path load (R124). -/
def ppldWords (s : State) (base : Nat) : Nat → Except (Byte × Nat) (List Word)
  | 0 => .ok []
  | n + 1 =>
    match ppldWords s base n with
    | .error e => .error e
    | .ok ws =>
      let a := base + 4 * n
      match checkAccess s needR a 4 with
      | .bad c => .error (c, a)
      | .ok key => .ok (ws ++ [BitVec.ofNat 32 (readAs (laneReader s) s key 4)])

/-- A PPU slot loaded: segments beyond the count keep their contents (R124). -/
def loadSlot (p : PpuSlot) (n : Nat) (ws : List Word) : PpuSlot :=
  { n := n, segs := (ws.zipIdx).foldl (fun m e => sset 0 m e.2 e.1) p.segs }

/-- A uniform read that meets poison raises ECCFATAL at its address (R168). -/
def firstPoison (s : State) (a n : Nat) : Option Nat :=
  (List.range n).findSome? (fun i => match checkAccess s needR (a + i) 1 with
    | .ok key => if poisonedAt s key then some (a + i) else none
    | .bad _ => none)

/-- PPLD (R124, R125). A PPE of another warp that nothing orders after it sees the new slot from the next step on; the spec
lets it see the old one as well (log 105). -/
def execPpld (a b : BitVec 6) (l : BitVec 4) (q : BitVec 2) (s : State) : Out :=
  run (.ppld a b l q) (fun s => once s (fun s =>
    let n := (kget s b.toNat).toNat
    let base := (kget s a.toNat).toNat
    if n < 1 || decide (64 < n) then trapHere s cOperand n
    else if base % 4 ≠ 0 then trapHere s cAlign base
    else match ppldWords s base (5 * n) with
      | .error (c, v) => trapHere s c v
      | .ok ws =>
        match firstPoison s base (20 * n) with
        | some v => trapHere s cEccfatal v
        | none => .ok { s with ctx := { s.ctx with
            ppu := s.ctx.ppu.set q.toNat (loadSlot (s.ctx.ppu.getD q.toNat PpuSlot.blank) n ws) } })) s

end Sys2Proof.Machine
end

