-- ==== Sys2Proof/Machine/Uniform.lean ====
section
/-! DEFINITION. Uniform operations on k registers: they act once for each split that issues them (04 R95, R126 to
R130). -/

namespace Sys2Proof.Machine

/-- A uniform result written once when some lane passes the guard (R95). -/
def uniform (d : BitVec 6) (f : State → DWord) (s : State) : Res := once s (fun s => .ok (kset s d.toNat (f s)))

/-- A shift by an unsigned 64-bit count: 0 from 64 on (R126). -/
def kShl (a b : DWord) : DWord := if b.toNat < 64 then a <<< b.toNat else 0
def kShr (a b : DWord) : DWord := if b.toNat < 64 then a >>> b.toNat else 0

def execKadd (d a b : BitVec 6) (s : State) : Out :=
  run (.kadd d a b) (uniform d (fun s => kget s a.toNat + kget s b.toNat)) s
def execKsub (d a b : BitVec 6) (s : State) : Out :=
  run (.ksub d a b) (uniform d (fun s => kget s a.toNat - kget s b.toNat)) s
def execKmul (d a b : BitVec 6) (s : State) : Out :=
  run (.kmul d a b) (uniform d (fun s => kget s a.toNat * kget s b.toNat)) s
def execKand (d a b : BitVec 6) (s : State) : Out :=
  run (.kand d a b) (uniform d (fun s => kget s a.toNat &&& kget s b.toNat)) s
def execKor (d a b : BitVec 6) (s : State) : Out :=
  run (.kor d a b) (uniform d (fun s => kget s a.toNat ||| kget s b.toNat)) s
def execKxor (d a b : BitVec 6) (s : State) : Out :=
  run (.kxor d a b) (uniform d (fun s => kget s a.toNat ^^^ kget s b.toNat)) s
def execKshl (d a b : BitVec 6) (s : State) : Out :=
  run (.kshl d a b) (uniform d (fun s => kShl (kget s a.toNat) (kget s b.toNat))) s
def execKshr (d a b : BitVec 6) (s : State) : Out :=
  run (.kshr d a b) (uniform d (fun s => kShr (kget s a.toNat) (kget s b.toNat))) s
def execKaddi (d a : BitVec 6) (i : BitVec 12) (s : State) : Out :=
  run (.kaddi d a i) (uniform d (fun s => kget s a.toNat + i.signExtend 64)) s
def execKmovi (d : BitVec 6) (i : BitVec 18) (s : State) : Out :=
  run (.kmovi d i) (uniform d (fun _ => i.signExtend 64)) s
def execKcat (d : BitVec 6) (i : BitVec 18) (s : State) : Out :=
  run (.kcat d i) (uniform d (fun s => (kget s d.toNat <<< 18) ||| i.setWidth 64)) s
def execKcmp (d a b : BitVec 6) (c : BitVec 5) (s : State) : Out :=
  run (.kcmp d a b c) (uniform d (fun s => if kCond c.toNat (kget s a.toNat) (kget s b.toNat) then 1 else 0)) s
def execKsel (d a b : BitVec 6) (f : BitVec 5) (s : State) : Out :=
  run (.ksel d a b f) (uniform d (fun s => if kget s f.toNat ≠ 0 then kget s a.toNat else kget s b.toNat)) s
def execKmin (d a b : BitVec 6) (s : State) : Out :=
  run (.kmin d a b) (uniform d (fun s =>
    if (kget s a.toNat).toInt ≤ (kget s b.toNat).toInt then kget s a.toNat else kget s b.toNat)) s
def execKminU (d a b : BitVec 6) (s : State) : Out :=
  run (.kminU d a b) (uniform d (fun s =>
    if (kget s a.toNat).toNat ≤ (kget s b.toNat).toNat then kget s a.toNat else kget s b.toNat)) s
def execKmax (d a b : BitVec 6) (s : State) : Out :=
  run (.kmax d a b) (uniform d (fun s =>
    if (kget s a.toNat).toInt ≤ (kget s b.toNat).toInt then kget s b.toNat else kget s a.toNat)) s
def execKmaxU (d a b : BitVec 6) (s : State) : Out :=
  run (.kmaxU d a b) (uniform d (fun s =>
    if (kget s a.toNat).toNat ≤ (kget s b.toNat).toNat then kget s b.toNat else kget s a.toNat)) s

end Sys2Proof.Machine
end

