-- ==== Sys2Proof/Machine/Dispatch.lean ====
section
/-! DEFINITION. The one dispatch from an instruction to its meaning. -/

namespace Sys2Proof.Machine

/-- What an instruction or event does to the machine. -/
def exec (i : Instr) (s : State) : Host.Outcome State Fault Refusal :=
  match i with
  | .bra p sn d => Sys2Proof.Machine.execBra p sn d s
  | .jmpk a => Sys2Proof.Machine.execJmpk a s
  | .call c d => Sys2Proof.Machine.execCall c d s
  | .callk a c => Sys2Proof.Machine.execCallk a c s
  | .srcv d => Sys2Proof.Machine.execSrcv d s
  | .sleep a => Sys2Proof.Machine.execSleep a s
  | .setm m => Sys2Proof.Machine.execSetm m s
  | .setg sn g => Sys2Proof.Machine.execSetg sn g s
  | .sigchk ix => Sys2Proof.Machine.execSigchk ix s
  | .trap v c => Sys2Proof.Machine.execTrap v c s
  | .role a => Sys2Proof.Machine.execRole a s
  | .dispq a => Sys2Proof.Machine.execDispq a s
  | .cjoin d a => Sys2Proof.Machine.execCjoin d a s
  | .cleave d => Sys2Proof.Machine.execCleave d s
  | .bara a b => Sys2Proof.Machine.execBara a b s
  | .barw a b => Sys2Proof.Machine.execBarw a b s
  | .bars a b => Sys2Proof.Machine.execBars a b s
  | .setrl d => Sys2Proof.Machine.execSetrl d s
  | .srd d k ix => Sys2Proof.Machine.execSrd d k ix s
  | .swrMode a k => Sys2Proof.Machine.execSwrMode a k s
  | .swrFflags a k => Sys2Proof.Machine.execSwrFflags a k s
  | .swrStrand a k => Sys2Proof.Machine.execSwrStrand a k s
  | .swrSpillb a k => Sys2Proof.Machine.execSwrSpillb a k s
  | .swrTrapc a k => Sys2Proof.Machine.execSwrTrapc a k s
  | .swrTrapv a k => Sys2Proof.Machine.execSwrTrapv a k s
  | .swrTrappc a k => Sys2Proof.Machine.execSwrTrappc a k s
  | .swrOvt a k => Sys2Proof.Machine.execSwrOvt a k s
  | .bkpt ix => Sys2Proof.Machine.execBkpt ix s
  | .ovtld a => Sys2Proof.Machine.execOvtld a s
  | .add d a b u => Sys2Proof.Machine.execAdd d a b u s
  | .sub d a b u => Sys2Proof.Machine.execSub d a b u s
  | .mul d a b u => Sys2Proof.Machine.execMul d a b u s
  | .mulh d a b u => Sys2Proof.Machine.execMulh d a b u s
  | .min d a b u => Sys2Proof.Machine.execMin d a b u s
  | .max d a b u => Sys2Proof.Machine.execMax d a b u s
  | .abs d a => Sys2Proof.Machine.execAbs d a s
  | .neg d a => Sys2Proof.Machine.execNeg d a s
  | .and d a b u => Sys2Proof.Machine.execAnd d a b u s
  | .or d a b u => Sys2Proof.Machine.execOr d a b u s
  | .xor d a b u => Sys2Proof.Machine.execXor d a b u s
  | .andn d a b u => Sys2Proof.Machine.execAndn d a b u s
  | .shl d a b u => Sys2Proof.Machine.execShl d a b u s
  | .shr d a b u => Sys2Proof.Machine.execShr d a b u s
  | .sar d a b u => Sys2Proof.Machine.execSar d a b u s
  | .rol d a b u => Sys2Proof.Machine.execRol d a b u s
  | .mad d a b c => Sys2Proof.Machine.execMad d a b c s
  | .sel d a b u n => Sys2Proof.Machine.execSel d a b u n s
  | .cmp d a b u c => Sys2Proof.Machine.execCmp d a b u c s
  | .cmpi p c a ix => Sys2Proof.Machine.execCmpi p c a ix s
  | .popc d a => Sys2Proof.Machine.execPopc d a s
  | .clz d a => Sys2Proof.Machine.execClz d a s
  | .brev d a => Sys2Proof.Machine.execBrev d a s
  | .perm d a b c => Sys2Proof.Machine.execPerm d a b c s
  | .bfx d a n p => Sys2Proof.Machine.execBfx d a n p s
  | .bfi d a n p => Sys2Proof.Machine.execBfi d a n p s
  | .movx d a => Sys2Proof.Machine.execMovx d a s
  | .movxK d b => Sys2Proof.Machine.execMovxK d b s
  | .movi d ix => Sys2Proof.Machine.execMovi d ix s
  | .movh d ix => Sys2Proof.Machine.execMovh d ix s
  | .pmov d a => Sys2Proof.Machine.execPmov d a s
  | .pset d a => Sys2Proof.Machine.execPset d a s
  | .plog d a b t => Sys2Proof.Machine.execPlog d a b t s
  | .addi d a ix => Sys2Proof.Machine.execAddi d a ix s
  | .andi d a ix => Sys2Proof.Machine.execAndi d a ix s
  | .ori d a ix => Sys2Proof.Machine.execOri d a ix s
  | .xori d a ix => Sys2Proof.Machine.execXori d a ix s
  | .shli d a n => Sys2Proof.Machine.execShli d a n s
  | .shri d a n => Sys2Proof.Machine.execShri d a n s
  | .sari d a n => Sys2Proof.Machine.execSari d a n s
  | .muli d a ix => Sys2Proof.Machine.execMuli d a ix s
  | .mini d a ix => Sys2Proof.Machine.execMini d a ix s
  | .maxi d a ix => Sys2Proof.Machine.execMaxi d a ix s
  | .fadd d a b u => Sys2Proof.Machine.execFadd d a b u s
  | .fsub d a b u => Sys2Proof.Machine.execFsub d a b u s
  | .fmul d a b u => Sys2Proof.Machine.execFmul d a b u s
  | .fma d a b c => Sys2Proof.Machine.execFma d a b c s
  | .fmin d a b u => Sys2Proof.Machine.execFmin d a b u s
  | .fmax d a b u => Sys2Proof.Machine.execFmax d a b u s
  | .fabs d a => Sys2Proof.Machine.execFabs d a s
  | .fneg d a => Sys2Proof.Machine.execFneg d a s
  | .fcmp d a b u c => Sys2Proof.Machine.execFcmp d a b u c s
  | .cvt d a sn => Sys2Proof.Machine.execCvt d a sn s
  | .cvtz d a sn => Sys2Proof.Machine.execCvtz d a sn s
  | .frnd d a => Sys2Proof.Machine.execFrnd d a s
  | .fcls d a => Sys2Proof.Machine.execFcls d a s
  | .pack d a b sn => Sys2Proof.Machine.execPack d a b sn s
  | .unpk d a h sn => Sys2Proof.Machine.execUnpk d a h sn s
  | .rcp d a l => Sys2Proof.Machine.execRcp d a l s
  | .rsq d a l => Sys2Proof.Machine.execRsq d a l s
  | .lg2 d a l => Sys2Proof.Machine.execLg2 d a l s
  | .ex2 d a l => Sys2Proof.Machine.execEx2 d a l s
  | .sin d a l => Sys2Proof.Machine.execSin d a l s
  | .cos d a l => Sys2Proof.Machine.execCos d a l s
  | .tanh d a l => Sys2Proof.Machine.execTanh d a l s
  | .ppe d a l sn => Sys2Proof.Machine.execPpe d a l sn s
  | .ppld a b l sn => Sys2Proof.Machine.execPpld a b l sn s
  | .shflFrom d a b l => Sys2Proof.Machine.execShflFrom d a b l s
  | .shflRot d a b l => Sys2Proof.Machine.execShflRot d a b l s
  | .shflRotn d a b l => Sys2Proof.Machine.execShflRotn d a b l s
  | .shflXor d a b l => Sys2Proof.Machine.execShflXor d a b l s
  | .voteQuorum d a b l => Sys2Proof.Machine.execVoteQuorum d a b l s
  | .voteUnan d a l => Sys2Proof.Machine.execVoteUnan d a l s
  | .voteMask d a l => Sys2Proof.Machine.execVoteMask d a l s
  | .voteCount d a l => Sys2Proof.Machine.execVoteCount d a l s
  | .redxAdd d a l => Sys2Proof.Machine.execRedxAdd d a l s
  | .redxMin d a l => Sys2Proof.Machine.execRedxMin d a l s
  | .redxMax d a l => Sys2Proof.Machine.execRedxMax d a l s
  | .argmxMax d a l => Sys2Proof.Machine.execArgmxMax d a l s
  | .argmxMin d a l => Sys2Proof.Machine.execArgmxMin d a l s
  | .scanAddIncl d a l => Sys2Proof.Machine.execScanAddIncl d a l s
  | .scanAddExcl d a l => Sys2Proof.Machine.execScanAddExcl d a l s
  | .scanMax d a l => Sys2Proof.Machine.execScanMax d a l s
  | .scanMin d a l => Sys2Proof.Machine.execScanMin d a l s
  | .matchLanes d a l => Sys2Proof.Machine.execMatchLanes d a l s
  | .x2k d a b l => Sys2Proof.Machine.execX2k d a b l s
  | .kadd d a b => Sys2Proof.Machine.execKadd d a b s
  | .ksub d a b => Sys2Proof.Machine.execKsub d a b s
  | .kmul d a b => Sys2Proof.Machine.execKmul d a b s
  | .kand d a b => Sys2Proof.Machine.execKand d a b s
  | .kor d a b => Sys2Proof.Machine.execKor d a b s
  | .kxor d a b => Sys2Proof.Machine.execKxor d a b s
  | .kshl d a b => Sys2Proof.Machine.execKshl d a b s
  | .kshr d a b => Sys2Proof.Machine.execKshr d a b s
  | .kaddi d a ix => Sys2Proof.Machine.execKaddi d a ix s
  | .kmovi d ix => Sys2Proof.Machine.execKmovi d ix s
  | .kcat d ix => Sys2Proof.Machine.execKcat d ix s
  | .kcmp d a b c => Sys2Proof.Machine.execKcmp d a b c s
  | .ksel d a b f => Sys2Proof.Machine.execKsel d a b f s
  | .kmin d a b => Sys2Proof.Machine.execKmin d a b s
  | .kminU d a b => Sys2Proof.Machine.execKminU d a b s
  | .kmax d a b => Sys2Proof.Machine.execKmax d a b s
  | .kmaxU d a b => Sys2Proof.Machine.execKmaxU d a b s
  | .ldb d ix k l sn e => Sys2Proof.Machine.execLdb d ix k l sn e s
  | .ldbs d ix k l sn e => Sys2Proof.Machine.execLdbs d ix k l sn e s
  | .ldh d ix k l sn e => Sys2Proof.Machine.execLdh d ix k l sn e s
  | .ldhs d ix k l sn e => Sys2Proof.Machine.execLdhs d ix k l sn e s
  | .ldw d ix k l sn e => Sys2Proof.Machine.execLdw d ix k l sn e s
  | .ldd d ix k l sn e => Sys2Proof.Machine.execLdd d ix k l sn e s
  | .ldq d ix k l sn e => Sys2Proof.Machine.execLdq d ix k l sn e s
  | .lda d ix k l sn e => Sys2Proof.Machine.execLda d ix k l sn e s
  | .stb d ix k l sn e => Sys2Proof.Machine.execStb d ix k l sn e s
  | .sth d ix k l sn e => Sys2Proof.Machine.execSth d ix k l sn e s
  | .stw d ix k l sn e => Sys2Proof.Machine.execStw d ix k l sn e s
  | .std d ix k l sn e => Sys2Proof.Machine.execStd d ix k l sn e s
  | .stq d ix k l sn e => Sys2Proof.Machine.execStq d ix k l sn e s
  | .stl d ix k l sn e => Sys2Proof.Machine.execStl d ix k l sn e s
  | .kld d k l => Sys2Proof.Machine.execKld d k l s
  | .kst d k l => Sys2Proof.Machine.execKst d k l s
  | .atadd d ix k l sn e => Sys2Proof.Machine.execAtadd d ix k l sn e s
  | .atmin d ix k l sn e => Sys2Proof.Machine.execAtmin d ix k l sn e s
  | .atmax d ix k l sn e => Sys2Proof.Machine.execAtmax d ix k l sn e s
  | .atand d ix k l sn e => Sys2Proof.Machine.execAtand d ix k l sn e s
  | .ator d ix k l sn e => Sys2Proof.Machine.execAtor d ix k l sn e s
  | .atxor d ix k l sn e => Sys2Proof.Machine.execAtxor d ix k l sn e s
  | .atxch d ix k l sn e => Sys2Proof.Machine.execAtxch d ix k l sn e s
  | .atcas d ix k l sn e => Sys2Proof.Machine.execAtcas d ix k l sn e s
  | .reda d ix k l sn e => Sys2Proof.Machine.execReda d ix k l sn e s
  | .redaf d ix k l sn e => Sys2Proof.Machine.execRedaf d ix k l sn e s
  | .mld d k l => Sys2Proof.Machine.execMld d k l s
  | .mst d k l p => Sys2Proof.Machine.execMst d k l p s
  | .mcas d e k l p => Sys2Proof.Machine.execMcas d e k l p s
  | .fence p sn c => Sys2Proof.Machine.execFence p sn c s
  | .cinvL1 a b => Sys2Proof.Machine.execCinvL1 a b s
  | .cinvDie a b => Sys2Proof.Machine.execCinvDie a b s
  | .finv a => Sys2Proof.Machine.execFinv a s
  | .rngdef r b => Sys2Proof.Machine.execRngdef r b s
  | .cpy r b q => Sys2Proof.Machine.execCpy r b q s
  | .cpym m r b q => Sys2Proof.Machine.execCpym m r b q s
  | .awaitf r => Sys2Proof.Machine.execAwaitf r s
  | .awaitfC r b => Sys2Proof.Machine.execAwaitfC r b s
  | .rels r => Sys2Proof.Machine.execRels r s
  | .rngst d r => Sys2Proof.Machine.execRngst d r s
  | .fetch d a b l => Sys2Proof.Machine.execFetch d a b l s
  | .mpath d a b l => Sys2Proof.Machine.execMpath d a b l s
  | .tdef a b => Sys2Proof.Machine.execTdef a b s
  | .tqput a => Sys2Proof.Machine.execTqput a s
  | .twait c b => Sys2Proof.Machine.execTwait c b s
  | .tpoll d c b => Sys2Proof.Machine.execTpoll d c b s
  | .tstat d a => Sys2Proof.Machine.execTstat d a s
  | .nlbin a => Sys2Proof.Machine.execNlbin a s
  | .nlpair a r => Sys2Proof.Machine.execNlpair a r s
  | .nlstat d a => Sys2Proof.Machine.execNlstat d a s
  | .tap a => Sys2Proof.Machine.execTap a s
  | .tapw sn b => Sys2Proof.Machine.execTapw sn b s
  | .taprd d => Sys2Proof.Machine.execTaprd d s
  | .taped a => Sys2Proof.Machine.execTaped a s
  | .frule a b => Sys2Proof.Machine.execFrule a b s
  | .launch d a => Sys2Proof.Machine.execLaunch d a s
  | .trsig a b => Sys2Proof.Machine.execTrsig a b s
  | .trwait a b => Sys2Proof.Machine.execTrwait a b s
  | .shape d a => Sys2Proof.Machine.execShape d a s
  | .accup d a => Sys2Proof.Machine.execAccup d a s
  | .debugFreeze scope target => Sys2Proof.Machine.execDebugFreeze scope target s
  | .debugStep warp slot => Sys2Proof.Machine.execDebugStep warp slot s
  | .preemptRequest ctx time => Sys2Proof.Machine.execPreemptRequest ctx time s
  | .darkslideSwap ctx => Sys2Proof.Machine.execDarkslideSwap ctx s
  | .contextRestore ctx => Sys2Proof.Machine.execContextRestore ctx s
  | .resume crew budget => Sys2Proof.Machine.execResume crew budget s
  | .kill crew => Sys2Proof.Machine.execKill crew s
  | .trwaitRetry warp slot => Sys2Proof.Machine.execTrwaitRetry warp slot s
  | .rowGroupWritten cluster engine => Sys2Proof.Machine.execRowGroupWritten cluster engine s
  | .taskFault cluster engine => Sys2Proof.Machine.execTaskFault cluster engine s
  | .chunkFilled cluster command => Sys2Proof.Machine.execChunkFilled cluster command s
  | .copyFault cluster command => Sys2Proof.Machine.execCopyFault cluster command s
  | .nlbinComplete op => Sys2Proof.Machine.execNlbinComplete op s
  | .nleSlotFilled op => Sys2Proof.Machine.execNleSlotFilled op s
  | .nleBlockTableDone op => Sys2Proof.Machine.execNleBlockTableDone op s
  | .nleFault op => Sys2Proof.Machine.execNleFault op s
  | .fduRootRead tap => Sys2Proof.Machine.execFduRootRead tap s
  | .fduIntakeEnd tap => Sys2Proof.Machine.execFduIntakeEnd tap s
  | .fduEncoderTaskDone tap => Sys2Proof.Machine.execFduEncoderTaskDone tap s
  | .fduSelectDone tap => Sys2Proof.Machine.execFduSelectDone tap s
  | .fduRuleUnit tap => Sys2Proof.Machine.execFduRuleUnit tap s
  | .fduWriteback tap => Sys2Proof.Machine.execFduWriteback tap s
  | .fduFault tap => Sys2Proof.Machine.execFduFault tap s
  | .launchAdmit ctx => Sys2Proof.Machine.execLaunchAdmit ctx s
  | .serviceLaunch ctx record => Sys2Proof.Machine.execServiceLaunch ctx record s
  | .bindRecord record => Sys2Proof.Machine.execBindRecord record s
  | .serviceMld core cell => Sys2Proof.Machine.execServiceMld core cell s
  | .serviceMst core cell payload => Sys2Proof.Machine.execServiceMst core cell payload s
  | .serviceMcas core cell expect payload => Sys2Proof.Machine.execServiceMcas core cell expect payload s
  | .serviceTrsigUpdate core cell value => Sys2Proof.Machine.execServiceTrsigUpdate core cell value s
  | .scrubVisit set => Sys2Proof.Machine.execScrubVisit set s
  | .rebuildVisit set => Sys2Proof.Machine.execRebuildVisit set s
  | .stackRetire stack => Sys2Proof.Machine.execStackRetire stack s
  | .stackReturn move => Sys2Proof.Machine.execStackReturn move s
  | .translationInvalidate ctx va size => Sys2Proof.Machine.execTranslationInvalidate ctx va size s
  | .scoreboardMismatch quadrant => Sys2Proof.Machine.execScoreboardMismatch quadrant s
  | .contact buffer length => Sys2Proof.Machine.execContact buffer length s
  | .captureEnable ctx buffer length => Sys2Proof.Machine.execCaptureEnable ctx buffer length s
  | .replay recording => Sys2Proof.Machine.execReplay recording s
  | .attestationReport nonce => Sys2Proof.Machine.execAttestationReport nonce s
  | .firmwareLimitWrite limit => Sys2Proof.Machine.execFirmwareLimitWrite limit s
  | .egressRequest launch descriptor => Sys2Proof.Machine.execEgressRequest launch descriptor s
  | .refusedWord word => Sys2Proof.Machine.execRefusedWord word s
  | .debugContinue warp slot => Sys2Proof.Machine.execDebugContinue warp slot s
  | .debugBreakpointHit warp place => Sys2Proof.Machine.execDebugBreakpointHit warp place s
  | .contextCreation partition ctxid root => Sys2Proof.Machine.execContextCreation partition ctxid root s
  | .contextDestruction ctx => Sys2Proof.Machine.execContextDestruction ctx s
  | .serviceKernelWatchdog core kernel => Sys2Proof.Machine.execServiceKernelWatchdog core kernel s
  | .serviceOrdinaryAccess core address access => Sys2Proof.Machine.execServiceOrdinaryAccess core address access s
  | .hostDma function address access => Sys2Proof.Machine.execHostDma function address access s
  | .skerryRemoteAccess device address access => Sys2Proof.Machine.execSkerryRemoteAccess device address access s
  | .recoveryImageLoad image => Sys2Proof.Machine.execRecoveryImageLoad image s
  | .nop => Sys2Proof.Machine.execNop s
  | .ret => Sys2Proof.Machine.execRet s
  | .rcv => Sys2Proof.Machine.execRcv s
  | .exit => Sys2Proof.Machine.execExit s
  | .yield => Sys2Proof.Machine.execYield s
  | .yieldp => Sys2Proof.Machine.execYieldp s
  | .tret => Sys2Proof.Machine.execTret s
  | .qend => Sys2Proof.Machine.execQend s
  | .tapresCont => Sys2Proof.Machine.execTapresCont s
  | .tapresEdit => Sys2Proof.Machine.execTapresEdit s
  | .tapresAbort => Sys2Proof.Machine.execTapresAbort s
  | .longLatencyComplete => Sys2Proof.Machine.execLongLatencyComplete s
  | .splitOverflowExchange => Sys2Proof.Machine.execSplitOverflowExchange s
  | .dispatchWarpForm => Sys2Proof.Machine.execDispatchWarpForm s
  | .notificationDelivery => Sys2Proof.Machine.execNotificationDelivery s
  | .preemptDeadline => Sys2Proof.Machine.execPreemptDeadline s
  | .budgetExpiry => Sys2Proof.Machine.execBudgetExpiry s
  | .sleepWake => Sys2Proof.Machine.execSleepWake s
  | .majorityTimeout => Sys2Proof.Machine.execMajorityTimeout s
  | .trsigUpdateDone => Sys2Proof.Machine.execTrsigUpdateDone s
  | .trsigAbandon => Sys2Proof.Machine.execTrsigAbandon s
  | .tileTaskDispatch => Sys2Proof.Machine.execTileTaskDispatch s
  | .copyCommandStart => Sys2Proof.Machine.execCopyCommandStart s
  | .growDecided => Sys2Proof.Machine.execGrowDecided s
  | .growTimeout => Sys2Proof.Machine.execGrowTimeout s
  | .deviceReset => Sys2Proof.Machine.execDeviceReset s
  | .remoteTimeout => Sys2Proof.Machine.execRemoteTimeout s
  | .powerGateJudge => Sys2Proof.Machine.execPowerGateJudge s
  | .thermalHalt => Sys2Proof.Machine.execThermalHalt s
  | .instructionFetchFault => Sys2Proof.Machine.execInstructionFetchFault s

end Sys2Proof.Machine
end

