-- ==== Sys2Proof/Machine/Step.lean ====
section
/-! DEFINITION. One step of the machine: what has come due, what acts next, the choice of a split to issue, the clock, and
a machine whose next step runs a given word (05 R12, R131 to R133; 08 R249, R255; 16 R338; 18 R374, R376; 19 R392, R395;
logs 1, 2, 5, 9, 31). -/

namespace Sys2Proof.Machine

/-- Clocks the next step takes (log 2). -/
def paceOf (s : State) : Nat := max 1 (s.env.pace.headD 1)

/-- Some split of a crew, in a table or an overflow block, is ready and not stopped (R255; log 16). -/
def crewReady (s : State) (crew : Nat) : Bool :=
  (s.warpsOf crew).any (fun w => (w.splits ++ w.overflow).any (fun p => p.alive && p.state == .ready))

/-- BUDGET counted down over some clocks (R255). -/
def Crew.spend (c : Crew) (n : Nat) : Crew :=
  match c.budget with
  | some b => { c with budget := some (b - BitVec.ofNat 64 (min b.toNat n)) }
  | none => c

/-- The crew ran before the step (R255). -/
def ranBefore (s : State) (crew : Nat) : Bool := s.allCrews.any (fun c => c.id == crew && c.state == .running)

/-- The budgets of the crews that were running with a ready split counted down (R255). -/
def countBudgets (before after : State) (n : Nat) : State :=
  let f : Crew → Crew := fun c => if c.budget.isSome && ranBefore before c.id && crewReady before c.id then c.spend n else c
  { after with crew := f after.crew, crews := after.crews.map f }

/-- Clocks between two judgements of the power gate: 10 microseconds (R395). -/
def powerClocks : Nat := 10500

/-- The power gate's judgement, where the clock has passed one of its times (R395). -/
def judgePower (s : State) (n : Nat) : State :=
  if (s.cycle.toNat + n) / powerClocks = s.cycle.toNat / powerClocks then s else (powerGateJudgeEvent s).getD s

/-- The clock after a step (R34). -/
def tick (before after : State) : State :=
  let n := paceOf before
  let t := judgePower (countBudgets before after n) n
  { t with cycle := t.cycle + BitVec.ofNat 64 n, env := { t.env with pace := t.env.pace.tail } }

/-- Events that firmware, the service, the host, a debugger or the hardware's failures send. -/
def fromWorld : Instr → Bool
  | .debugFreeze _ _ | .debugStep _ _ | .debugContinue _ _ | .debugBreakpointHit _ _ | .preemptRequest _ _
  | .darkslideSwap _ | .contextRestore _ | .resume _ _ | .kill _ | .launchAdmit _ | .serviceLaunch _ _
  | .bindRecord _ | .serviceMld _ _ | .serviceMst _ _ _ | .serviceMcas _ _ _ _ | .serviceTrsigUpdate _ _ _
  | .stackRetire _ | .stackReturn _ | .translationInvalidate _ _ _ | .scoreboardMismatch _ | .contact _ _
  | .captureEnable _ _ _ | .replay _ | .deviceReset | .attestationReport _ | .firmwareLimitWrite _ | .remoteTimeout
  | .thermalHalt | .egressRequest _ _ | .contextCreation _ _ _ | .contextDestruction _ | .serviceKernelWatchdog _ _
  | .serviceOrdinaryAccess _ _ _ | .hostDma _ _ _ | .skerryRemoteAccess _ _ _ | .recoveryImageLoad _ => true
  | _ => false

/-- What the security core and the control window still answer before the boot is over and in recovery (R392). -/
def beforeBoot : Instr → Bool
  | .deviceReset | .attestationReport _ | .contact _ _ | .thermalHalt | .recoveryImageLoad _ => true
  | _ => false

/-- The part is booted. -/
def booted (s : State) : Bool := s.dev.boot == .running

/-- An event the world sends reaches the machine. -/
def arrives (s : State) (i : Instr) : Bool := fromWorld i && (booted s || beforeBoot i)

/-- What the hardware does of itself, as an event that a step may take: none where it cannot happen. Instructions and what
the world sends are none of these. -/
def ownEvent : Instr → State → Option State
  | .budgetExpiry => budgetExpiryEvent
  | .preemptDeadline => preemptDeadlineEvent
  | .sleepWake => sleepWakeEvent
  | .notificationDelivery => notificationDeliveryEvent
  | .splitOverflowExchange => splitOverflowExchangeEvent
  | .growTimeout => growTimeoutEvent
  | .growDecided => growDecidedEvent
  | .trsigAbandon => trsigAbandonEvent
  | .trsigUpdateDone => trsigUpdateDoneEvent
  | .majorityTimeout => majorityTimeoutEvent
  | .copyCommandStart => copyCommandStartEvent
  | .tileTaskDispatch => tileTaskDispatchEvent
  | .dispatchWarpForm => dispatchWarpFormEvent
  | .chunkFilled k n => chunkFilledEvent k n
  | .copyFault k n => copyFaultEvent k n
  | .rowGroupWritten k e => rowGroupWrittenEvent k e
  | .taskFault k e => taskFaultEvent k e
  | .nlbinComplete o => nlbinCompleteEvent o
  | .nleSlotFilled o => nleSlotFilledEvent o
  | .nleBlockTableDone o => nleBlockTableDoneEvent o
  | .nleFault o => nleFaultEvent o
  | .fduRootRead n => fduRootReadEvent n
  | .fduIntakeEnd n => fduIntakeEndEvent n
  | .fduEncoderTaskDone n => fduEncoderTaskDoneEvent n
  | .fduSelectDone n => fduSelectDoneEvent n
  | .fduRuleUnit n => fduRuleUnitEvent n
  | .fduWriteback n => fduWritebackEvent n
  | .fduFault n => fduFaultEvent n
  | .bindRecord r => bindRecordEvent r
  | _ => fun _ => none

/-- The first of some events that can happen. -/
def firstNext (s : State) (is : List Instr) : Option State := is.findSome? (fun i => ownEvent i s)

/-- The groups of a running crew's warp that have become complete without an arrival merged, as after a debugger's
continue (R147, R260). -/
def mergeWarp (s : State) (id : Nat) : State := pack (stopSteps (mergeAll (focusWarp s id) none))

/-- A warp has a complete group that nothing holds. -/
def mergeDue (s : State) (w : Warp) : Bool :=
  let c := findCrew s.crews w.crew
  w.splits.any (fun p => p.state == .waitRcv) && c.state == .running && (c.holder.isNone || c.holder == some w.id) &&
    (completePoint { s with w := w }).isSome

/-- The merges of a packed machine that are due. -/
def mergeGroups (s : State) : State :=
  ((s.warps.filter (mergeDue s)).map (fun w => w.id)).foldl mergeWarp s

/-- What has come due without a step of its own, errors in storage apart, in a packed machine: lines on their way, the
repeated loads of TRWAITs, service operations, log updates, invalidations, the visits of scrubbers and rebuilds, and
merges (R147, R176, R178, R257, R341, R372, R374, R376; log 1). -/
def settleDue (s : State) : State :=
  let t := advanceServices (repeatLoads (landLines s))
  mergeGroups (visitCells (finishInvalidations (flushLogs t t.logs.length)))

/-- All that has come due without a step of its own in a packed machine, errors in storage first (R384). -/
def settle (s : State) : State :=
  match s.env.upsets with
  | [] => settleDue s
  | us => settleDue (applyUpsets s us)

/-- Events that time brings, of a packed machine (R144, R154, R176, R200, R243, R249, R255, R265). -/
def dueEvents : List Instr :=
  [.budgetExpiry, .preemptDeadline, .sleepWake, .notificationDelivery, .splitOverflowExchange, .growTimeout,
   .trsigAbandon, .majorityTimeout]

/-- Events of a cluster's engines; the fault of a number past the engines' is that of tasks which depend on a failed one
(R222). -/
def clusterEvents (c : Cluster) : List Instr :=
  (List.range c.copies.length).flatMap (fun n => [.chunkFilled c.id n, .copyFault c.id n]) ++
    (List.range 4).flatMap (fun e => [.rowGroupWritten c.id e, .taskFault c.id e]) ++ [.taskFault c.id 4]

/-- Events of a neighbour-list operation. -/
def nleEvents (o : NleOp) : List Instr :=
  match o.kind with
  | .bin => [.nlbinComplete o.id, .nleFault o.id]
  | .stream => [.nleSlotFilled o.id, .nleFault o.id]
  | .table => [.nleBlockTableDone o.id, .nleFault o.id]

/-- Events of a tap: its held rows are written back before its watch-only rows' decisions become final (R349). -/
def tapEvents (t : Tap) : List Instr :=
  [.fduRootRead t.id, .fduIntakeEnd t.id, .fduEncoderTaskDone t.id, .fduSelectDone t.id, .fduWriteback t.id,
    .fduRuleUnit t.id, .fduFault t.id]

/-- A context's taps as the feature unit serves them: those that wait for their root or intake, then those with held rows,
then the rest (R349). -/
def tapOrder (ts : List Tap) : List Tap :=
  let early : Tap → Bool := fun t => t.stage == .root || t.stage == .intake
  ts.filter early ++ ts.filter (fun t => !early t && t.heldOpen) ++ ts.filter (fun t => !early t && !t.heldOpen)

/-- Events of the engines, of a packed machine. -/
def engineEvents (s : State) : List Instr :=
  [.growDecided, .trsigUpdateDone, .copyCommandStart, .tileTaskDispatch, .dispatchWarpForm] ++
    s.cluss.flatMap clusterEvents ++ s.nles.flatMap nleEvents ++
    (s.ctxs.filter (fun c => c.place == .running)).flatMap (fun c => (tapOrder c.taps).flatMap tapEvents) ++ [.bindRecord 0]

/-- A warp's crew runs, and no handler of another warp holds it (R249, R254). -/
def mayIssue (s : State) (w : Warp) : Bool :=
  let c := findCrew s.crews w.crew
  c.live && c.state == .running && (c.holder.isNone || c.holder == some w.id)

/-- A waiting split's instruction has done more than begin its wait anew. -/
def hasMoved (t u : State) : Bool := { u with sp := { u.sp with since := t.sp.since } } != t

/-- The first waiting split whose instruction can go on: it goes on. -/
def resumeFirst (s : State) : List (Nat × Nat) → Option State
  | [] => none
  | (w, slot) :: rest =>
    let t := focusSplit s w slot
    match t.sp.wait with
    | none => resumeFirst s rest
    | some i => match exec i t with
      | .next u => if hasMoved t u then some u else resumeFirst s rest
      | _ => resumeFirst s rest

/-- A waiting split's instruction may go on: its crew runs or is parked; a held split finishes what is outstanding
(R249, R254). -/
def mayFinish (s : State) (w : Warp) : Bool :=
  let c := findCrew s.crews w.crew
  c.live && (c.state == .running || c.state == .parked)

/-- The waiting splits of a packed machine whose instruction may be looked at again, a warp's by age (R253). -/
def stalled (s : State) : List (Nat × Nat) := splitsWhere s (fun w p => p.state == .waiting && mayFinish s w)

/-- Ready splits of R338, interlocks apart. -/
def readySplit (s : State) (w : Warp) (p : Split) : Bool := p.state == .ready && !p.held && mayIssue s w

/-- A quadrant of the device. -/
def quadOf (w : Warp) : Nat := w.clus * 32 + w.core * 4 + w.quad

/-- A split that may issue, with what the choice looks at. -/
structure Candidate where
  warp : Nat
  slot : Nat
  quad : Nat
  prio : Nat
  age : Nat
  starve : Nat
  deriving DecidableEq, Repr

/-- The candidates of a packed machine. -/
def candidates (s : State) : List Candidate :=
  s.warps.flatMap (fun w => (w.splits.filter (fun p => p.alive && readySplit s w p)).map (fun p =>
    { warp := w.id, slot := p.slot, quad := quadOf w, prio := w.prio, age := p.age, starve := p.starve }))

/-- The oldest of some candidates. -/
def oldestOf : List Candidate → Option Candidate
  | [] => none
  | c :: t => match oldestOf t with
    | none => some c
    | some d => if c.age ≤ d.age then some c else some d

/-- The choice of R338 in one quadrant. -/
def chooseIn (cs : List Candidate) : Option Candidate :=
  match cs.filter (fun c => decide (64 ≤ c.starve)) with
  | [] => oldestOf (cs.filter (fun c => c.prio == cs.foldl (fun m d => max m d.prio) 0))
  | us => oldestOf us

/-- The quadrant that issues next: the one the model's input names, or one in turn (log 31). -/
def chooseQuad (s : State) (cs : List Candidate) : Nat :=
  let qs := cs.foldl (fun l c => ninsert c.quad l) []
  match s.env.quads with
  | q :: _ => if qs.contains q then q else qs.getD (s.cycle.toNat % qs.length) 0
  | [] => qs.getD (s.cycle.toNat % qs.length) 0

/-- The split that issues next among some candidates. -/
def choose (s : State) (cs : List Candidate) : Option Candidate :=
  chooseIn (cs.filter (fun c => c.quad == chooseQuad s cs))

/-- The predicate that FETCH's handle names (R204). -/
def handlePred (s : State) : Instr → List Nat
  | .fetch _ _ b _ => [bitsOf (kget s b.toNat).toNat 8 3]
  | _ => []

/-- The registers an instruction of the issuing split reads or writes, its guard among them; a raised FFLAGS bit stays
raised, so that two instructions that raise bits do not wait for each other (R28, R132). -/
def touches (s : State) (i : Instr) : List Dest :=
  let u := regUse s.w.mode i
  let x : List Nat → List Dest := fun rs => rs.map (fun r => Dest.x ((s.sp.wbase + r) % s.w.regs))
  x u.xr ++ x u.xw ++ u.kr.map Dest.k ++ u.kw.map Dest.k ++ (modeGuard s.w.mode :: u.pr).map Dest.p ++ (u.pw ++ handlePred s i).map Dest.p ++
    (if usesFlags i then [Dest.fflags] else [])

/-- A register of the whole warp: a uniform register, a predicate or FFLAGS (R12). -/
def Dest.shared : Dest → Bool
  | .x _ => false
  | .k _ | .p _ | .fflags => true

/-- An outstanding instruction will write one of some registers. -/
def Outstanding.writes (o : Outstanding) (ds : List Dest) : Bool := o.dests.any (fun d => ds.contains d)

/-- An outstanding instruction of another split of the warp will write a register of the whole warp among some (R12). -/
def Outstanding.writesShared (o : Outstanding) (ds : List Dest) : Bool :=
  o.dests.any (fun d => d.shared && ds.contains d)

/-- The registers of the whole warp that the instruction a split waits in will write; of CPY only a grow request writes one
(R12, R132, R199). -/
def pendingWrites (s : State) (p : Split) : List Dest :=
  match p.wait with
  | some (.cpy _ b _) => if p.args.getD 1 0 = 0 then [] else [Dest.k b.toNat]
  | some i => let u := regUse s.w.mode i
    u.kw.map Dest.k ++ u.pw.map Dest.p
  | none => []

/-- The other splits of the issuing split's warp. -/
def otherSplits (s : State) : List Split := s.w.splits ++ s.w.overflow

/-- The issuing split must first complete an outstanding instruction of its own (R131 to R133). -/
def ownInterlock (s : State) (i : Instr) : Bool :=
  s.sp.out.any (fun o => o.writes (touches s i)) || s.sp.out.any (fun o => o.left == 0) ||
    ((lookahead i).isSome && decide (8 ≤ s.sp.out.length)) || (drains i && !s.sp.out.isEmpty)

/-- Another split of the warp must first complete an outstanding instruction (R12). -/
def warpInterlock (s : State) (i : Instr) : Bool :=
  (otherSplits s).any (fun p => p.out.any (fun o => o.writesShared (touches s i)))

/-- Another split of the warp waits in an instruction that will write what an instruction reads or writes (R12). -/
def warpWaits (s : State) (i : Instr) : Bool :=
  (otherSplits s).any (fun p => p.alive && (pendingWrites s p).any (fun d => (touches s i).contains d))

/-- What stands at the issuing split's PC (R88, R89). -/
def fetchedInstr (s : State) : Instr :=
  match fetchWord s with
  | .error _ => .instructionFetchFault
  | .ok word => match decode word with
    | .error _ => .refusedWord word
    | .ok i => i

/-- An interlock holds the issuing split's next instruction (R12, R131 to R133). -/
def interlocked (s : State) : Bool :=
  let i := fetchedInstr s
  ownInterlock s i || warpInterlock s i || warpWaits s i

/-- The oldest outstanding instruction of every other split of the warp completes, where it writes a register of the whole
warp among some (R12). -/
def completeOthers (s : State) (ds : List Dest) : State :=
  let f : Split → Split := fun p =>
    if p.out.any (fun o => o.writesShared ds) then { p with out := p.out.tail } else p
  { s with w := { s.w with splits := s.w.splits.map f, overflow := s.w.overflow.map f } }

/-- A candidate's split in focus. -/
def focusCand (s : State) (c : Candidate) : State := focusSplit s c.warp c.slot

/-- The starvation counts of a quadrant's other ready splits raised, and that of the one that issues cleared (R338); a
quadrant that issues has no run of squashes (R383). -/
def countStarve (s : State) (cs : List Candidate) (c : Candidate) : State :=
  { s with
    warps := s.warps.map (fun w => if quadOf w = c.quad then { w with splits := w.splits.map (fun p =>
      if w.id = c.warp && p.slot = c.slot then { p with starve := 0 }
      else if cs.any (fun d => d.warp == w.id && d.slot == p.slot) then { p with starve := p.starve + 1 } else p) } else w)
    dev := { s.dev with squashRun := serase s.dev.squashRun c.quad }
    env := { s.env with quads := s.env.quads.tail } }

/-- A candidate issues, or a breakpoint stops it (R313), or it reaches the address at which its context's save is armed,
once: any other save leaves it armed (R330). -/
def issueCand (s : State) (cs : List Candidate) (c : Candidate) : Host.Outcome State Fault Refusal :=
  let t := focusCand (countStarve s cs c) c
  if breakAt t then .next (stopAtBreak (focusCand s c))
  else if armedAt t then .next (saveCtx { t with ctx := { t.ctx with armed := none } } []) else exec (fetchedInstr t) t

/-- The candidates that no interlock holds, or those that one holds (R338). -/
def freeCands (s : State) (cs : List Candidate) : List Candidate := cs.filter (fun c => !interlocked (focusCand s c))
def heldCands (s : State) (cs : List Candidate) : List Candidate := cs.filter (fun c => interlocked (focusCand s c))

/-- A completion that an interlocked split waits for happens: of its own oldest outstanding instruction, or of those of
the warp's other splits (R12, R131). -/
def unblock (s : State) (c : Candidate) : Option State :=
  let t := focusCand s c
  let i := fetchedInstr t
  if ownInterlock t i then longLatencyCompleteEvent t
  else if warpInterlock t i then some (completeOthers t (touches t i))
  else none

/-- Issue comes before the engines, and before completions that a split could wait for, in this step (log 1). -/
def issueFirst (s : State) : Bool := s.env.turns.head? == some false

/-- A packed machine with its turn taken. -/
def takeTurn (s : State) : State := { pack s with env := { s.env with turns := s.env.turns.tail } }

/-- The issue of a step, if a split may issue: among those no interlock holds. A halted part, and one that is not booted,
issues nothing (R338, R392, R395). -/
def issueStep (s : State) : Option (Host.Outcome State Fault Refusal) :=
  if s.dev.boot ≠ .running || s.dev.halted then none
  else
    let us := freeCands s (candidates s)
    (choose s us).map (issueCand s us)

/-- A completion that some interlocked split waits for. -/
def completeStep (s : State) : Option State := (heldCands s (candidates s)).findSome? (unblock s)

/-- What the engines and splits do in a packed machine. Engines go before the issue, and so do completions that a split
waits for, unless the turn says otherwise; nothing, where nothing can act. -/
def act (s : State) : Host.Outcome State Fault Refusal :=
  let engines : Unit → Option (Host.Outcome State Fault Refusal) := fun _ =>
    (firstNext s (engineEvents s)).map Host.Outcome.next
  let completes : Unit → Option (Host.Outcome State Fault Refusal) := fun _ =>
    (completeStep (takeTurn s)).map Host.Outcome.next
  let issues : Unit → Option (Host.Outcome State Fault Refusal) := fun _ => issueStep (takeTurn s)
  if issueFirst s then (((issues ()).orElse engines).orElse completes).getD (.next s)
  else (((engines ()).orElse completes).orElse issues).getD (.next s)

/-- What a step does before the clock moves: what is due without a step settles; then the world's next event, else what is
due, else a waiting split that can go on, else an engine or an issue (log 1). -/
def move (s : State) : Host.Outcome State Fault Refusal :=
  let p := settle (pack s)
  match p.env.inbox with
  | i :: rest =>
    let t := { p with env := { p.env with inbox := rest } }
    if arrives p i then exec i t else .next t
  | [] => match firstNext p dueEvents with
    | some t => .next t
    | none => match resumeFirst p (stalled p) with
      | some t => .next t
      | none => act p

/-- One step. -/
def step (s : State) : Host.Outcome State Fault Refusal :=
  match move s with
  | .next t => .next (tick s t)
  | .fault f => .fault f
  | .refused r => .refused r

/-- Page tables that map the 64 KiB page at VA 0x10000 to PA 0x20000 with every permission (R369, R370). -/
def bootTables : List (Nat × Nat) :=
  let table : Nat → Nat := fun pa => pa + 1
  [(0x10000, table 0x11000), (0x11000, table 0x12000), (0x12000, table 0x13000), (0x13000, table 0x14000),
   (0x14008, 0x20000 + 0x39 + 0x80)]

/-- A partition window over all of memory, as the boot might set it (R392; log 5). -/
def wholeWindow : Nat × Nat × Nat := (0, 0, 2 ^ 52)

/-- A context, a crew and a warp with one split at VA 0x10000, as dispatch would load them (R337; log 5). -/
def placeSplit (s : State) : State :=
  let p := pack s
  let n := p.nextId
  let t := bootTables.foldl (fun u e => writeKey u e.1 (natLE e.2 8)) p
  let w : Warp := { Warp.blank with
    id := n + 2, live := true, ctx := n, crew := n + 1, launch := 1
    splits := [{ Split.blank with state := .ready, pc := 0x10000, active := allLanes, entry := allLanes, age := p.nextAge }] }
  { t with
    ctxs := insertCtx { Ctx.blank with id := n, live := true, root := 0x10000 } t.ctxs
    crews := insertCrew { Crew.blank with id := n + 1, live := true, ctx := n, launch := 1, nwarp := 1 } t.crews
    warps := insertWarp w t.warps
    nextId := n + 3
    nextAge := p.nextAge + 1
    dev := { t.dev with partWindows := wholeWindow :: t.dev.partWindows } }

/-- The key of the word the next issue fetches, if the machine has a split that may issue. -/
def nextKey (s : State) : Option Nat :=
  let p := settle (pack s)
  match choose p (candidates p) with
  | none => none
  | some c => let t := focusCand p c
    match fetchKey t t.sp.pc.toNat with
    | .ok key => some key
    | .bad _ => none

/-- The machine with an instruction stored where the next step fetches. A machine in which no split may issue first gets
one (log 5): the word then stands at PA 0x20000. -/
def State.withFetchWord (s : State) (nbits w : Nat) : State :=
  let ready : State := { s with
    dev := { s.dev with boot := .running, halted := false }, env := { s.env with inbox := [], turns := [false] } }
  let (key, t) := match nextKey ready with
    | some key => (key, ready)
    | none => (0x20000, placeSplit ready)
  writeKey t key (natLE (w % 2 ^ nbits) 4)

end Sys2Proof.Machine
end

