-- ==== Sys2Proof/Laws/PerInstr.lean ====
section
/-! SUPPORT. Decoding the word of an instruction gives the instruction back, one lemma per constructor (03 R70 to R88):
first the fields of each operand layout, whatever the opcode, then the constructors. -/

namespace Sys2Proof.Laws.Encoding

/-- Decoding the word of a well-formed instruction gives it back. -/
def Statement (i : Instr) : Prop := i.wf = true → decode (encode i) = .ok i

/-- A field is read back where its bits stand. -/
theorem fld_of {w lo n : Nat} {b : BitVec n} (h : w / 2 ^ lo % 2 ^ n = b.toNat) : fld w lo n = b :=
  BitVec.eq_of_toNat_eq (by simpa [fld] using h)

/-- The round trip from what the decoder makes of the word as a number. -/
theorem decode_encode_of {i : Instr} {n : Nat} (hn : encodeNat i = n)
    (h : ∀ w, w = n → decodeNat w = some i ∧ w < 2 ^ 32) : decode (encode i) = .ok i := by
  obtain ⟨hd, hlt⟩ := h n rfl
  have hw : (encode i).toNat = n := by rw [encode, hn, BitVec.toNat_ofNat, Nat.mod_eq_of_lt hlt]
  simp [decode, hw, hd]

theorem shape0 {op w : Nat} (a0 : BitVec 3) (a1 : BitVec 1) (a2 : BitVec 20) (h : op < 256)
    (hw : w = op * 0x1000000 + a0.toNat * 0x200000 + a1.toNat * 0x100000 + a2.toNat) :
    w / 0x10000000 = op / 16 ∧ w / 0x1000000 % 16 = op % 16 ∧ w < 2 ^ 32 ∧
    fld w 21 3 = a0 ∧ fld w 20 1 = a1 ∧ fld w 0 20 = a2 := by
  have b0 := a0.isLt
  have b1 := a1.isLt
  have b2 := a2.isLt
  exact ⟨by omega,
    by omega,
    by omega,
    fld_of (by omega),
    fld_of (by omega),
    fld_of (by omega)⟩

theorem shape1 {op w : Nat} (a0 : BitVec 6) (h : op < 256)
    (hw : w = op * 0x1000000 + a0.toNat * 0x1000) :
    w / 0x10000000 = op / 16 ∧ w / 0x1000000 % 16 = op % 16 ∧ w < 2 ^ 32 ∧ bits w 0 12 = 0 ∧ bits w 18 6 = 0 ∧
    fld w 12 6 = a0 := by
  have b0 := a0.isLt
  exact ⟨by omega,
    by omega,
    by omega,
    by simp only [bits]; omega,
    by simp only [bits]; omega,
    fld_of (by omega)⟩

theorem shape2 {op w : Nat} (a0 : BitVec 4) (a1 : BitVec 20) (h : op < 256)
    (hw : w = op * 0x1000000 + a0.toNat * 0x100000 + a1.toNat) :
    w / 0x10000000 = op / 16 ∧ w / 0x1000000 % 16 = op % 16 ∧ w < 2 ^ 32 ∧
    fld w 20 4 = a0 ∧ fld w 0 20 = a1 := by
  have b0 := a0.isLt
  have b1 := a1.isLt
  exact ⟨by omega,
    by omega,
    by omega,
    fld_of (by omega),
    fld_of (by omega)⟩

theorem shape3 {op w : Nat} (a0 : BitVec 6) (a1 : BitVec 4) (h : op < 256)
    (hw : w = op * 0x1000000 + a0.toNat * 0x1000 + a1.toNat) :
    w / 0x10000000 = op / 16 ∧ w / 0x1000000 % 16 = op % 16 ∧ w < 2 ^ 32 ∧ bits w 4 8 = 0 ∧ bits w 18 6 = 0 ∧
    fld w 12 6 = a0 ∧ fld w 0 4 = a1 := by
  have b0 := a0.isLt
  have b1 := a1.isLt
  exact ⟨by omega,
    by omega,
    by omega,
    by simp only [bits]; omega,
    by simp only [bits]; omega,
    fld_of (by omega),
    fld_of (by omega)⟩

theorem shape4 {op w : Nat} (a0 : BitVec 24) (h : op < 256)
    (hw : w = op * 0x1000000 + a0.toNat) :
    w / 0x10000000 = op / 16 ∧ w / 0x1000000 % 16 = op % 16 ∧ w < 2 ^ 32 ∧
    fld w 0 24 = a0 := by
  have b0 := a0.isLt
  exact ⟨by omega,
    by omega,
    by omega,
    fld_of (by omega)⟩

theorem shape5 {op w : Nat} (a0 : BitVec 18) (h : op < 256)
    (hw : w = op * 0x1000000 + a0.toNat) :
    w / 0x10000000 = op / 16 ∧ w / 0x1000000 % 16 = op % 16 ∧ w < 2 ^ 32 ∧ bits w 18 6 = 0 ∧
    fld w 0 18 = a0 := by
  have b0 := a0.isLt
  exact ⟨by omega,
    by omega,
    by omega,
    by simp only [bits]; omega,
    fld_of (by omega)⟩

theorem shape6 {op w : Nat} (a0 : BitVec 1) (a1 : BitVec 3) (h : op < 256)
    (hw : w = op * 0x1000000 + a0.toNat * 0x8 + a1.toNat) :
    w / 0x10000000 = op / 16 ∧ w / 0x1000000 % 16 = op % 16 ∧ w < 2 ^ 32 ∧ bits w 4 20 = 0 ∧
    fld w 3 1 = a0 ∧ fld w 0 3 = a1 := by
  have b0 := a0.isLt
  have b1 := a1.isLt
  exact ⟨by omega,
    by omega,
    by omega,
    by simp only [bits]; omega,
    fld_of (by omega),
    fld_of (by omega)⟩

theorem shape7 {op w : Nat} (a0 : BitVec 16) (a1 : BitVec 8) (h : op < 256)
    (hw : w = op * 0x1000000 + a0.toNat * 0x100 + a1.toNat) :
    w / 0x10000000 = op / 16 ∧ w / 0x1000000 % 16 = op % 16 ∧ w < 2 ^ 32 ∧
    fld w 8 16 = a0 ∧ fld w 0 8 = a1 := by
  have b0 := a0.isLt
  have b1 := a1.isLt
  exact ⟨by omega,
    by omega,
    by omega,
    fld_of (by omega),
    fld_of (by omega)⟩

theorem shape8 {op w : Nat} (a0 : BitVec 6) (a1 : BitVec 6) (h : op < 256)
    (hw : w = op * 0x1000000 + a0.toNat * 0x40000 + a1.toNat * 0x1000) :
    w / 0x10000000 = op / 16 ∧ w / 0x1000000 % 16 = op % 16 ∧ w < 2 ^ 32 ∧ bits w 0 12 = 0 ∧
    fld w 18 6 = a0 ∧ fld w 12 6 = a1 := by
  have b0 := a0.isLt
  have b1 := a1.isLt
  exact ⟨by omega,
    by omega,
    by omega,
    by simp only [bits]; omega,
    fld_of (by omega),
    fld_of (by omega)⟩

theorem shape9 {op w : Nat} (a0 : BitVec 6) (h : op < 256)
    (hw : w = op * 0x1000000 + a0.toNat * 0x40000) :
    w / 0x10000000 = op / 16 ∧ w / 0x1000000 % 16 = op % 16 ∧ w < 2 ^ 32 ∧ bits w 0 18 = 0 ∧
    fld w 18 6 = a0 := by
  have b0 := a0.isLt
  exact ⟨by omega,
    by omega,
    by omega,
    by simp only [bits]; omega,
    fld_of (by omega)⟩

theorem shape10 {op w : Nat} (a0 : BitVec 6) (a1 : BitVec 6) (h : op < 256)
    (hw : w = op * 0x1000000 + a0.toNat * 0x1000 + a1.toNat * 0x40) :
    w / 0x10000000 = op / 16 ∧ w / 0x1000000 % 16 = op % 16 ∧ w < 2 ^ 32 ∧ bits w 0 6 = 0 ∧ bits w 18 6 = 0 ∧
    fld w 12 6 = a0 ∧ fld w 6 6 = a1 := by
  have b0 := a0.isLt
  have b1 := a1.isLt
  exact ⟨by omega,
    by omega,
    by omega,
    by simp only [bits]; omega,
    by simp only [bits]; omega,
    fld_of (by omega),
    fld_of (by omega)⟩

theorem shape11 {op w : Nat} (a0 : BitVec 6) (a1 : BitVec 1) (a2 : BitVec 6) (h : op < 256)
    (hw : w = op * 0x1000000 + a0.toNat * 0x40000 + a1.toNat * 0x40 + a2.toNat) :
    w / 0x10000000 = op / 16 ∧ w / 0x1000000 % 16 = op % 16 ∧ w < 2 ^ 32 ∧ bits w 7 11 = 0 ∧
    fld w 18 6 = a0 ∧ fld w 6 1 = a1 ∧ fld w 0 6 = a2 := by
  have b0 := a0.isLt
  have b1 := a1.isLt
  have b2 := a2.isLt
  exact ⟨by omega,
    by omega,
    by omega,
    by simp only [bits]; omega,
    fld_of (by omega),
    fld_of (by omega),
    fld_of (by omega)⟩

theorem shape12 {op w : Nat} (a0 : BitVec 6) (a1 : BitVec 1) (h : op < 256)
    (hw : w = op * 0x1000000 + a0.toNat * 0x1000 + a1.toNat * 0x40) :
    w / 0x10000000 = op / 16 ∧ w / 0x1000000 % 16 = op % 16 ∧ w < 2 ^ 32 ∧ bits w 0 6 = 0 ∧ bits w 7 5 = 0 ∧ bits w 18 6 = 0 ∧
    fld w 12 6 = a0 ∧ fld w 6 1 = a1 := by
  have b0 := a0.isLt
  have b1 := a1.isLt
  exact ⟨by omega,
    by omega,
    by omega,
    by simp only [bits]; omega,
    by simp only [bits]; omega,
    by simp only [bits]; omega,
    fld_of (by omega),
    fld_of (by omega)⟩

theorem shape13 {op w : Nat} (a0 : BitVec 6) (a1 : BitVec 1) (h : op < 256)
    (hw : w = op * 0x1000000 + 0x1 + a0.toNat * 0x1000 + a1.toNat * 0x40) :
    w / 0x10000000 = op / 16 ∧ w / 0x1000000 % 16 = op % 16 ∧ w < 2 ^ 32 ∧ bits w 0 6 = 1 ∧ bits w 7 5 = 0 ∧ bits w 18 6 = 0 ∧
    fld w 12 6 = a0 ∧ fld w 6 1 = a1 := by
  have b0 := a0.isLt
  have b1 := a1.isLt
  exact ⟨by omega,
    by omega,
    by omega,
    by simp only [bits]; omega,
    by simp only [bits]; omega,
    by simp only [bits]; omega,
    fld_of (by omega),
    fld_of (by omega)⟩

theorem shape14 {op w : Nat} (a0 : BitVec 6) (a1 : BitVec 1) (h : op < 256)
    (hw : w = op * 0x1000000 + 0x5 + a0.toNat * 0x1000 + a1.toNat * 0x40) :
    w / 0x10000000 = op / 16 ∧ w / 0x1000000 % 16 = op % 16 ∧ w < 2 ^ 32 ∧ bits w 0 6 = 5 ∧ bits w 7 5 = 0 ∧ bits w 18 6 = 0 ∧
    fld w 12 6 = a0 ∧ fld w 6 1 = a1 := by
  have b0 := a0.isLt
  have b1 := a1.isLt
  exact ⟨by omega,
    by omega,
    by omega,
    by simp only [bits]; omega,
    by simp only [bits]; omega,
    by simp only [bits]; omega,
    fld_of (by omega),
    fld_of (by omega)⟩

theorem shape15 {op w : Nat} (a0 : BitVec 6) (a1 : BitVec 1) (h : op < 256)
    (hw : w = op * 0x1000000 + 0x8 + a0.toNat * 0x1000 + a1.toNat * 0x40) :
    w / 0x10000000 = op / 16 ∧ w / 0x1000000 % 16 = op % 16 ∧ w < 2 ^ 32 ∧ bits w 0 6 = 8 ∧ bits w 7 5 = 0 ∧ bits w 18 6 = 0 ∧
    fld w 12 6 = a0 ∧ fld w 6 1 = a1 := by
  have b0 := a0.isLt
  have b1 := a1.isLt
  exact ⟨by omega,
    by omega,
    by omega,
    by simp only [bits]; omega,
    by simp only [bits]; omega,
    by simp only [bits]; omega,
    fld_of (by omega),
    fld_of (by omega)⟩

theorem shape16 {op w : Nat} (a0 : BitVec 6) (a1 : BitVec 1) (h : op < 256)
    (hw : w = op * 0x1000000 + 0x14 + a0.toNat * 0x1000 + a1.toNat * 0x40) :
    w / 0x10000000 = op / 16 ∧ w / 0x1000000 % 16 = op % 16 ∧ w < 2 ^ 32 ∧ bits w 0 6 = 20 ∧ bits w 7 5 = 0 ∧ bits w 18 6 = 0 ∧
    fld w 12 6 = a0 ∧ fld w 6 1 = a1 := by
  have b0 := a0.isLt
  have b1 := a1.isLt
  exact ⟨by omega,
    by omega,
    by omega,
    by simp only [bits]; omega,
    by simp only [bits]; omega,
    by simp only [bits]; omega,
    fld_of (by omega),
    fld_of (by omega)⟩

theorem shape17 {op w : Nat} (a0 : BitVec 6) (a1 : BitVec 1) (h : op < 256)
    (hw : w = op * 0x1000000 + 0x15 + a0.toNat * 0x1000 + a1.toNat * 0x40) :
    w / 0x10000000 = op / 16 ∧ w / 0x1000000 % 16 = op % 16 ∧ w < 2 ^ 32 ∧ bits w 0 6 = 21 ∧ bits w 7 5 = 0 ∧ bits w 18 6 = 0 ∧
    fld w 12 6 = a0 ∧ fld w 6 1 = a1 := by
  have b0 := a0.isLt
  have b1 := a1.isLt
  exact ⟨by omega,
    by omega,
    by omega,
    by simp only [bits]; omega,
    by simp only [bits]; omega,
    by simp only [bits]; omega,
    fld_of (by omega),
    fld_of (by omega)⟩

theorem shape18 {op w : Nat} (a0 : BitVec 6) (a1 : BitVec 1) (h : op < 256)
    (hw : w = op * 0x1000000 + 0x16 + a0.toNat * 0x1000 + a1.toNat * 0x40) :
    w / 0x10000000 = op / 16 ∧ w / 0x1000000 % 16 = op % 16 ∧ w < 2 ^ 32 ∧ bits w 0 6 = 22 ∧ bits w 7 5 = 0 ∧ bits w 18 6 = 0 ∧
    fld w 12 6 = a0 ∧ fld w 6 1 = a1 := by
  have b0 := a0.isLt
  have b1 := a1.isLt
  exact ⟨by omega,
    by omega,
    by omega,
    by simp only [bits]; omega,
    by simp only [bits]; omega,
    by simp only [bits]; omega,
    fld_of (by omega),
    fld_of (by omega)⟩

theorem shape19 {op w : Nat} (a0 : BitVec 6) (a1 : BitVec 1) (h : op < 256)
    (hw : w = op * 0x1000000 + 0x17 + a0.toNat * 0x1000 + a1.toNat * 0x40) :
    w / 0x10000000 = op / 16 ∧ w / 0x1000000 % 16 = op % 16 ∧ w < 2 ^ 32 ∧ bits w 0 6 = 23 ∧ bits w 7 5 = 0 ∧ bits w 18 6 = 0 ∧
    fld w 12 6 = a0 ∧ fld w 6 1 = a1 := by
  have b0 := a0.isLt
  have b1 := a1.isLt
  exact ⟨by omega,
    by omega,
    by omega,
    by simp only [bits]; omega,
    by simp only [bits]; omega,
    by simp only [bits]; omega,
    fld_of (by omega),
    fld_of (by omega)⟩

theorem shape20 {op w : Nat} (a0 : BitVec 6) (a1 : BitVec 6) (a2 : BitVec 6) (a3 : BitVec 1) (h : op < 256)
    (hw : w = op * 0x1000000 + a0.toNat * 0x40000 + a1.toNat * 0x1000 + a2.toNat * 0x40 + a3.toNat * 0x20) :
    w / 0x10000000 = op / 16 ∧ w / 0x1000000 % 16 = op % 16 ∧ w < 2 ^ 32 ∧ bits w 0 5 = 0 ∧
    fld w 18 6 = a0 ∧ fld w 12 6 = a1 ∧ fld w 6 6 = a2 ∧ fld w 5 1 = a3 := by
  have b0 := a0.isLt
  have b1 := a1.isLt
  have b2 := a2.isLt
  have b3 := a3.isLt
  exact ⟨by omega,
    by omega,
    by omega,
    by simp only [bits]; omega,
    fld_of (by omega),
    fld_of (by omega),
    fld_of (by omega),
    fld_of (by omega)⟩

theorem shape21 {op w : Nat} (a0 : BitVec 6) (a1 : BitVec 6) (a2 : BitVec 6) (a3 : BitVec 6) (h : op < 256)
    (hw : w = op * 0x1000000 + a0.toNat * 0x40000 + a1.toNat * 0x1000 + a2.toNat * 0x40 + a3.toNat) :
    w / 0x10000000 = op / 16 ∧ w / 0x1000000 % 16 = op % 16 ∧ w < 2 ^ 32 ∧
    fld w 18 6 = a0 ∧ fld w 12 6 = a1 ∧ fld w 6 6 = a2 ∧ fld w 0 6 = a3 := by
  have b0 := a0.isLt
  have b1 := a1.isLt
  have b2 := a2.isLt
  have b3 := a3.isLt
  exact ⟨by omega,
    by omega,
    by omega,
    fld_of (by omega),
    fld_of (by omega),
    fld_of (by omega),
    fld_of (by omega)⟩

theorem shape22 {op w : Nat} (a0 : BitVec 6) (a1 : BitVec 6) (a2 : BitVec 6) (a3 : BitVec 1) (a4 : BitVec 3) (h : op < 256)
    (hw : w = op * 0x1000000 + a0.toNat * 0x40000 + a1.toNat * 0x1000 + a2.toNat * 0x40 + a3.toNat * 0x20 + a4.toNat) :
    w / 0x10000000 = op / 16 ∧ w / 0x1000000 % 16 = op % 16 ∧ w < 2 ^ 32 ∧ bits w 3 2 = 0 ∧
    fld w 18 6 = a0 ∧ fld w 12 6 = a1 ∧ fld w 6 6 = a2 ∧ fld w 5 1 = a3 ∧ fld w 0 3 = a4 := by
  have b0 := a0.isLt
  have b1 := a1.isLt
  have b2 := a2.isLt
  have b3 := a3.isLt
  have b4 := a4.isLt
  exact ⟨by omega,
    by omega,
    by omega,
    by simp only [bits]; omega,
    fld_of (by omega),
    fld_of (by omega),
    fld_of (by omega),
    fld_of (by omega),
    fld_of (by omega)⟩

theorem shape23 {op w : Nat} (a0 : BitVec 6) (a1 : BitVec 6) (a2 : BitVec 6) (a3 : BitVec 1) (a4 : BitVec 5) (h : op < 256)
    (hw : w = op * 0x1000000 + a0.toNat * 0x40000 + a1.toNat * 0x1000 + a2.toNat * 0x40 + a3.toNat * 0x20 + a4.toNat) :
    w / 0x10000000 = op / 16 ∧ w / 0x1000000 % 16 = op % 16 ∧ w < 2 ^ 32 ∧
    fld w 18 6 = a0 ∧ fld w 12 6 = a1 ∧ fld w 6 6 = a2 ∧ fld w 5 1 = a3 ∧ fld w 0 5 = a4 := by
  have b0 := a0.isLt
  have b1 := a1.isLt
  have b2 := a2.isLt
  have b3 := a3.isLt
  have b4 := a4.isLt
  exact ⟨by omega,
    by omega,
    by omega,
    fld_of (by omega),
    fld_of (by omega),
    fld_of (by omega),
    fld_of (by omega),
    fld_of (by omega)⟩

theorem shape24 {op w : Nat} (a0 : BitVec 3) (a1 : BitVec 3) (a2 : BitVec 6) (a3 : BitVec 12) (h : op < 256)
    (hw : w = op * 0x1000000 + a0.toNat * 0x200000 + a1.toNat * 0x40000 + a2.toNat * 0x1000 + a3.toNat) :
    w / 0x10000000 = op / 16 ∧ w / 0x1000000 % 16 = op % 16 ∧ w < 2 ^ 32 ∧
    fld w 21 3 = a0 ∧ fld w 18 3 = a1 ∧ fld w 12 6 = a2 ∧ fld w 0 12 = a3 := by
  have b0 := a0.isLt
  have b1 := a1.isLt
  have b2 := a2.isLt
  have b3 := a3.isLt
  exact ⟨by omega,
    by omega,
    by omega,
    fld_of (by omega),
    fld_of (by omega),
    fld_of (by omega),
    fld_of (by omega)⟩

theorem shape25 {op w : Nat} (a0 : BitVec 6) (a1 : BitVec 6) (h : op < 256)
    (hw : w = op * 0x1000000 + 0x20 + a0.toNat * 0x40000 + a1.toNat * 0x40) :
    w / 0x10000000 = op / 16 ∧ w / 0x1000000 % 16 = op % 16 ∧ w < 2 ^ 32 ∧ bits w 0 6 = 32 ∧ bits w 12 6 = 0 ∧ (bits w 0 12 == 0) = false ∧
    fld w 18 6 = a0 ∧ fld w 6 6 = a1 := by
  have b0 := a0.isLt
  have b1 := a1.isLt
  exact ⟨by omega,
    by omega,
    by omega,
    by simp only [bits]; omega,
    by simp only [bits]; omega,
    by simp only [bits, beq_eq_false_iff_ne]; omega,
    fld_of (by omega),
    fld_of (by omega)⟩

theorem shape26 {op w : Nat} (a0 : BitVec 6) (a1 : BitVec 18) (h : op < 256)
    (hw : w = op * 0x1000000 + a0.toNat * 0x40000 + a1.toNat) :
    w / 0x10000000 = op / 16 ∧ w / 0x1000000 % 16 = op % 16 ∧ w < 2 ^ 32 ∧
    fld w 18 6 = a0 ∧ fld w 0 18 = a1 := by
  have b0 := a0.isLt
  have b1 := a1.isLt
  exact ⟨by omega,
    by omega,
    by omega,
    fld_of (by omega),
    fld_of (by omega)⟩

theorem shape27 {op w : Nat} (a0 : BitVec 6) (a1 : BitVec 6) (a2 : BitVec 6) (a3 : BitVec 4) (h : op < 256)
    (hw : w = op * 0x1000000 + a0.toNat * 0x40000 + a1.toNat * 0x1000 + a2.toNat * 0x40 + a3.toNat) :
    w / 0x10000000 = op / 16 ∧ w / 0x1000000 % 16 = op % 16 ∧ w < 2 ^ 32 ∧ bits w 4 2 = 0 ∧
    fld w 18 6 = a0 ∧ fld w 12 6 = a1 ∧ fld w 6 6 = a2 ∧ fld w 0 4 = a3 := by
  have b0 := a0.isLt
  have b1 := a1.isLt
  have b2 := a2.isLt
  have b3 := a3.isLt
  exact ⟨by omega,
    by omega,
    by omega,
    by simp only [bits]; omega,
    fld_of (by omega),
    fld_of (by omega),
    fld_of (by omega),
    fld_of (by omega)⟩

theorem shape28 {op w : Nat} (a0 : BitVec 6) (a1 : BitVec 6) (a2 : BitVec 12) (h : op < 256)
    (hw : w = op * 0x1000000 + a0.toNat * 0x40000 + a1.toNat * 0x1000 + a2.toNat) :
    w / 0x10000000 = op / 16 ∧ w / 0x1000000 % 16 = op % 16 ∧ w < 2 ^ 32 ∧
    fld w 18 6 = a0 ∧ fld w 12 6 = a1 ∧ fld w 0 12 = a2 := by
  have b0 := a0.isLt
  have b1 := a1.isLt
  have b2 := a2.isLt
  exact ⟨by omega,
    by omega,
    by omega,
    fld_of (by omega),
    fld_of (by omega),
    fld_of (by omega)⟩

theorem shape29 {op w : Nat} (a0 : BitVec 6) (a1 : BitVec 6) (a2 : BitVec 6) (h : op < 256)
    (hw : w = op * 0x1000000 + a0.toNat * 0x40000 + a1.toNat * 0x1000 + a2.toNat) :
    w / 0x10000000 = op / 16 ∧ w / 0x1000000 % 16 = op % 16 ∧ w < 2 ^ 32 ∧ bits w 6 6 = 0 ∧
    fld w 18 6 = a0 ∧ fld w 12 6 = a1 ∧ fld w 0 6 = a2 := by
  have b0 := a0.isLt
  have b1 := a1.isLt
  have b2 := a2.isLt
  exact ⟨by omega,
    by omega,
    by omega,
    by simp only [bits]; omega,
    fld_of (by omega),
    fld_of (by omega),
    fld_of (by omega)⟩

theorem shape30 {op w : Nat} (a0 : BitVec 6) (a1 : BitVec 6) (a2 : BitVec 4) (h : op < 256)
    (hw : w = op * 0x1000000 + a0.toNat * 0x40000 + a1.toNat * 0x1000 + a2.toNat) :
    w / 0x10000000 = op / 16 ∧ w / 0x1000000 % 16 = op % 16 ∧ w < 2 ^ 32 ∧ bits w 4 8 = 0 ∧
    fld w 18 6 = a0 ∧ fld w 12 6 = a1 ∧ fld w 0 4 = a2 := by
  have b0 := a0.isLt
  have b1 := a1.isLt
  have b2 := a2.isLt
  exact ⟨by omega,
    by omega,
    by omega,
    by simp only [bits]; omega,
    fld_of (by omega),
    fld_of (by omega),
    fld_of (by omega)⟩

theorem shape31 {op w : Nat} (a0 : BitVec 6) (a1 : BitVec 6) (a2 : BitVec 1) (a3 : BitVec 4) (h : op < 256)
    (hw : w = op * 0x1000000 + a0.toNat * 0x40000 + a1.toNat * 0x1000 + a2.toNat * 0x10 + a3.toNat) :
    w / 0x10000000 = op / 16 ∧ w / 0x1000000 % 16 = op % 16 ∧ w < 2 ^ 32 ∧ bits w 5 7 = 0 ∧
    fld w 18 6 = a0 ∧ fld w 12 6 = a1 ∧ fld w 4 1 = a2 ∧ fld w 0 4 = a3 := by
  have b0 := a0.isLt
  have b1 := a1.isLt
  have b2 := a2.isLt
  have b3 := a3.isLt
  exact ⟨by omega,
    by omega,
    by omega,
    by simp only [bits]; omega,
    fld_of (by omega),
    fld_of (by omega),
    fld_of (by omega),
    fld_of (by omega)⟩

theorem shape32 {op w : Nat} (a0 : BitVec 6) (a1 : BitVec 6) (a2 : BitVec 4) (h : op < 256)
    (hw : w = op * 0x1000000 + a0.toNat * 0x40000 + a1.toNat * 0x1000 + a2.toNat * 0x4) :
    w / 0x10000000 = op / 16 ∧ w / 0x1000000 % 16 = op % 16 ∧ w < 2 ^ 32 ∧ bits w 0 2 = 0 ∧ bits w 6 6 = 0 ∧
    fld w 18 6 = a0 ∧ fld w 12 6 = a1 ∧ fld w 2 4 = a2 := by
  have b0 := a0.isLt
  have b1 := a1.isLt
  have b2 := a2.isLt
  exact ⟨by omega,
    by omega,
    by omega,
    by simp only [bits]; omega,
    by simp only [bits]; omega,
    fld_of (by omega),
    fld_of (by omega),
    fld_of (by omega)⟩

theorem shape33 {op w : Nat} (a0 : BitVec 6) (a1 : BitVec 6) (a2 : BitVec 4) (a3 : BitVec 2) (h : op < 256)
    (hw : w = op * 0x1000000 + a0.toNat * 0x40000 + a1.toNat * 0x1000 + a2.toNat * 0x4 + a3.toNat) :
    w / 0x10000000 = op / 16 ∧ w / 0x1000000 % 16 = op % 16 ∧ w < 2 ^ 32 ∧ bits w 6 6 = 0 ∧
    fld w 18 6 = a0 ∧ fld w 12 6 = a1 ∧ fld w 2 4 = a2 ∧ fld w 0 2 = a3 := by
  have b0 := a0.isLt
  have b1 := a1.isLt
  have b2 := a2.isLt
  have b3 := a3.isLt
  exact ⟨by omega,
    by omega,
    by omega,
    by simp only [bits]; omega,
    fld_of (by omega),
    fld_of (by omega),
    fld_of (by omega),
    fld_of (by omega)⟩

theorem shape34 {op w : Nat} (a0 : BitVec 6) (a1 : BitVec 6) (a2 : BitVec 4) (a3 : BitVec 2) (h : op < 256)
    (hw : w = op * 0x1000000 + a0.toNat * 0x1000 + a1.toNat * 0x40 + a2.toNat * 0x4 + a3.toNat) :
    w / 0x10000000 = op / 16 ∧ w / 0x1000000 % 16 = op % 16 ∧ w < 2 ^ 32 ∧ bits w 18 6 = 0 ∧
    fld w 12 6 = a0 ∧ fld w 6 6 = a1 ∧ fld w 2 4 = a2 ∧ fld w 0 2 = a3 := by
  have b0 := a0.isLt
  have b1 := a1.isLt
  have b2 := a2.isLt
  have b3 := a3.isLt
  exact ⟨by omega,
    by omega,
    by omega,
    by simp only [bits]; omega,
    fld_of (by omega),
    fld_of (by omega),
    fld_of (by omega),
    fld_of (by omega)⟩

theorem shape35 {op w : Nat} (a0 : BitVec 6) (a1 : BitVec 6) (a2 : BitVec 6) (a3 : BitVec 4) (h : op < 256)
    (hw : w = op * 0x1000000 + a0.toNat * 0x40000 + a1.toNat * 0x1000 + a2.toNat * 0x40 + a3.toNat * 0x4) :
    w / 0x10000000 = op / 16 ∧ w / 0x1000000 % 16 = op % 16 ∧ w < 2 ^ 32 ∧ bits w 0 2 = 0 ∧
    fld w 18 6 = a0 ∧ fld w 12 6 = a1 ∧ fld w 6 6 = a2 ∧ fld w 2 4 = a3 := by
  have b0 := a0.isLt
  have b1 := a1.isLt
  have b2 := a2.isLt
  have b3 := a3.isLt
  exact ⟨by omega,
    by omega,
    by omega,
    by simp only [bits]; omega,
    fld_of (by omega),
    fld_of (by omega),
    fld_of (by omega),
    fld_of (by omega)⟩

theorem shape36 {op w : Nat} (a0 : BitVec 6) (a1 : BitVec 6) (a2 : BitVec 6) (a3 : BitVec 4) (h : op < 256)
    (hw : w = op * 0x1000000 + 0x1 + a0.toNat * 0x40000 + a1.toNat * 0x1000 + a2.toNat * 0x40 + a3.toNat * 0x4) :
    w / 0x10000000 = op / 16 ∧ w / 0x1000000 % 16 = op % 16 ∧ w < 2 ^ 32 ∧ bits w 0 2 = 1 ∧
    fld w 18 6 = a0 ∧ fld w 12 6 = a1 ∧ fld w 6 6 = a2 ∧ fld w 2 4 = a3 := by
  have b0 := a0.isLt
  have b1 := a1.isLt
  have b2 := a2.isLt
  have b3 := a3.isLt
  exact ⟨by omega,
    by omega,
    by omega,
    by simp only [bits]; omega,
    fld_of (by omega),
    fld_of (by omega),
    fld_of (by omega),
    fld_of (by omega)⟩

theorem shape37 {op w : Nat} (a0 : BitVec 6) (a1 : BitVec 6) (a2 : BitVec 6) (a3 : BitVec 4) (h : op < 256)
    (hw : w = op * 0x1000000 + 0x2 + a0.toNat * 0x40000 + a1.toNat * 0x1000 + a2.toNat * 0x40 + a3.toNat * 0x4) :
    w / 0x10000000 = op / 16 ∧ w / 0x1000000 % 16 = op % 16 ∧ w < 2 ^ 32 ∧ bits w 0 2 = 2 ∧
    fld w 18 6 = a0 ∧ fld w 12 6 = a1 ∧ fld w 6 6 = a2 ∧ fld w 2 4 = a3 := by
  have b0 := a0.isLt
  have b1 := a1.isLt
  have b2 := a2.isLt
  have b3 := a3.isLt
  exact ⟨by omega,
    by omega,
    by omega,
    by simp only [bits]; omega,
    fld_of (by omega),
    fld_of (by omega),
    fld_of (by omega),
    fld_of (by omega)⟩

theorem shape38 {op w : Nat} (a0 : BitVec 6) (a1 : BitVec 6) (a2 : BitVec 6) (a3 : BitVec 4) (h : op < 256)
    (hw : w = op * 0x1000000 + 0x3 + a0.toNat * 0x40000 + a1.toNat * 0x1000 + a2.toNat * 0x40 + a3.toNat * 0x4) :
    w / 0x10000000 = op / 16 ∧ w / 0x1000000 % 16 = op % 16 ∧ w < 2 ^ 32 ∧ bits w 0 2 = 3 ∧
    fld w 18 6 = a0 ∧ fld w 12 6 = a1 ∧ fld w 6 6 = a2 ∧ fld w 2 4 = a3 := by
  have b0 := a0.isLt
  have b1 := a1.isLt
  have b2 := a2.isLt
  have b3 := a3.isLt
  exact ⟨by omega,
    by omega,
    by omega,
    by simp only [bits]; omega,
    fld_of (by omega),
    fld_of (by omega),
    fld_of (by omega),
    fld_of (by omega)⟩

theorem shape39 {op w : Nat} (a0 : BitVec 6) (a1 : BitVec 6) (a2 : BitVec 4) (h : op < 256)
    (hw : w = op * 0x1000000 + 0x1 + a0.toNat * 0x40000 + a1.toNat * 0x1000 + a2.toNat * 0x4) :
    w / 0x10000000 = op / 16 ∧ w / 0x1000000 % 16 = op % 16 ∧ w < 2 ^ 32 ∧ bits w 0 2 = 1 ∧ bits w 6 6 = 0 ∧
    fld w 18 6 = a0 ∧ fld w 12 6 = a1 ∧ fld w 2 4 = a2 := by
  have b0 := a0.isLt
  have b1 := a1.isLt
  have b2 := a2.isLt
  exact ⟨by omega,
    by omega,
    by omega,
    by simp only [bits]; omega,
    by simp only [bits]; omega,
    fld_of (by omega),
    fld_of (by omega),
    fld_of (by omega)⟩

theorem shape40 {op w : Nat} (a0 : BitVec 6) (a1 : BitVec 6) (a2 : BitVec 4) (h : op < 256)
    (hw : w = op * 0x1000000 + 0x2 + a0.toNat * 0x40000 + a1.toNat * 0x1000 + a2.toNat * 0x4) :
    w / 0x10000000 = op / 16 ∧ w / 0x1000000 % 16 = op % 16 ∧ w < 2 ^ 32 ∧ bits w 0 2 = 2 ∧ bits w 6 6 = 0 ∧
    fld w 18 6 = a0 ∧ fld w 12 6 = a1 ∧ fld w 2 4 = a2 := by
  have b0 := a0.isLt
  have b1 := a1.isLt
  have b2 := a2.isLt
  exact ⟨by omega,
    by omega,
    by omega,
    by simp only [bits]; omega,
    by simp only [bits]; omega,
    fld_of (by omega),
    fld_of (by omega),
    fld_of (by omega)⟩

theorem shape41 {op w : Nat} (a0 : BitVec 6) (a1 : BitVec 6) (a2 : BitVec 4) (h : op < 256)
    (hw : w = op * 0x1000000 + 0x3 + a0.toNat * 0x40000 + a1.toNat * 0x1000 + a2.toNat * 0x4) :
    w / 0x10000000 = op / 16 ∧ w / 0x1000000 % 16 = op % 16 ∧ w < 2 ^ 32 ∧ bits w 0 2 = 3 ∧ bits w 6 6 = 0 ∧
    fld w 18 6 = a0 ∧ fld w 12 6 = a1 ∧ fld w 2 4 = a2 := by
  have b0 := a0.isLt
  have b1 := a1.isLt
  have b2 := a2.isLt
  exact ⟨by omega,
    by omega,
    by omega,
    by simp only [bits]; omega,
    by simp only [bits]; omega,
    fld_of (by omega),
    fld_of (by omega),
    fld_of (by omega)⟩

theorem shape42 {op w : Nat} (a0 : BitVec 6) (a1 : BitVec 6) (a2 : BitVec 6) (h : op < 256)
    (hw : w = op * 0x1000000 + a0.toNat * 0x40000 + a1.toNat * 0x1000 + a2.toNat * 0x40) :
    w / 0x10000000 = op / 16 ∧ w / 0x1000000 % 16 = op % 16 ∧ w < 2 ^ 32 ∧ bits w 0 6 = 0 ∧
    fld w 18 6 = a0 ∧ fld w 12 6 = a1 ∧ fld w 6 6 = a2 := by
  have b0 := a0.isLt
  have b1 := a1.isLt
  have b2 := a2.isLt
  exact ⟨by omega,
    by omega,
    by omega,
    by simp only [bits]; omega,
    fld_of (by omega),
    fld_of (by omega),
    fld_of (by omega)⟩

theorem shape43 {op w : Nat} (a0 : BitVec 6) (a1 : BitVec 6) (a2 : BitVec 6) (a3 : BitVec 5) (h : op < 256)
    (hw : w = op * 0x1000000 + a0.toNat * 0x40000 + a1.toNat * 0x1000 + a2.toNat * 0x40 + a3.toNat) :
    w / 0x10000000 = op / 16 ∧ w / 0x1000000 % 16 = op % 16 ∧ w < 2 ^ 32 ∧ bits w 5 1 = 0 ∧
    fld w 18 6 = a0 ∧ fld w 12 6 = a1 ∧ fld w 6 6 = a2 ∧ fld w 0 5 = a3 := by
  have b0 := a0.isLt
  have b1 := a1.isLt
  have b2 := a2.isLt
  have b3 := a3.isLt
  exact ⟨by omega,
    by omega,
    by omega,
    by simp only [bits]; omega,
    fld_of (by omega),
    fld_of (by omega),
    fld_of (by omega),
    fld_of (by omega)⟩

theorem shape44 {op w : Nat} (a0 : BitVec 6) (a1 : BitVec 6) (a2 : BitVec 6) (h : op < 256)
    (hw : w = op * 0x1000000 + 0x1 + a0.toNat * 0x40000 + a1.toNat * 0x1000 + a2.toNat * 0x40) :
    w / 0x10000000 = op / 16 ∧ w / 0x1000000 % 16 = op % 16 ∧ w < 2 ^ 32 ∧ bits w 0 6 = 1 ∧
    fld w 18 6 = a0 ∧ fld w 12 6 = a1 ∧ fld w 6 6 = a2 := by
  have b0 := a0.isLt
  have b1 := a1.isLt
  have b2 := a2.isLt
  exact ⟨by omega,
    by omega,
    by omega,
    by simp only [bits]; omega,
    fld_of (by omega),
    fld_of (by omega),
    fld_of (by omega)⟩

theorem shape45 {op w : Nat} (a0 : BitVec 6) (a1 : BitVec 6) (a2 : BitVec 5) (a3 : BitVec 4) (a4 : BitVec 2) (a5 : BitVec 1) (h : op < 256)
    (hw : w = op * 0x1000000 + a0.toNat * 0x40000 + a1.toNat * 0x1000 + a2.toNat * 0x80 + a3.toNat * 0x8 + a4.toNat * 0x2 + a5.toNat) :
    w / 0x10000000 = op / 16 ∧ w / 0x1000000 % 16 = op % 16 ∧ w < 2 ^ 32 ∧
    fld w 18 6 = a0 ∧ fld w 12 6 = a1 ∧ fld w 7 5 = a2 ∧ fld w 3 4 = a3 ∧ fld w 1 2 = a4 ∧ fld w 0 1 = a5 := by
  have b0 := a0.isLt
  have b1 := a1.isLt
  have b2 := a2.isLt
  have b3 := a3.isLt
  have b4 := a4.isLt
  have b5 := a5.isLt
  exact ⟨by omega,
    by omega,
    by omega,
    fld_of (by omega),
    fld_of (by omega),
    fld_of (by omega),
    fld_of (by omega),
    fld_of (by omega),
    fld_of (by omega)⟩

theorem shape46 {op w : Nat} (a0 : BitVec 6) (a1 : BitVec 5) (a2 : BitVec 4) (h : op < 256)
    (hw : w = op * 0x1000000 + 0x3f000 + a0.toNat * 0x40000 + a1.toNat * 0x80 + a2.toNat * 0x8) :
    w / 0x10000000 = op / 16 ∧ w / 0x1000000 % 16 = op % 16 ∧ w < 2 ^ 32 ∧ bits w 0 3 = 0 ∧ bits w 12 6 = 63 ∧
    fld w 18 6 = a0 ∧ fld w 7 5 = a1 ∧ fld w 3 4 = a2 := by
  have b0 := a0.isLt
  have b1 := a1.isLt
  have b2 := a2.isLt
  exact ⟨by omega,
    by omega,
    by omega,
    by simp only [bits]; omega,
    by simp only [bits]; omega,
    fld_of (by omega),
    fld_of (by omega),
    fld_of (by omega)⟩

theorem shape47 {op w : Nat} (a0 : BitVec 6) (a1 : BitVec 5) (a2 : BitVec 4) (a3 : BitVec 3) (h : op < 256)
    (hw : w = op * 0x1000000 + 0x3f000 + a0.toNat * 0x40000 + a1.toNat * 0x80 + a2.toNat * 0x8 + a3.toNat) :
    w / 0x10000000 = op / 16 ∧ w / 0x1000000 % 16 = op % 16 ∧ w < 2 ^ 32 ∧ bits w 12 6 = 63 ∧
    fld w 18 6 = a0 ∧ fld w 7 5 = a1 ∧ fld w 3 4 = a2 ∧ fld w 0 3 = a3 := by
  have b0 := a0.isLt
  have b1 := a1.isLt
  have b2 := a2.isLt
  have b3 := a3.isLt
  exact ⟨by omega,
    by omega,
    by omega,
    by simp only [bits]; omega,
    fld_of (by omega),
    fld_of (by omega),
    fld_of (by omega),
    fld_of (by omega)⟩

theorem shape48 {op w : Nat} (a0 : BitVec 6) (a1 : BitVec 6) (a2 : BitVec 5) (a3 : BitVec 4) (a4 : BitVec 3) (h : op < 256)
    (hw : w = op * 0x1000000 + a0.toNat * 0x40000 + a1.toNat * 0x1000 + a2.toNat * 0x80 + a3.toNat * 0x8 + a4.toNat) :
    w / 0x10000000 = op / 16 ∧ w / 0x1000000 % 16 = op % 16 ∧ w < 2 ^ 32 ∧
    fld w 18 6 = a0 ∧ fld w 12 6 = a1 ∧ fld w 7 5 = a2 ∧ fld w 3 4 = a3 ∧ fld w 0 3 = a4 := by
  have b0 := a0.isLt
  have b1 := a1.isLt
  have b2 := a2.isLt
  have b3 := a3.isLt
  have b4 := a4.isLt
  exact ⟨by omega,
    by omega,
    by omega,
    fld_of (by omega),
    fld_of (by omega),
    fld_of (by omega),
    fld_of (by omega),
    fld_of (by omega)⟩

theorem shape49 {op w : Nat} (a0 : BitVec 6) (a1 : BitVec 6) (h : op < 256)
    (hw : w = op * 0x1000000 + 0x1 + a0.toNat * 0x1000 + a1.toNat * 0x40) :
    w / 0x10000000 = op / 16 ∧ w / 0x1000000 % 16 = op % 16 ∧ w < 2 ^ 32 ∧ bits w 0 6 = 1 ∧ bits w 18 6 = 0 ∧
    fld w 12 6 = a0 ∧ fld w 6 6 = a1 := by
  have b0 := a0.isLt
  have b1 := a1.isLt
  exact ⟨by omega,
    by omega,
    by omega,
    by simp only [bits]; omega,
    by simp only [bits]; omega,
    fld_of (by omega),
    fld_of (by omega)⟩

theorem shape50 {op w : Nat} (a0 : BitVec 6) (a1 : BitVec 6) (a2 : BitVec 2) (h : op < 256)
    (hw : w = op * 0x1000000 + a0.toNat * 0x1000 + a1.toNat * 0x40 + a2.toNat) :
    w / 0x10000000 = op / 16 ∧ w / 0x1000000 % 16 = op % 16 ∧ w < 2 ^ 32 ∧ bits w 2 4 = 0 ∧ bits w 18 6 = 0 ∧
    fld w 12 6 = a0 ∧ fld w 6 6 = a1 ∧ fld w 0 2 = a2 := by
  have b0 := a0.isLt
  have b1 := a1.isLt
  have b2 := a2.isLt
  exact ⟨by omega,
    by omega,
    by omega,
    by simp only [bits]; omega,
    by simp only [bits]; omega,
    fld_of (by omega),
    fld_of (by omega),
    fld_of (by omega)⟩

theorem shape51 {op w : Nat} (a0 : BitVec 6) (a1 : BitVec 6) (a2 : BitVec 6) (a3 : BitVec 2) (h : op < 256)
    (hw : w = op * 0x1000000 + a0.toNat * 0x40000 + a1.toNat * 0x1000 + a2.toNat * 0x40 + a3.toNat) :
    w / 0x10000000 = op / 16 ∧ w / 0x1000000 % 16 = op % 16 ∧ w < 2 ^ 32 ∧ bits w 2 4 = 0 ∧
    fld w 18 6 = a0 ∧ fld w 12 6 = a1 ∧ fld w 6 6 = a2 ∧ fld w 0 2 = a3 := by
  have b0 := a0.isLt
  have b1 := a1.isLt
  have b2 := a2.isLt
  have b3 := a3.isLt
  exact ⟨by omega,
    by omega,
    by omega,
    by simp only [bits]; omega,
    fld_of (by omega),
    fld_of (by omega),
    fld_of (by omega),
    fld_of (by omega)⟩

theorem shape52 {op w : Nat} (a0 : BitVec 6) (a1 : BitVec 6) (h : op < 256)
    (hw : w = op * 0x1000000 + 0x1 + a0.toNat * 0x1000 + a1.toNat * 0x40) :
    w / 0x10000000 = op / 16 ∧ w / 0x1000000 % 16 = op % 16 ∧ w < 2 ^ 32 ∧ bits w 0 6 = 1 ∧ bits w 18 6 = 0 ∧ (bits w 0 12 == 0) = false ∧
    fld w 12 6 = a0 ∧ fld w 6 6 = a1 := by
  have b0 := a0.isLt
  have b1 := a1.isLt
  exact ⟨by omega,
    by omega,
    by omega,
    by simp only [bits]; omega,
    by simp only [bits]; omega,
    by simp only [bits, beq_eq_false_iff_ne]; omega,
    fld_of (by omega),
    fld_of (by omega)⟩

theorem shape53 {op w : Nat} (h : op < 256)
    (hw : w = op * 0x1000000) :
    w / 0x10000000 = op / 16 ∧ w / 0x1000000 % 16 = op % 16 ∧ w < 2 ^ 32 ∧ bits w 0 24 = 0 := by
  exact ⟨by omega,
    by omega,
    by omega,
    by simp only [bits]; omega⟩

theorem shape54 {op w : Nat} (h : op < 256)
    (hw : w = op * 0x1000000 + 0x1) :
    w / 0x10000000 = op / 16 ∧ w / 0x1000000 % 16 = op % 16 ∧ w < 2 ^ 32 ∧ bits w 0 24 = 1 := by
  exact ⟨by omega,
    by omega,
    by omega,
    by simp only [bits]; omega⟩

theorem shape55 {op w : Nat} (h : op < 256)
    (hw : w = op * 0x1000000 + 0x2) :
    w / 0x10000000 = op / 16 ∧ w / 0x1000000 % 16 = op % 16 ∧ w < 2 ^ 32 ∧ bits w 0 24 = 2 := by
  exact ⟨by omega,
    by omega,
    by omega,
    by simp only [bits]; omega⟩

theorem bra (p : BitVec 3) (sn : BitVec 1) (d : BitVec 20) : Statement (.bra p sn d) := fun _ =>
  decode_encode_of (n := 0x2 * 0x1000000 + p.toNat * 0x200000 + sn.toNat * 0x100000 + d.toNat) rfl (fun w hw => by
    have h := shape0 p sn d (by decide) hw
    exact ⟨by simp [decodeNat, decodeClass0, h], h.2.2.1⟩)

theorem jmpk (a : BitVec 6) : Statement (.jmpk a) := fun _ =>
  decode_encode_of (n := 0x3 * 0x1000000 + a.toNat * 0x1000) rfl (fun w hw => by
    have h := shape1 a (by decide) hw
    exact ⟨by simp [decodeNat, decodeClass0, h], h.2.2.1⟩)

theorem call (c : BitVec 4) (d : BitVec 20) : Statement (.call c d) := fun _ =>
  decode_encode_of (n := 0x4 * 0x1000000 + c.toNat * 0x100000 + d.toNat) rfl (fun w hw => by
    have h := shape2 c d (by decide) hw
    exact ⟨by simp [decodeNat, decodeClass0, h], h.2.2.1⟩)

theorem callk (a : BitVec 6) (c : BitVec 4) : Statement (.callk a c) := fun _ =>
  decode_encode_of (n := 0x5 * 0x1000000 + a.toNat * 0x1000 + c.toNat) rfl (fun w hw => by
    have h := shape3 a c (by decide) hw
    exact ⟨by simp [decodeNat, decodeClass0, h], h.2.2.1⟩)

theorem srcv (d : BitVec 24) : Statement (.srcv d) := fun _ =>
  decode_encode_of (n := 0x7 * 0x1000000 + d.toNat) rfl (fun w hw => by
    have h := shape4 d (by decide) hw
    exact ⟨by simp [decodeNat, decodeClass0, h], h.2.2.1⟩)

theorem sleep (a : BitVec 6) : Statement (.sleep a) := fun _ =>
  decode_encode_of (n := 0xc * 0x1000000 + a.toNat * 0x1000) rfl (fun w hw => by
    have h := shape1 a (by decide) hw
    exact ⟨by simp [decodeNat, decodeClass0, h], h.2.2.1⟩)

theorem setm (m : BitVec 18) : Statement (.setm m) := fun _ =>
  decode_encode_of (n := 0xd * 0x1000000 + m.toNat) rfl (fun w hw => by
    have h := shape5 m (by decide) hw
    exact ⟨by simp [decodeNat, decodeClass0, h], h.2.2.1⟩)

theorem setg (sn : BitVec 1) (g : BitVec 3) : Statement (.setg sn g) := fun _ =>
  decode_encode_of (n := 0xe * 0x1000000 + sn.toNat * 0x8 + g.toNat) rfl (fun w hw => by
    have h := shape6 sn g (by decide) hw
    exact ⟨by simp [decodeNat, decodeClass0, h], h.2.2.1⟩)

theorem sigchk (ix : BitVec 24) : Statement (.sigchk ix) := fun _ =>
  decode_encode_of (n := 0xf * 0x1000000 + ix.toNat) rfl (fun w hw => by
    have h := shape4 ix (by decide) hw
    exact ⟨by simp [decodeNat, decodeClass0, h], h.2.2.1⟩)

theorem trap (v : BitVec 16) (c : BitVec 8) : Statement (.trap v c) := fun _ =>
  decode_encode_of (n := 0x10 * 0x1000000 + v.toNat * 0x100 + c.toNat) rfl (fun w hw => by
    have h := shape7 v c (by decide) hw
    exact ⟨by simp [decodeNat, decodeClass1, h], h.2.2.1⟩)

theorem role (a : BitVec 6) : Statement (.role a) := fun _ =>
  decode_encode_of (n := 0x12 * 0x1000000 + a.toNat * 0x1000) rfl (fun w hw => by
    have h := shape1 a (by decide) hw
    exact ⟨by simp [decodeNat, decodeClass1, h], h.2.2.1⟩)

theorem dispq (a : BitVec 6) : Statement (.dispq a) := fun _ =>
  decode_encode_of (n := 0x13 * 0x1000000 + a.toNat * 0x1000) rfl (fun w hw => by
    have h := shape1 a (by decide) hw
    exact ⟨by simp [decodeNat, decodeClass1, h], h.2.2.1⟩)

theorem cjoin (d : BitVec 6) (a : BitVec 6) : Statement (.cjoin d a) := fun _ =>
  decode_encode_of (n := 0x15 * 0x1000000 + d.toNat * 0x40000 + a.toNat * 0x1000) rfl (fun w hw => by
    have h := shape8 d a (by decide) hw
    exact ⟨by simp [decodeNat, decodeClass1, h], h.2.2.1⟩)

theorem cleave (d : BitVec 6) : Statement (.cleave d) := fun _ =>
  decode_encode_of (n := 0x16 * 0x1000000 + d.toNat * 0x40000) rfl (fun w hw => by
    have h := shape9 d (by decide) hw
    exact ⟨by simp [decodeNat, decodeClass1, h], h.2.2.1⟩)

theorem bara (a : BitVec 6) (b : BitVec 6) : Statement (.bara a b) := fun _ =>
  decode_encode_of (n := 0x17 * 0x1000000 + a.toNat * 0x1000 + b.toNat * 0x40) rfl (fun w hw => by
    have h := shape10 a b (by decide) hw
    exact ⟨by simp [decodeNat, decodeClass1, h], h.2.2.1⟩)

theorem barw (a : BitVec 6) (b : BitVec 6) : Statement (.barw a b) := fun _ =>
  decode_encode_of (n := 0x18 * 0x1000000 + a.toNat * 0x1000 + b.toNat * 0x40) rfl (fun w hw => by
    have h := shape10 a b (by decide) hw
    exact ⟨by simp [decodeNat, decodeClass1, h], h.2.2.1⟩)

theorem bars (a : BitVec 6) (b : BitVec 6) : Statement (.bars a b) := fun _ =>
  decode_encode_of (n := 0x19 * 0x1000000 + a.toNat * 0x1000 + b.toNat * 0x40) rfl (fun w hw => by
    have h := shape10 a b (by decide) hw
    exact ⟨by simp [decodeNat, decodeClass1, h], h.2.2.1⟩)

theorem setrl (d : BitVec 24) : Statement (.setrl d) := fun _ =>
  decode_encode_of (n := 0x1a * 0x1000000 + d.toNat) rfl (fun w hw => by
    have h := shape4 d (by decide) hw
    exact ⟨by simp [decodeNat, decodeClass1, h], h.2.2.1⟩)

theorem srd (d : BitVec 6) (k : BitVec 1) (ix : BitVec 6) : Statement (.srd d k ix) := fun _ =>
  decode_encode_of (n := 0x1b * 0x1000000 + d.toNat * 0x40000 + k.toNat * 0x40 + ix.toNat) rfl (fun w hw => by
    have h := shape11 d k ix (by decide) hw
    exact ⟨by simp [decodeNat, decodeClass1, h], h.2.2.1⟩)

theorem swrMode (a : BitVec 6) (k : BitVec 1) : Statement (.swrMode a k) := fun _ =>
  decode_encode_of (n := 0x1c * 0x1000000 + a.toNat * 0x1000 + k.toNat * 0x40) rfl (fun w hw => by
    have h := shape12 a k (by decide) hw
    exact ⟨by simp [decodeNat, decodeClass1, h], h.2.2.1⟩)

theorem swrFflags (a : BitVec 6) (k : BitVec 1) : Statement (.swrFflags a k) := fun _ =>
  decode_encode_of (n := 0x1c * 0x1000000 + 0x1 + a.toNat * 0x1000 + k.toNat * 0x40) rfl (fun w hw => by
    have h := shape13 a k (by decide) hw
    exact ⟨by simp [decodeNat, decodeClass1, h], h.2.2.1⟩)

theorem swrStrand (a : BitVec 6) (k : BitVec 1) : Statement (.swrStrand a k) := fun _ =>
  decode_encode_of (n := 0x1c * 0x1000000 + 0x5 + a.toNat * 0x1000 + k.toNat * 0x40) rfl (fun w hw => by
    have h := shape14 a k (by decide) hw
    exact ⟨by simp [decodeNat, decodeClass1, h], h.2.2.1⟩)

theorem swrSpillb (a : BitVec 6) (k : BitVec 1) : Statement (.swrSpillb a k) := fun _ =>
  decode_encode_of (n := 0x1c * 0x1000000 + 0x8 + a.toNat * 0x1000 + k.toNat * 0x40) rfl (fun w hw => by
    have h := shape15 a k (by decide) hw
    exact ⟨by simp [decodeNat, decodeClass1, h], h.2.2.1⟩)

theorem swrTrapc (a : BitVec 6) (k : BitVec 1) : Statement (.swrTrapc a k) := fun _ =>
  decode_encode_of (n := 0x1c * 0x1000000 + 0x14 + a.toNat * 0x1000 + k.toNat * 0x40) rfl (fun w hw => by
    have h := shape16 a k (by decide) hw
    exact ⟨by simp [decodeNat, decodeClass1, h], h.2.2.1⟩)

theorem swrTrapv (a : BitVec 6) (k : BitVec 1) : Statement (.swrTrapv a k) := fun _ =>
  decode_encode_of (n := 0x1c * 0x1000000 + 0x15 + a.toNat * 0x1000 + k.toNat * 0x40) rfl (fun w hw => by
    have h := shape17 a k (by decide) hw
    exact ⟨by simp [decodeNat, decodeClass1, h], h.2.2.1⟩)

theorem swrTrappc (a : BitVec 6) (k : BitVec 1) : Statement (.swrTrappc a k) := fun _ =>
  decode_encode_of (n := 0x1c * 0x1000000 + 0x16 + a.toNat * 0x1000 + k.toNat * 0x40) rfl (fun w hw => by
    have h := shape18 a k (by decide) hw
    exact ⟨by simp [decodeNat, decodeClass1, h], h.2.2.1⟩)

theorem swrOvt (a : BitVec 6) (k : BitVec 1) : Statement (.swrOvt a k) := fun _ =>
  decode_encode_of (n := 0x1c * 0x1000000 + 0x17 + a.toNat * 0x1000 + k.toNat * 0x40) rfl (fun w hw => by
    have h := shape19 a k (by decide) hw
    exact ⟨by simp [decodeNat, decodeClass1, h], h.2.2.1⟩)

theorem bkpt (ix : BitVec 24) : Statement (.bkpt ix) := fun _ =>
  decode_encode_of (n := 0x1d * 0x1000000 + ix.toNat) rfl (fun w hw => by
    have h := shape4 ix (by decide) hw
    exact ⟨by simp [decodeNat, decodeClass1, h], h.2.2.1⟩)

theorem ovtld (a : BitVec 6) : Statement (.ovtld a) := fun _ =>
  decode_encode_of (n := 0x1e * 0x1000000 + a.toNat * 0x1000) rfl (fun w hw => by
    have h := shape1 a (by decide) hw
    exact ⟨by simp [decodeNat, decodeClass1, h], h.2.2.1⟩)

theorem add (d : BitVec 6) (a : BitVec 6) (b : BitVec 6) (u : BitVec 1) : Statement (.add d a b u) := fun _ =>
  decode_encode_of (n := 0x20 * 0x1000000 + d.toNat * 0x40000 + a.toNat * 0x1000 + b.toNat * 0x40 + u.toNat * 0x20) rfl (fun w hw => by
    have h := shape20 d a b u (by decide) hw
    exact ⟨by simp [decodeNat, decodeClass2, h], h.2.2.1⟩)

theorem sub (d : BitVec 6) (a : BitVec 6) (b : BitVec 6) (u : BitVec 1) : Statement (.sub d a b u) := fun _ =>
  decode_encode_of (n := 0x21 * 0x1000000 + d.toNat * 0x40000 + a.toNat * 0x1000 + b.toNat * 0x40 + u.toNat * 0x20) rfl (fun w hw => by
    have h := shape20 d a b u (by decide) hw
    exact ⟨by simp [decodeNat, decodeClass2, h], h.2.2.1⟩)

theorem mul (d : BitVec 6) (a : BitVec 6) (b : BitVec 6) (u : BitVec 1) : Statement (.mul d a b u) := fun _ =>
  decode_encode_of (n := 0x22 * 0x1000000 + d.toNat * 0x40000 + a.toNat * 0x1000 + b.toNat * 0x40 + u.toNat * 0x20) rfl (fun w hw => by
    have h := shape20 d a b u (by decide) hw
    exact ⟨by simp [decodeNat, decodeClass2, h], h.2.2.1⟩)

theorem mulh (d : BitVec 6) (a : BitVec 6) (b : BitVec 6) (u : BitVec 1) : Statement (.mulh d a b u) := fun _ =>
  decode_encode_of (n := 0x23 * 0x1000000 + d.toNat * 0x40000 + a.toNat * 0x1000 + b.toNat * 0x40 + u.toNat * 0x20) rfl (fun w hw => by
    have h := shape20 d a b u (by decide) hw
    exact ⟨by simp [decodeNat, decodeClass2, h], h.2.2.1⟩)

theorem min (d : BitVec 6) (a : BitVec 6) (b : BitVec 6) (u : BitVec 1) : Statement (.min d a b u) := fun _ =>
  decode_encode_of (n := 0x24 * 0x1000000 + d.toNat * 0x40000 + a.toNat * 0x1000 + b.toNat * 0x40 + u.toNat * 0x20) rfl (fun w hw => by
    have h := shape20 d a b u (by decide) hw
    exact ⟨by simp [decodeNat, decodeClass2, h], h.2.2.1⟩)

theorem max (d : BitVec 6) (a : BitVec 6) (b : BitVec 6) (u : BitVec 1) : Statement (.max d a b u) := fun _ =>
  decode_encode_of (n := 0x25 * 0x1000000 + d.toNat * 0x40000 + a.toNat * 0x1000 + b.toNat * 0x40 + u.toNat * 0x20) rfl (fun w hw => by
    have h := shape20 d a b u (by decide) hw
    exact ⟨by simp [decodeNat, decodeClass2, h], h.2.2.1⟩)

theorem abs (d : BitVec 6) (a : BitVec 6) : Statement (.abs d a) := fun _ =>
  decode_encode_of (n := 0x26 * 0x1000000 + d.toNat * 0x40000 + a.toNat * 0x1000) rfl (fun w hw => by
    have h := shape8 d a (by decide) hw
    exact ⟨by simp [decodeNat, decodeClass2, h], h.2.2.1⟩)

theorem neg (d : BitVec 6) (a : BitVec 6) : Statement (.neg d a) := fun _ =>
  decode_encode_of (n := 0x27 * 0x1000000 + d.toNat * 0x40000 + a.toNat * 0x1000) rfl (fun w hw => by
    have h := shape8 d a (by decide) hw
    exact ⟨by simp [decodeNat, decodeClass2, h], h.2.2.1⟩)

theorem and (d : BitVec 6) (a : BitVec 6) (b : BitVec 6) (u : BitVec 1) : Statement (.and d a b u) := fun _ =>
  decode_encode_of (n := 0x28 * 0x1000000 + d.toNat * 0x40000 + a.toNat * 0x1000 + b.toNat * 0x40 + u.toNat * 0x20) rfl (fun w hw => by
    have h := shape20 d a b u (by decide) hw
    exact ⟨by simp [decodeNat, decodeClass2, h], h.2.2.1⟩)

theorem or (d : BitVec 6) (a : BitVec 6) (b : BitVec 6) (u : BitVec 1) : Statement (.or d a b u) := fun _ =>
  decode_encode_of (n := 0x29 * 0x1000000 + d.toNat * 0x40000 + a.toNat * 0x1000 + b.toNat * 0x40 + u.toNat * 0x20) rfl (fun w hw => by
    have h := shape20 d a b u (by decide) hw
    exact ⟨by simp [decodeNat, decodeClass2, h], h.2.2.1⟩)

theorem xor (d : BitVec 6) (a : BitVec 6) (b : BitVec 6) (u : BitVec 1) : Statement (.xor d a b u) := fun _ =>
  decode_encode_of (n := 0x2a * 0x1000000 + d.toNat * 0x40000 + a.toNat * 0x1000 + b.toNat * 0x40 + u.toNat * 0x20) rfl (fun w hw => by
    have h := shape20 d a b u (by decide) hw
    exact ⟨by simp [decodeNat, decodeClass2, h], h.2.2.1⟩)

theorem andn (d : BitVec 6) (a : BitVec 6) (b : BitVec 6) (u : BitVec 1) : Statement (.andn d a b u) := fun _ =>
  decode_encode_of (n := 0x2b * 0x1000000 + d.toNat * 0x40000 + a.toNat * 0x1000 + b.toNat * 0x40 + u.toNat * 0x20) rfl (fun w hw => by
    have h := shape20 d a b u (by decide) hw
    exact ⟨by simp [decodeNat, decodeClass2, h], h.2.2.1⟩)

theorem shl (d : BitVec 6) (a : BitVec 6) (b : BitVec 6) (u : BitVec 1) : Statement (.shl d a b u) := fun _ =>
  decode_encode_of (n := 0x2c * 0x1000000 + d.toNat * 0x40000 + a.toNat * 0x1000 + b.toNat * 0x40 + u.toNat * 0x20) rfl (fun w hw => by
    have h := shape20 d a b u (by decide) hw
    exact ⟨by simp [decodeNat, decodeClass2, h], h.2.2.1⟩)

theorem shr (d : BitVec 6) (a : BitVec 6) (b : BitVec 6) (u : BitVec 1) : Statement (.shr d a b u) := fun _ =>
  decode_encode_of (n := 0x2d * 0x1000000 + d.toNat * 0x40000 + a.toNat * 0x1000 + b.toNat * 0x40 + u.toNat * 0x20) rfl (fun w hw => by
    have h := shape20 d a b u (by decide) hw
    exact ⟨by simp [decodeNat, decodeClass2, h], h.2.2.1⟩)

theorem sar (d : BitVec 6) (a : BitVec 6) (b : BitVec 6) (u : BitVec 1) : Statement (.sar d a b u) := fun _ =>
  decode_encode_of (n := 0x2e * 0x1000000 + d.toNat * 0x40000 + a.toNat * 0x1000 + b.toNat * 0x40 + u.toNat * 0x20) rfl (fun w hw => by
    have h := shape20 d a b u (by decide) hw
    exact ⟨by simp [decodeNat, decodeClass2, h], h.2.2.1⟩)

theorem rol (d : BitVec 6) (a : BitVec 6) (b : BitVec 6) (u : BitVec 1) : Statement (.rol d a b u) := fun _ =>
  decode_encode_of (n := 0x2f * 0x1000000 + d.toNat * 0x40000 + a.toNat * 0x1000 + b.toNat * 0x40 + u.toNat * 0x20) rfl (fun w hw => by
    have h := shape20 d a b u (by decide) hw
    exact ⟨by simp [decodeNat, decodeClass2, h], h.2.2.1⟩)

theorem mad (d : BitVec 6) (a : BitVec 6) (b : BitVec 6) (c : BitVec 6) : Statement (.mad d a b c) := fun _ =>
  decode_encode_of (n := 0x30 * 0x1000000 + d.toNat * 0x40000 + a.toNat * 0x1000 + b.toNat * 0x40 + c.toNat) rfl (fun w hw => by
    have h := shape21 d a b c (by decide) hw
    exact ⟨by simp [decodeNat, decodeClass3, h], h.2.2.1⟩)

theorem sel (d : BitVec 6) (a : BitVec 6) (b : BitVec 6) (u : BitVec 1) (n : BitVec 3) : Statement (.sel d a b u n) := fun _ =>
  decode_encode_of (n := 0x31 * 0x1000000 + d.toNat * 0x40000 + a.toNat * 0x1000 + b.toNat * 0x40 + u.toNat * 0x20 + n.toNat) rfl (fun w hw => by
    have h := shape22 d a b u n (by decide) hw
    exact ⟨by simp [decodeNat, decodeClass3, h], h.2.2.1⟩)

theorem cmp (d : BitVec 6) (a : BitVec 6) (b : BitVec 6) (u : BitVec 1) (c : BitVec 5) : Statement (.cmp d a b u c) := fun _ =>
  decode_encode_of (n := 0x32 * 0x1000000 + d.toNat * 0x40000 + a.toNat * 0x1000 + b.toNat * 0x40 + u.toNat * 0x20 + c.toNat) rfl (fun w hw => by
    have h := shape23 d a b u c (by decide) hw
    exact ⟨by simp [decodeNat, decodeClass3, h], h.2.2.1⟩)

theorem cmpi (p : BitVec 3) (c : BitVec 3) (a : BitVec 6) (ix : BitVec 12) : Statement (.cmpi p c a ix) := fun _ =>
  decode_encode_of (n := 0x33 * 0x1000000 + p.toNat * 0x200000 + c.toNat * 0x40000 + a.toNat * 0x1000 + ix.toNat) rfl (fun w hw => by
    have h := shape24 p c a ix (by decide) hw
    exact ⟨by simp [decodeNat, decodeClass3, h], h.2.2.1⟩)

theorem popc (d : BitVec 6) (a : BitVec 6) : Statement (.popc d a) := fun _ =>
  decode_encode_of (n := 0x34 * 0x1000000 + d.toNat * 0x40000 + a.toNat * 0x1000) rfl (fun w hw => by
    have h := shape8 d a (by decide) hw
    exact ⟨by simp [decodeNat, decodeClass3, h], h.2.2.1⟩)

theorem clz (d : BitVec 6) (a : BitVec 6) : Statement (.clz d a) := fun _ =>
  decode_encode_of (n := 0x35 * 0x1000000 + d.toNat * 0x40000 + a.toNat * 0x1000) rfl (fun w hw => by
    have h := shape8 d a (by decide) hw
    exact ⟨by simp [decodeNat, decodeClass3, h], h.2.2.1⟩)

theorem brev (d : BitVec 6) (a : BitVec 6) : Statement (.brev d a) := fun _ =>
  decode_encode_of (n := 0x36 * 0x1000000 + d.toNat * 0x40000 + a.toNat * 0x1000) rfl (fun w hw => by
    have h := shape8 d a (by decide) hw
    exact ⟨by simp [decodeNat, decodeClass3, h], h.2.2.1⟩)

theorem perm (d : BitVec 6) (a : BitVec 6) (b : BitVec 6) (c : BitVec 6) : Statement (.perm d a b c) := fun _ =>
  decode_encode_of (n := 0x37 * 0x1000000 + d.toNat * 0x40000 + a.toNat * 0x1000 + b.toNat * 0x40 + c.toNat) rfl (fun w hw => by
    have h := shape21 d a b c (by decide) hw
    exact ⟨by simp [decodeNat, decodeClass3, h], h.2.2.1⟩)

theorem bfx (d : BitVec 6) (a : BitVec 6) (n : BitVec 6) (p : BitVec 6) : Statement (.bfx d a n p) := fun _ =>
  decode_encode_of (n := 0x38 * 0x1000000 + d.toNat * 0x40000 + a.toNat * 0x1000 + n.toNat * 0x40 + p.toNat) rfl (fun w hw => by
    have h := shape21 d a n p (by decide) hw
    exact ⟨by simp [decodeNat, decodeClass3, h], h.2.2.1⟩)

theorem bfi (d : BitVec 6) (a : BitVec 6) (n : BitVec 6) (p : BitVec 6) : Statement (.bfi d a n p) := fun _ =>
  decode_encode_of (n := 0x39 * 0x1000000 + d.toNat * 0x40000 + a.toNat * 0x1000 + n.toNat * 0x40 + p.toNat) rfl (fun w hw => by
    have h := shape21 d a n p (by decide) hw
    exact ⟨by simp [decodeNat, decodeClass3, h], h.2.2.1⟩)

theorem movx (d : BitVec 6) (a : BitVec 6) : Statement (.movx d a) := fun _ =>
  decode_encode_of (n := 0x3a * 0x1000000 + d.toNat * 0x40000 + a.toNat * 0x1000) rfl (fun w hw => by
    have h := shape8 d a (by decide) hw
    exact ⟨by simp [decodeNat, decodeClass3, h], h.2.2.1⟩)

theorem movxK (d : BitVec 6) (b : BitVec 6) : Statement (.movxK d b) := fun _ =>
  decode_encode_of (n := 0x3a * 0x1000000 + 0x20 + d.toNat * 0x40000 + b.toNat * 0x40) rfl (fun w hw => by
    have h := shape25 d b (by decide) hw
    exact ⟨by simp [decodeNat, decodeClass3, h], h.2.2.1⟩)

theorem movi (d : BitVec 6) (ix : BitVec 18) : Statement (.movi d ix) := fun _ =>
  decode_encode_of (n := 0x3b * 0x1000000 + d.toNat * 0x40000 + ix.toNat) rfl (fun w hw => by
    have h := shape26 d ix (by decide) hw
    exact ⟨by simp [decodeNat, decodeClass3, h], h.2.2.1⟩)

theorem movh (d : BitVec 6) (ix : BitVec 18) : Statement (.movh d ix) := fun _ =>
  decode_encode_of (n := 0x3c * 0x1000000 + d.toNat * 0x40000 + ix.toNat) rfl (fun w hw => by
    have h := shape26 d ix (by decide) hw
    exact ⟨by simp [decodeNat, decodeClass3, h], h.2.2.1⟩)

theorem pmov (d : BitVec 6) (a : BitVec 6) : Statement (.pmov d a) := fun _ =>
  decode_encode_of (n := 0x3d * 0x1000000 + d.toNat * 0x40000 + a.toNat * 0x1000) rfl (fun w hw => by
    have h := shape8 d a (by decide) hw
    exact ⟨by simp [decodeNat, decodeClass3, h], h.2.2.1⟩)

theorem pset (d : BitVec 6) (a : BitVec 6) : Statement (.pset d a) := fun _ =>
  decode_encode_of (n := 0x3e * 0x1000000 + d.toNat * 0x40000 + a.toNat * 0x1000) rfl (fun w hw => by
    have h := shape8 d a (by decide) hw
    exact ⟨by simp [decodeNat, decodeClass3, h], h.2.2.1⟩)

theorem plog (d : BitVec 6) (a : BitVec 6) (b : BitVec 6) (t : BitVec 4) : Statement (.plog d a b t) := fun _ =>
  decode_encode_of (n := 0x3f * 0x1000000 + d.toNat * 0x40000 + a.toNat * 0x1000 + b.toNat * 0x40 + t.toNat) rfl (fun w hw => by
    have h := shape27 d a b t (by decide) hw
    exact ⟨by simp [decodeNat, decodeClass3, h], h.2.2.1⟩)

theorem addi (d : BitVec 6) (a : BitVec 6) (ix : BitVec 12) : Statement (.addi d a ix) := fun _ =>
  decode_encode_of (n := 0x40 * 0x1000000 + d.toNat * 0x40000 + a.toNat * 0x1000 + ix.toNat) rfl (fun w hw => by
    have h := shape28 d a ix (by decide) hw
    exact ⟨by simp [decodeNat, decodeClass4, h], h.2.2.1⟩)

theorem andi (d : BitVec 6) (a : BitVec 6) (ix : BitVec 12) : Statement (.andi d a ix) := fun _ =>
  decode_encode_of (n := 0x41 * 0x1000000 + d.toNat * 0x40000 + a.toNat * 0x1000 + ix.toNat) rfl (fun w hw => by
    have h := shape28 d a ix (by decide) hw
    exact ⟨by simp [decodeNat, decodeClass4, h], h.2.2.1⟩)

theorem ori (d : BitVec 6) (a : BitVec 6) (ix : BitVec 12) : Statement (.ori d a ix) := fun _ =>
  decode_encode_of (n := 0x42 * 0x1000000 + d.toNat * 0x40000 + a.toNat * 0x1000 + ix.toNat) rfl (fun w hw => by
    have h := shape28 d a ix (by decide) hw
    exact ⟨by simp [decodeNat, decodeClass4, h], h.2.2.1⟩)

theorem xori (d : BitVec 6) (a : BitVec 6) (ix : BitVec 12) : Statement (.xori d a ix) := fun _ =>
  decode_encode_of (n := 0x43 * 0x1000000 + d.toNat * 0x40000 + a.toNat * 0x1000 + ix.toNat) rfl (fun w hw => by
    have h := shape28 d a ix (by decide) hw
    exact ⟨by simp [decodeNat, decodeClass4, h], h.2.2.1⟩)

theorem shli (d : BitVec 6) (a : BitVec 6) (n : BitVec 6) : Statement (.shli d a n) := fun _ =>
  decode_encode_of (n := 0x44 * 0x1000000 + d.toNat * 0x40000 + a.toNat * 0x1000 + n.toNat) rfl (fun w hw => by
    have h := shape29 d a n (by decide) hw
    exact ⟨by simp [decodeNat, decodeClass4, h], h.2.2.1⟩)

theorem shri (d : BitVec 6) (a : BitVec 6) (n : BitVec 6) : Statement (.shri d a n) := fun _ =>
  decode_encode_of (n := 0x45 * 0x1000000 + d.toNat * 0x40000 + a.toNat * 0x1000 + n.toNat) rfl (fun w hw => by
    have h := shape29 d a n (by decide) hw
    exact ⟨by simp [decodeNat, decodeClass4, h], h.2.2.1⟩)

theorem sari (d : BitVec 6) (a : BitVec 6) (n : BitVec 6) : Statement (.sari d a n) := fun _ =>
  decode_encode_of (n := 0x46 * 0x1000000 + d.toNat * 0x40000 + a.toNat * 0x1000 + n.toNat) rfl (fun w hw => by
    have h := shape29 d a n (by decide) hw
    exact ⟨by simp [decodeNat, decodeClass4, h], h.2.2.1⟩)

theorem muli (d : BitVec 6) (a : BitVec 6) (ix : BitVec 12) : Statement (.muli d a ix) := fun _ =>
  decode_encode_of (n := 0x47 * 0x1000000 + d.toNat * 0x40000 + a.toNat * 0x1000 + ix.toNat) rfl (fun w hw => by
    have h := shape28 d a ix (by decide) hw
    exact ⟨by simp [decodeNat, decodeClass4, h], h.2.2.1⟩)

theorem mini (d : BitVec 6) (a : BitVec 6) (ix : BitVec 12) : Statement (.mini d a ix) := fun _ =>
  decode_encode_of (n := 0x48 * 0x1000000 + d.toNat * 0x40000 + a.toNat * 0x1000 + ix.toNat) rfl (fun w hw => by
    have h := shape28 d a ix (by decide) hw
    exact ⟨by simp [decodeNat, decodeClass4, h], h.2.2.1⟩)

theorem maxi (d : BitVec 6) (a : BitVec 6) (ix : BitVec 12) : Statement (.maxi d a ix) := fun _ =>
  decode_encode_of (n := 0x49 * 0x1000000 + d.toNat * 0x40000 + a.toNat * 0x1000 + ix.toNat) rfl (fun w hw => by
    have h := shape28 d a ix (by decide) hw
    exact ⟨by simp [decodeNat, decodeClass4, h], h.2.2.1⟩)

theorem fadd (d : BitVec 6) (a : BitVec 6) (b : BitVec 6) (u : BitVec 1) : Statement (.fadd d a b u) := fun _ =>
  decode_encode_of (n := 0x50 * 0x1000000 + d.toNat * 0x40000 + a.toNat * 0x1000 + b.toNat * 0x40 + u.toNat * 0x20) rfl (fun w hw => by
    have h := shape20 d a b u (by decide) hw
    exact ⟨by simp [decodeNat, decodeClass5, h], h.2.2.1⟩)

theorem fsub (d : BitVec 6) (a : BitVec 6) (b : BitVec 6) (u : BitVec 1) : Statement (.fsub d a b u) := fun _ =>
  decode_encode_of (n := 0x51 * 0x1000000 + d.toNat * 0x40000 + a.toNat * 0x1000 + b.toNat * 0x40 + u.toNat * 0x20) rfl (fun w hw => by
    have h := shape20 d a b u (by decide) hw
    exact ⟨by simp [decodeNat, decodeClass5, h], h.2.2.1⟩)

theorem fmul (d : BitVec 6) (a : BitVec 6) (b : BitVec 6) (u : BitVec 1) : Statement (.fmul d a b u) := fun _ =>
  decode_encode_of (n := 0x52 * 0x1000000 + d.toNat * 0x40000 + a.toNat * 0x1000 + b.toNat * 0x40 + u.toNat * 0x20) rfl (fun w hw => by
    have h := shape20 d a b u (by decide) hw
    exact ⟨by simp [decodeNat, decodeClass5, h], h.2.2.1⟩)

theorem fma (d : BitVec 6) (a : BitVec 6) (b : BitVec 6) (c : BitVec 6) : Statement (.fma d a b c) := fun _ =>
  decode_encode_of (n := 0x53 * 0x1000000 + d.toNat * 0x40000 + a.toNat * 0x1000 + b.toNat * 0x40 + c.toNat) rfl (fun w hw => by
    have h := shape21 d a b c (by decide) hw
    exact ⟨by simp [decodeNat, decodeClass5, h], h.2.2.1⟩)

theorem fmin (d : BitVec 6) (a : BitVec 6) (b : BitVec 6) (u : BitVec 1) : Statement (.fmin d a b u) := fun _ =>
  decode_encode_of (n := 0x54 * 0x1000000 + d.toNat * 0x40000 + a.toNat * 0x1000 + b.toNat * 0x40 + u.toNat * 0x20) rfl (fun w hw => by
    have h := shape20 d a b u (by decide) hw
    exact ⟨by simp [decodeNat, decodeClass5, h], h.2.2.1⟩)

theorem fmax (d : BitVec 6) (a : BitVec 6) (b : BitVec 6) (u : BitVec 1) : Statement (.fmax d a b u) := fun _ =>
  decode_encode_of (n := 0x55 * 0x1000000 + d.toNat * 0x40000 + a.toNat * 0x1000 + b.toNat * 0x40 + u.toNat * 0x20) rfl (fun w hw => by
    have h := shape20 d a b u (by decide) hw
    exact ⟨by simp [decodeNat, decodeClass5, h], h.2.2.1⟩)

theorem fabs (d : BitVec 6) (a : BitVec 6) : Statement (.fabs d a) := fun _ =>
  decode_encode_of (n := 0x56 * 0x1000000 + d.toNat * 0x40000 + a.toNat * 0x1000) rfl (fun w hw => by
    have h := shape8 d a (by decide) hw
    exact ⟨by simp [decodeNat, decodeClass5, h], h.2.2.1⟩)

theorem fneg (d : BitVec 6) (a : BitVec 6) : Statement (.fneg d a) := fun _ =>
  decode_encode_of (n := 0x57 * 0x1000000 + d.toNat * 0x40000 + a.toNat * 0x1000) rfl (fun w hw => by
    have h := shape8 d a (by decide) hw
    exact ⟨by simp [decodeNat, decodeClass5, h], h.2.2.1⟩)

theorem fcmp (d : BitVec 6) (a : BitVec 6) (b : BitVec 6) (u : BitVec 1) (c : BitVec 5) : Statement (.fcmp d a b u c) := fun _ =>
  decode_encode_of (n := 0x58 * 0x1000000 + d.toNat * 0x40000 + a.toNat * 0x1000 + b.toNat * 0x40 + u.toNat * 0x20 + c.toNat) rfl (fun w hw => by
    have h := shape23 d a b u c (by decide) hw
    exact ⟨by simp [decodeNat, decodeClass5, h], h.2.2.1⟩)

theorem cvt (d : BitVec 6) (a : BitVec 6) (sn : BitVec 4) : Statement (.cvt d a sn) := fun _ =>
  decode_encode_of (n := 0x59 * 0x1000000 + d.toNat * 0x40000 + a.toNat * 0x1000 + sn.toNat) rfl (fun w hw => by
    have h := shape30 d a sn (by decide) hw
    exact ⟨by simp [decodeNat, decodeClass5, h], h.2.2.1⟩)

theorem cvtz (d : BitVec 6) (a : BitVec 6) (sn : BitVec 4) : Statement (.cvtz d a sn) := fun _ =>
  decode_encode_of (n := 0x5a * 0x1000000 + d.toNat * 0x40000 + a.toNat * 0x1000 + sn.toNat) rfl (fun w hw => by
    have h := shape30 d a sn (by decide) hw
    exact ⟨by simp [decodeNat, decodeClass5, h], h.2.2.1⟩)

theorem frnd (d : BitVec 6) (a : BitVec 6) : Statement (.frnd d a) := fun _ =>
  decode_encode_of (n := 0x5b * 0x1000000 + d.toNat * 0x40000 + a.toNat * 0x1000) rfl (fun w hw => by
    have h := shape8 d a (by decide) hw
    exact ⟨by simp [decodeNat, decodeClass5, h], h.2.2.1⟩)

theorem fcls (d : BitVec 6) (a : BitVec 6) : Statement (.fcls d a) := fun _ =>
  decode_encode_of (n := 0x5c * 0x1000000 + d.toNat * 0x40000 + a.toNat * 0x1000) rfl (fun w hw => by
    have h := shape8 d a (by decide) hw
    exact ⟨by simp [decodeNat, decodeClass5, h], h.2.2.1⟩)

theorem pack (d : BitVec 6) (a : BitVec 6) (b : BitVec 6) (sn : BitVec 4) : Statement (.pack d a b sn) := fun _ =>
  decode_encode_of (n := 0x5d * 0x1000000 + d.toNat * 0x40000 + a.toNat * 0x1000 + b.toNat * 0x40 + sn.toNat) rfl (fun w hw => by
    have h := shape27 d a b sn (by decide) hw
    exact ⟨by simp [decodeNat, decodeClass5, h], h.2.2.1⟩)

theorem unpk (d : BitVec 6) (a : BitVec 6) (h : BitVec 1) (sn : BitVec 4) : Statement (.unpk d a h sn) := fun _ =>
  decode_encode_of (n := 0x5e * 0x1000000 + d.toNat * 0x40000 + a.toNat * 0x1000 + h.toNat * 0x10 + sn.toNat) rfl (fun w hw => by
    have h := shape31 d a h sn (by decide) hw
    exact ⟨by simp [decodeNat, decodeClass5, h], h.2.2.1⟩)

theorem rcp (d : BitVec 6) (a : BitVec 6) (l : BitVec 4) : Statement (.rcp d a l) := fun _ =>
  decode_encode_of (n := 0x60 * 0x1000000 + d.toNat * 0x40000 + a.toNat * 0x1000 + l.toNat * 0x4) rfl (fun w hw => by
    have h := shape32 d a l (by decide) hw
    exact ⟨by simp [decodeNat, decodeClass6, h], h.2.2.1⟩)

theorem rsq (d : BitVec 6) (a : BitVec 6) (l : BitVec 4) : Statement (.rsq d a l) := fun _ =>
  decode_encode_of (n := 0x61 * 0x1000000 + d.toNat * 0x40000 + a.toNat * 0x1000 + l.toNat * 0x4) rfl (fun w hw => by
    have h := shape32 d a l (by decide) hw
    exact ⟨by simp [decodeNat, decodeClass6, h], h.2.2.1⟩)

theorem lg2 (d : BitVec 6) (a : BitVec 6) (l : BitVec 4) : Statement (.lg2 d a l) := fun _ =>
  decode_encode_of (n := 0x62 * 0x1000000 + d.toNat * 0x40000 + a.toNat * 0x1000 + l.toNat * 0x4) rfl (fun w hw => by
    have h := shape32 d a l (by decide) hw
    exact ⟨by simp [decodeNat, decodeClass6, h], h.2.2.1⟩)

theorem ex2 (d : BitVec 6) (a : BitVec 6) (l : BitVec 4) : Statement (.ex2 d a l) := fun _ =>
  decode_encode_of (n := 0x63 * 0x1000000 + d.toNat * 0x40000 + a.toNat * 0x1000 + l.toNat * 0x4) rfl (fun w hw => by
    have h := shape32 d a l (by decide) hw
    exact ⟨by simp [decodeNat, decodeClass6, h], h.2.2.1⟩)

theorem sin (d : BitVec 6) (a : BitVec 6) (l : BitVec 4) : Statement (.sin d a l) := fun _ =>
  decode_encode_of (n := 0x64 * 0x1000000 + d.toNat * 0x40000 + a.toNat * 0x1000 + l.toNat * 0x4) rfl (fun w hw => by
    have h := shape32 d a l (by decide) hw
    exact ⟨by simp [decodeNat, decodeClass6, h], h.2.2.1⟩)

theorem cos (d : BitVec 6) (a : BitVec 6) (l : BitVec 4) : Statement (.cos d a l) := fun _ =>
  decode_encode_of (n := 0x65 * 0x1000000 + d.toNat * 0x40000 + a.toNat * 0x1000 + l.toNat * 0x4) rfl (fun w hw => by
    have h := shape32 d a l (by decide) hw
    exact ⟨by simp [decodeNat, decodeClass6, h], h.2.2.1⟩)

theorem tanh (d : BitVec 6) (a : BitVec 6) (l : BitVec 4) : Statement (.tanh d a l) := fun _ =>
  decode_encode_of (n := 0x66 * 0x1000000 + d.toNat * 0x40000 + a.toNat * 0x1000 + l.toNat * 0x4) rfl (fun w hw => by
    have h := shape32 d a l (by decide) hw
    exact ⟨by simp [decodeNat, decodeClass6, h], h.2.2.1⟩)

theorem ppe (d : BitVec 6) (a : BitVec 6) (l : BitVec 4) (sn : BitVec 2) : Statement (.ppe d a l sn) := fun _ =>
  decode_encode_of (n := 0x67 * 0x1000000 + d.toNat * 0x40000 + a.toNat * 0x1000 + l.toNat * 0x4 + sn.toNat) rfl (fun w hw => by
    have h := shape33 d a l sn (by decide) hw
    exact ⟨by simp [decodeNat, decodeClass6, h], h.2.2.1⟩)

theorem ppld (a : BitVec 6) (b : BitVec 6) (l : BitVec 4) (sn : BitVec 2) : Statement (.ppld a b l sn) := fun _ =>
  decode_encode_of (n := 0x68 * 0x1000000 + a.toNat * 0x1000 + b.toNat * 0x40 + l.toNat * 0x4 + sn.toNat) rfl (fun w hw => by
    have h := shape34 a b l sn (by decide) hw
    exact ⟨by simp [decodeNat, decodeClass6, h], h.2.2.1⟩)

theorem shflFrom (d : BitVec 6) (a : BitVec 6) (b : BitVec 6) (l : BitVec 4) : Statement (.shflFrom d a b l) := fun _ =>
  decode_encode_of (n := 0x70 * 0x1000000 + d.toNat * 0x40000 + a.toNat * 0x1000 + b.toNat * 0x40 + l.toNat * 0x4) rfl (fun w hw => by
    have h := shape35 d a b l (by decide) hw
    exact ⟨by simp [decodeNat, decodeClass7, h], h.2.2.1⟩)

theorem shflRot (d : BitVec 6) (a : BitVec 6) (b : BitVec 6) (l : BitVec 4) : Statement (.shflRot d a b l) := fun _ =>
  decode_encode_of (n := 0x70 * 0x1000000 + 0x1 + d.toNat * 0x40000 + a.toNat * 0x1000 + b.toNat * 0x40 + l.toNat * 0x4) rfl (fun w hw => by
    have h := shape36 d a b l (by decide) hw
    exact ⟨by simp [decodeNat, decodeClass7, h], h.2.2.1⟩)

theorem shflRotn (d : BitVec 6) (a : BitVec 6) (b : BitVec 6) (l : BitVec 4) : Statement (.shflRotn d a b l) := fun _ =>
  decode_encode_of (n := 0x70 * 0x1000000 + 0x2 + d.toNat * 0x40000 + a.toNat * 0x1000 + b.toNat * 0x40 + l.toNat * 0x4) rfl (fun w hw => by
    have h := shape37 d a b l (by decide) hw
    exact ⟨by simp [decodeNat, decodeClass7, h], h.2.2.1⟩)

theorem shflXor (d : BitVec 6) (a : BitVec 6) (b : BitVec 6) (l : BitVec 4) : Statement (.shflXor d a b l) := fun _ =>
  decode_encode_of (n := 0x70 * 0x1000000 + 0x3 + d.toNat * 0x40000 + a.toNat * 0x1000 + b.toNat * 0x40 + l.toNat * 0x4) rfl (fun w hw => by
    have h := shape38 d a b l (by decide) hw
    exact ⟨by simp [decodeNat, decodeClass7, h], h.2.2.1⟩)

theorem voteQuorum (d : BitVec 6) (a : BitVec 6) (b : BitVec 6) (l : BitVec 4) : Statement (.voteQuorum d a b l) := fun _ =>
  decode_encode_of (n := 0x71 * 0x1000000 + d.toNat * 0x40000 + a.toNat * 0x1000 + b.toNat * 0x40 + l.toNat * 0x4) rfl (fun w hw => by
    have h := shape35 d a b l (by decide) hw
    exact ⟨by simp [decodeNat, decodeClass7, h], h.2.2.1⟩)

theorem voteUnan (d : BitVec 6) (a : BitVec 6) (l : BitVec 4) : Statement (.voteUnan d a l) := fun _ =>
  decode_encode_of (n := 0x71 * 0x1000000 + 0x1 + d.toNat * 0x40000 + a.toNat * 0x1000 + l.toNat * 0x4) rfl (fun w hw => by
    have h := shape39 d a l (by decide) hw
    exact ⟨by simp [decodeNat, decodeClass7, h], h.2.2.1⟩)

theorem voteMask (d : BitVec 6) (a : BitVec 6) (l : BitVec 4) : Statement (.voteMask d a l) := fun _ =>
  decode_encode_of (n := 0x71 * 0x1000000 + 0x2 + d.toNat * 0x40000 + a.toNat * 0x1000 + l.toNat * 0x4) rfl (fun w hw => by
    have h := shape40 d a l (by decide) hw
    exact ⟨by simp [decodeNat, decodeClass7, h], h.2.2.1⟩)

theorem voteCount (d : BitVec 6) (a : BitVec 6) (l : BitVec 4) : Statement (.voteCount d a l) := fun _ =>
  decode_encode_of (n := 0x71 * 0x1000000 + 0x3 + d.toNat * 0x40000 + a.toNat * 0x1000 + l.toNat * 0x4) rfl (fun w hw => by
    have h := shape41 d a l (by decide) hw
    exact ⟨by simp [decodeNat, decodeClass7, h], h.2.2.1⟩)

theorem redxAdd (d : BitVec 6) (a : BitVec 6) (l : BitVec 4) : Statement (.redxAdd d a l) := fun _ =>
  decode_encode_of (n := 0x72 * 0x1000000 + d.toNat * 0x40000 + a.toNat * 0x1000 + l.toNat * 0x4) rfl (fun w hw => by
    have h := shape32 d a l (by decide) hw
    exact ⟨by simp [decodeNat, decodeClass7, h], h.2.2.1⟩)

theorem redxMin (d : BitVec 6) (a : BitVec 6) (l : BitVec 4) : Statement (.redxMin d a l) := fun _ =>
  decode_encode_of (n := 0x72 * 0x1000000 + 0x1 + d.toNat * 0x40000 + a.toNat * 0x1000 + l.toNat * 0x4) rfl (fun w hw => by
    have h := shape39 d a l (by decide) hw
    exact ⟨by simp [decodeNat, decodeClass7, h], h.2.2.1⟩)

theorem redxMax (d : BitVec 6) (a : BitVec 6) (l : BitVec 4) : Statement (.redxMax d a l) := fun _ =>
  decode_encode_of (n := 0x72 * 0x1000000 + 0x2 + d.toNat * 0x40000 + a.toNat * 0x1000 + l.toNat * 0x4) rfl (fun w hw => by
    have h := shape40 d a l (by decide) hw
    exact ⟨by simp [decodeNat, decodeClass7, h], h.2.2.1⟩)

theorem argmxMax (d : BitVec 6) (a : BitVec 6) (l : BitVec 4) : Statement (.argmxMax d a l) := fun _ =>
  decode_encode_of (n := 0x73 * 0x1000000 + d.toNat * 0x40000 + a.toNat * 0x1000 + l.toNat * 0x4) rfl (fun w hw => by
    have h := shape32 d a l (by decide) hw
    exact ⟨by simp [decodeNat, decodeClass7, h], h.2.2.1⟩)

theorem argmxMin (d : BitVec 6) (a : BitVec 6) (l : BitVec 4) : Statement (.argmxMin d a l) := fun _ =>
  decode_encode_of (n := 0x73 * 0x1000000 + 0x1 + d.toNat * 0x40000 + a.toNat * 0x1000 + l.toNat * 0x4) rfl (fun w hw => by
    have h := shape39 d a l (by decide) hw
    exact ⟨by simp [decodeNat, decodeClass7, h], h.2.2.1⟩)

theorem scanAddIncl (d : BitVec 6) (a : BitVec 6) (l : BitVec 4) : Statement (.scanAddIncl d a l) := fun _ =>
  decode_encode_of (n := 0x74 * 0x1000000 + d.toNat * 0x40000 + a.toNat * 0x1000 + l.toNat * 0x4) rfl (fun w hw => by
    have h := shape32 d a l (by decide) hw
    exact ⟨by simp [decodeNat, decodeClass7, h], h.2.2.1⟩)

theorem scanAddExcl (d : BitVec 6) (a : BitVec 6) (l : BitVec 4) : Statement (.scanAddExcl d a l) := fun _ =>
  decode_encode_of (n := 0x74 * 0x1000000 + 0x1 + d.toNat * 0x40000 + a.toNat * 0x1000 + l.toNat * 0x4) rfl (fun w hw => by
    have h := shape39 d a l (by decide) hw
    exact ⟨by simp [decodeNat, decodeClass7, h], h.2.2.1⟩)

theorem scanMax (d : BitVec 6) (a : BitVec 6) (l : BitVec 4) : Statement (.scanMax d a l) := fun _ =>
  decode_encode_of (n := 0x74 * 0x1000000 + 0x2 + d.toNat * 0x40000 + a.toNat * 0x1000 + l.toNat * 0x4) rfl (fun w hw => by
    have h := shape40 d a l (by decide) hw
    exact ⟨by simp [decodeNat, decodeClass7, h], h.2.2.1⟩)

theorem scanMin (d : BitVec 6) (a : BitVec 6) (l : BitVec 4) : Statement (.scanMin d a l) := fun _ =>
  decode_encode_of (n := 0x74 * 0x1000000 + 0x3 + d.toNat * 0x40000 + a.toNat * 0x1000 + l.toNat * 0x4) rfl (fun w hw => by
    have h := shape41 d a l (by decide) hw
    exact ⟨by simp [decodeNat, decodeClass7, h], h.2.2.1⟩)

theorem matchLanes (d : BitVec 6) (a : BitVec 6) (l : BitVec 4) : Statement (.matchLanes d a l) := fun _ =>
  decode_encode_of (n := 0x75 * 0x1000000 + d.toNat * 0x40000 + a.toNat * 0x1000 + l.toNat * 0x4) rfl (fun w hw => by
    have h := shape32 d a l (by decide) hw
    exact ⟨by simp [decodeNat, decodeClass7, h], h.2.2.1⟩)

theorem x2k (d : BitVec 6) (a : BitVec 6) (b : BitVec 6) (l : BitVec 4) : Statement (.x2k d a b l) := fun _ =>
  decode_encode_of (n := 0x76 * 0x1000000 + d.toNat * 0x40000 + a.toNat * 0x1000 + b.toNat * 0x40 + l.toNat * 0x4) rfl (fun w hw => by
    have h := shape35 d a b l (by decide) hw
    exact ⟨by simp [decodeNat, decodeClass7, h], h.2.2.1⟩)

theorem kadd (d : BitVec 6) (a : BitVec 6) (b : BitVec 6) : Statement (.kadd d a b) := fun _ =>
  decode_encode_of (n := 0x80 * 0x1000000 + d.toNat * 0x40000 + a.toNat * 0x1000 + b.toNat * 0x40) rfl (fun w hw => by
    have h := shape42 d a b (by decide) hw
    exact ⟨by simp [decodeNat, decodeClass8, h], h.2.2.1⟩)

theorem ksub (d : BitVec 6) (a : BitVec 6) (b : BitVec 6) : Statement (.ksub d a b) := fun _ =>
  decode_encode_of (n := 0x81 * 0x1000000 + d.toNat * 0x40000 + a.toNat * 0x1000 + b.toNat * 0x40) rfl (fun w hw => by
    have h := shape42 d a b (by decide) hw
    exact ⟨by simp [decodeNat, decodeClass8, h], h.2.2.1⟩)

theorem kmul (d : BitVec 6) (a : BitVec 6) (b : BitVec 6) : Statement (.kmul d a b) := fun _ =>
  decode_encode_of (n := 0x82 * 0x1000000 + d.toNat * 0x40000 + a.toNat * 0x1000 + b.toNat * 0x40) rfl (fun w hw => by
    have h := shape42 d a b (by decide) hw
    exact ⟨by simp [decodeNat, decodeClass8, h], h.2.2.1⟩)

theorem kand (d : BitVec 6) (a : BitVec 6) (b : BitVec 6) : Statement (.kand d a b) := fun _ =>
  decode_encode_of (n := 0x83 * 0x1000000 + d.toNat * 0x40000 + a.toNat * 0x1000 + b.toNat * 0x40) rfl (fun w hw => by
    have h := shape42 d a b (by decide) hw
    exact ⟨by simp [decodeNat, decodeClass8, h], h.2.2.1⟩)

theorem kor (d : BitVec 6) (a : BitVec 6) (b : BitVec 6) : Statement (.kor d a b) := fun _ =>
  decode_encode_of (n := 0x84 * 0x1000000 + d.toNat * 0x40000 + a.toNat * 0x1000 + b.toNat * 0x40) rfl (fun w hw => by
    have h := shape42 d a b (by decide) hw
    exact ⟨by simp [decodeNat, decodeClass8, h], h.2.2.1⟩)

theorem kxor (d : BitVec 6) (a : BitVec 6) (b : BitVec 6) : Statement (.kxor d a b) := fun _ =>
  decode_encode_of (n := 0x85 * 0x1000000 + d.toNat * 0x40000 + a.toNat * 0x1000 + b.toNat * 0x40) rfl (fun w hw => by
    have h := shape42 d a b (by decide) hw
    exact ⟨by simp [decodeNat, decodeClass8, h], h.2.2.1⟩)

theorem kshl (d : BitVec 6) (a : BitVec 6) (b : BitVec 6) : Statement (.kshl d a b) := fun _ =>
  decode_encode_of (n := 0x86 * 0x1000000 + d.toNat * 0x40000 + a.toNat * 0x1000 + b.toNat * 0x40) rfl (fun w hw => by
    have h := shape42 d a b (by decide) hw
    exact ⟨by simp [decodeNat, decodeClass8, h], h.2.2.1⟩)

theorem kshr (d : BitVec 6) (a : BitVec 6) (b : BitVec 6) : Statement (.kshr d a b) := fun _ =>
  decode_encode_of (n := 0x87 * 0x1000000 + d.toNat * 0x40000 + a.toNat * 0x1000 + b.toNat * 0x40) rfl (fun w hw => by
    have h := shape42 d a b (by decide) hw
    exact ⟨by simp [decodeNat, decodeClass8, h], h.2.2.1⟩)

theorem kaddi (d : BitVec 6) (a : BitVec 6) (ix : BitVec 12) : Statement (.kaddi d a ix) := fun _ =>
  decode_encode_of (n := 0x88 * 0x1000000 + d.toNat * 0x40000 + a.toNat * 0x1000 + ix.toNat) rfl (fun w hw => by
    have h := shape28 d a ix (by decide) hw
    exact ⟨by simp [decodeNat, decodeClass8, h], h.2.2.1⟩)

theorem kmovi (d : BitVec 6) (ix : BitVec 18) : Statement (.kmovi d ix) := fun _ =>
  decode_encode_of (n := 0x89 * 0x1000000 + d.toNat * 0x40000 + ix.toNat) rfl (fun w hw => by
    have h := shape26 d ix (by decide) hw
    exact ⟨by simp [decodeNat, decodeClass8, h], h.2.2.1⟩)

theorem kcat (d : BitVec 6) (ix : BitVec 18) : Statement (.kcat d ix) := fun _ =>
  decode_encode_of (n := 0x8a * 0x1000000 + d.toNat * 0x40000 + ix.toNat) rfl (fun w hw => by
    have h := shape26 d ix (by decide) hw
    exact ⟨by simp [decodeNat, decodeClass8, h], h.2.2.1⟩)

theorem kcmp (d : BitVec 6) (a : BitVec 6) (b : BitVec 6) (c : BitVec 5) : Statement (.kcmp d a b c) := fun _ =>
  decode_encode_of (n := 0x8b * 0x1000000 + d.toNat * 0x40000 + a.toNat * 0x1000 + b.toNat * 0x40 + c.toNat) rfl (fun w hw => by
    have h := shape43 d a b c (by decide) hw
    exact ⟨by simp [decodeNat, decodeClass8, h], h.2.2.1⟩)

theorem ksel (d : BitVec 6) (a : BitVec 6) (b : BitVec 6) (f : BitVec 5) : Statement (.ksel d a b f) := fun _ =>
  decode_encode_of (n := 0x8c * 0x1000000 + d.toNat * 0x40000 + a.toNat * 0x1000 + b.toNat * 0x40 + f.toNat) rfl (fun w hw => by
    have h := shape43 d a b f (by decide) hw
    exact ⟨by simp [decodeNat, decodeClass8, h], h.2.2.1⟩)

theorem kmin (d : BitVec 6) (a : BitVec 6) (b : BitVec 6) : Statement (.kmin d a b) := fun _ =>
  decode_encode_of (n := 0x8d * 0x1000000 + d.toNat * 0x40000 + a.toNat * 0x1000 + b.toNat * 0x40) rfl (fun w hw => by
    have h := shape42 d a b (by decide) hw
    exact ⟨by simp [decodeNat, decodeClass8, h], h.2.2.1⟩)

theorem kminU (d : BitVec 6) (a : BitVec 6) (b : BitVec 6) : Statement (.kminU d a b) := fun _ =>
  decode_encode_of (n := 0x8d * 0x1000000 + 0x1 + d.toNat * 0x40000 + a.toNat * 0x1000 + b.toNat * 0x40) rfl (fun w hw => by
    have h := shape44 d a b (by decide) hw
    exact ⟨by simp [decodeNat, decodeClass8, h], h.2.2.1⟩)

theorem kmax (d : BitVec 6) (a : BitVec 6) (b : BitVec 6) : Statement (.kmax d a b) := fun _ =>
  decode_encode_of (n := 0x8e * 0x1000000 + d.toNat * 0x40000 + a.toNat * 0x1000 + b.toNat * 0x40) rfl (fun w hw => by
    have h := shape42 d a b (by decide) hw
    exact ⟨by simp [decodeNat, decodeClass8, h], h.2.2.1⟩)

theorem kmaxU (d : BitVec 6) (a : BitVec 6) (b : BitVec 6) : Statement (.kmaxU d a b) := fun _ =>
  decode_encode_of (n := 0x8e * 0x1000000 + 0x1 + d.toNat * 0x40000 + a.toNat * 0x1000 + b.toNat * 0x40) rfl (fun w hw => by
    have h := shape44 d a b (by decide) hw
    exact ⟨by simp [decodeNat, decodeClass8, h], h.2.2.1⟩)

theorem ldb (d : BitVec 6) (ix : BitVec 6) (k : BitVec 5) (l : BitVec 4) (sn : BitVec 2) (e : BitVec 1) : Statement (.ldb d ix k l sn e) := fun _ =>
  decode_encode_of (n := 0x90 * 0x1000000 + d.toNat * 0x40000 + ix.toNat * 0x1000 + k.toNat * 0x80 + l.toNat * 0x8 + sn.toNat * 0x2 + e.toNat) rfl (fun w hw => by
    have h := shape45 d ix k l sn e (by decide) hw
    exact ⟨by simp [decodeNat, decodeClass9, h], h.2.2.1⟩)

theorem ldbs (d : BitVec 6) (ix : BitVec 6) (k : BitVec 5) (l : BitVec 4) (sn : BitVec 2) (e : BitVec 1) : Statement (.ldbs d ix k l sn e) := fun _ =>
  decode_encode_of (n := 0x91 * 0x1000000 + d.toNat * 0x40000 + ix.toNat * 0x1000 + k.toNat * 0x80 + l.toNat * 0x8 + sn.toNat * 0x2 + e.toNat) rfl (fun w hw => by
    have h := shape45 d ix k l sn e (by decide) hw
    exact ⟨by simp [decodeNat, decodeClass9, h], h.2.2.1⟩)

theorem ldh (d : BitVec 6) (ix : BitVec 6) (k : BitVec 5) (l : BitVec 4) (sn : BitVec 2) (e : BitVec 1) : Statement (.ldh d ix k l sn e) := fun _ =>
  decode_encode_of (n := 0x92 * 0x1000000 + d.toNat * 0x40000 + ix.toNat * 0x1000 + k.toNat * 0x80 + l.toNat * 0x8 + sn.toNat * 0x2 + e.toNat) rfl (fun w hw => by
    have h := shape45 d ix k l sn e (by decide) hw
    exact ⟨by simp [decodeNat, decodeClass9, h], h.2.2.1⟩)

theorem ldhs (d : BitVec 6) (ix : BitVec 6) (k : BitVec 5) (l : BitVec 4) (sn : BitVec 2) (e : BitVec 1) : Statement (.ldhs d ix k l sn e) := fun _ =>
  decode_encode_of (n := 0x93 * 0x1000000 + d.toNat * 0x40000 + ix.toNat * 0x1000 + k.toNat * 0x80 + l.toNat * 0x8 + sn.toNat * 0x2 + e.toNat) rfl (fun w hw => by
    have h := shape45 d ix k l sn e (by decide) hw
    exact ⟨by simp [decodeNat, decodeClass9, h], h.2.2.1⟩)

theorem ldw (d : BitVec 6) (ix : BitVec 6) (k : BitVec 5) (l : BitVec 4) (sn : BitVec 2) (e : BitVec 1) : Statement (.ldw d ix k l sn e) := fun _ =>
  decode_encode_of (n := 0x94 * 0x1000000 + d.toNat * 0x40000 + ix.toNat * 0x1000 + k.toNat * 0x80 + l.toNat * 0x8 + sn.toNat * 0x2 + e.toNat) rfl (fun w hw => by
    have h := shape45 d ix k l sn e (by decide) hw
    exact ⟨by simp [decodeNat, decodeClass9, h], h.2.2.1⟩)

theorem ldd (d : BitVec 6) (ix : BitVec 6) (k : BitVec 5) (l : BitVec 4) (sn : BitVec 2) (e : BitVec 1) : Statement (.ldd d ix k l sn e) := fun _ =>
  decode_encode_of (n := 0x95 * 0x1000000 + d.toNat * 0x40000 + ix.toNat * 0x1000 + k.toNat * 0x80 + l.toNat * 0x8 + sn.toNat * 0x2 + e.toNat) rfl (fun w hw => by
    have h := shape45 d ix k l sn e (by decide) hw
    exact ⟨by simp [decodeNat, decodeClass9, h], h.2.2.1⟩)

theorem ldq (d : BitVec 6) (ix : BitVec 6) (k : BitVec 5) (l : BitVec 4) (sn : BitVec 2) (e : BitVec 1) : Statement (.ldq d ix k l sn e) := fun _ =>
  decode_encode_of (n := 0x96 * 0x1000000 + d.toNat * 0x40000 + ix.toNat * 0x1000 + k.toNat * 0x80 + l.toNat * 0x8 + sn.toNat * 0x2 + e.toNat) rfl (fun w hw => by
    have h := shape45 d ix k l sn e (by decide) hw
    exact ⟨by simp [decodeNat, decodeClass9, h], h.2.2.1⟩)

theorem lda (d : BitVec 6) (ix : BitVec 6) (k : BitVec 5) (l : BitVec 4) (sn : BitVec 2) (e : BitVec 1) : Statement (.lda d ix k l sn e) := fun _ =>
  decode_encode_of (n := 0x97 * 0x1000000 + d.toNat * 0x40000 + ix.toNat * 0x1000 + k.toNat * 0x80 + l.toNat * 0x8 + sn.toNat * 0x2 + e.toNat) rfl (fun w hw => by
    have h := shape45 d ix k l sn e (by decide) hw
    exact ⟨by simp [decodeNat, decodeClass9, h], h.2.2.1⟩)

theorem stb (d : BitVec 6) (ix : BitVec 6) (k : BitVec 5) (l : BitVec 4) (sn : BitVec 2) (e : BitVec 1) : Statement (.stb d ix k l sn e) := fun _ =>
  decode_encode_of (n := 0x98 * 0x1000000 + d.toNat * 0x40000 + ix.toNat * 0x1000 + k.toNat * 0x80 + l.toNat * 0x8 + sn.toNat * 0x2 + e.toNat) rfl (fun w hw => by
    have h := shape45 d ix k l sn e (by decide) hw
    exact ⟨by simp [decodeNat, decodeClass9, h], h.2.2.1⟩)

theorem sth (d : BitVec 6) (ix : BitVec 6) (k : BitVec 5) (l : BitVec 4) (sn : BitVec 2) (e : BitVec 1) : Statement (.sth d ix k l sn e) := fun _ =>
  decode_encode_of (n := 0x99 * 0x1000000 + d.toNat * 0x40000 + ix.toNat * 0x1000 + k.toNat * 0x80 + l.toNat * 0x8 + sn.toNat * 0x2 + e.toNat) rfl (fun w hw => by
    have h := shape45 d ix k l sn e (by decide) hw
    exact ⟨by simp [decodeNat, decodeClass9, h], h.2.2.1⟩)

theorem stw (d : BitVec 6) (ix : BitVec 6) (k : BitVec 5) (l : BitVec 4) (sn : BitVec 2) (e : BitVec 1) : Statement (.stw d ix k l sn e) := fun _ =>
  decode_encode_of (n := 0x9a * 0x1000000 + d.toNat * 0x40000 + ix.toNat * 0x1000 + k.toNat * 0x80 + l.toNat * 0x8 + sn.toNat * 0x2 + e.toNat) rfl (fun w hw => by
    have h := shape45 d ix k l sn e (by decide) hw
    exact ⟨by simp [decodeNat, decodeClass9, h], h.2.2.1⟩)

theorem std (d : BitVec 6) (ix : BitVec 6) (k : BitVec 5) (l : BitVec 4) (sn : BitVec 2) (e : BitVec 1) : Statement (.std d ix k l sn e) := fun _ =>
  decode_encode_of (n := 0x9b * 0x1000000 + d.toNat * 0x40000 + ix.toNat * 0x1000 + k.toNat * 0x80 + l.toNat * 0x8 + sn.toNat * 0x2 + e.toNat) rfl (fun w hw => by
    have h := shape45 d ix k l sn e (by decide) hw
    exact ⟨by simp [decodeNat, decodeClass9, h], h.2.2.1⟩)

theorem stq (d : BitVec 6) (ix : BitVec 6) (k : BitVec 5) (l : BitVec 4) (sn : BitVec 2) (e : BitVec 1) : Statement (.stq d ix k l sn e) := fun _ =>
  decode_encode_of (n := 0x9c * 0x1000000 + d.toNat * 0x40000 + ix.toNat * 0x1000 + k.toNat * 0x80 + l.toNat * 0x8 + sn.toNat * 0x2 + e.toNat) rfl (fun w hw => by
    have h := shape45 d ix k l sn e (by decide) hw
    exact ⟨by simp [decodeNat, decodeClass9, h], h.2.2.1⟩)

theorem stl (d : BitVec 6) (ix : BitVec 6) (k : BitVec 5) (l : BitVec 4) (sn : BitVec 2) (e : BitVec 1) : Statement (.stl d ix k l sn e) := fun _ =>
  decode_encode_of (n := 0x9d * 0x1000000 + d.toNat * 0x40000 + ix.toNat * 0x1000 + k.toNat * 0x80 + l.toNat * 0x8 + sn.toNat * 0x2 + e.toNat) rfl (fun w hw => by
    have h := shape45 d ix k l sn e (by decide) hw
    exact ⟨by simp [decodeNat, decodeClass9, h], h.2.2.1⟩)

theorem kld (d : BitVec 6) (k : BitVec 5) (l : BitVec 4) : Statement (.kld d k l) := fun _ =>
  decode_encode_of (n := 0x9e * 0x1000000 + 0x3f000 + d.toNat * 0x40000 + k.toNat * 0x80 + l.toNat * 0x8) rfl (fun w hw => by
    have h := shape46 d k l (by decide) hw
    exact ⟨by simp [decodeNat, decodeClass9, h], h.2.2.1⟩)

theorem kst (d : BitVec 6) (k : BitVec 5) (l : BitVec 4) : Statement (.kst d k l) := fun _ =>
  decode_encode_of (n := 0x9f * 0x1000000 + 0x3f000 + d.toNat * 0x40000 + k.toNat * 0x80 + l.toNat * 0x8) rfl (fun w hw => by
    have h := shape46 d k l (by decide) hw
    exact ⟨by simp [decodeNat, decodeClass9, h], h.2.2.1⟩)

theorem atadd (d : BitVec 6) (ix : BitVec 6) (k : BitVec 5) (l : BitVec 4) (sn : BitVec 2) (e : BitVec 1) : Statement (.atadd d ix k l sn e) := fun _ =>
  decode_encode_of (n := 0xa0 * 0x1000000 + d.toNat * 0x40000 + ix.toNat * 0x1000 + k.toNat * 0x80 + l.toNat * 0x8 + sn.toNat * 0x2 + e.toNat) rfl (fun w hw => by
    have h := shape45 d ix k l sn e (by decide) hw
    exact ⟨by simp [decodeNat, decodeClassA, h], h.2.2.1⟩)

theorem atmin (d : BitVec 6) (ix : BitVec 6) (k : BitVec 5) (l : BitVec 4) (sn : BitVec 2) (e : BitVec 1) : Statement (.atmin d ix k l sn e) := fun _ =>
  decode_encode_of (n := 0xa1 * 0x1000000 + d.toNat * 0x40000 + ix.toNat * 0x1000 + k.toNat * 0x80 + l.toNat * 0x8 + sn.toNat * 0x2 + e.toNat) rfl (fun w hw => by
    have h := shape45 d ix k l sn e (by decide) hw
    exact ⟨by simp [decodeNat, decodeClassA, h], h.2.2.1⟩)

theorem atmax (d : BitVec 6) (ix : BitVec 6) (k : BitVec 5) (l : BitVec 4) (sn : BitVec 2) (e : BitVec 1) : Statement (.atmax d ix k l sn e) := fun _ =>
  decode_encode_of (n := 0xa2 * 0x1000000 + d.toNat * 0x40000 + ix.toNat * 0x1000 + k.toNat * 0x80 + l.toNat * 0x8 + sn.toNat * 0x2 + e.toNat) rfl (fun w hw => by
    have h := shape45 d ix k l sn e (by decide) hw
    exact ⟨by simp [decodeNat, decodeClassA, h], h.2.2.1⟩)

theorem atand (d : BitVec 6) (ix : BitVec 6) (k : BitVec 5) (l : BitVec 4) (sn : BitVec 2) (e : BitVec 1) : Statement (.atand d ix k l sn e) := fun _ =>
  decode_encode_of (n := 0xa3 * 0x1000000 + d.toNat * 0x40000 + ix.toNat * 0x1000 + k.toNat * 0x80 + l.toNat * 0x8 + sn.toNat * 0x2 + e.toNat) rfl (fun w hw => by
    have h := shape45 d ix k l sn e (by decide) hw
    exact ⟨by simp [decodeNat, decodeClassA, h], h.2.2.1⟩)

theorem ator (d : BitVec 6) (ix : BitVec 6) (k : BitVec 5) (l : BitVec 4) (sn : BitVec 2) (e : BitVec 1) : Statement (.ator d ix k l sn e) := fun _ =>
  decode_encode_of (n := 0xa4 * 0x1000000 + d.toNat * 0x40000 + ix.toNat * 0x1000 + k.toNat * 0x80 + l.toNat * 0x8 + sn.toNat * 0x2 + e.toNat) rfl (fun w hw => by
    have h := shape45 d ix k l sn e (by decide) hw
    exact ⟨by simp [decodeNat, decodeClassA, h], h.2.2.1⟩)

theorem atxor (d : BitVec 6) (ix : BitVec 6) (k : BitVec 5) (l : BitVec 4) (sn : BitVec 2) (e : BitVec 1) : Statement (.atxor d ix k l sn e) := fun _ =>
  decode_encode_of (n := 0xa5 * 0x1000000 + d.toNat * 0x40000 + ix.toNat * 0x1000 + k.toNat * 0x80 + l.toNat * 0x8 + sn.toNat * 0x2 + e.toNat) rfl (fun w hw => by
    have h := shape45 d ix k l sn e (by decide) hw
    exact ⟨by simp [decodeNat, decodeClassA, h], h.2.2.1⟩)

theorem atxch (d : BitVec 6) (ix : BitVec 6) (k : BitVec 5) (l : BitVec 4) (sn : BitVec 2) (e : BitVec 1) : Statement (.atxch d ix k l sn e) := fun _ =>
  decode_encode_of (n := 0xa6 * 0x1000000 + d.toNat * 0x40000 + ix.toNat * 0x1000 + k.toNat * 0x80 + l.toNat * 0x8 + sn.toNat * 0x2 + e.toNat) rfl (fun w hw => by
    have h := shape45 d ix k l sn e (by decide) hw
    exact ⟨by simp [decodeNat, decodeClassA, h], h.2.2.1⟩)

theorem atcas (d : BitVec 6) (ix : BitVec 6) (k : BitVec 5) (l : BitVec 4) (sn : BitVec 2) (e : BitVec 1) : Statement (.atcas d ix k l sn e) := fun _ =>
  decode_encode_of (n := 0xa7 * 0x1000000 + d.toNat * 0x40000 + ix.toNat * 0x1000 + k.toNat * 0x80 + l.toNat * 0x8 + sn.toNat * 0x2 + e.toNat) rfl (fun w hw => by
    have h := shape45 d ix k l sn e (by decide) hw
    exact ⟨by simp [decodeNat, decodeClassA, h], h.2.2.1⟩)

theorem reda (d : BitVec 6) (ix : BitVec 6) (k : BitVec 5) (l : BitVec 4) (sn : BitVec 2) (e : BitVec 1) : Statement (.reda d ix k l sn e) := fun _ =>
  decode_encode_of (n := 0xa8 * 0x1000000 + d.toNat * 0x40000 + ix.toNat * 0x1000 + k.toNat * 0x80 + l.toNat * 0x8 + sn.toNat * 0x2 + e.toNat) rfl (fun w hw => by
    have h := shape45 d ix k l sn e (by decide) hw
    exact ⟨by simp [decodeNat, decodeClassA, h], h.2.2.1⟩)

theorem redaf (d : BitVec 6) (ix : BitVec 6) (k : BitVec 5) (l : BitVec 4) (sn : BitVec 2) (e : BitVec 1) : Statement (.redaf d ix k l sn e) := fun _ =>
  decode_encode_of (n := 0xa9 * 0x1000000 + d.toNat * 0x40000 + ix.toNat * 0x1000 + k.toNat * 0x80 + l.toNat * 0x8 + sn.toNat * 0x2 + e.toNat) rfl (fun w hw => by
    have h := shape45 d ix k l sn e (by decide) hw
    exact ⟨by simp [decodeNat, decodeClassA, h], h.2.2.1⟩)

theorem mld (d : BitVec 6) (k : BitVec 5) (l : BitVec 4) : Statement (.mld d k l) := fun _ =>
  decode_encode_of (n := 0xaa * 0x1000000 + 0x3f000 + d.toNat * 0x40000 + k.toNat * 0x80 + l.toNat * 0x8) rfl (fun w hw => by
    have h := shape46 d k l (by decide) hw
    exact ⟨by simp [decodeNat, decodeClassA, h], h.2.2.1⟩)

theorem mst (d : BitVec 6) (k : BitVec 5) (l : BitVec 4) (p : BitVec 3) : Statement (.mst d k l p) := fun _ =>
  decode_encode_of (n := 0xab * 0x1000000 + 0x3f000 + d.toNat * 0x40000 + k.toNat * 0x80 + l.toNat * 0x8 + p.toNat) rfl (fun w hw => by
    have h := shape47 d k l p (by decide) hw
    exact ⟨by simp [decodeNat, decodeClassA, h], h.2.2.1⟩)

theorem mcas (d : BitVec 6) (e : BitVec 6) (k : BitVec 5) (l : BitVec 4) (p : BitVec 3) : Statement (.mcas d e k l p) := fun _ =>
  decode_encode_of (n := 0xac * 0x1000000 + d.toNat * 0x40000 + e.toNat * 0x1000 + k.toNat * 0x80 + l.toNat * 0x8 + p.toNat) rfl (fun w hw => by
    have h := shape48 d e k l p (by decide) hw
    exact ⟨by simp [decodeNat, decodeClassA, h], h.2.2.1⟩)

theorem fence (p : BitVec 6) (sn : BitVec 6) (c : BitVec 6) : Statement (.fence p sn c) := fun _ =>
  decode_encode_of (n := 0xad * 0x1000000 + p.toNat * 0x40000 + sn.toNat * 0x1000 + c.toNat * 0x40) rfl (fun w hw => by
    have h := shape42 p sn c (by decide) hw
    exact ⟨by simp [decodeNat, decodeClassA, h], h.2.2.1⟩)

theorem cinvL1 (a : BitVec 6) (b : BitVec 6) : Statement (.cinvL1 a b) := fun _ =>
  decode_encode_of (n := 0xae * 0x1000000 + a.toNat * 0x1000 + b.toNat * 0x40) rfl (fun w hw => by
    have h := shape10 a b (by decide) hw
    exact ⟨by simp [decodeNat, decodeClassA, h], h.2.2.1⟩)

theorem cinvDie (a : BitVec 6) (b : BitVec 6) : Statement (.cinvDie a b) := fun _ =>
  decode_encode_of (n := 0xae * 0x1000000 + 0x1 + a.toNat * 0x1000 + b.toNat * 0x40) rfl (fun w hw => by
    have h := shape49 a b (by decide) hw
    exact ⟨by simp [decodeNat, decodeClassA, h], h.2.2.1⟩)

theorem finv (a : BitVec 6) : Statement (.finv a) := fun _ =>
  decode_encode_of (n := 0xaf * 0x1000000 + a.toNat * 0x1000) rfl (fun w hw => by
    have h := shape1 a (by decide) hw
    exact ⟨by simp [decodeNat, decodeClassA, h], h.2.2.1⟩)

theorem rngdef (r : BitVec 6) (b : BitVec 6) : Statement (.rngdef r b) := fun _ =>
  decode_encode_of (n := 0xb0 * 0x1000000 + r.toNat * 0x1000 + b.toNat * 0x40) rfl (fun w hw => by
    have h := shape10 r b (by decide) hw
    exact ⟨by simp [decodeNat, decodeClassB, h], h.2.2.1⟩)

theorem cpy (r : BitVec 6) (b : BitVec 6) (q : BitVec 2) : Statement (.cpy r b q) := fun _ =>
  decode_encode_of (n := 0xb1 * 0x1000000 + r.toNat * 0x1000 + b.toNat * 0x40 + q.toNat) rfl (fun w hw => by
    have h := shape50 r b q (by decide) hw
    exact ⟨by simp [decodeNat, decodeClassB, h], h.2.2.1⟩)

theorem cpym (m : BitVec 6) (r : BitVec 6) (b : BitVec 6) (q : BitVec 2) : Statement (.cpym m r b q) := fun _ =>
  decode_encode_of (n := 0xb2 * 0x1000000 + m.toNat * 0x40000 + r.toNat * 0x1000 + b.toNat * 0x40 + q.toNat) rfl (fun w hw => by
    have h := shape51 m r b q (by decide) hw
    exact ⟨by simp [decodeNat, decodeClassB, h], h.2.2.1⟩)

theorem awaitf (r : BitVec 6) : Statement (.awaitf r) := fun _ =>
  decode_encode_of (n := 0xb3 * 0x1000000 + r.toNat * 0x1000) rfl (fun w hw => by
    have h := shape1 r (by decide) hw
    exact ⟨by simp [decodeNat, decodeClassB, h], h.2.2.1⟩)

theorem awaitfC (r : BitVec 6) (b : BitVec 6) : Statement (.awaitfC r b) := fun _ =>
  decode_encode_of (n := 0xb3 * 0x1000000 + 0x1 + r.toNat * 0x1000 + b.toNat * 0x40) rfl (fun w hw => by
    have h := shape52 r b (by decide) hw
    exact ⟨by simp [decodeNat, decodeClassB, h], h.2.2.1⟩)

theorem rels (r : BitVec 6) : Statement (.rels r) := fun _ =>
  decode_encode_of (n := 0xb4 * 0x1000000 + r.toNat * 0x1000) rfl (fun w hw => by
    have h := shape1 r (by decide) hw
    exact ⟨by simp [decodeNat, decodeClassB, h], h.2.2.1⟩)

theorem rngst (d : BitVec 6) (r : BitVec 6) : Statement (.rngst d r) := fun _ =>
  decode_encode_of (n := 0xb5 * 0x1000000 + d.toNat * 0x40000 + r.toNat * 0x1000) rfl (fun w hw => by
    have h := shape8 d r (by decide) hw
    exact ⟨by simp [decodeNat, decodeClassB, h], h.2.2.1⟩)

theorem fetch (d : BitVec 6) (a : BitVec 6) (b : BitVec 6) (l : BitVec 4) : Statement (.fetch d a b l) := fun _ =>
  decode_encode_of (n := 0xb6 * 0x1000000 + d.toNat * 0x40000 + a.toNat * 0x1000 + b.toNat * 0x40 + l.toNat * 0x4) rfl (fun w hw => by
    have h := shape35 d a b l (by decide) hw
    exact ⟨by simp [decodeNat, decodeClassB, h], h.2.2.1⟩)

theorem mpath (d : BitVec 6) (a : BitVec 6) (b : BitVec 6) (l : BitVec 4) : Statement (.mpath d a b l) := fun _ =>
  decode_encode_of (n := 0xb7 * 0x1000000 + d.toNat * 0x40000 + a.toNat * 0x1000 + b.toNat * 0x40 + l.toNat * 0x4) rfl (fun w hw => by
    have h := shape35 d a b l (by decide) hw
    exact ⟨by simp [decodeNat, decodeClassB, h], h.2.2.1⟩)

theorem tdef (a : BitVec 6) (b : BitVec 6) : Statement (.tdef a b) := fun _ =>
  decode_encode_of (n := 0xb8 * 0x1000000 + a.toNat * 0x1000 + b.toNat * 0x40) rfl (fun w hw => by
    have h := shape10 a b (by decide) hw
    exact ⟨by simp [decodeNat, decodeClassB, h], h.2.2.1⟩)

theorem tqput (a : BitVec 6) : Statement (.tqput a) := fun _ =>
  decode_encode_of (n := 0xb9 * 0x1000000 + a.toNat * 0x1000) rfl (fun w hw => by
    have h := shape1 a (by decide) hw
    exact ⟨by simp [decodeNat, decodeClassB, h], h.2.2.1⟩)

theorem twait (c : BitVec 6) (b : BitVec 6) : Statement (.twait c b) := fun _ =>
  decode_encode_of (n := 0xba * 0x1000000 + c.toNat * 0x1000 + b.toNat * 0x40) rfl (fun w hw => by
    have h := shape10 c b (by decide) hw
    exact ⟨by simp [decodeNat, decodeClassB, h], h.2.2.1⟩)

theorem tpoll (d : BitVec 6) (c : BitVec 6) (b : BitVec 6) : Statement (.tpoll d c b) := fun _ =>
  decode_encode_of (n := 0xbb * 0x1000000 + d.toNat * 0x40000 + c.toNat * 0x1000 + b.toNat * 0x40) rfl (fun w hw => by
    have h := shape42 d c b (by decide) hw
    exact ⟨by simp [decodeNat, decodeClassB, h], h.2.2.1⟩)

theorem tstat (d : BitVec 6) (a : BitVec 6) : Statement (.tstat d a) := fun _ =>
  decode_encode_of (n := 0xbc * 0x1000000 + d.toNat * 0x40000 + a.toNat * 0x1000) rfl (fun w hw => by
    have h := shape8 d a (by decide) hw
    exact ⟨by simp [decodeNat, decodeClassB, h], h.2.2.1⟩)

theorem nlbin (a : BitVec 6) : Statement (.nlbin a) := fun _ =>
  decode_encode_of (n := 0xc0 * 0x1000000 + a.toNat * 0x1000) rfl (fun w hw => by
    have h := shape1 a (by decide) hw
    exact ⟨by simp [decodeNat, decodeClassC, h], h.2.2.1⟩)

theorem nlpair (a : BitVec 6) (r : BitVec 6) : Statement (.nlpair a r) := fun _ =>
  decode_encode_of (n := 0xc1 * 0x1000000 + a.toNat * 0x1000 + r.toNat * 0x40) rfl (fun w hw => by
    have h := shape10 a r (by decide) hw
    exact ⟨by simp [decodeNat, decodeClassC, h], h.2.2.1⟩)

theorem nlstat (d : BitVec 6) (a : BitVec 6) : Statement (.nlstat d a) := fun _ =>
  decode_encode_of (n := 0xc2 * 0x1000000 + d.toNat * 0x40000 + a.toNat * 0x1000) rfl (fun w hw => by
    have h := shape8 d a (by decide) hw
    exact ⟨by simp [decodeNat, decodeClassC, h], h.2.2.1⟩)

theorem tap (a : BitVec 6) : Statement (.tap a) := fun _ =>
  decode_encode_of (n := 0xc3 * 0x1000000 + a.toNat * 0x1000) rfl (fun w hw => by
    have h := shape1 a (by decide) hw
    exact ⟨by simp [decodeNat, decodeClassC, h], h.2.2.1⟩)

theorem tapw (sn : BitVec 6) (b : BitVec 6) : Statement (.tapw sn b) := fun _ =>
  decode_encode_of (n := 0xc4 * 0x1000000 + sn.toNat * 0x1000 + b.toNat * 0x40) rfl (fun w hw => by
    have h := shape10 sn b (by decide) hw
    exact ⟨by simp [decodeNat, decodeClassC, h], h.2.2.1⟩)

theorem taprd (d : BitVec 6) : Statement (.taprd d) := fun _ =>
  decode_encode_of (n := 0xc5 * 0x1000000 + d.toNat * 0x40000) rfl (fun w hw => by
    have h := shape9 d (by decide) hw
    exact ⟨by simp [decodeNat, decodeClassC, h], h.2.2.1⟩)

theorem taped (a : BitVec 6) : Statement (.taped a) := fun _ =>
  decode_encode_of (n := 0xc6 * 0x1000000 + a.toNat * 0x1000) rfl (fun w hw => by
    have h := shape1 a (by decide) hw
    exact ⟨by simp [decodeNat, decodeClassC, h], h.2.2.1⟩)

theorem frule (a : BitVec 6) (b : BitVec 6) : Statement (.frule a b) := fun _ =>
  decode_encode_of (n := 0xc8 * 0x1000000 + a.toNat * 0x1000 + b.toNat * 0x40) rfl (fun w hw => by
    have h := shape10 a b (by decide) hw
    exact ⟨by simp [decodeNat, decodeClassC, h], h.2.2.1⟩)

theorem launch (d : BitVec 6) (a : BitVec 6) : Statement (.launch d a) := fun _ =>
  decode_encode_of (n := 0xd0 * 0x1000000 + d.toNat * 0x40000 + a.toNat * 0x1000) rfl (fun w hw => by
    have h := shape8 d a (by decide) hw
    exact ⟨by simp [decodeNat, decodeClassD, h], h.2.2.1⟩)

theorem trsig (a : BitVec 6) (b : BitVec 6) : Statement (.trsig a b) := fun _ =>
  decode_encode_of (n := 0xd1 * 0x1000000 + a.toNat * 0x1000 + b.toNat * 0x40) rfl (fun w hw => by
    have h := shape10 a b (by decide) hw
    exact ⟨by simp [decodeNat, decodeClassD, h], h.2.2.1⟩)

theorem trwait (a : BitVec 6) (b : BitVec 6) : Statement (.trwait a b) := fun _ =>
  decode_encode_of (n := 0xd2 * 0x1000000 + a.toNat * 0x1000 + b.toNat * 0x40) rfl (fun w hw => by
    have h := shape10 a b (by decide) hw
    exact ⟨by simp [decodeNat, decodeClassD, h], h.2.2.1⟩)

theorem shape (d : BitVec 6) (a : BitVec 6) : Statement (.shape d a) := fun _ =>
  decode_encode_of (n := 0xd3 * 0x1000000 + d.toNat * 0x40000 + a.toNat * 0x1000) rfl (fun w hw => by
    have h := shape8 d a (by decide) hw
    exact ⟨by simp [decodeNat, decodeClassD, h], h.2.2.1⟩)

theorem accup (d : BitVec 6) (a : BitVec 6) : Statement (.accup d a) := fun _ =>
  decode_encode_of (n := 0xd4 * 0x1000000 + d.toNat * 0x40000 + a.toNat * 0x1000) rfl (fun w hw => by
    have h := shape8 d a (by decide) hw
    exact ⟨by simp [decodeNat, decodeClassD, h], h.2.2.1⟩)

theorem debugFreeze (scope : FreezeScope) (target : Nat) : Statement (.debugFreeze scope target) := fun h => nomatch h

theorem debugStep (warp : Nat) (slot : Nat) : Statement (.debugStep warp slot) := fun h => nomatch h

theorem preemptRequest (ctx : Nat) (time : SaveTime) : Statement (.preemptRequest ctx time) := fun h => nomatch h

theorem darkslideSwap (ctx : Nat) : Statement (.darkslideSwap ctx) := fun h => nomatch h

theorem contextRestore (ctx : Nat) : Statement (.contextRestore ctx) := fun h => nomatch h

theorem resume (crew : Nat) (budget : BitVec 64) : Statement (.resume crew budget) := fun h => nomatch h

theorem kill (crew : Nat) : Statement (.kill crew) := fun h => nomatch h

theorem trwaitRetry (warp : Nat) (slot : Nat) : Statement (.trwaitRetry warp slot) := fun h => nomatch h

theorem rowGroupWritten (cluster : Nat) (engine : Nat) : Statement (.rowGroupWritten cluster engine) := fun h => nomatch h

theorem taskFault (cluster : Nat) (engine : Nat) : Statement (.taskFault cluster engine) := fun h => nomatch h

theorem chunkFilled (cluster : Nat) (command : Nat) : Statement (.chunkFilled cluster command) := fun h => nomatch h

theorem copyFault (cluster : Nat) (command : Nat) : Statement (.copyFault cluster command) := fun h => nomatch h

theorem nlbinComplete (op : Nat) : Statement (.nlbinComplete op) := fun h => nomatch h

theorem nleSlotFilled (op : Nat) : Statement (.nleSlotFilled op) := fun h => nomatch h

theorem nleBlockTableDone (op : Nat) : Statement (.nleBlockTableDone op) := fun h => nomatch h

theorem nleFault (op : Nat) : Statement (.nleFault op) := fun h => nomatch h

theorem fduRootRead (tap : Nat) : Statement (.fduRootRead tap) := fun h => nomatch h

theorem fduIntakeEnd (tap : Nat) : Statement (.fduIntakeEnd tap) := fun h => nomatch h

theorem fduEncoderTaskDone (tap : Nat) : Statement (.fduEncoderTaskDone tap) := fun h => nomatch h

theorem fduSelectDone (tap : Nat) : Statement (.fduSelectDone tap) := fun h => nomatch h

theorem fduRuleUnit (tap : Nat) : Statement (.fduRuleUnit tap) := fun h => nomatch h

theorem fduWriteback (tap : Nat) : Statement (.fduWriteback tap) := fun h => nomatch h

theorem fduFault (tap : Nat) : Statement (.fduFault tap) := fun h => nomatch h

theorem launchAdmit (ctx : Nat) : Statement (.launchAdmit ctx) := fun h => nomatch h

theorem serviceLaunch (ctx : Nat) (record : BitVec 64) : Statement (.serviceLaunch ctx record) := fun h => nomatch h

theorem bindRecord (record : BitVec 256) : Statement (.bindRecord record) := fun h => nomatch h

theorem serviceMld (core : Nat) (cell : Nat) : Statement (.serviceMld core cell) := fun h => nomatch h

theorem serviceMst (core : Nat) (cell : Nat) (payload : BitVec 256) : Statement (.serviceMst core cell payload) := fun h => nomatch h

theorem serviceMcas (core : Nat) (cell : Nat) (expect : BitVec 64) (payload : BitVec 256) : Statement (.serviceMcas core cell expect payload) := fun h => nomatch h

theorem serviceTrsigUpdate (core : Nat) (cell : Nat) (value : BitVec 64) : Statement (.serviceTrsigUpdate core cell value) := fun h => nomatch h

theorem scrubVisit (set : Nat) : Statement (.scrubVisit set) := fun h => nomatch h

theorem rebuildVisit (set : Nat) : Statement (.rebuildVisit set) := fun h => nomatch h

theorem stackRetire (stack : Nat) : Statement (.stackRetire stack) := fun h => nomatch h

theorem stackReturn (move : StackMove) : Statement (.stackReturn move) := fun h => nomatch h

theorem translationInvalidate (ctx : Nat) (va : BitVec 64) (size : Nat) : Statement (.translationInvalidate ctx va size) := fun h => nomatch h

theorem scoreboardMismatch (quadrant : Nat) : Statement (.scoreboardMismatch quadrant) := fun h => nomatch h

theorem contact (buffer : Nat) (length : Nat) : Statement (.contact buffer length) := fun h => nomatch h

theorem captureEnable (ctx : Nat) (buffer : Nat) (length : Nat) : Statement (.captureEnable ctx buffer length) := fun h => nomatch h

theorem replay (recording : Recording) : Statement (.replay recording) := fun h => nomatch h

theorem attestationReport (nonce : BitVec 256) : Statement (.attestationReport nonce) := fun h => nomatch h

theorem firmwareLimitWrite (limit : Limit) : Statement (.firmwareLimitWrite limit) := fun h => nomatch h

theorem egressRequest (launch : LaunchRef) (descriptor : Nat) : Statement (.egressRequest launch descriptor) := fun h => nomatch h

theorem refusedWord (word : BitVec 32) : Statement (.refusedWord word) := fun h => nomatch h

theorem debugContinue (warp : Nat) (slot : Nat) : Statement (.debugContinue warp slot) := fun h => nomatch h

theorem debugBreakpointHit (warp : Option Nat) (place : BreakPlace) : Statement (.debugBreakpointHit warp place) := fun h => nomatch h

theorem contextCreation (partition : Nat) (ctxid : BitVec 16) (root : Nat) : Statement (.contextCreation partition ctxid root) := fun h => nomatch h

theorem contextDestruction (ctx : Nat) : Statement (.contextDestruction ctx) := fun h => nomatch h

theorem serviceKernelWatchdog (core : Nat) (kernel : KernelRun) : Statement (.serviceKernelWatchdog core kernel) := fun h => nomatch h

theorem serviceOrdinaryAccess (core : Nat) (address : Nat) (access : Access) : Statement (.serviceOrdinaryAccess core address access) := fun h => nomatch h

theorem hostDma (function address : Nat) (access : Access) : Statement (.hostDma function address access) := fun h => nomatch h

theorem skerryRemoteAccess (device : Nat) (address : Nat) (access : Access) : Statement (.skerryRemoteAccess device address access) := fun h => nomatch h

theorem recoveryImageLoad (image : Option Nat) : Statement (.recoveryImageLoad image) := fun h => nomatch h

theorem nop : Statement .nop := fun _ =>
  decode_encode_of (n := 0x1 * 0x1000000) rfl (fun w hw => by
    have h := shape53 (by decide) hw
    exact ⟨by simp [decodeNat, decodeClass0, h], h.2.2.1⟩)

theorem ret : Statement .ret := fun _ =>
  decode_encode_of (n := 0x6 * 0x1000000) rfl (fun w hw => by
    have h := shape53 (by decide) hw
    exact ⟨by simp [decodeNat, decodeClass0, h], h.2.2.1⟩)

theorem rcv : Statement .rcv := fun _ =>
  decode_encode_of (n := 0x8 * 0x1000000) rfl (fun w hw => by
    have h := shape53 (by decide) hw
    exact ⟨by simp [decodeNat, decodeClass0, h], h.2.2.1⟩)

theorem exit : Statement .exit := fun _ =>
  decode_encode_of (n := 0x9 * 0x1000000) rfl (fun w hw => by
    have h := shape53 (by decide) hw
    exact ⟨by simp [decodeNat, decodeClass0, h], h.2.2.1⟩)

theorem yield : Statement .yield := fun _ =>
  decode_encode_of (n := 0xa * 0x1000000) rfl (fun w hw => by
    have h := shape53 (by decide) hw
    exact ⟨by simp [decodeNat, decodeClass0, h], h.2.2.1⟩)

theorem yieldp : Statement .yieldp := fun _ =>
  decode_encode_of (n := 0xb * 0x1000000) rfl (fun w hw => by
    have h := shape53 (by decide) hw
    exact ⟨by simp [decodeNat, decodeClass0, h], h.2.2.1⟩)

theorem tret : Statement .tret := fun _ =>
  decode_encode_of (n := 0x11 * 0x1000000) rfl (fun w hw => by
    have h := shape53 (by decide) hw
    exact ⟨by simp [decodeNat, decodeClass1, h], h.2.2.1⟩)

theorem qend : Statement .qend := fun _ =>
  decode_encode_of (n := 0x14 * 0x1000000) rfl (fun w hw => by
    have h := shape53 (by decide) hw
    exact ⟨by simp [decodeNat, decodeClass1, h], h.2.2.1⟩)

theorem tapresCont : Statement .tapresCont := fun _ =>
  decode_encode_of (n := 0xc7 * 0x1000000) rfl (fun w hw => by
    have h := shape53 (by decide) hw
    exact ⟨by simp [decodeNat, decodeClassC, h], h.2.2.1⟩)

theorem tapresEdit : Statement .tapresEdit := fun _ =>
  decode_encode_of (n := 0xc7 * 0x1000000 + 0x1) rfl (fun w hw => by
    have h := shape54 (by decide) hw
    exact ⟨by simp [decodeNat, decodeClassC, h], h.2.2.1⟩)

theorem tapresAbort : Statement .tapresAbort := fun _ =>
  decode_encode_of (n := 0xc7 * 0x1000000 + 0x2) rfl (fun w hw => by
    have h := shape55 (by decide) hw
    exact ⟨by simp [decodeNat, decodeClassC, h], h.2.2.1⟩)

theorem longLatencyComplete : Statement .longLatencyComplete := fun h => nomatch h

theorem splitOverflowExchange : Statement .splitOverflowExchange := fun h => nomatch h

theorem dispatchWarpForm : Statement .dispatchWarpForm := fun h => nomatch h

theorem notificationDelivery : Statement .notificationDelivery := fun h => nomatch h

theorem preemptDeadline : Statement .preemptDeadline := fun h => nomatch h

theorem budgetExpiry : Statement .budgetExpiry := fun h => nomatch h

theorem sleepWake : Statement .sleepWake := fun h => nomatch h

theorem majorityTimeout : Statement .majorityTimeout := fun h => nomatch h

theorem trsigUpdateDone : Statement .trsigUpdateDone := fun h => nomatch h

theorem trsigAbandon : Statement .trsigAbandon := fun h => nomatch h

theorem tileTaskDispatch : Statement .tileTaskDispatch := fun h => nomatch h

theorem copyCommandStart : Statement .copyCommandStart := fun h => nomatch h

theorem growDecided : Statement .growDecided := fun h => nomatch h

theorem growTimeout : Statement .growTimeout := fun h => nomatch h

theorem deviceReset : Statement .deviceReset := fun h => nomatch h

theorem remoteTimeout : Statement .remoteTimeout := fun h => nomatch h

theorem powerGateJudge : Statement .powerGateJudge := fun h => nomatch h

theorem thermalHalt : Statement .thermalHalt := fun h => nomatch h

theorem instructionFetchFault : Statement .instructionFetchFault := fun h => nomatch h

end Sys2Proof.Laws.Encoding
end

