-- ==== Sys2Proof/Safety.lean ====
section
/-! DEFINITION. The terms claims are stated in: when an instruction issues normally, what its issue does before its own
effect, and what it leaves alone (R88, R90, R131, R156). -/

namespace Sys2Proof.Machine

/-- An instruction issues normally: its split is ready, it passes the checks of R88, none of its lanes consumes poison
(R262), and no debugger steps the warp or has frozen it (R260, R261). -/
structure Issues (i : Instr) (s : State) : Prop where
  ready : s.sp.state = .ready
  fresh : s.sp.wait = none
  checks : r88 s.w.mode s.sp.level i = none
  clean : poisonedLanes s i = 0
  whole : s.sp.stepping = 0 ∧ s.sp.freeze = none ∧ (s.w.splits ++ s.w.overflow).filter Split.stopDue = []

/-- What an issue does before the instruction's own effect: SIG is hashed, the lookahead counted, and the split's
starvation and idleness counted from here (R131, R156, R338). -/
def issued (i : Instr) (s : State) : State := noteIssue (hashSig s i) i

/-- The end of an instruction that goes on to the next word. -/
def retired (s : State) : State := advance (dropArgs s)

/-- The end of an instruction that has set the PC itself; splits that have made their step stop (R261). -/
def jumped (s : State) : State := stopSteps (dropArgs s)

/-- A trap raised by an instruction at its issue: SIG is as before the instruction (R134), but 0 after SIGCHK (R157), and
the trap is taken. -/
def trapped (s : State) (c : Byte) (v pc : DWord) : State :=
  stopSteps (takeTrap { dropArgs s with
    sp := { (dropArgs s).sp with sig := if c = cSigmis then 0 else s.sp.sigWas } } c v pc)

/-- A split left waiting in an instruction (R12). -/
def waits (i : Instr) (s : State) : State :=
  { s with sp := { s.sp with state := if s.sp.state = .ready then .waiting else s.sp.state
                             wait := some i, since := s.cycle.toNat } }

/-- The end of an instruction whose wait is over: the split is ready, youngest in its quadrant (R12, R338). -/
def goesOn (s : State) : State := stopSteps (advance (wake s))

/-- The trap of an instruction whose wait is over. -/
def goesOnTrapped (s : State) (c : Byte) (v pc : DWord) : State :=
  stopSteps (takeTrap { wake s with
    sp := { (wake s).sp with sig := if c = cSigmis then 0 else s.sp.sigWas } } c v pc)

/-- Lane l takes part: it is in ACTIVE and passes the guard (R90). -/
def takesPart (s : State) (l : Nat) : Prop := l < 32 ∧ (partMask s).getLsbD l = true

/-- Nothing changed but lane registers of participating lanes, by number, and FFLAGS, which only gains bits. -/
structure WritesLanes (i : Instr) (ds : List Nat) (s t : State) : Prop where
  /-- Everything but the lane registers, their marks and FFLAGS is as the issue leaves it. -/
  frame : t = { retired (issued i s) with w := { s.w with
    phys := t.w.phys, marks := t.w.marks, wild := t.w.wild, fflags := t.w.fflags } }
  /-- Every physical register that is no destination of a participating lane is unchanged. -/
  others : ∀ key, (∀ l, takesPart s l → ∀ r ∈ ds, key ≠ physKey s.w l (s.sp.wbase + r)) →
    physGet t.w key = physGet s.w key ∧ sget 0 t.w.marks key = sget 0 s.w.marks key
  /-- FFLAGS loses no bit. -/
  flags : t.w.fflags &&& s.w.fflags = s.w.fflags

/-- The registers a typed destination names: one, or a pair (R24). -/
def destRegs (ty : Nat) (d : BitVec 6) : List Nat := if type64 ty then [d.toNat, d.toNat + 1] else [d.toNat]

/-- Nothing changed but one predicate, and it only in participating lanes. -/
structure WritesPred (i : Instr) (p : Nat) (s t : State) : Prop where
  frame : t = { retired (issued i s) with w := { s.w with preds := t.w.preds, fflags := t.w.fflags } }
  others : ∀ q, q ≠ p → predMask t.w q = predMask s.w q
  lanes : ∀ l, ¬ takesPart s l → (predMask t.w p).getLsbD l = (predMask s.w p).getLsbD l
  flags : t.w.fflags &&& s.w.fflags = s.w.fflags

/-- A lane instruction completes, changes no flag, and its typed destination reads a value in every participating lane. -/
def LaneResult (i : Instr) (ty : Nat) (d : BitVec 6) (s : State) (v : Nat → Nat) : Prop :=
  Issues i s → ∃ t, exec i s = .next t ∧ WritesLanes i (destRegs ty d) s t ∧ t.w.fflags = s.w.fflags ∧
    ∀ l, takesPart s l → xread t ty l d.toNat = v l

/-- A lane instruction completes, changes no flag, and every sub-element of its destination is a given one, lane by lane
(R90, R92). -/
def ElemResult (i : Instr) (d : BitVec 6) (s : State) (v : Nat → Nat → Nat) : Prop :=
  Issues i s → ∃ t, exec i s = .next t ∧ WritesLanes i (destRegs (modeType s.w.mode) d) s t ∧
    t.w.fflags = s.w.fflags ∧ ∀ l, takesPart s l → ∀ k < typeCount (modeType s.w.mode),
      subElem (xread t (modeType s.w.mode) l d.toNat) (typeWidth (modeType s.w.mode)) k = v l k

/-- A floating-point lane instruction completes: every sub-element of its destination is a given code, and the flags of
all participating lanes and sub-elements are ORed into FFLAGS (R90, R94). -/
def FloatResult (i : Instr) (d : BitVec 6) (s : State) (v : Nat → Nat → Nat × BitVec 5) : Prop :=
  Issues i s → ∃ t, exec i s = .next t ∧ WritesLanes i (destRegs (modeType s.w.mode) d) s t ∧
    t.w.fflags = s.w.fflags ||| (lanesOf (partMask s)).foldl
      (fun acc l => acc ||| flagsOf (v l) (typeCount (modeType s.w.mode))) 0 ∧
    ∀ l, takesPart s l → ∀ k < typeCount (modeType s.w.mode),
      subElem (xread t (modeType s.w.mode) l d.toNat) (typeWidth (modeType s.w.mode)) k =
        (v l k).1 % 2 ^ typeWidth (modeType s.w.mode)

/-- A predicate instruction completes, changes no flag, and the predicate holds a given bit in every participating lane; a
write to p0 is discarded (R22, R102). -/
def PredResult (i : Instr) (p : Nat) (s : State) (v : Nat → Bool) : Prop :=
  Issues i s → ∃ t, exec i s = .next t ∧ WritesPred i p s t ∧ t.w.fflags = s.w.fflags ∧
    ∀ l, takesPart s l → (predMask t.w p).getLsbD l = (if p = 0 then true else v l)

/-- An instruction of the whole warp completes with a given effect if some lane passes the guard, and with none if not
(R29). -/
def OnceResult (i : Instr) (s : State) (effect : State → State) : Prop :=
  Issues i s → exec i s = .next (retired (if anyLane s then effect (issued i s) else issued i s))

/-- An instruction that acts once ends in a given way if some lane passes the guard, and does nothing if none does
(R29). -/
def OnceEnds (i : Instr) (s : State) (ends : State → State) : Prop :=
  Issues i s → exec i s = .next (if anyLane s then ends (issued i s) else retired (issued i s))

/-- Where a split waits in an instruction, the instruction's next judgement ends in a given way. -/
def JudgedEnds (i : Instr) (s : State) (ends : State) : Prop := s.sp.wait = some i → exec i s = .next ends

/-- A memory range unchanged outside some keys. -/
def KeptOutside (s t : State) (changed : Nat → Prop) : Prop := ∀ key, ¬ changed key → byteAt t.mem key = byteAt s.mem key

/-- Some warp of a saved context. -/
def savedWarp (s : State) (w : Warp) : Prop := ∃ c ∈ s.ctx :: s.ctxs, ∃ i, c.image = some i ∧ w ∈ i.warps

/-- The window invariant of a live split under its warp's allotment (R17). -/
def Split.windowOk (allot : Nat) (p : Split) : Prop := p.alive = true →
  p.sfloor ≤ p.wbase ∧ p.wbase + 64 ≤ p.sfloor + allot ∧ p.wbase % 4 = 0 ∧ p.sfloor % 4 = 0 ∧ p.wbase + 63 ≤ 65535

/-- A warp's allotment is in range, and the window invariant holds of its splits in table and overflow block (R17). -/
def Warp.windowsOk (w : Warp) : Prop := allotOk w.allot = true ∧ ∀ p ∈ w.splits ++ w.overflow, p.windowOk w.allot

/-- The window invariant holds in the whole machine (R17). -/
def WindowsOk (s : State) : Prop :=
  (s.w.live = true → s.w.windowsOk ∧ s.sp.windowOk s.w.allot) ∧ (∀ w ∈ s.warps, w.windowsOk) ∧
    ∀ w, savedWarp s w → w.windowsOk

/-- The order of a ring's counts (R186). -/
def Ring.ordered (x : Ring) : Prop :=
  x.rel ≤ x.fil ∧ x.fil ≤ x.res ∧ x.res ≤ x.rel + x.depth ∧ ∀ w, x.cursor w ≤ x.fil

/-- Every ring of every crew, saved ones among them, keeps its order (R186). -/
def RingsOk (s : State) : Prop :=
  (∀ c ∈ s.crew :: s.crews, ∀ x ∈ c.rings, x.ordered) ∧
    ∀ c ∈ s.ctx :: s.ctxs, ∀ i, c.image = some i → ∀ k ∈ i.crews, ∀ x ∈ k.rings, x.ordered

/-- Memory, and the tile memory of saved contexts, is in canonical form. -/
def MemoryOk (s : State) : Prop :=
  Memory.wf s.mem = true ∧ ∀ c ∈ s.ctx :: s.ctxs, ∀ i, c.image = some i → Memory.wf i.mem = true

end Sys2Proof.Machine
end

