-- ==== Sys2Proof/Certificates/Slice0/Obligations.lean ====
section
/-! DEFINITION. The statements about the Skoper NS-9, from the numbered rules of the spec. -/

open Sys2Proof Sys2Proof.Machine

/-- R96, R93: ADD, SUB, MUL, MULH, MIN and MAX on every sub-element of every participating lane, and nothing else. R97,
R100: ABS, NEG and MAD. Their encodings and the types they accept. R102, R103, R85: CMP and CMPI hold where the
condition holds for every sub-element. Their encodings, the types they accept, and ILLEGAL for the codes from 8. -/
def Obligations.IntegerArithmetic : Prop :=
  (∀ (s : State) (d a b : BitVec 6) (u : BitVec 1),
    let ty := modeType s.w.mode
    let w := typeWidth ty
    let sg := typeSigned ty
    let sat := modeSat s.w.mode
    let A : Nat → Nat → Int := fun l k => signedOf sg w (subElem (xread s ty l a.toNat) w k)
    let B : Nat → Nat → Int := fun l k => signedOf sg w (subElem (bread s ty u l b.toNat) w k)
    ElemResult (.add d a b u) d s (fun l k => fit sat sg w (A l k + B l k)) ∧
    ElemResult (.sub d a b u) d s (fun l k => fit sat sg w (A l k - B l k)) ∧
    ElemResult (.mul d a b u) d s (fun l k => fit sat sg w (A l k * B l k)) ∧
    ElemResult (.mulh d a b u) d s (fun l k => wrapInt w ((A l k * B l k).fdiv (2 ^ w))) ∧
    ElemResult (.min d a b u) d s (fun l k => wrapInt w (min (A l k) (B l k))) ∧
    ElemResult (.max d a b u) d s (fun l k => wrapInt w (max (A l k) (B l k)))) ∧
  (∀ (s : State) (d a b c : BitVec 6),
    let ty := modeType s.w.mode
    let w := typeWidth ty
    let sg := typeSigned ty
    let sat := modeSat s.w.mode
    let E : BitVec 6 → Nat → Nat → Int := fun r l k => signedOf sg w (subElem (xread s ty l r.toNat) w k)
    ElemResult (.abs d a) d s (fun l k => fit sat sg w |E a l k|) ∧
    ElemResult (.neg d a) d s (fun l k => fit sat sg w (-E a l k)) ∧
    ElemResult (.mad d a b c) d s (fun l k => fit sat sg w (E a l k * E b l k + E c l k))) ∧
  (∀ (d a b c : BitVec 6) (u : BitVec 1) (t : Nat),
    encode (.add d a b u) = 0x20#8 ++ d ++ a ++ b ++ u ++ 0#5 ∧ encode (.sub d a b u) = 0x21#8 ++ d ++ a ++ b ++ u ++ 0#5 ∧
    encode (.mul d a b u) = 0x22#8 ++ d ++ a ++ b ++ u ++ 0#5 ∧ encode (.mulh d a b u) = 0x23#8 ++ d ++ a ++ b ++ u ++ 0#5 ∧
    encode (.min d a b u) = 0x24#8 ++ d ++ a ++ b ++ u ++ 0#5 ∧ encode (.max d a b u) = 0x25#8 ++ d ++ a ++ b ++ u ++ 0#5 ∧
    encode (.abs d a) = 0x26#8 ++ d ++ a ++ 0#12 ∧ encode (.neg d a) = 0x27#8 ++ d ++ a ++ 0#12 ∧
    encode (.mad d a b c) = 0x30#8 ++ d ++ a ++ b ++ c ∧
    (∀ i ∈ [Instr.add d a b u, .sub d a b u, .mul d a b u, .mulh d a b u, .min d a b u, .max d a b u, .mad d a b c],
      acceptsType t i = true ↔ t ∈ [0x0, 0x1, 0x2, 0x3, 0x4, 0x5, 0xC, 0xD]) ∧
    ∀ i ∈ [Instr.abs d a, .neg d a], acceptsType t i = true ↔ t ∈ [0x0, 0x2, 0x4, 0xC]) ∧
  (∀ (s : State) (d a b : BitVec 6) (u : BitVec 1) (c : BitVec 5) (p c3 : BitVec 3) (m : BitVec 12),
    let ty := modeType s.w.mode
    let w := typeWidth ty
    let sg := typeSigned ty
    let holds : Nat → Nat → Nat → Bool := fun c x y => match c with
      | 0 => x == y
      | 1 => x != y
      | 2 => decide (signedOf sg w x < signedOf sg w y)
      | 3 => decide (signedOf sg w x ≤ signedOf sg w y)
      | 4 => decide (signedOf sg w y < signedOf sg w x)
      | 5 => decide (signedOf sg w y ≤ signedOf sg w x)
      | 6 => x &&& y != 0
      | _ => x &&& y == 0
    PredResult (.cmp d a b u c) d.toNat s (fun l => (List.range (typeCount ty)).all (fun k =>
      holds c.toNat (subElem (xread s ty l a.toNat) w k) (subElem (bread s ty u l b.toNat) w k))) ∧
    PredResult (.cmpi p c3 a m) p.toNat s (fun l => (List.range (typeCount ty)).all (fun k =>
      holds c3.toNat (subElem (xread s ty l a.toNat) w k) (wrapInt w m.toInt)))) ∧
  (∀ (a b d : BitVec 6) (u : BitVec 1) (c : BitVec 5) (p c3 : BitVec 3) (m : BitVec 12) (t : Nat),
    encode (.cmp d a b u c) = 0x32#8 ++ d ++ a ++ b ++ u ++ c ∧ encode (.cmpi p c3 a m) = 0x33#8 ++ p ++ c3 ++ a ++ m ∧
    (∀ mode level, 8 ≤ c.toNat → r88 mode level (.cmp d a b u c) = some cIllegal) ∧
    (acceptsType t (.cmp d a b u c) = true ↔ t ∈ [0x0, 0x1, 0x2, 0x3, 0x4, 0x5, 0xC, 0xD]) ∧
    (acceptsType t (.cmpi p c3 a m) = true ↔ t ∈ [0x0, 0x1, 0xC, 0xD]))

/-- R99, R101: the shifts, with counts from a register or an immediate; ROL alone reduces its count. R101: ADDI, MULI,
MINI and MAXI. ADDI and MULI take the immediate as a signed integer, MINI and MAXI as a pattern of the type. The
encodings of them all and the types they accept. -/
def Obligations.ShiftsAndImmediates : Prop :=
  (∀ (s : State) (d a b n : BitVec 6) (u : BitVec 1),
    let ty := modeType s.w.mode
    let w := typeWidth ty
    let sg := typeSigned ty
    let sat := modeSat s.w.mode
    let U : Nat → Nat → Nat := fun l k => subElem (xread s ty l a.toNat) w k
    let N : Nat → Nat → Nat := fun l k => subElem (bread s ty u l b.toNat) w k
    ElemResult (.shl d a b u) d s (fun l k => fit sat sg w (signedOf sg w (U l k) * 2 ^ N l k)) ∧
    ElemResult (.shr d a b u) d s (fun l k => U l k / 2 ^ N l k) ∧
    ElemResult (.sar d a b u) d s (fun l k => wrapInt w ((signedOf true w (U l k)).fdiv (2 ^ N l k))) ∧
    ElemResult (.rol d a b u) d s (fun l k =>
      (U l k * 2 ^ (N l k % w) + U l k / 2 ^ (w - N l k % w)) % 2 ^ w) ∧
    ElemResult (.shli d a n) d s (fun l k => fit sat sg w (signedOf sg w (U l k) * 2 ^ n.toNat)) ∧
    ElemResult (.shri d a n) d s (fun l k => U l k / 2 ^ n.toNat) ∧
    ElemResult (.sari d a n) d s (fun l k => wrapInt w ((signedOf true w (U l k)).fdiv (2 ^ n.toNat)))) ∧
  (∀ (s : State) (d a : BitVec 6) (m : BitVec 12),
    let ty := modeType s.w.mode
    let w := typeWidth ty
    let sg := typeSigned ty
    let sat := modeSat s.w.mode
    let A : Nat → Nat → Int := fun l k => signedOf sg w (subElem (xread s ty l a.toNat) w k)
    let I : Int := signedOf sg w (wrapInt w m.toInt)
    ElemResult (.addi d a m) d s (fun l k => fit sat sg w (A l k + m.toInt)) ∧
    ElemResult (.muli d a m) d s (fun l k => fit sat sg w (A l k * m.toInt)) ∧
    ElemResult (.mini d a m) d s (fun l k => wrapInt w (min (A l k) I)) ∧
    ElemResult (.maxi d a m) d s (fun l k => wrapInt w (max (A l k) I))) ∧
  (∀ (d a b : BitVec 6) (u : BitVec 1) (t : Nat),
    encode (.shl d a b u) = 0x2C#8 ++ d ++ a ++ b ++ u ++ 0#5 ∧ encode (.shr d a b u) = 0x2D#8 ++ d ++ a ++ b ++ u ++ 0#5 ∧
    encode (.sar d a b u) = 0x2E#8 ++ d ++ a ++ b ++ u ++ 0#5 ∧ encode (.rol d a b u) = 0x2F#8 ++ d ++ a ++ b ++ u ++ 0#5 ∧
    ∀ i ∈ [Instr.shl d a b u, .shr d a b u, .sar d a b u, .rol d a b u],
      acceptsType t i = true ↔ t ∈ [0x0, 0x1, 0x2, 0x3, 0x4, 0x5, 0xC, 0xD]) ∧
  (∀ (d a n : BitVec 6) (m : BitVec 12) (t : Nat),
    encode (.shli d a n) = 0x44#8 ++ d ++ a ++ 0#6 ++ n ∧ encode (.shri d a n) = 0x45#8 ++ d ++ a ++ 0#6 ++ n ∧
    encode (.sari d a n) = 0x46#8 ++ d ++ a ++ 0#6 ++ n ∧ encode (.addi d a m) = 0x40#8 ++ d ++ a ++ m ∧
    encode (.muli d a m) = 0x47#8 ++ d ++ a ++ m ∧ encode (.mini d a m) = 0x48#8 ++ d ++ a ++ m ∧
    encode (.maxi d a m) = 0x49#8 ++ d ++ a ++ m ∧
    (∀ i ∈ [Instr.shli d a n, .shri d a n, .sari d a n],
      acceptsType t i = true ↔ t ∈ [0x0, 0x1, 0x2, 0x3, 0x4, 0x5, 0xC, 0xD]) ∧
    ∀ i ∈ [Instr.addi d a m, .muli d a m, .mini d a m, .maxi d a m], acceptsType t i = true ↔ t ∈ [0x0, 0x1, 0xC, 0xD])

/-- R98, R101: the bitwise instructions on the 32-bit register, or on the pair under s64 and n64. R104, R105: SEL, POPC,
CLZ and BREV. Their encodings; they accept every type. -/
def Obligations.BitwiseSelectAndCount : Prop :=
  (∀ (s : State) (d a b : BitVec 6) (u : BitVec 1) (m : BitVec 12),
    let ty := modeType s.w.mode
    let A : Nat → Nat := fun l => xread s ty l a.toNat
    let B : Nat → Nat := fun l => bread s ty u l b.toNat
    LaneResult (.and d a b u) ty d s (fun l => A l &&& B l) ∧
    LaneResult (.or d a b u) ty d s (fun l => A l ||| B l) ∧
    LaneResult (.xor d a b u) ty d s (fun l => A l ^^^ B l) ∧
    LaneResult (.andn d a b u) ty d s (fun l => A l - (A l &&& B l)) ∧
    LaneResult (.andi d a m) ty d s (fun l => A l &&& m.toNat) ∧
    LaneResult (.ori d a m) ty d s (fun l => A l ||| m.toNat) ∧
    LaneResult (.xori d a m) ty d s (fun l => A l ^^^ m.toNat)) ∧
  (∀ (s : State) (d a b : BitVec 6) (u : BitVec 1) (n : BitVec 3),
    let A : Nat → Word := fun l => xget s l a.toNat
    LaneResult (.sel d a b u n) 0 d s (fun l =>
      if (predMask s.w n.toNat).getLsbD l then (A l).toNat else (bread32 s u l b.toNat).toNat) ∧
    LaneResult (.popc d a) 0 d s (fun l => ((List.range 32).filter (fun j => (A l).getLsbD j)).length) ∧
    LaneResult (.clz d a) 0 d s (fun l => if A l = 0 then 32 else 31 - (A l).toNat.log2) ∧
    LaneResult (.brev d a) 0 d s (fun l => (A l).reverse.toNat)) ∧
  (∀ (d a b : BitVec 6) (u : BitVec 1) (n : BitVec 3) (t : Nat),
    encode (.and d a b u) = 0x28#8 ++ d ++ a ++ b ++ u ++ 0#5 ∧ encode (.or d a b u) = 0x29#8 ++ d ++ a ++ b ++ u ++ 0#5 ∧
    encode (.xor d a b u) = 0x2A#8 ++ d ++ a ++ b ++ u ++ 0#5 ∧ encode (.andn d a b u) = 0x2B#8 ++ d ++ a ++ b ++ u ++ 0#5 ∧
    encode (.sel d a b u n) = 0x31#8 ++ d ++ a ++ b ++ u ++ 0#2 ++ n ∧ encode (.popc d a) = 0x34#8 ++ d ++ a ++ 0#12 ∧
    encode (.clz d a) = 0x35#8 ++ d ++ a ++ 0#12 ∧ encode (.brev d a) = 0x36#8 ++ d ++ a ++ 0#12 ∧
    (∀ i ∈ [Instr.sel d a b u n, .popc d a, .clz d a, .brev d a], acceptsType t i = true) ∧
    ∀ i ∈ [Instr.and d a b u, .or d a b u, .xor d a b u, .andn d a b u], acceptsType t i = true)

/-- R106: BFX and BFI where the field lies in the sub-element. R106: BFX and BFI raise OPERAND where the field does not
lie in the sub-element and a lane takes part, with the word as TRAPV; that they do so only then is the model's reading
(log 14). -/
def Obligations.BitFields : Prop :=
  (∀ (s : State) (d a n p : BitVec 6),
    let ty := modeType s.w.mode
    let w := typeWidth ty
    0 < n.toNat → n.toNat + p.toNat ≤ w →
    LaneResult (.bfx d a n p) ty d s (fun l =>
      wrapInt w (signedOf (typeSigned ty) n.toNat (bitsOf (xread s ty l a.toNat) p.toNat n.toNat))) ∧
    (Issues (.bfi d a n p) s → ∃ t, exec (.bfi d a n p) s = .next t ∧ WritesLanes (.bfi d a n p) (destRegs ty d) s t ∧
      ∀ l, takesPart s l → ∀ j, j < w → (xread t ty l d.toNat).testBit j =
        (if p.toNat ≤ j ∧ j < p.toNat + n.toNat then (xread s ty l a.toNat).testBit (j - p.toNat)
         else (xread s ty l d.toNat).testBit j))) ∧
  (∀ (s : State) (d a n p : BitVec 6) (i : Instr), i = .bfx d a n p ∨ i = .bfi d a n p →
    n.toNat = 0 ∨ typeWidth (modeType s.w.mode) < n.toNat + p.toNat → anyLane s = true → Issues i s →
    exec i s = .next (trapped (issued i s) cOperand ((encode i).setWidth 64) s.sp.pc))

/-- R108, R141: moves of lanes, predicates and uniform registers. R107: each output byte of PERM is a source byte,
zeros, its sign spread, or its bits reversed, inverted where the top steering bit is set; under type 0xF it moves
nibbles. That PERM reads and writes single 32-bit registers under s64 and n64 too is the model's reading (log 85). The
encodings of the moves; they ignore TYPE and are of fixed latency. -/
def Obligations.MovesAndPermute : Prop :=
  (∀ (s : State) (d a b : BitVec 6) (m : BitVec 18) (tt : BitVec 4),
    LaneResult (.movx d a) 0 d s (fun l => (xget s l a.toNat).toNat) ∧
    LaneResult (.movxK d b) 0 d s (fun _ => (kget s b.toNat).toNat % 2 ^ 32) ∧
    LaneResult (.movi d m) 0 d s (fun _ => (m.signExtend 32).toNat) ∧
    LaneResult (.movh d m) 0 d s (fun l => m.toNat * 2 ^ 14 + (xget s l d.toNat).toNat % 2 ^ 14) ∧
    OnceResult (.pmov d a) s (fun t => kset t d.toNat ((predMask s.w a.toNat &&& partMask s).setWidth 64)) ∧
    PredResult (.pset d a) d.toNat s (fun l => (kget s a.toNat).getLsbD l) ∧
    PredResult (.plog d a b tt) d.toNat s (fun l =>
      tt.getLsbD (2 * (if (predMask s.w a.toNat).getLsbD l then 1 else 0) +
        (if (predMask s.w b.toNat).getLsbD l then 1 else 0)))) ∧
  (∀ (s : State) (d a b c : BitVec 6),
    let v : Nat → Nat := fun l => (xget s l a.toNat).toNat + (xget s l b.toNat).toNat * 2 ^ 32
    let sel : Nat → Nat → Nat := fun l k => bitsOf (xget s l c.toNat).toNat (6 * k) 6
    Issues (.perm d a b c) s → ∃ t, exec (.perm d a b c) s = .next t ∧
      WritesLanes (.perm d a b c) [d.toNat] s t ∧ t.w.fflags = s.w.fflags ∧ ∀ l, takesPart s l →
        if modeType s.w.mode = 0xF then
          ∀ k < 8, subElem (xget t l d.toNat).toNat 4 k = bitsOf (v l) (4 * bitsOf (xget s l c.toNat).toNat (4 * k) 4) 4
        else ∀ k < 4, subElem (xget t l d.toNat).toNat 8 k = permByte (v l) (sel l k)) ∧
  (∀ (d a b : BitVec 6) (m : BitVec 18) (p q r : BitVec 3) (tt : BitVec 4) (t : Nat),
    let wide : BitVec 3 → BitVec 6 := fun v => v.setWidth 6
    encode (.movx d a) = 0x3A#8 ++ d ++ a ++ 0#12 ∧ encode (.movxK d b) = 0x3A#8 ++ d ++ 0#6 ++ b ++ 0x20#6 ∧
    encode (.movi d m) = 0x3B#8 ++ d ++ m ∧ encode (.movh d m) = 0x3C#8 ++ d ++ m ∧
    encode (.pmov d (wide p)) = 0x3D#8 ++ d ++ wide p ++ 0#12 ∧ encode (.pset (wide p) a) = 0x3E#8 ++ wide p ++ a ++ 0#12 ∧
    encode (.plog (wide p) (wide q) (wide r) tt) = 0x3F#8 ++ wide p ++ wide q ++ wide r ++ 0#2 ++ tt ∧
    ∀ i ∈ [Instr.movx d a, .movxK d b, .movi d m, .movh d m, .pmov d a, .pset d a, .plog d a b tt],
      acceptsType t i = true ∧ lookahead i = none)

/-- R17: the window invariant, kept by every step: SFLOOR ≤ WBASE and WBASE + 64 − SFLOOR ≤ ALLOT for every live split
of every warp, saved ones among them, with WBASE and SFLOOR multiples of 4 and ALLOT in its range. -/
def Obligations.WindowInvariant : Prop :=
  ∀ (s t : State), WindowsOk s → step s = .next t → WindowsOk t

/-- R109, R110, R94: FADD, FSUB, FMUL and FMA decode and flush their inputs, compute exactly and round once; their flags
are ORed into FFLAGS. -/
def Obligations.FloatArithmetic : Prop :=
  ∀ (s : State) (d a b c : BitVec 6) (u : BitVec 1),
    let ty := modeType s.w.mode
    let w := typeWidth ty
    let fm := fmtOfType ty
    let fl := modeFlush s.w.mode
    let rnd := modeRnd s.w.mode
    let X : BitVec 6 → Nat → Nat → FV := fun r l k => decodeFlush fl fm (subElem (xread s ty l r.toNat) w k)
    let Y : Nat → Nat → FV := fun l k => decodeFlush fl fm (subElem (bread s ty u l b.toNat) w k)
    let round : FV × BitVec 5 → Nat × BitVec 5 := fun v =>
      ((roundTo (ovtNat s) fl fm rnd v.1).1, (roundTo (ovtNat s) fl fm rnd v.1).2 ||| v.2)
    FloatResult (.fadd d a b u) d s (fun l k => round (fvAdd rnd (X a l k) (Y l k))) ∧
    FloatResult (.fsub d a b u) d s (fun l k => round (fvAdd rnd (X a l k) (Y l k).neg)) ∧
    FloatResult (.fmul d a b u) d s (fun l k => round (fvMul (X a l k) (Y l k))) ∧
    FloatResult (.fma d a b c) d s (fun l k => round (fvFma rnd (X a l k) (X b l k) (X c l k)))

/-- R111 to R115: the extremes, the sign instructions, the compare, rounding to an integer, and the class; only FRND
sets flags. -/
def Obligations.FloatSelectAndClass : Prop :=
  ∀ (s : State) (d a b : BitVec 6) (u : BitVec 1) (c : BitVec 5),
    let ty := modeType s.w.mode
    let w := typeWidth ty
    let fm := fmtOfType ty
    let fl := modeFlush s.w.mode
    let X : Nat → Nat → Nat := fun l k => subElem (xread s ty l a.toNat) w k
    let Y : Nat → Nat → Nat := fun l k => subElem (bread s ty u l b.toNat) w k
    let kept : Nat → Bool := fun x => fm.tapered && x % 2 ^ (w - 1) == 0
    ElemResult (.fmin d a b u) d s (fun l k => fminmax false fl fm (X l k) (Y l k) % 2 ^ w) ∧
    ElemResult (.fmax d a b u) d s (fun l k => fminmax true fl fm (X l k) (Y l k) % 2 ^ w) ∧
    ElemResult (.fabs d a) d s (fun l k => if kept (X l k) then X l k else X l k % 2 ^ (w - 1)) ∧
    ElemResult (.fneg d a) d s (fun l k => if kept (X l k) then X l k else (X l k + 2 ^ (w - 1)) % 2 ^ w) ∧
    PredResult (.fcmp d a b u c) d.toNat s (fun l => (List.range (typeCount ty)).all (fun k =>
      fCond c.toNat (decodeFlush fl fm (X l k)) (decodeFlush fl fm (Y l k)))) ∧
    FloatResult (.frnd d a) d s (fun l k => frndCode fl (modeRnd s.w.mode) fm (X l k)) ∧
    LaneResult (.fcls d a) 0 d s (fun l => packElems 4 (fun k => classCode fm (X l k)) (typeCount ty))

/-- R116 to R121: conversions between the types, under MODE.RND or towards zero; a destination sub-element without a
source is 0. -/
def Obligations.Conversions : Prop :=
  ∀ (s : State) (d a b : BitVec 6) (h : BitVec 1) (f : BitVec 4),
    let ty := modeType s.w.mode
    let rnd := modeRnd s.w.mode
    let n := if ty = 0xE then 4 else typeCount f.toNat
    FloatResult (.cvt d a f) d s (fun l k =>
      if ty = 0xE && k = 4 then (0, 0) else conv s f.toNat rnd (xread s f.toNat l a.toNat) k) ∧
    FloatResult (.cvtz d a f) d s (fun l k =>
      if ty = 0xE && k = 4 then (0, 0) else conv s f.toNat 1 (xread s f.toNat l a.toNat) k) ∧
    FloatResult (.pack d a b f) d s (fun l k =>
      if k < n then conv s f.toNat rnd (xget s l a.toNat).toNat k
      else conv s f.toNat rnd (xget s l b.toNat).toNat (k - n)) ∧
    FloatResult (.unpk d a h f) d s (fun l k =>
      if f.toNat = 0xE && decide (5 ≤ h.toNat * typeCount ty + k) then (0, 0)
      else conv s f.toNat 0 (xget s l a.toNat).toNat (h.toNat * typeCount ty + k))

/-- R122, R63 to R69, R123: the special functions and PPE on every sub-element. R124: PPLD replaces the first n segments
of a PPU slot by the words it reads, and the slot's count. -/
def Obligations.SpecialFunctions : Prop :=
  (∀ (s : State) (d a : BitVec 6) (la : BitVec 4) (q : BitVec 2),
    let ty := modeType s.w.mode
    let code : (FV → FV × BitVec 5) → Bool → Nat → Nat → Nat × BitVec 5 := fun f closes l k =>
      specialCode f closes (modeFlush s.w.mode) (ovtNat s) (fmtOfType ty) (subElem (xread s ty l a.toNat) (typeWidth ty) k)
    FloatResult (.rcp d a la) d s (code rcpFn true) ∧
    FloatResult (.rsq d a la) d s (code rsqFn true) ∧
    FloatResult (.lg2 d a la) d s (code lg2Fn false) ∧
    FloatResult (.ex2 d a la) d s (code ex2Fn true) ∧
    FloatResult (.sin d a la) d s (code (sinCosFn true) false) ∧
    FloatResult (.cos d a la) d s (code (sinCosFn false) false) ∧
    FloatResult (.tanh d a la) d s (code tanhFn false) ∧
    FloatResult (.ppe d a la q) d s (code (ppeFn (s.ctx.ppu.getD q.toNat PpuSlot.blank)) true)) ∧
  (∀ (s : State) (a b : BitVec 6) (la : BitVec 4) (q : BitVec 2) (ws : List Word),
    let n := (kget s b.toNat).toNat
    let base := (kget s a.toNat).toNat
    1 ≤ n → n ≤ 64 → base % 4 = 0 → ppldWords s base (5 * n) = .ok ws → firstPoison s base (20 * n) = none →
    anyLane s = true → Issues (.ppld a b la q) s →
    exec (.ppld a b la q) s = .next (retired { issued (.ppld a b la q) s with ctx := { s.ctx with
      ppu := s.ctx.ppu.set q.toNat (loadSlot (s.ctx.ppu.getD q.toNat PpuSlot.blank) n ws) } }))

/-- R136: SHFL moves x[a] of the source lane; a source that takes no part, or a count above 31 for FROM and XOR, gives 0
and makes the lane fail the guard. R137, R140: the votes, MATCH and X2K. -/
def Obligations.ShufflesAndVotes : Prop :=
  (∀ (s : State) (d a b : BitVec 6) (la : BitVec 4),
    let g := modeGuard s.w.mode
    let moves : Instr → (Nat → Nat → Option Nat) → Prop := fun i src => Issues i s →
      ∃ t, exec i s = .next t ∧
        t = { retired (issued i s) with w := { s.w with
          phys := t.w.phys, marks := t.w.marks, wild := t.w.wild, preds := t.w.preds } } ∧
        (∀ key, (∀ l, takesPart s l → key ≠ physKey s.w l (s.sp.wbase + d.toNat)) →
          physGet t.w key = physGet s.w key) ∧
        (∀ p, p ≠ g → predMask t.w p = predMask s.w p) ∧
        (∀ l, ¬ takesPart s l → (predMask t.w g).getLsbD l = (predMask s.w g).getLsbD l) ∧
        ∀ l, takesPart s l → match src l (xget s l b.toNat).toNat with
          | some k =>
            if (partMask s).getLsbD k then
              xget t l d.toNat = xget s k a.toNat ∧ (predMask t.w g).getLsbD l = (predMask s.w g).getLsbD l
            else xget t l d.toNat = 0 ∧ (g ≠ 0 → (predMask t.w g).getLsbD l = !modeSense s.w.mode)
          | none => xget t l d.toNat = 0 ∧ (g ≠ 0 → (predMask t.w g).getLsbD l = !modeSense s.w.mode)
    moves (.shflFrom d a b la) (fun _ v => if v ≤ 31 then some v else none) ∧
    moves (.shflRot d a b la) (fun l v => some ((l + v) % 32)) ∧
    moves (.shflRotn d a b la) (fun l v => some ((l + 32 - v % 32) % 32)) ∧
    moves (.shflXor d a b la) (fun l v => if v ≤ 31 then some (l ^^^ v) else none)) ∧
  (∀ (s : State) (d a b : BitVec 6) (la : BitVec 4),
    let P := partMask s
    let V := predMask s.w a.toNat &&& P
    let same : Nat → List Nat := fun l =>
      (lanesOf P).filter (fun m => xget s m a.toNat == xget s l a.toNat)
    PredResult (.voteQuorum d a b la) d.toNat s (fun _ =>
      if kget s b.toNat = 0 then laneCount V == laneCount P else decide ((kget s b.toNat).toNat ≤ laneCount V)) ∧
    PredResult (.voteUnan d a la) d.toNat s (fun _ => V = 0 || V = P) ∧
    OnceResult (.voteMask d a la) s (fun t => kset t d.toNat (V.setWidth 64)) ∧
    OnceResult (.voteCount d a la) s (fun t => kset t d.toNat (BitVec.ofNat 64 (laneCount V))) ∧
    LaneResult (.matchLanes d a la) 0 d s (fun l => (same l).headD 0 + (same l).length * 2 ^ 5 +
      ((same l).filter (fun m => decide (m < l))).length * 2 ^ 11) ∧
    OnceResult (.x2k d a b la) s (fun t => kset t d.toNat
      (if P.getLsbD b.toNat then (xget s b.toNat a.toNat).setWidth 64 else 0)))

/-- R138: sums and extremes over the participating lanes, with the lowest lane that holds the extreme. R139: scans over
the participating lanes below, or up to, each lane. -/
def Obligations.ReductionsAndScans : Prop :=
  (∀ (s : State) (d a : BitVec 6) (la : BitVec 4),
    let f32 := modeType s.w.mode = 0x6
    let sg := typeSigned (modeType s.w.mode)
    let codes := (lanesOf (partMask s)).map (fun l => (xget s l a.toNat).toNat)
    let ints := codes.map (signedOf sg 32)
    let extreme : Bool → Nat := fun isMax =>
      if f32 then extremeF32 isMax codes else wrapInt 32 (extremeInt isMax ints)
    let pick : Bool → DWord := fun isMax =>
      if f32 then BitVec.ofNat 64 (extremeF32 isMax codes) else BitVec.ofInt 64 (extremeInt isMax ints)
    let lane : Bool → Nat := fun isMax =>
      if f32 ∧ (decodeF .f32 (extreme isMax)).isNan then lowestLane (partMask s)
      else ((lanesOf (partMask s)).find? (fun l => (xget s l a.toNat).toNat == extreme isMax)).getD
        (lowestLane (partMask s))
    OnceResult (.redxAdd d a la) s (fun t =>
      if f32 then orFlags (kset t d.toNat (BitVec.ofNat 64 (sumF32 codes).1)) (sumF32 codes).2
      else kset t d.toNat (BitVec.ofInt 64 ints.sum)) ∧
    OnceResult (.redxMin d a la) s (fun t => kset t d.toNat (pick false)) ∧
    OnceResult (.redxMax d a la) s (fun t => kset t d.toNat (pick true)) ∧
    OnceResult (.argmxMax d a la) s (fun t =>
      kset t d.toNat (BitVec.ofNat 64 (extreme true + lane true * 2 ^ 32))) ∧
    OnceResult (.argmxMin d a la) s (fun t =>
      kset t d.toNat (BitVec.ofNat 64 (extreme false + lane false * 2 ^ 32)))) ∧
  (∀ (s : State) (d a : BitVec 6) (la : BitVec 4),
    let sg := typeSigned (modeType s.w.mode)
    let upTo : Nat → List Int := fun n =>
      ((lanesOf (partMask s)).filter (fun m => decide (m < n))).map (fun m => signedOf sg 32 (xget s m a.toNat).toNat)
    LaneResult (.scanAddIncl d a la) 0 d s (fun l => fit (modeSat s.w.mode) sg 32 (upTo (l + 1)).sum) ∧
    LaneResult (.scanAddExcl d a la) 0 d s (fun l => fit (modeSat s.w.mode) sg 32 (upTo l).sum) ∧
    LaneResult (.scanMax d a la) 0 d s (fun l => wrapInt 32 (extremeInt true (upTo (l + 1)))) ∧
    LaneResult (.scanMin d a la) 0 d s (fun l => wrapInt 32 (extremeInt false (upTo (l + 1)))))

/-- R126 to R130, R95: a uniform instruction acts once, on 64 bits, if some lane passes the guard; a write to k0 is
discarded. R22: k0 reads zero and discards writes; every other uniform register keeps what was written to it. Their
encodings, and ILLEGAL for the condition codes KCMP does not accept. -/
def Obligations.UniformArithmetic : Prop :=
  (∀ (s : State) (d a b : BitVec 6) (f c : BitVec 5) (m12 : BitVec 12) (m18 : BitVec 18),
    let A := kget s a.toNat
    let B := kget s b.toNat
    let writes : Instr → DWord → Prop := fun i v => OnceResult i s (fun t => kset t d.toNat v)
    writes (.kadd d a b) (A + B) ∧ writes (.ksub d a b) (A - B) ∧ writes (.kmul d a b) (A * B) ∧
    writes (.kand d a b) (A &&& B) ∧ writes (.kor d a b) (A ||| B) ∧ writes (.kxor d a b) (A ^^^ B) ∧
    writes (.kshl d a b) (BitVec.ofNat 64 (A.toNat * 2 ^ B.toNat)) ∧
    writes (.kshr d a b) (BitVec.ofNat 64 (A.toNat / 2 ^ B.toNat)) ∧
    writes (.kaddi d a m12) (A + m12.signExtend 64) ∧ writes (.kmovi d m18) (m18.signExtend 64) ∧
    writes (.kcat d m18) (BitVec.ofNat 64 ((kget s d.toNat).toNat * 2 ^ 18 + m18.toNat)) ∧
    writes (.kcmp d a b c) (if kCond c.toNat A B then 1 else 0) ∧
    writes (.ksel d a b f) (if kget s f.toNat ≠ 0 then A else B) ∧
    writes (.kmin d a b) (if A.toInt ≤ B.toInt then A else B) ∧
    writes (.kminU d a b) (if A.toNat ≤ B.toNat then A else B) ∧
    writes (.kmax d a b) (if A.toInt ≤ B.toInt then B else A) ∧
    writes (.kmaxU d a b) (if A.toNat ≤ B.toNat then B else A)) ∧
  (∀ (s : State) (n m : Nat) (v : DWord),
    kget s 0 = 0 ∧ kset s 0 v = s ∧ (n ≠ 0 → kget (kset s n v) n = v) ∧ (m ≠ n → kget (kset s n v) m = kget s m)) ∧
  (∀ (d a b : BitVec 6) (f c : BitVec 5) (m12 : BitVec 12) (m18 : BitVec 18) (t : Nat),
    encode (.kadd d a b) = 0x80#8 ++ d ++ a ++ b ++ 0#6 ∧ encode (.ksub d a b) = 0x81#8 ++ d ++ a ++ b ++ 0#6 ∧
    encode (.kmul d a b) = 0x82#8 ++ d ++ a ++ b ++ 0#6 ∧ encode (.kand d a b) = 0x83#8 ++ d ++ a ++ b ++ 0#6 ∧
    encode (.kor d a b) = 0x84#8 ++ d ++ a ++ b ++ 0#6 ∧ encode (.kxor d a b) = 0x85#8 ++ d ++ a ++ b ++ 0#6 ∧
    encode (.kshl d a b) = 0x86#8 ++ d ++ a ++ b ++ 0#6 ∧ encode (.kshr d a b) = 0x87#8 ++ d ++ a ++ b ++ 0#6 ∧
    encode (.kaddi d a m12) = 0x88#8 ++ d ++ a ++ m12 ∧ encode (.kmovi d m18) = 0x89#8 ++ d ++ m18 ∧
    encode (.kcat d m18) = 0x8A#8 ++ d ++ m18 ∧ encode (.kcmp d a b c) = 0x8B#8 ++ d ++ a ++ b ++ 0#1 ++ c ∧
    encode (.ksel d a b f) = 0x8C#8 ++ d ++ a ++ b ++ 0#1 ++ f ∧
    encode (.kmin d a b) = 0x8D#8 ++ d ++ a ++ b ++ 0#6 ∧ encode (.kminU d a b) = 0x8D#8 ++ d ++ a ++ b ++ 1#6 ∧
    encode (.kmax d a b) = 0x8E#8 ++ d ++ a ++ b ++ 0#6 ∧ encode (.kmaxU d a b) = 0x8E#8 ++ d ++ a ++ b ++ 1#6 ∧
    (∀ i ∈ [Instr.kadd d a b, .ksub d a b, .kmul d a b, .kand d a b, .kor d a b, .kxor d a b, .kshl d a b, .kshr d a b,
        .kmin d a b, .kminU d a b, .kmax d a b, .kmaxU d a b],
      acceptsType t i = true ∧ readsRnd i = false) ∧
    ∀ mode level, c = 8 ∨ c = 9 ∨ 14 ≤ c.toNat → r88 mode level (.kcmp d a b c) = some cIllegal)

/-- R33, R35: SRD in its lane and uniform forms, for every special register; SHAPE is read by the number in k[d]. That a
read of SIG sees the hash of the SRD itself is the model's reading (log 18). R33, R35, R40, R164, R166: SWR writes one
register from its source value, the lowest participating lane's x[a] or k[a]; a value that fails its register's check
raises PRIV, OPERAND or ALIGN with the value as TRAPV, and nothing is written. That the checks are made only where a
lane passes the guard, and their TRAPV, are the model's reading (log 13). R87, R155: SETM writes MODE, SETG its guard
and sense alone; a MODE whose guard no lane could pass raises OPERAND, and MODE keeps its value. That this check too is
made only where a lane passes the guard, and that its TRAPV is the word, is the model's reading (log 13). -/
def Obligations.SpecialRegisters : Prop :=
  ( ∀ (s : State) (d i : BitVec 6),
     let value : BitVec 1 → Nat → List DWord := fun k l =>
       [s.w.mode.setWidth 64, s.w.fflags.setWidth 64, s.sp.active.setWidth 64, s.sp.entry.setWidth 64,
        (issued (.srd d k i) s).sp.sig.setWidth 64, s.w.strand.setWidth 64, BitVec.ofNat 64 s.sp.wbase,
        BitVec.ofNat 64 s.sp.sfloor, s.w.spillb, BitVec.ofNat 64 s.sp.depth, s.cycle, BitVec.ofNat 64 l,
        BitVec.ofNat 64 s.w.index, BitVec.ofNat 64 s.crew.nwarp, s.crew.number.setWidth 64, BitVec.ofNat 64 s.w.core,
        BitVec.ofNat 64 s.w.clus, BitVec.ofNat 64 (s.w.clus / 4), BitVec.ofNat 64 s.crew.cmbase,
        BitVec.ofNat 64 s.crew.cmsize, s.w.trapc.setWidth 64, s.w.trapv, s.w.trappc, s.ctx.ovt.setWidth 64,
        BitVec.ofNat 64 s.w.allot, BitVec.ofNat 64 s.w.prio, s.w.rlabel, s.crew.budget.getD 0xFFFFFFFFFFFFFFFF,
        BitVec.ofNat 64 s.sp.level, BitVec.ofNat 64 s.w.quad, BitVec.ofNat 64 s.sp.slot, s.ctx.ctxid.setWidth 64]
     (i.toNat < 32 → LaneResult (.srd d 0 i) 0 d s (fun l => ((value 0 l).getD i.toNat 0).toNat % 2 ^ 32)) ∧
     (i.toNat < 32 → OnceResult (.srd d 1 i) s (fun u => kset u d.toNat ((value 1 0).getD i.toNat 0))) ∧
     OnceResult (.srd d 1 0x20) s (fun u => kset u d.toNat (sget 0 s.ctx.shapes ((kget s d.toNat).toNat % 16)))) ∧
  (∀ (s : State) (a : BitVec 6) (k : BitVec 1),
    let v : DWord := if k = 0 then (xget s (lowestLane (partMask s)) a.toNat).setWidth 64 else kget s a.toNat
    let fails : Byte → State → State := fun c u => trapped u c v s.sp.pc
    let writes : (Warp → Warp) → State → State := fun f u => retired { u with w := f u.w }
    let table : DWord → Prop := fun v => v.toNat < 4096 ∧ ∀ i < 6, v.toNat / 2 ^ (2 * i) % 4 ≠ 3
    let loads : State → State := fun u => retired { u with ctx := { u.ctx with ovt := v.extractLsb' 0 12 } }
    let quiet : Prop := s.sp.depth = 1 ∧ s.w.tdepth = 1 ∧ s.sp.sfloor = 0 ∧
      (∀ p ∈ s.w.splits, p.alive → p.depth = 0) ∧ ∀ p ∈ s.w.overflow, ¬ p.alive
    OnceEnds (.swrMode a k) s (fun u =>
      if s.sp.level = 0 ∧ v.extractLsb' 13 5 ≠ 0 then fails cPriv u
      else if v.extractLsb' 0 4 = 0 then fails cOperand u
      else writes (fun w => { w with mode := v.extractLsb' 0 18 }) u) ∧
    OnceEnds (.swrFflags a k) s (writes (fun w => { w with fflags := v.extractLsb' 0 5 })) ∧
    OnceEnds (.swrTrapc a k) s (writes (fun w => { w with trapc := v.extractLsb' 0 8 })) ∧
    OnceEnds (.swrTrapv a k) s (writes (fun w => { w with trapv := v })) ∧
    OnceEnds (.swrTrappc a k) s (fun u =>
      if 2 ^ 56 ≤ v.toNat ∨ v.toNat % 4 ≠ 0 then fails cOperand u
      else writes (fun w => { w with trappc := v }) u) ∧
    (¬ table v → OnceEnds (.swrOvt a k) s (fails cOperand)) ∧ (table v → OnceEnds (.swrOvt a k) s loads) ∧
    (2 ^ 56 ≤ v.toNat → OnceEnds (.swrSpillb a k) s (fails cOperand)) ∧
    (v.toNat < 2 ^ 56 → v.toNat % 4096 ≠ 0 → OnceEnds (.swrSpillb a k) s (fails cAlign)) ∧
    (v.toNat < 2 ^ 56 → v.toNat % 4096 = 0 → quiet →
      OnceEnds (.swrSpillb a k) s (writes (fun w => { w with spillb := v }))) ∧
    (v.toNat < 2 ^ 56 → v.toNat % 4096 = 0 → ¬ quiet →
      OnceEnds (.swrSpillb a k) s (fun u => trapped u cOperand 1 s.sp.pc)) ∧
    OnceEnds (.swrStrand a k) s (fun u =>
      stopSteps (retired (strandLanes u (v.extractLsb' 0 32) 2 s.sp.pc (fun _ => 0)))) ∧
    (¬ table (kget s a.toNat) → OnceEnds (.ovtld a) s (fun u =>
      trapped u cOperand ((encode (.ovtld a)).setWidth 64) s.sp.pc)) ∧
    (table (kget s a.toNat) → OnceEnds (.ovtld a) s (fun u =>
      retired { u with ctx := { u.ctx with ovt := (kget s a.toNat).extractLsb' 0 12 } }))) ∧
  (∀ (s : State) (m : BitVec 18) (q : BitVec 1) (g : BitVec 3),
    let puts : BitVec 18 → State → State := fun v u => retired { u with w := { u.w with mode := v } }
    let fails : Instr → State → State := fun i u => trapped u cOperand ((encode i).setWidth 64) s.sp.pc
    OnceEnds (.setm m) s (if m.extractLsb' 0 4 = 0 then fails (.setm m) else puts m) ∧
    OnceEnds (.setg q g) s (if q = 0 ∧ g = 0 then fails (.setg q g)
      else puts (s.w.mode.extractLsb' 4 14 ++ q ++ g)))

/-- R169, R384: memory keeps its one canonical form, in which equal memories are equal data, at every step, the tile
memory of saved contexts among it. The form, and that a byte nothing has written reads 0, are the model's (log 4). -/
def Obligations.CanonicalMemory : Prop :=
  ∀ (s t : State), MemoryOk s → step s = .next t → MemoryOk t

/-- R31, R258, R259: stranding lanes that are not yet stranded takes them out of ACTIVE and ENTRYMASK of every split of
the warp and adds them to STRAND; lanes already stranded are left as they are. R31, R152, R257 to R259: a stranding is
logged for the warp: an entry of its mask, at the address of the instruction, with the oldest live split at level 0,
then a loss record for each lane with its KIND and address. A record goes to the place of the index that the root's HEAD
or LHEAD gives, which is claimed by raising it; an entry's SEQ is the index + 1. That a root whose capacity is 0 takes
no record, its HEAD or LHEAD left as it is, is the model's choice (log 22). -/
def Obligations.Stranding : Prop :=
  (∀ (s : State) (m : Mask) (kind : Nat) (pc : DWord) (addr : Nat → Nat), s.w.live = true → s.crew.flog = 0 →
    strandLanes s (m &&& s.w.strand) kind pc addr = s ∧
    let t := strandCore s m kind pc addr
    t.w.strand = s.w.strand ||| m ∧ t.sp.active = s.sp.active &&& ~~~m ∧ t.sp.entry = s.sp.entry &&& ~~~m ∧
    t.w.splits = s.w.splits.map (fun p => { p with active := p.active &&& ~~~m, entry := p.entry &&& ~~~m }) ∧
    t.w.overflow = s.w.overflow.map (fun p => { p with active := p.active &&& ~~~m, entry := p.entry &&& ~~~m }) ∧
    t.w.k = s.w.k ∧ t.w.phys = s.w.phys ∧ t.w.preds = s.w.preds ∧ t.w.exited = s.w.exited ∧ t.mem = s.mem ∧
    t.crew = s.crew ∧ t.ctx = s.ctx ∧ t.clus = s.clus ∧ t.warps = s.warps) ∧
  (∀ (s : State) (m : Mask) (kind : Nat) (pc : DWord) (addr : Nat → Nat), s.w.live = true →
    (let none_ := strandCore { s with crew := { s.crew with flog := 0 } } m kind pc addr
     let u := { none_ with crew := s.crew }
     let entry := natLE s.cycle.toNat 4 ++ [cStrand, BitVec.ofNat 8 s.w.index,
         BitVec.ofNat 8 (match oldestSplit u.wholeWarp.liveSplits with
           | some p => p.slot % 16
           | none => 0), 0] ++ natLE 1 4 ++ natLE s.crew.number.toNat 4 ++ natLE (pc.toNat % 2 ^ 56) 8 ++ natLE m.toNat 8
     strandCore s m kind pc addr = (lanesOf m).foldl (fun v l => logRecord v v.crew.flog v.w true
         ([BitVec.ofNat 8 kind, BitVec.ofNat 8 v.w.index, BitVec.ofNat 8 l, 0] ++ natLE v.crew.number.toNat 4 ++
           natLE (addr l) 8)) (logRecord u s.crew.flog u.wholeWarp false entry)) ∧
    ∀ (w : Warp) (loss : Bool) (record : List Byte) (key : Nat) (b : Bool) (root v : Payload) (t u r : State),
      let cell := cellOf key
      let lo := if loss then 32 else 0
      let h := bitsOf root.toNat lo 32
      let cap := if loss then bitsOf root.toNat 160 32 else bitsOf root.toNat 128 32
      let base := if loss then bitsOf root.toNat 192 64 else bitsOf root.toNat 64 64
      let size := if loss then 16 else 32
      checkCell s needAtomic s.crew.flog.toNat = .ok key → s.crew.flog ≠ 0 → quadBusy s (warpWid w) cell = false →
      (∀ j ∈ s.logs, ¬ (j.wid = warpWid w ∧ j.cell = cell)) →
      majLoad s cell = .done b root t →
      (cap = 0 → logRecord s s.crew.flog w loss record = t) ∧
      (cap ≠ 0 → majCas t cell (warpWid w) (root.extractLsb' 0 64)
          (BitVec.ofNat 256 (root.toNat - h * 2 ^ lo + (h + 1) % 2 ^ 32 * 2 ^ lo)) = .done true v u →
        writeRun u needW (base + h % cap * size)
          (if loss then record else record.take 8 ++ natLE (h + 1) 4 ++ record.drop 12) = .ok r →
        logRecord s s.crew.flog w loss record = r))

/-- R30, R156, R157: every issue but SIGCHK hashes SIG with the opcode and whether ACTIVE differs from ENTRYMASK; SIGCHK
compares SIG[23:0] and clears SIG, and where they differ raises SIGMIS at the next instruction with SIG as TRAPV. R131,
R134, R156, R338: what an issue does before the instruction's own effect touches only the split's SIG, its lookahead
counts, and the clock from which its idleness is told. R85 to R88: an instruction that fails a check at its issue raises
the cause of the first check it fails, ILLEGAL, OPERAND, PRIV or ILLEGAL in this order, with its word as TRAPV, and does
nothing else; a privileged instruction fails at level 0 alone. Every word that decodes is such an instruction,
well-formed or not; one that does not decode raises ILLEGAL, or OPERAND where R88's second check refuses it. The
encoding of SIGCHK. -/
def Obligations.SignaturesAndIssue : Prop :=
  (∀ (s : State) (i : Instr) (c : BitVec 24),
    (i.wf → (∀ v, i ≠ .sigchk v) → (issued i s).sp.sig = s.sp.sig.rotateLeft 5 ^^^
        BitVec.ofNat 32 (((encode i).toNat / 2 ^ 24 + 1) * 0x9E3779B1) ^^^
        (if s.sp.active = s.sp.entry then 0 else 0x80000000)) ∧
    OnceEnds (.sigchk c) s (fun u =>
      let v := { u with sp := { u.sp with sig := 0 } }
      if s.sp.sig.toNat % 2 ^ 24 = c.toNat then retired v
      else trapped v cSigmis (s.sp.sig.setWidth 64) (s.sp.pc + 4))) ∧
  (∀ (s : State) (i : Instr), s.sp.stepping = 0 →
    issued i s = { s with sp := { s.sp with
      sig := (issued i s).sp.sig, sigWas := s.sp.sig, out := (issued i s).sp.out, pass := none
      lastIssue := s.cycle.toNat, starve := 0 } } ∧
    (lookahead i = none → (issued i s).sp.out = s.sp.out.map (fun o => { o with left := o.left - 1 })) ∧
    (∀ n, lookahead i = some n → precise i = false → (issued i s).sp.out =
      s.sp.out.map (fun o => { o with left := o.left - 1 }) ++ [{
        left := n, dests := destsOf s i, pc := s.sp.pc
        kind := (laneAccesses s i).1, addrs := (laneAccesses s i).2, mark := s.writes }])) ∧
  (∀ (s : State) (i : Instr), i.isEvent = false →
    (∀ (word : Word), decode word = .ok i → s.sp.wait ≠ some i → ∀ c, r88 s.w.mode s.sp.level i = some c →
      exec i s = .next (takeTrap s c (word.setWidth 64) s.sp.pc)) ∧
    (∀ (word : Word) r, decode word = .error r → exec (.refusedWord word) s =
      .next (takeTrap s (if r = .illegal then cIllegal else cOperand) (word.setWidth 64) s.sp.pc)) ∧
    (∀ c, s.sp.wait ≠ some i → r88 s.w.mode s.sp.level i = some c →
      exec i s = .next (takeTrap s c ((encode i).setWidth 64) s.sp.pc)) ∧
    (∀ mode level, r88 mode level i = some cPriv → privileged i = true ∧ level = 0) ∧
    (∀ mode, privileged i = true → r88 mode 0 i ≠ none) ∧
    (∀ mode level c, r88 mode level i = some c → c = cIllegal ∨ c = cOperand ∨ c = cPriv) ∧
    (∀ mode level, r88 mode level i = none → acceptsType (modeType mode) i = true)) ∧
  (∀ c : BitVec 24, encode (.sigchk c) = 0x0F#8 ++ c)

/-- R143, R145, R146, R89: BRA sends the lanes that pass the guard and hold the predicate in the sense given to the
target, JMPK those that pass the guard to k[a]. The others go on; where both sets hold lanes the split divides, the
target's lanes in a free entry as the youngest split, and both with SIG 0. A misaligned k[a] raises ALIGN. That the
target's half keeps the level, the outstanding instructions and the debugger's step of the split, with its starvation
and idleness anew, is the model's reading (log 68); so is it that lanes sent to the next word divide (log 85). R15,
R143: a split added to the table takes a free entry, which the model takes to be the lowest (log 100), and the youngest
age; where no entry is free, the entry that has gone longest without issuing leaves for the overflow block. -/
def Obligations.BranchesAndSplits : Prop :=
  (∀ (s : State) (p : BitVec 3) (q : BitVec 1) (d : BitVec 20) (a : BitVec 6),
    let part : Mask → DWord → State → State := fun m pc u => { u with sp := { u.sp with active := m, entry := m, sig := 0, pc := pc } }
    let splits : Mask → DWord → State → State := fun m dest u =>
      if m = 0 then retired u
      else if s.sp.active &&& ~~~m = 0 then jumped { u with sp := { u.sp with pc := dest } }
      else jumped (part (s.sp.active &&& ~~~m) (s.sp.pc + 4) (addSplit u (part m dest u).sp))
    let P := if q = 1 then predMask s.w p.toNat else ~~~predMask s.w p.toNat
    (Issues (.bra p q d) s → exec (.bra p q d) s = .next (splits (partMask s &&& P)
      (BitVec.ofInt 64 (((s.sp.pc.toNat : Int) + 4 * d.toInt).emod (2 ^ 56))) (issued (.bra p q d) s))) ∧
    (Issues (.jmpk a) s → exec (.jmpk a) s = .next
      (if anyLane s ∧ (kget s a.toNat).toNat % 4 ≠ 0 then
        trapped (issued (.jmpk a) s) cAlign (kget s a.toNat) s.sp.pc
      else splits (partMask s) (kget s a.toNat) (issued (.jmpk a) s)))) ∧
  (∀ (s : State) (p : Split),
    (∀ n, freeSlot s = some n → addSplit s p = { s with
      w := { s.w with splits := insertSplit { p with slot := n, age := s.nextAge, starve := 0,
                                                     lastIssue := s.cycle.toNat } s.w.splits }
      nextAge := s.nextAge + 1 } ∧ n < 16 ∧ (∀ m < n, m ∈ usedSlots s) ∧ n ∉ usedSlots s) ∧
    (∀ (may : Split → Bool) x, longestIdle (s.w.splits.filter (fun r => r.alive && may r)) = some x →
      (evict s may).w.overflow = s.w.overflow ++ [{ x with slot := 16, lastIssue := s.cycle.toNat }] ∧
      (evict s may).w.splits = s.w.splits.filter (fun r => r.slot != x.slot)) ∧
    (freeSlot s = none → ∀ t, evict s (fun _ => true) = t → addSplit s p = { t with
      w := { t.w with splits := insertSplit { p with slot := (freeSlot t).getD 0, age := t.nextAge, starve := 0
                                                     lastIssue := t.cycle.toNat } t.w.splits }
      nextAge := t.nextAge + 1 }))

/-- R19, R20, R148, R89: CALL and CALLK slide the window of the calling lanes up, leave the return address in their x62
and x63 and send them to the target; the other lanes go on. A slide that fails raises WINDOW with its address before
anything changes. A slide that spills nothing moves WBASE, DEPTH and FRAMES alone, and its new registers are
unpredictable (R21). Which frame record a slide moves is the model's reading (log 12). R19, R20, R149, R251: RET checks
its targets and its slides, then sends every group of lanes with one target and one frame record to it. A handler's own
frame may not be undone, and the outermost frame raises WINDOW with 0. Where all lanes return together and the slide
fills nothing, WBASE, DEPTH, FRAMES and the PC alone change. The order of the checks is the model's reading (log 67),
and so is which frame record moves (log 12). -/
def Obligations.CallsAndReturns : Prop :=
  (∀ (s : State) (a : BitVec 6) (c : BitVec 4) (d : BitVec 20),
    let tgt : DWord := BitVec.ofInt 64 (((s.sp.pc.toNat : Int) + 4 * d.toInt).emod (2 ^ 56))
    let leaves : DWord → State → State := fun ra u => (lanesOf u.sp.active).foldl (fun t l =>
      xset (xset t l 62 (ra.extractLsb' 0 32)) l 63 ((ra.extractLsb' 32 24).setWidth 32)) u
    let calls : DWord → State → State := fun dest u =>
      if partMask s = 0 then retired u
      else match slideUp { u with sp := { u.sp with active := partMask s } } c.toNat with
        | .error n => trapped u cWindow (BitVec.ofNat 64 n) s.sp.pc
        | .ok _ => jumped (divert u (partMask s) (fun v => match slideUp v c.toNat with
          | .ok t => { leaves (s.sp.pc + 4) t with sp := { (leaves (s.sp.pc + 4) t).sp with pc := dest } }
          | .error _ => v))
    (Issues (.call c d) s → exec (.call c d) s = .next (calls tgt (issued (.call c d) s))) ∧
    (Issues (.callk a c) s → exec (.callk a c) s = .next
      (if anyLane s ∧ (kget s a.toNat).toNat % 4 ≠ 0 then
        trapped (issued (.callk a c) s) cAlign (kget s a.toNat) s.sp.pc
      else calls (kget s a.toNat) (issued (.callk a c) s))) ∧
    (s.sp.depth < 8 → s.sp.wbase + 4 * (c.toNat + 1) + 64 ≤ s.sp.sfloor + s.w.allot →
      s.sp.wbase + 4 * (c.toNat + 1) + 63 ≤ 65535 →
      slideUp s c.toNat = .ok (wildRegs { s with sp := { s.sp with
          wbase := s.sp.wbase + 4 * (c.toNat + 1), depth := s.sp.depth + 1
          frames := s.sp.frames * 16#32 + BitVec.ofNat 32 c.toNat } } s.sp.active
        ((List.range (4 * (c.toNat + 1))).map (fun j => s.sp.wbase + 64 + j)))) ∧
    (s.sp.depth = 255 ∨ 65535 < s.sp.wbase + 4 * (c.toNat + 1) + 63 → slideUp s c.toNat = .error 0)) ∧
  (∀ (s : State), Issues .ret s →
    let u := issued .ret s
    let dest : Nat → DWord := fun l =>
      BitVec.ofNat 64 ((xget s l 63).toNat % 2 ^ 24 * 2 ^ 32 + (xget s l 62).toNat)
    let bad := (lanesOf (partMask s)).find? (fun l => (dest l).toNat % 4 != 0)
    let legal := s.sp.level = 0 ∨ s.w.tdepth < s.sp.depth
    let wb := s.sp.wbase - 4 * (s.sp.frames.toNat % 16 + 1)
    (anyLane s = false → exec .ret s = .next (retired u)) ∧
    (anyLane s = true → ¬ legal → exec .ret s = .next (trapped u cWindow 0 s.sp.pc)) ∧
    (anyLane s = true → legal → ∀ l, bad = some l → exec .ret s = .next (trapped u cAlign (dest l) s.sp.pc)) ∧
    (anyLane s = true → legal → bad = none → s.sp.depth = 0 → exec .ret s = .next (trapped u cWindow 0 s.sp.pc)) ∧
    (anyLane s = true → legal → bad = none → ∀ p, planDown s = some p →
      ∀ x, checkSlide s needSpillR (slideAddrs s p (partMask s)) = some x →
      exec .ret s = .next (trapped u cWindow (BitVec.ofNat 64 x) s.sp.pc)) ∧
    (anyLane s = true → legal → bad = none → ∀ p, planDown s = some p →
      checkSlide s needSpillR (slideAddrs s p (partMask s)) = none →
      exec .ret s = .next (jumped (returnLanes u (partMask s) (retGroups s p (partMask s))))) ∧
    (partMask s = s.sp.active → legal → bad = none → 0 < s.sp.depth → s.sp.depth ≤ 8 → s.sp.sfloor ≤ wb →
      ∀ v, (∃ l, takesPart s l) → (∀ l, takesPart s l → dest l = v) →
      exec .ret s = .next { u with sp := { u.sp with
        pc := v, wbase := wb, depth := s.sp.depth - 1, frames := BitVec.ofNat 32 (s.sp.frames.toNat / 16)
        args := [] } }))

/-- R147: SRCV notes the reconvergence point and the lanes that are to meet there; RCV makes the split wait at its
point, or raises RCVERR with the pending point where it stands elsewhere. Complete groups of the warp then merge. R147,
R15: splits of a warp waiting at A merge once every split of it whose point is A waits; that none of them may be held,
and that the merged split takes over a step and a freeze of any of them, is the model's choice (log 1). The oldest entry
is kept, with the lanes of all, SIG, RPC and RMASK 0, at A + 4 and at the highest spill floor, to which the lagging
lanes are spilled first. RCVERR is raised there where the lanes are not those that were to meet, or the windows differ;
at level 1 it is a double trap at A (R250). A WINDOW of the spills is raised at A by the arriving split, whose RCV is
undone, or with none by the oldest (log 82); nothing merges. R15, R147, R153, R160: after an arrival, an exit, a
stranding or a change of membership, where no phase of a barrier ends by it, the warp's complete groups merge, splits of
the overflow block come back into free entries, and a warp without lanes ends. -/
def Obligations.Reconvergence : Prop :=
  (∀ (s : State) (d : BitVec 24),
    let point : DWord := BitVec.ofInt 64 (((s.sp.pc.toNat : Int) + 4 * d.toInt).emod (2 ^ 56))
    OnceEnds (.srcv d) s (fun u => stopSteps (retired (mergeAll { u with sp := { u.sp with
      rpc := point, rmask := s.sp.active } } none))) ∧
    ((∀ p ∈ s.w.splits ++ s.w.overflow, p.state ≠ .waitRcv) → s.sp.state ≠ .waitRcv →
      OnceEnds (.srcv d) s (fun u => retired { u with sp := { u.sp with rpc := point, rmask := s.sp.active } })) ∧
    OnceEnds .rcv s (fun u =>
      if s.sp.rpc ≠ s.sp.pc then trapped u cRcverr s.sp.rpc s.sp.pc
      else jumped (rejudge { u with sp := { u.sp with state := .waitRcv } } (some s.sp.slot)))) ∧
  (∀ (s : State) (arriving : Option Nat) (n : Nat) (g : List Split) (kept : Split) (a : DWord),
    let M := g.foldl (fun m p => m ||| p.active) 0
    let expect := g.foldl (fun m p => m ||| p.rmask) 0 &&& ~~~s.w.strand &&& ~~~s.w.exited
    let same := ∀ p ∈ g, p.wbase = kept.wbase ∧ p.depth = kept.depth ∧ p.frames = kept.frames
    let floor := g.foldl (fun n p => max n p.sfloor) 0
    let merged : Nat → Split := fun f => { kept with
      state := .ready, wait := none, active := M, entry := M, sig := 0, rpc := 0, rmask := 0, pc := a + 4, sfloor := f
      age := if some kept.slot = arriving then kept.age else s.nextAge
      stepping := g.foldl (fun n p => max n p.stepping) 0
      freeze := (g.find? (fun p => p.freeze.isSome)).bind (fun p => p.freeze) }
    let held := s.w.splits.contains kept
    let becomes : State → Nat → State := fun t f =>
      { t with w := dropSplits t.w g, sp := merged f, nextAge := t.nextAge + 1 }
    let fails : State → State := fun u =>
      takeTrap (if kept.level ≠ 0 ∧ s.crew.state = .running then { u with sp := { u.sp with pc := a } } else u) cRcverr
        (BitVec.ofNat 64 (expect.toNat * 2 ^ 32 + M.toNat)) (a + 4)
    (∀ p, completePoint s = some p →
      (∃ x ∈ s.w.splits ++ s.w.overflow, x.alive = true ∧ x.state = .waitRcv ∧ x.rpc = p) ∧
      ∀ x ∈ s.w.splits ++ s.w.overflow, x.alive = true → x.rpc = p → x.state = .waitRcv ∧ x.held = false) ∧
    (completePoint s = none → ∀ x ∈ s.w.splits ++ s.w.overflow, x.alive = true → x.state = .waitRcv →
      ∃ y ∈ s.w.splits ++ s.w.overflow, y.alive = true ∧ y.rpc = x.rpc ∧ (y.state ≠ .waitRcv ∨ y.held = true)) ∧
    (s.crew.state = .running → heldByCrew s = false →
      (completePoint s = none → mergeLoop s arriving n = s) ∧
      (completePoint s = some a →
        mergeLoop s arriving (n + 1) = mergeLoop (mergeGroup s (groupAt s a) a arriving) none n)) ∧
    ((∃ p ∈ s.w.splits ++ s.w.overflow, p.state = .waitRcv) ∨ s.sp.state = .waitRcv →
      mergeAll s arriving = retake s (returnOverflow (mergeLoop (packSplit s) arriving 33) 16)) ∧
    (oldestSplit g = some kept →
      (same → checkSlide s needSpillW (levelAddrs s g floor) = none → M = expect →
        mergeGroup s g a arriving = putBack (becomes (levelGroup s g floor) floor) held) ∧
      (same → checkSlide s needSpillW (levelAddrs s g floor) = none → M ≠ expect →
        mergeGroup s g a arriving = putBack (fails (becomes (levelGroup s g floor) floor)) held) ∧
      (¬ same → mergeGroup s g a arriving = putBack (fails (becomes s kept.sfloor)) held) ∧
      (∀ x, same → checkSlide s needSpillW (levelAddrs s g floor) = some x →
        let who := (g.find? (fun p => some p.slot == arriving)).getD kept
        mergeGroup s g a arriving = putBack (takeTrap { s with w := dropSplits s.w [who], sp := { who with
            state := .ready, wait := none, phase := none, args := [], slice := none, doomed := false, sig := who.sigWas } }
          cWindow (BitVec.ofNat 64 x) a) (s.w.splits.contains who)))) ∧
  (∀ (s : State) (arriving : Option Nat), (∀ b ∈ s.crew.bars, barrierDone s b = false) →
    let w := { s.w with splits := s.w.splits.filter Split.alive, overflow := s.w.overflow.filter Split.alive }
    let t := returnOverflow (mergeAll (handlerGone { s with w := w }) arriving) 16
    ((∃ p ∈ allSplits t, p.alive = true) → rejudge s arriving = t) ∧
    (t.w.live = true → (∀ p ∈ allSplits t, p.alive = false) → rejudge s arriving = endWarp t) ∧
    (s.sp.level = 0 → (∀ p ∈ w.splits ++ w.overflow, p.level = 0 ∧ p.held = false) → s.crew.holder ≠ some s.w.id →
      handlerGone { s with w := w } = { s with w := w }) ∧
    ((∀ p ∈ w.splits ++ w.overflow, p.level = 0) → s.sp.level = 0 → s.crew.holder = some s.w.id →
      handlerGone { s with w := w } = release { s with w := w }))

/-- R153, R154, R163: NOP has no effect; YIELD puts the split last in the age order; YIELDP does too unless a
pre-emption is pending at a safe point, where it waits until the pre-emption ends; SLEEP sleeps for k[a] clocks, at most
2^32 - 1; EXIT ends its lanes and is ILLEGAL in a dispatch warp; SETRL notes the resume label and a snapshot of the
uniform registers. -/
def Obligations.WaitsAndEnds : Prop :=
  ∀ (s : State) (a : BitVec 6) (d : BitVec 24),
    let last : State → State := fun u => { u with sp := { u.sp with age := u.nextAge }, nextAge := u.nextAge + 1 }
    let safe : Prop := s.ctx.preempt.isSome = true ∧ (∀ p ∈ s.w.splits ++ s.w.overflow, ¬ p.alive) ∧
      s.sp.active = ~~~(s.w.strand ||| s.w.exited) ∧ s.sp.depth = 0
    (Issues .nop s → exec .nop s = .next (retired (issued .nop s))) ∧
    OnceEnds .yield s (fun u => retired (last u)) ∧
    (¬ safe → OnceEnds .yieldp s (fun u => retired (last u))) ∧
    (safe → OnceEnds .yieldp s (fun u => waits .yieldp { u with w := { u.w with atSafePoint := true } })) ∧
    (s.ctx.preempt = none → JudgedEnds .yieldp s (goesOn { s with w := { s.w with atSafePoint := false } })) ∧
    OnceEnds (.sleep a) s (fun u => { u with sp := { u.sp with
      state := .sleeping, wake := s.cycle.toNat + min (kget s a.toNat).toNat (2 ^ 32 - 1)
      wait := some (.sleep a), since := s.cycle.toNat } }) ∧
    (s.sp.wake ≤ s.cycle.toNat → JudgedEnds (.sleep a) s (goesOn s)) ∧
    OnceEnds .exit s (fun u =>
      if s.crew.dispatch then trapped u cIllegal ((encode .exit).setWidth 64) s.sp.pc
      else jumped (rejudge (advance { u with
        w := { u.w with exited := s.w.exited ||| partMask s }
        sp := { u.sp with active := s.sp.active &&& ~~~partMask s } }) none)) ∧
    (s.crew.dispatch = false → OnceEnds (.setrl d) s (fun u => retired { u with w := { u.w with
      rlabel := BitVec.ofInt 64 (((s.sp.pc.toNat : Int) + 4 * d.toInt).emod (2 ^ 56)), snap := s.w.k } }))

/-- R165, R166, R252, R260: TRAP raises its cause at the next instruction with its value; BKPT stops the split for the
debugger at the next instruction; TRET leaves the handler, restoring MODE, SIG and the window and going to TRAPPC, or
raises OPERAND with DEPTH where a call is still open, or WINDOW where the slide back fails. -/
def Obligations.SoftwareTraps : Prop :=
  ∀ (s : State) (v : BitVec 16) (c : BitVec 8) (n : BitVec 24),
    OnceEnds (.trap v c) s (fun u => trapped u c (v.setWidth 64) (s.sp.pc + 4)) ∧
    OnceEnds (.bkpt n) s (fun u =>
      jumped (stopSplit { u with sp := { u.sp with sig := s.sp.sig } } cBkpt (n.setWidth 64) (s.sp.pc + 4))) ∧
    (s.sp.depth ≠ s.w.tdepth →
      OnceEnds .tret s (fun u => trapped u cOperand (BitVec.ofNat 64 s.sp.depth) s.sp.pc)) ∧
    (s.sp.depth = s.w.tdepth → OnceEnds .tret s (fun u => match slideDown u with
      | .error a => trapped u cWindow (BitVec.ofNat 64 a) s.sp.pc
      | .ok t => jumped (mergeAll (release { t with
          w := { t.w with mode := s.w.savedMode }
          sp := { t.sp with sig := s.w.savedSig, level := 0, pc := s.w.trappc } }) none))) ∧
    (0 < s.sp.depth → s.sp.depth ≤ 8 → s.sp.sfloor ≤ s.sp.wbase - 4 * (s.sp.frames.toNat % 16 + 1) →
      slideDown s = .ok { s with sp := { s.sp with
        wbase := s.sp.wbase - 4 * (s.sp.frames.toNat % 16 + 1), depth := s.sp.depth - 1
        frames := BitVec.ofNat 32 (s.sp.frames.toNat / 16) } })

/-- R249, R250, R254: a trap of a split at level 0 whose crew runs and is held by no other handler writes the TRAP
registers, saves MODE and SIG, raises WBASE by 64, and enters the handler at level 1 with SIG 0, while the warp's other
splits, and under kind F the crew, are held; the handler's address is taken with bits 1:0 clear (log 83). With no
handler the crew parks at the resume address; STRAND parks nothing (R263, log 84), and that it still writes the TRAP
registers is the model's choice (log 101). A second kind F or S trap inside a handler parks the crew and writes no TRAP
register, whatever else of the warp stands in a handler. -/
def Obligations.TakingTraps : Prop :=
  ∀ (s : State) (c : Byte) (v pc : DWord), s.crew.state = .running → heldByCrew s = false →
    let t := takeTrap s c v pc
    let regs : Prop := t.w.trapc = c ∧ t.w.trapv = v ∧ t.w.trappc = pc
    (handlerBusy s = false → s.sp.level = 0 → s.crew.handler ≠ 0 → ∀ u, slideUp (setTrapRegs (countError s c) c v pc) 15 = .ok u →
      regs ∧ t.w.savedMode = s.w.mode ∧ t.w.savedSig = (if c = cSigmis then 0 else s.sp.sig) ∧ t.sp.pc = s.crew.handler &&& ~~~3 ∧
      t.sp.level = 1 ∧ t.sp.sig = 0 ∧ t.w.tdepth = s.sp.depth + 1 ∧ t.sp.depth = s.sp.depth + 1 ∧
      t.sp.wbase = s.sp.wbase + 64 ∧ t.sp.active = s.sp.active ∧ t.sp.entry = s.sp.entry ∧ t.w.mode = s.w.mode ∧
      (∀ p ∈ t.w.splits, p.held = true) ∧ t.w.k = s.w.k ∧ t.w.preds = s.w.preds ∧
      (kindF c = true → t.crew.holder = some s.w.id) ∧ (kindF c = false → t.crew.holder = s.crew.holder)) ∧
    (handlerBusy s = false → s.sp.level = 0 → s.crew.handler = 0 → c = cStrand → t = setTrapRegs s c v pc) ∧
    (handlerBusy s = false → s.sp.level = 0 → s.crew.handler = 0 → c ≠ cStrand → regs ∧ t.sp.pc = pc ∧ t.sp.level = 0 ∧ t.crew.state = .parked ∧
      t.crew.parkCause = c ∧ t.crew.parkPc = pc ∧ t.w.mode = s.w.mode ∧ t.w.k = s.w.k ∧ t.w.phys = s.w.phys) ∧
    (s.sp.level ≠ 0 → (kindF c = true ∨ kindS c = true) → t.w = s.w ∧ t.sp = s.sp ∧ t.crew.state = .parked ∧
      t.crew.parkCause = c ∧ t.crew.parkKind = .level1)

/-- R158: ROLE checks its crew, window, lanes and record, and exchanges the record and the warp's role: the record takes
the next PC, ALLOT and PRIO, the split restarts at the record's entry at depth 0. The order of the checks, and that the
record is written before the warp changes, are the model's reading (log 39). R159: CJOIN and CLEAVE write 0 and change
nothing where their conditions do not hold; else they write 1 and the warp has left its crew: the higher warps of that
move down one place, and the warp becomes the last of its target, or the first of a new crew with CMSIZE 0 and the old
crew's handler, log root and budget. That E is kept where arrivals leave with the warp is the model's reading (log 23);
so are whom 'one warp' counts and which crews may be joined (log 82), and so is it that CLEAVE writes 0 where the new
crew's memory finds no place (log 102). R151, R158 to R161, R165, R187 to R194: an instruction on the crew, its barriers
or its rings raises PROT in a dispatch warp, which belongs to no crew. The manual gives its TRAPV no value: it is a free
value (log 43). -/
def Obligations.RolesAndCrewChanges : Prop :=
  (∀ (s : State) (a : BitVec 6), s.crew.dispatch = false →
    let sole : Prop := (∀ p ∈ s.w.splits ++ s.w.overflow, ¬ p.alive) ∧ s.sp.active = ~~~(s.w.strand ||| s.w.exited)
    let va := (kget s a.toNat).toNat
    let kept : List Byte → State → State := fun bs u => keepArgs u
      [kget s a.toNat, BitVec.ofNat 64 (recNat bs 0 8), BitVec.ofNat 64 (recNat bs 8 8)]
    (s.sp.depth ≠ 0 → OnceEnds (.role a) s (fun u => trapped u cOperand 1 s.sp.pc)) ∧
    (s.sp.depth = 0 → ¬ sole → OnceEnds (.role a) s (fun u => trapped u cOperand 2 s.sp.pc)) ∧
    (s.sp.depth = 0 → sole → ∀ c n, readRecord s needRole 16 va 16 = .error (c, n) →
      OnceEnds (.role a) s (fun u => trapped u c (BitVec.ofNat 64 n) s.sp.pc)) ∧
    (s.sp.depth = 0 → sole → ∀ bs, readRecord s needRole 16 va 16 = .ok bs →
      let entry := bitsOf (leNat bs) 0 56
      let allot := bitsOf (leNat bs) 64 9
      let prio := bitsOf (leNat bs) 73 3
      let good : Prop := bitsOf (leNat bs) 56 8 = 0 ∧ leNat bs < 2 ^ 76 ∧ 64 ≤ allot ∧ allot ≤ 256 ∧ allot % 16 = 0 ∧
        entry % 4 = 0
      (¬ good → OnceEnds (.role a) s (fun u => trapped u cOperand 3 s.sp.pc)) ∧
      (good → quadUsed s s.w.clus s.w.core s.w.quad s.w.id + allot ≤ 1024 →
        OnceEnds (.role a) s (fun u =>
          match writeRun (kept bs u) needRole va (natLE (roleValue (s.sp.pc + 4) s.w.allot s.w.prio) 16) with
          | .error (c, n) => trapped (kept bs u) c (BitVec.ofNat 64 n) s.sp.pc
          | .ok t => jumped (wildRegs { t with
              w := { t.w with allot := allot, prio := prio }
              sp := { t.sp with sig := 0, wbase := 0, sfloor := 0, pc := BitVec.ofNat 64 entry } } t.sp.active
            ((List.range (allot - 64)).map (fun j => 64 + j))))))) ∧
  (∀ (s : State) (d a : BitVec 6), s.crew.dispatch = false →
    let fits : Crew → Prop := fun c => c ∈ s.crews ∧ c.ctx = s.crew.ctx ∧ c.launch = s.crew.launch ∧
      c.clus = s.crew.clus ∧ c.dispatch = false ∧ (c.state = .running ∨ c.state = .parked) ∧
      c.number.setWidth 64 = kget s a.toNat
    let alone : Prop := (members s).length ≤ 1
    ((∀ c, ¬ fits c) → OnceResult (.cjoin d a) s (fun u => kset u d.toNat 0)) ∧
    (alone → OnceResult (.cjoin d a) s (fun u => kset u d.toNat 0)) ∧
    (∀ c, joinTarget s (kget s a.toNat) = some c → fits c) ∧
    (∀ c, joinTarget s (kget s a.toNat) = some c → 32 ≤ c.nwarp → OnceResult (.cjoin d a) s (fun u => kset u d.toNat 0)) ∧
    (∀ c, joinTarget s (kget s a.toNat) = some c → c.nwarp < 32 → ¬ alone →
      OnceEnds (.cjoin d a) s (fun u => stopSteps (retired (kset (joinCrew u c) d.toNat 1)))) ∧
    (alone ∨ placeMemory s s.crew.clus 0 = none → OnceResult (.cleave d) s (fun u => kset u d.toNat 0)) ∧
    (∀ base, ¬ alone → placeMemory s s.crew.clus 0 = some base →
      OnceEnds (.cleave d) s (fun u => stopSteps (retired (kset (cleaveCrew u base) d.toNat 1)))) ∧
    (∀ c, joinTarget s (kget s a.toNat) = some c → (∀ x ∈ s.crews, x.id = c.id → x = c) → s.crew.id ≠ c.id →
      let t := joinCrew s c
      t.w = { s.w with crew := c.id, index := c.nwarp } ∧ t.warps = (leaveCrew s).warps ∧ t.sp = s.sp ∧ t.mem = s.mem ∧
      t.crew.id = c.id ∧ t.crew.nwarp = c.nwarp + 1 ∧ t.crew.cmbase = c.cmbase ∧ t.crew.cmsize = c.cmsize ∧
      (∀ (n : Nat) (x : Ring), c.rings[n]? = some x → x.bound = true → ∃ y : Ring, t.crew.rings[n]? = some y ∧ y.rel = x.rel ∧
        sget 0 y.cursors s.w.id = x.rel) ∧
      ∃ o ∈ t.crews, o.id = s.crew.id ∧ o.nwarp = s.crew.nwarp - 1 ∧ ∀ b ∈ o.bars, sget 0 b.arrived s.w.id = 0) ∧
    (∀ base l, launchAt s s.crew.launch = some l → (∀ x ∈ s.crews, x.id ≠ s.nextId) → s.crew.id ≠ s.nextId →
      let t := cleaveCrew s base
      t.w = { s.w with crew := s.nextId, index := 0 } ∧ t.warps = (leaveCrew s).warps ∧ t.sp = s.sp ∧ t.mem = s.mem ∧
      t.crew.id = s.nextId ∧ t.crew.nwarp = 1 ∧ t.crew.number = BitVec.ofNat 32 l.nextNumber ∧
      t.crew.cmbase = base ∧ t.crew.cmsize = 0 ∧ t.crew.mcast = 0 ∧ (∀ r ∈ t.crew.rings, r.bound = false) ∧
      t.crew.handler = s.crew.handler ∧ t.crew.flog = s.crew.flog ∧ t.crew.budget = s.crew.budget ∧
      ∃ o ∈ t.crews, o.id = s.crew.id ∧ o.nwarp = s.crew.nwarp - 1) ∧
    leaveCrew s = { s with
      warps := s.warps.map (fun w => if w.crew = s.crew.id ∧ s.w.index < w.index then { w with index := w.index - 1 } else w)
      crew := { s.crew with
        nwarp := s.crew.nwarp - 1
        bars := s.crew.bars.map (fun b => { b with arrived := serase b.arrived s.w.id })
        rings := s.crew.rings.map (fun r => { r with cursors := serase r.cursors s.w.id }) } }) ∧
  (∀ (s : State) (a b d r : BitVec 6) (q : BitVec 2) (n : BitVec 24),
    let forms : List Instr :=
      [.role a, .cjoin d a, .cleave d, .bara a b, .barw a b, .bars a b, .rngdef r b, .cpy r b q, .cpym a r b q, .awaitf r,
       .awaitfC r b, .rels r, .rngst d r, .setrl n]
    ∀ i ∈ forms, s.crew.dispatch = true → OnceEnds i s (fun u =>
      trapped { u with env := { u.env with free := u.env.free + 1 } } cProt (Config.freeDWord s.env.free) s.sp.pc))

/-- R160, R161: BARA's lanes arrive, BARW's wait while one of them is pending, BARS's do both. A count above 1024 raises
OPERAND with the word, and is judged first (log 82); a second arrival of a lane, or a count other than the phase's,
raises OPERAND with the barrier. Arriving adds the lanes to the warp's mask and, the first time in a phase, fixes its
count; the phase is then judged, all lanes of the instruction at once (log 82). What precedes an arrival is kept with
the barrier, and a return from its wait orders what follows after the phase that its lanes arrived in last (R162, logs
7, 82). R160: a phase that some lane has arrived in completes when its expected count of lanes has arrived, or, where
that is 0, when every lane of every member warp has arrived, been stranded or ended; its masks are then cleared and its
phase bit changes. A phase no lane has arrived in does not complete. -/
def Obligations.Barriers : Prop :=
  (∀ (s : State) (a b : BitVec 6), s.crew.dispatch = false →
    let e := (kget s b.toNat).toNat
    let x := s.crew.bars.getD a.toNat Barrier.blank
    let pending := sget 0 x.arrived s.w.id
    let clash : Prop := pending &&& partMask s ≠ 0 ∨ ∃ v, x.expect = some v ∧ v ≠ e
    let comes : State → State := fun u => arrive (keepArgs u []) a.toNat e (partMask s)
    let back : Mask → State → State := fun m u => acquire u (((barAt u a.toNat).done.filter (fun d =>
      decide (d.warp = s.w.id ∧ d.lanes &&& m ≠ 0))).flatMap (fun d => d.pasts))
    let refuses : Instr → State → State := fun i u => trapped u cOperand ((encode i).setWidth 64) s.sp.pc
    (1024 < e → OnceEnds (.bara a b) s (refuses (.bara a b)) ∧ OnceEnds (.bars a b) s (refuses (.bars a b))) ∧
    (e ≤ 1024 → clash →
      OnceEnds (.bara a b) s (fun u => trapped u cOperand (BitVec.ofNat 64 a.toNat) s.sp.pc) ∧
      OnceEnds (.bars a b) s (fun u => trapped u cOperand (BitVec.ofNat 64 a.toNat) s.sp.pc)) ∧
    (e ≤ 1024 → ¬ clash →
      OnceEnds (.bara a b) s (fun u => retired (comes u)) ∧
      OnceEnds (.bars a b) s (fun u =>
        if pendingAt (comes u) a.toNat &&& partMask s &&& s.sp.active = 0 then retired (back (partMask s &&& s.sp.active) (comes u))
        else waits (.bars a b) (comes u))) ∧
    OnceEnds (.barw a b) s (fun u =>
      if pending &&& (partMask s &&& s.sp.active) = 0 then retired (back (partMask s &&& s.sp.active) u)
      else waits (.barw a b) (keepArgs u [])) ∧
    (pending &&& argLanes s = 0 → JudgedEnds (.barw a b) s (goesOn (back (argLanes s) s)) ∧
      JudgedEnds (.bars a b) s (goesOn (back (argLanes s) s))) ∧
    ∀ (n e : Nat) (m : Mask) (y : Barrier), s.crew.bars[n]? = some y → arrive s n e m = judgeBarriers { s with
      writes := s.writes + 1
      crew := { s.crew with bars := s.crew.bars.set n { y with
        arrived := sset 0 y.arrived s.w.id (sget 0 y.arrived s.w.id ||| m), expect := some (y.expect.getD e)
        pasts := addPast { pastNow s with lanes := m } y.pasts } } }) ∧
  (∀ (s : State),
    let count : Barrier → Nat := fun b => (b.arrived.map (fun e => laneCount e.2)).sum
    let complete : Barrier → Prop := fun b => b.arrived ≠ [] ∧ ∃ e, b.expect = some e ∧
      (0 < e → e ≤ count b) ∧
      (e = 0 → ∀ w ∈ s.allWarps, w.crew = s.crew.id → sget 0 b.arrived w.id ||| w.strand ||| w.exited = 0xFFFFFFFF)
    (judgeBarriers s).crew.bars.length = s.crew.bars.length ∧
    ∀ n < s.crew.bars.length, ∀ b, s.crew.bars[n]? = some b →
      (complete b → (judgeBarriers s).crew.bars[n]? = some {
        phase := !b.phase, arrived := [], expect := none, pasts := []
        done := b.arrived.map (fun x => ⟨x.1, x.2, barrierPasts s b⟩) ++
          (b.done.map (fun d => { d with lanes := d.lanes &&& ~~~(sget 0 b.arrived d.warp) })).filter (fun d => d.lanes != 0) }) ∧
      (¬ complete b → (judgeBarriers s).crew.bars[n]? = some b))

/-- R150: DISPQ checks every lane's callee, puts each lane's eight registers into its callee's queue with a return
handle, and waits until every item has ended; it is ILLEGAL in a dispatch warp. A lane whose queue is full keeps its
item until the queue has room. That a queue is that of a callee of one launch is the model's reading (log 50), and that
the callee's entry is read at issue is log 49; the order of its checks (ILLEGAL in a dispatch warp first, then the
lowest failing lane, its index before its table entry) is log 97. R152: QEND writes x0 to x7 of each lane that ends its
item into the lane that waits for it, and its lanes leave ACTIVE; outside a dispatch warp it is ILLEGAL. -/
def Obligations.DispatchItems : Prop :=
  (∀ (s : State) (a : BitVec 6),
    let L := lanesOf (partMask s)
    let item : Nat → Item := fun l =>
      { ctx := s.ctx.id, launch := s.w.launch, callee := (xget s l a.toNat).toNat, regs := (List.range 8).map (xget s l)
        handle := { warp := s.w.id, lane := l } }
    let room : Prop := ∀ l ∈ L, (queueOf s s.ctx.id s.w.launch (xget s l a.toNat).toNat).length + 32 ≤ 512
    (s.crew.dispatch = true → OnceEnds (.dispq a) s (fun u =>
      trapped u cIllegal ((encode (.dispq a)).setWidth 64) s.sp.pc)) ∧
    (s.crew.dispatch = false → ∀ c v, L.findSome? (dispqCheck s a.toNat) = some (c, v) →
      OnceEnds (.dispq a) s (fun u => trapped u c (BitVec.ofNat 64 v) s.sp.pc)) ∧
    (s.crew.dispatch = false → L.findSome? (dispqCheck s a.toNat) = none → room →
      OnceEnds (.dispq a) s (fun u => waits (.dispq a) { u with
        clus := { s.clus with items := s.clus.items ++ L.map item }
        sp := { u.sp with args := [(partMask s).setWidth 64, 0], phase := none, slice := none, doomed := false } })) ∧
    (argN s 0 = 0 → (∀ l ∈ lanesOf (argLanes s), itemOpen s l = false) →
      JudgedEnds (.dispq a) s (goesOn s)) ∧
    (s.crew.dispatch = false → L.findSome? (dispqCheck s a.toNat) = none → ∀ l, partMask s = laneBit l → l < 32 →
      512 ≤ (queueOf s s.ctx.id s.w.launch (xget s l a.toNat).toNat).length →
      OnceEnds (.dispq a) s (fun u => waits (.dispq a) { u with sp := { u.sp with
        args := [(laneBit l).setWidth 64, (s.sp.active &&& laneBit l).setWidth 64], phase := none, slice := none, doomed := false } })) ∧
    (∀ l < 32, argN s 0 = (laneBit l).setWidth 64 → (argLanes s).getLsbD l = true →
      (queueOf s s.ctx.id s.w.launch (xget s l a.toNat).toNat).length < 512 →
      JudgedEnds (.dispq a) s { s with
        clus := { s.clus with items := s.clus.items ++ [item l] }
        sp := { s.sp with args := [s.sp.args.headD 0, 0], state := if s.sp.state = .ready then .waiting else s.sp.state
                          wait := some (.dispq a) } }) ∧
    (∀ l, 63 < (xget s l a.toNat).toNat → dispqCheck s a.toNat l = some (cOperand, (xget s l a.toNat).toNat))) ∧
  (∀ (s : State),
    (s.crew.dispatch = false → OnceEnds .qend s (fun u => trapped u cIllegal ((encode .qend).setWidth 64) s.sp.pc)) ∧
    (s.crew.dispatch = true → OnceEnds .qend s (fun u =>
      let t := (lanesOf (partMask s)).foldl endItem u
      jumped (rejudge (advance { t with
        w := { t.w with exited := t.w.exited ||| partMask s }
        sp := { t.sp with active := t.sp.active &&& ~~~partMask s } }) none))) ∧
    (∀ l h, s.w.handles[l]? = some h → endItem s l = { s with warps := s.warps.map (fun w =>
      if w.id = h.warp then w.deliver h.lane ((List.range 8).map (xget s l)) else w) }) ∧
    (∀ (w : Warp) (vals : List Word) (lane : Nat) (p : Split), vals.length = 8 → lane < 32 →
      (w.splits ++ w.overflow).find? (fun p => p.active.getLsbD lane) = some p →
      ∀ j < 8, physGet (w.deliver lane vals) (physKey w lane (p.wbase + j)) = vals.getD j 0))

/-- R167, R168, R169, R262: a lane load reads its bytes little-endian, sign-extended where it is a signed form, into
one, two or four registers of each participating lane, and marks a register whose datum is poisoned. The lowest lane
that fails a check gives the trap, with its address, and then nothing is read. What a byte reads as is what the lane
sees (R296, log 7: MemoryOrdering); the split never reads anything older of those bytes again; LDA acquires the releases
its lanes have read, and what follows reads nothing older than what they have read (R299). -/
def Obligations.LaneLoads : Prop :=
  ∀ (s : State) (d i : BitVec 6) (k : BitVec 5) (la : BitVec 4) (q : BitVec 2) (e : BitVec 1),
    let addr : Nat → Nat := fun l =>
      let index : Int := if i = 63 then 0 else if e = 1 then (xget s l i.toNat).toInt else (xget s l i.toNat).toNat
      ((((kget s k.toNat).toNat : Int) + index * 2 ^ q.toNat).emod (2 ^ 64)).toNat
    let reads : (Nat → Nat) → Nat → List (Nat × Nat) := fun key size =>
      (lanesOf (partMask s)).flatMap (fun l => readWrites s (some l) (keysFrom (key l) size))
    let after : Instr → Nat → (Nat → Nat) → State → State := fun f size key t => match f with
      | .lda _ _ _ _ _ _ => acquire (acquireReads (rememberReads t (reads key size)) (reads key size))
          ((lanesOf (partMask s)).flatMap (fun l => (keysFrom (key l) 4).flatMap (fun a =>
            releasesRead (fun e => e.sees s (laneReaderOf s (some l)) a) a s.late)))
      | _ => rememberReads t (reads key size)
    let forms : List (Instr × Nat × Nat × Bool) :=
      [(.ldb d i k la q e, 1, 1, false), (.ldbs d i k la q e, 1, 1, true), (.ldh d i k la q e, 2, 1, false),
       (.ldhs d i k la q e, 2, 1, true), (.ldw d i k la q e, 4, 1, false), (.ldd d i k la q e, 8, 2, false),
       (.ldq d i k la q e, 16, 4, false), (.lda d i k la q e, 4, 1, false)]
    ∀ f ∈ forms, Issues f.1 s →
      let size := f.2.1
      let each := f.2.1 / f.2.2.1
      (∀ key : Nat → Nat, (∀ l, takesPart s l → checkAccess s needR (addr l) size = .ok (key l)) →
        ∃ t, exec f.1 s = .next (after f.1 size key t) ∧
          WritesLanes f.1 ((List.range f.2.2.1).map (fun j => d.toNat + j)) s t ∧
          t.w.fflags = s.w.fflags ∧ ∀ l, takesPart s l → ∀ j < f.2.2.1,
            xget t l (d.toNat + j) =
              BitVec.ofInt 32 (signedOf f.2.2.2 (8 * each) (readAs (laneReaderOf s (some l)) s (key l + each * j) each)) ∧
            sget 0 t.w.marks (physKey s.w l (s.sp.wbase + (d.toNat + j))) =
              if poisonedRange s (key l + each * j) each then addr l + each * j + 1 else 0) ∧
      (∀ l c, takesPart s l → (∀ m < l, takesPart s m → ∃ key, checkAccess s needR (addr m) size = .ok key) →
        checkAccess s needR (addr l) size = .bad c →
        exec f.1 s = .next (trapped (issued f.1 s) c (BitVec.ofNat 64 (addr l)) s.sp.pc))

/-- R167, R168, R169: a lane store writes the bytes of one, two or four registers of each participating lane, little-
endian, at the lane's address; where two lanes write a byte, the higher lane's stands. No other byte of memory and no
register changes; each lane's store is one write, single-copy atomic, that other agents may not see at once (R168, R296,
log 7). The lowest lane that fails a check gives the trap, with its address, and then nothing is written. -/
def Obligations.LaneStores : Prop :=
  ∀ (s : State) (d i : BitVec 6) (k : BitVec 5) (la : BitVec 4) (q : BitVec 2) (e : BitVec 1),
    let addr : Nat → Nat := fun l => mAddr s (mform i k q e) l
    let forms : List (Instr × Nat × Nat) :=
      [(.stb d i k la q e, 1, 1), (.sth d i k la q e, 2, 1), (.stw d i k la q e, 4, 1), (.std d i k la q e, 8, 2),
       (.stq d i k la q e, 16, 4), (.stl d i k la q e, 4, 1)]
    ∀ f ∈ forms, Issues f.1 s →
      let size := f.2.1
      let each := f.2.1 / f.2.2
      (∀ key : Nat → Nat, (∀ l, takesPart s l → checkAccess s needW (addr l) size = .ok (key l)) →
        ∃ t, exec f.1 s = .next t ∧ t = { retired (issued f.1 s) with mem := t.mem, late := t.late, writes := t.writes } ∧
          KeptOutside s t (fun a => ∃ l, takesPart s l ∧ key l ≤ a ∧ a < key l + size) ∧
          (∀ l, takesPart s l → ∀ j < size,
            (∀ m, takesPart s m → l < m → ¬ (key m ≤ key l + j ∧ key l + j < key m + size)) →
            byteAt t.mem (key l + j) =
              BitVec.ofNat 8 ((xget s l (d.toNat + j / each)).toNat / 256 ^ (j % each))) ∧
          ∀ l, takesPart s l → ∃ e ∈ t.late, e.whole = true ∧ e.by_ = .lane (.warp s.w.id) (oneLane l) s.sp.active (coreOf s) s.ctx.id ∧
            e.bytes.map (fun x => x.1) = keysFrom (key l) size) ∧
      (∀ l c, takesPart s l → (∀ m < l, takesPart s m → ∃ key, checkAccess s needW (addr m) size = .ok key) →
        checkAccess s needW (addr l) size = .bad c →
        exec f.1 s = .next (trapped (issued f.1 s) c (BitVec.ofNat 64 (addr l)) s.sp.pc))

/-- R172 to R174, R167: the lanes of an atomic act one at a time in ascending order. Each reads its word or double word,
stores a value made of it and x[d], and returns what it read; REDA and REDAF return nothing. The others release before
they act and acquire what each step reads (R296, log 7). A reduction acts on the newest value of its location, or, where
Config says so, on what writes have replaced that nothing orders before it and its split has not seen (R299, R322, log
7). -/
def Obligations.Atomics : Prop :=
  ∀ (s : State) (d i : BitVec 6) (k : BitVec 5) (la : BitVec 4) (q : BitVec 2) (e : BitVec 1),
    let ty := modeType s.w.mode
    let wide := if type64 ty then 8 else 4
    let sg := signedOf (typeSigned ty) (8 * wide)
    let addr : Nat → Nat := fun l => mAddr s (mform i k q e) l
    let operand : Nat → Nat := fun l => xread s ty l d.toNat
    let forms : List (Instr × (Nat → Nat → Nat)) :=
      [(.atadd d i k la q e, fun o v => (o + v) % 2 ^ (8 * wide)),
       (.atmin d i k la q e, fun o v => if sg v < sg o then v else o),
       (.atmax d i k la q e, fun o v => if sg o < sg v then v else o),
       (.atand d i k la q e, fun o v => o &&& v), (.ator d i k la q e, fun o v => o ||| v),
       (.atxor d i k la q e, fun o v => o ^^^ v), (.atxch d i k la q e, fun _ v => v)]
    let kept : State → Nat → List Byte → State → Prop := fun t key bs u =>
      u = { t with mem := putBytes t.mem key bs, late := u.late, writes := t.writes + 1 }
    let acts : Instr → Nat → (State → State) → (State → Nat → Nat → State → State) → Prop :=
      fun f size start step => Issues f s →
      (∀ key : Nat → Nat, (∀ l, takesPart s l → checkAccess s needAtomic (addr l) size = .ok (key l)) →
        exec f s = .next (retired ((lanesOf (partMask s)).foldl (fun t l => step (start (issued f s)) l (key l) t)
          (start (issued f s))))) ∧
      (∀ l c, takesPart s l → (∀ m < l, takesPart s m → ∃ key, checkAccess s needAtomic (addr m) size = .ok key) →
        checkAccess s needAtomic (addr l) size = .bad c →
        exec f s = .next (trapped (issued f s) c (BitVec.ofNat 64 (addr l)) s.sp.pc))
    let release : State → State := fun u => (releaseNow u).2
    let p := pastNow s
    (∀ f ∈ forms, acts f.1 wide release (fun u l key t =>
      atomReturn (homeStep u p l (addr l) key (some (natLE (f.2 (readKey t key wide) (operand l)) wide)) wide t) ty l d.toNat
        (readKey t key wide) key (addr l))) ∧
    acts (.atcas d i k la q e) 4 release (fun u l key t =>
      loadReg (homeStep u p l (addr l) key (if readKey t key 4 = (xget s l d.toNat).toNat
          then some (natLE (xget s l (d.toNat + 1)).toNat 4) else none) 4 t)
        l d.toNat (BitVec.ofNat 32 (readKey t key 4)) (poisonedRange t key 4) (addr l)) ∧
    acts (.reda d i k la q e) wide id (fun u l key t =>
      redStore u wide l (addr l) key (fun o => (o + operand l) % 2 ^ (8 * wide)) t) ∧
    acts (.redaf d i k la q e) 4 id (fun u l key t =>
      redStore u 4 l (addr l) key (fun o => redafWord s o (xget s l d.toNat).toNat) t) ∧
    (∀ (size l va key : Nat) (new : Nat → Nat) (t : State),
      let ks := keysFrom key size
      let w := { laneWrite s (oneLane l) va with rmw := true }
      redStore s size l va key new t = laneStore s none true (oneLane l) va key (natLE (new (readKey t key size)) size) t ∨
      ∃ newer e older, t.late = newer ++ older ∧ e ∈ newer ∧
        (∀ f ∈ newer, f.touches ks = true → f.rmw = false ∧ f.so = false ∧ f.received (pastNow t) true = [] ∧
          ∀ k ∈ ks, (f.oldAt k).isSome = true ∧ f.sees t (laneReaderOf t (some l)) k = false) ∧
        redStore s size l va key new t =
          storeBefore w e newer older t key (natLE (new (leNat (ks.map (fun k => (e.oldAt k).getD 0)))) size)) ∧
    (∀ (rel : Option Past) (rmw : Bool) (lanes : Mask) (l va key size : Nat) (bs : List Byte) (t : State), bs.length < 32 →
      kept t key bs (homeStep s p l va key (some bs) size t) ∧ kept t key bs (laneStore s rel rmw lanes va key bs t) ∧
      homeStep s p l va key none size t = { t with late := (homeStep s p l va key none size t).late }) ∧
    (∀ (t : State) (l old key a : Nat), poisonedRange t key wide = false →
      atomReturn t ty l d.toNat old key a = xwrite t ty l d.toNat old)

/-- R171, R168: KLD and KST move the eight bytes at k[kb] once, checked as R167 says; a poisoned KLD raises ECCFATAL. A
KLD reads what the warp's lanes see, and the split reads nothing older there again; a KST is an access of all lanes of
the split (log 7). R169 with the laws of memory: bytes written are read back little-endian, other bytes are left, and a
write keeps the canonical form. R167, R41, R43, R370: the checks of one access come in a fixed order: canonical,
aligned, translated, permitted. The encodings of KLD and KST. -/
def Obligations.UniformMemory : Prop :=
  (∀ (s : State) (d : BitVec 6) (k : BitVec 5) (la : BitVec 4),
    let a := (kget s k.toNat).toNat
    (∀ c, checkAccess s needR a 8 = .bad c →
      OnceEnds (.kld d k la) s (fun u => trapped u c (kget s k.toNat) s.sp.pc)) ∧
    (∀ key, checkAccess s needR a 8 = .ok key → poisonedRange s key 8 = true →
      OnceEnds (.kld d k la) s (fun u => trapped u cEccfatal (kget s k.toNat) s.sp.pc)) ∧
    (∀ key, checkAccess s needR a 8 = .ok key → poisonedRange s key 8 = false →
      OnceResult (.kld d k la) s (fun u => rememberReads (kset u d.toNat (BitVec.ofNat 64 (readAs (laneReader s) s key 8)))
        (readWrites s none (keysFrom key 8)))) ∧
    (∀ c, checkAccess s needW a 8 = .bad c →
      OnceEnds (.kst d k la) s (fun u => trapped u c (kget s k.toNat) s.sp.pc)) ∧
    (∀ key, checkAccess s needW a 8 = .ok key →
      OnceResult (.kst d k la) s (fun u =>
        let bs := natLE (kget s d.toNat).toNat 8
        { u with mem := putBytes s.mem key bs, writes := s.writes + 1
                 late := (laneStore s none false s.sp.active a key bs s).late }))) ∧
  (∀ (m : Memory) (key other size v : Nat) (bs : List Byte),
    bytesAt (putBytes m key bs) key bs.length = bs ∧
    (other < key ∨ key + bs.length ≤ other → byteAt (putBytes m key bs) other = byteAt m other) ∧
    leNat (natLE v size) = v % 256 ^ size ∧ (natLE v size).length = size ∧
    (Memory.wf m = true → Memory.wf (putBytes m key bs) = true)) ∧
  (∀ (s : State) (n : Need) (va size : Nat),
    (2 ^ 56 ≤ va → checkAccess s n va size = .bad cProt) ∧
    (va < 2 ^ 56 → va % size ≠ 0 → checkAccess s n va size = .bad cAlign) ∧
    (va < 2 ^ 56 → va % size = 0 → translate s va = .page → checkAccess s n va size = .bad cPage) ∧
    (va < 2 ^ 56 → va % size = 0 → translate s va = .prot → checkAccess s n va size = .bad cProt) ∧
    (∀ p, va < 2 ^ 56 → va % size = 0 → translate s va = .ok p → permits n p = false →
      checkAccess s n va size = .bad cProt) ∧
    (∀ p, va < 2 ^ 56 → va % size = 0 → translate s va = .ok p → permits n p = true →
      checkAccess s n va size = .ok p.key) ∧
    (∀ p, translate s va = .ok p → (n.r = true ∧ p.r = false) ∨ (n.w = true ∧ p.w = false) ∨ p.maj = true →
      permits n p = false) ∧
    (tileBase ≤ va → va < tileEnd → (va - tileBase) / 0x1000000 ≠ s.ctx.part → translate s va = .prot)) ∧
  (∀ (d : BitVec 6) (k : BitVec 5) (la : BitVec 4),
    encode (.kld d k la) = 0x9E#8 ++ d ++ 63#6 ++ k ++ la ++ 0#3 ∧ encode (.kst d k la) = 0x9F#8 ++ d ++ 63#6 ++ k ++ la ++ 0#3)

/-- R176, R178, R179: MLD, MST and MCAS check the cell's address, raise MAJFAIL at once where fewer than a majority of
the set's stacks serve, wait behind an earlier store of their quadrant on the cell, and otherwise end with what the
majority phases give. A load fails exactly where too few stacks serve, waits where too few replies hold a value, and
answers the payload of the newest line of its majority, which it sends to the rest of that majority and to poisoned
copies. R243: TRSIG hands its cell and value to the quadrant's majority unit and goes on; TRWAIT ends once its cell's
READY is at least k[b], and waits on while it is less. -/
def Obligations.MajorityAccesses : Prop :=
  (∀ (s : State) (d e : BitVec 6) (k : BitVec 5) (la : BitVec 4) (p : BitVec 3),
    let va := kget s k.toNat
    let payload : Payload := kquad s d.toNat
    let kept : List DWord → Nat → State → State := fun vs key u =>
      keepArgs u (va :: BitVec.ofNat 64 (cellOf key) :: vs)
    let rw : Need := ⟨true, true, false, false⟩
    let args := (List.range 4).map (fun j => kget s (d.toNat + j))
    let puts : State → Bool → State := fun t b =>
      { t with w := setPred t.w p.toNat (partMask s &&& t.sp.active) (if b then 0xFFFFFFFF else 0) }
    let ends : Instr → Need → List DWord → (Nat → State → State) → Prop := fun i n vs f =>
      (∀ c, checkCell s n va.toNat = .bad c → OnceEnds i s (fun u => trapped u c va s.sp.pc)) ∧
      ∀ key, checkCell s n va.toNat = .ok key → cellOf key < 2 ^ 64 →
        (tooFew s (cellOf key) = true → OnceEnds i s (fun u => trapped (kept vs key u) cMajfail va s.sp.pc)) ∧
        (tooFew s (cellOf key) = false → cellBusy s (cellOf key) = true → OnceEnds i s (fun u => waits i (kept vs key u))) ∧
        (tooFew s (cellOf key) = false → cellBusy s (cellOf key) = false → OnceEnds i s (f key))
    ends (.mld d k la) needR [] (fun key u => match majLoad (kept [] key u) (cellOf key) with
      | .fail => trapped (kept [] key u) cMajfail va s.sp.pc
      | .wait => waits (.mld d k la) (kept [] key u)
      | .done _ v t => retired (ksetQuad (acquireCell t (cellOf key)) d.toNat v)) ∧
    (s.env.parted = [] → ends (.mst d k la p) needW args (fun key u =>
      match majStore (kept args key u) (cellOf key) (warpWid s.w) payload with
      | .fail => trapped (kept args key u) cMajfail va s.sp.pc
      | .wait => waits (.mst d k la p) (kept args key u)
      | .done b _ t => retired (puts (if b then releaseStore t (cellOf key) false else t) b))) ∧
    (s.env.parted = [] → ends (.mcas d e k la p) rw (kget s e.toNat :: args) (fun key u =>
      let v := kept (kget s e.toNat :: args) key u
      match majCas v (cellOf key) (warpWid s.w) (kget s e.toNat) payload with
      | .fail => trapped v cMajfail va s.sp.pc
      | .wait => waits (.mcas d e k la p) v
      | .done true _ t => retired (puts (releaseStore (acquireCell t (cellOf key)) (cellOf key) true) true)
      | .done false x t => retired (puts (ksetQuad (acquireCell t (cellOf key)) d.toNat x) false))) ∧
    ∀ cell, (tooFew s cell = true ↔ (serving s cell).length < quorum s.shape) ∧
      (majLoad s cell = .fail ↔ tooFew s cell = true) ∧
      (majLoad s cell = .wait ↔ tooFew s cell = false ∧ readPhase s cell = none) ∧
      (∀ b v t, majLoad s cell = .done b v t → ∃ q line, readPhase s cell = some (q, line) ∧ v = line.payload ∧
        q.length = quorum s.shape ∧ (∀ x ∈ q, x ∈ serving s cell ∧ (lineAt s x cell).holds = true) ∧
        (∃ x ∈ q, line = lineAt s x cell) ∧ (∀ x ∈ q, tagRank (lineAt s x cell).tag ≤ tagRank line.tag) ∧
        t = repairPoison (sendAll s cell line q) cell line)) ∧
  (∀ (s : State) (a b : BitVec 6),
    let va := kget s a.toNat
    let kept : Nat → State → State := fun key u => keepArgs u [va, BitVec.ofNat 64 (cellOf key), kget s b.toNat]
    (∀ c, checkCell s ⟨true, true, false, false⟩ va.toNat = .bad c →
      OnceEnds (.trsig a b) s (fun u => trapped u c va s.sp.pc)) ∧
    (∀ key, checkCell s ⟨true, true, false, false⟩ va.toNat = .ok key →
      OnceResult (.trsig a b) s (fun u => { (releaseNow u).2 with trsigs := s.trsigs ++
        [{ cell := cellOf key, addr := va, value := kget s b.toNat
           warp := { s.w with splits := [], overflow := [] }, number := s.crew.number, flog := s.crew.flog, pc := s.sp.pc
           since := s.cycle.toNat, past := pastNow s }] })) ∧
    (∀ c, checkCell s needR va.toNat = .bad c → OnceEnds (.trwait a b) s (fun u => trapped u c va s.sp.pc)) ∧
    (∀ key, checkCell s needR va.toNat = .ok key → cellOf key < 2 ^ 64 →
      tooFew s (cellOf key) = false → cellBusy s (cellOf key) = true →
      OnceEnds (.trwait a b) s (fun u => waits (.trwait a b) (kept key u))) ∧
    (∀ key, checkCell s needR va.toNat = .ok key → cellOf key < 2 ^ 64 →
      tooFew s (cellOf key) = true ∨ cellBusy s (cellOf key) = false →
      OnceEnds (.trwait a b) s (fun u => match majLoad (kept key u) (cellOf key) with
        | .fail => trapped (kept key u) cMajfail va s.sp.pc
        | .wait => waits (.trwait a b) (kept key u)
        | .done _ v t =>
          if (kget s b.toNat).toNat ≤ (v.extractLsb' 0 64).toNat then retired (acquireCell t (cellOf key))
          else waits (.trwait a b) { t with sp := { t.sp with since := t.cycle.toNat } })))

/-- R178, R179: a load begun where a store has just completed finds the store's tag, whichever majority answers first:
the line its read phase learns is at least as new. A line that a stack holds is never replaced by an older one. Which
stacks a store reaches only after it has completed is the model's input (log 10). -/
def Obligations.MajorityReadsSeeStores : Prop :=
  ∀ (s t : State) (cell wid : Nat) (read : BitVec 64) (payload seen v : Payload) (replies : List Nat) (q : List Nat)
    (line : CopyLine), s.shape = 3 ∨ s.shape = 5 → (setStacks s cell).Nodup → wid < 4096 → tagTide read < 2 ^ 48 - 1 →
    storePhase s cell wid read payload = .done true seen t →
    readPhase { t with env := { t.env with replies := replies } } cell = some (q, line) →
    tagRank (mkTag (tagTide read + 1) wid) ≤ tagRank line.tag ∧
    (tagRank line.tag = tagRank (mkTag (tagTide read + 1) wid) →
      (∀ k ∈ serving s cell, tagRank (lineAt s k cell).tag < tagRank (mkTag (tagTide read + 1) wid)) →
      line.payload = payload) ∧
    (∀ o u, majLoad { t with env := { t.env with replies := replies } } cell = .done o v u →
      quorum s.shape ≤ ((serving s cell).filter (fun k =>
        decide (tagRank line.tag ≤ tagRank (lineAt u k cell).tag))).length) ∧
    (∀ j k x, cell / setCount s.shape < 2 ^ 22 → x.holds = true → (lineAt t k cell).holds = true →
      (lineAt (sendLine t cell x j) k cell).holds = true ∧
      tagRank (lineAt t k cell).tag ≤ tagRank (lineAt (sendLine t cell x j) k cell).tag)

/-- R186: REL ≤ FIL ≤ RES ≤ REL + DEPTH and no cursor above FIL, kept by every step for every ring of every crew, saved
ones among them. -/
def Obligations.RingOrder : Prop :=
  ∀ (s t : State), RingsOk s → step s = .next t → RingsOk t

/-- R185 to R187: RNGDEF binds ring r as the descriptor at k[b] says, unbinds it where k[b] is 0, and leaves its checks'
traps in one order: OPERAND 2 where the ring is in use, ALIGN, PROT outside crew memory, OPERAND 3 for bad fields,
OPERAND 4 where the slots leave crew memory. That order is the model's reading (log 45). Slices that wait on the ring
are checked again against the new one (log 45), with their waits as old as they were (log 88). The entries its commands
leave are taken by collectives that wait for one. -/
def Obligations.RingDefinitions : Prop :=
  ∀ (s : State) (r b : BitVec 6), s.crew.dispatch = false →
    let i : Instr := .rngdef r b
    let va := (kget s b.toNat).toNat
    let used := rngRefused s r.toNat
    let outside : Nat → Nat → Prop := fun a n => a < s.crew.cmbase ∨ s.crew.cmbase + s.crew.cmsize < a + n
    (used = true → OnceEnds i s (fun u => trapped u cOperand 2 s.sp.pc)) ∧
    (used = false → va = 0 → OnceResult i s (fun u => bindRing u r.toNat Ring.blank false)) ∧
    (used = false → va ≠ 0 → va % 32 ≠ 0 → OnceEnds i s (fun u => trapped u cAlign (kget s b.toNat) s.sp.pc)) ∧
    (used = false → va ≠ 0 → va % 32 = 0 → outside va 32 →
      OnceEnds i s (fun u => trapped u cProt (kget s b.toNat) s.sp.pc)) ∧
    (used = false → va ≠ 0 → va % 32 = 0 → ¬ outside va 32 →
      (∀ c v, readRecord s needR 32 va 32 = .error (c, v) →
        OnceEnds i s (fun u => trapped u c (BitVec.ofNat 64 v) s.sp.pc)) ∧
      (∀ bs, readRecord s needR 32 va 32 = .ok bs →
        let x := ringOf (kget s b.toNat) (leNat bs)
        (ringBad (leNat bs) = true → OnceEnds i s (fun u => trapped u cOperand 3 s.sp.pc)) ∧
        (ringBad (leNat bs) = false → outside x.base (x.depth * x.slotBytes) →
          OnceEnds i s (fun u => trapped u cOperand 4 s.sp.pc)) ∧
        (ringBad (leNat bs) = false → ¬ outside x.base (x.depth * x.slotBytes) →
          OnceResult i s (fun u => bindRing u r.toNat x ((leNat bs).testBit 88))))) ∧
    (∀ (u : State) (n : Nat) (x : Ring) (accept : Bool), n < u.crew.rings.length → (∀ c ∈ u.crews, c.id ≠ u.crew.id) →
      let t := bindRing u n x accept
      let kept : Ring → Ring := fun y => { y with collectives := y.collectives.map (fun g => { g with queued := false }) }
      t.crew.rings[n]? = some x ∧ (∀ m, m ≠ n → (t.crew.rings[m]?).map kept = (u.crew.rings[m]?).map kept) ∧
        (∀ m < 8, t.crew.mcast.getLsbD m = if m = n then accept else u.crew.mcast.getLsbD m) ∧
        (∀ c ∈ t.clus.copies, ¬ (c.crew = u.crew.id ∧ c.ring = n)) ∧ t.sp = u.sp ∧ t.mem = u.mem ∧
        (let f : Split → Split := fun p => if waitsOnRing n p then { p with slice := none } else p
         t.w = { u.w with splits := u.w.splits.map f, overflow := u.w.overflow.map f }))

/-- R188, R189, R191: a CPY or CPYM slice is checked, joins the oldest open collective of its ring that has none of its
warp, else opens one, and waits where an older collective waits for a ring it names (R378; for slices other than
multicasts log 70) or a slot is not free. The slice takes its tensors when it is checked, and the split keeps it while
it waits (log 66). A core mask above 255 raises MCAST with the mask; a slice for a collective with another mask raises
OPERAND 8, judged last (logs 45, 82). -/
def Obligations.CopySlices : Prop :=
  ∀ (s : State) (m r b : BitVec 6) (q : BitVec 2), s.crew.dispatch = false →
    let va := (kget s b.toNat).toNat
    let mask := kget s m.toNat
    let places : Instr → Option Nat → List DWord → List Byte → State → State := fun i mk args bs u0 =>
      let u1 := keepArgs u0 args
      match checkSlice u1 r.toNat q.toNat bs with
      | .error v => trapped u1 cOperand (BitVec.ofNat 64 v) s.sp.pc
      | .ok x =>
        let u := { u1 with sp := { u1.sp with slice := some x } }
        match openFor u r.toNat with
        | some g => if g.mask = mk then stopSteps (retired (joinSlice u r.toNat g.slot x))
                    else trapped u cOperand 8 s.sp.pc
        | none =>
          if mustWait u r.toNat mk s.cycle.toNat then waits i u
          else match openCollective u r.toNat mk with
            | none => waits i u
            | some t => stopSteps (retired (joinSlice t r.toNat (ringAt u r.toNat).res x))
    (∀ c v, readRecord s needRec 64 va 64 = .error (c, v) →
      OnceEnds (.cpy r b q) s (fun u => trapped u c (BitVec.ofNat 64 v) s.sp.pc)) ∧
    (∀ bs, readRecord s needRec 64 va 64 = .ok bs → recByte bs 0 ≠ 1 →
      OnceEnds (.cpy r b q) s (places (.cpy r b q) none (0 :: descArgs bs) bs)) ∧
    (256 ≤ mask.toNat → OnceEnds (.cpym m r b q) s (fun u => trapped u cMcast mask s.sp.pc)) ∧
    (∀ c v, mask.toNat < 256 → readRecord s needRec 64 va 64 = .error (c, v) →
      OnceEnds (.cpym m r b q) s (fun u => trapped u c (BitVec.ofNat 64 v) s.sp.pc)) ∧
    (∀ bs, mask.toNat < 256 → readRecord s needRec 64 va 64 = .ok bs →
      OnceEnds (.cpym m r b q) s (places (.cpym m r b q) (some mask.toNat) (0 :: mask :: descArgs bs) bs)) ∧
    (∀ x i, i = .cpy r b q → s.sp.wait = some i → argN s 0 = 0 → s.sp.slice = some x → openFor s r.toNat = none →
      (mustWait s r.toNat none s.sp.since = true ∨ openCollective s r.toNat none = none →
        JudgedEnds i s { s with sp := { s.sp with
          state := if s.sp.state = .ready then .waiting else s.sp.state } }) ∧
      (∀ t, mustWait s r.toNat none s.sp.since = false → openCollective s r.toNat none = some t →
        JudgedEnds i s (goesOn (joinSlice t r.toNat (ringAt s r.toNat).res x)))) ∧
    (∀ n mk, (openCollective s n mk).isSome = true → (ringAt s n).res - (ringAt s n).rel < (ringAt s n).depth) ∧
    (∀ n (t : State), n < s.crew.rings.length → openCollective s n none = some t →
      t = { s with crew := t.crew } ∧ ringAt t n = { ringAt s n with
        res := (ringAt s n).res + 1, skips := min 255 (ringAt s n).skips
        collectives := (ringAt s n).collectives ++
          [{ slot := (ringAt s n).res, mask := none, slices := [], opened := s.cycle.toNat, complete := false
             queued := false, receivers := [] }] })

/-- R188, R199, R200: a grow request with bad fields raises OPERAND 3, one with a qualifier OPERAND 5. One that no other
crew's memory stands in the way of is granted at once: k[b] and CMSIZE become the new size and the added bytes read
zero. One that can never be granted fails with 0. One that is not decided waits, and its CPY goes on with the result in
k[b] once the request has one. OPERAND 3 before 5, and a crew's requests judged one at a time, oldest first, are log 37.
A crew of CMSIZE 0 holds no byte of any range. R199, R200, R380: a request is granted where no other crew's memory
overlaps its range, fails where it never can be, or where it may not wait; where every holder waits too, the most recent
of the requester's and the holders' requests fails, by the clock at issue, then CORE * 4 + QUAD, then CREW (R380); one
that has waited WAIT clocks fails. A crew's requests are judged one at a time, oldest first (log 37). -/
def Obligations.CrewMemoryGrowth : Prop :=
  (∀ (s : State) (r b : BitVec 6) (q : BitVec 2) (bs : List Byte), s.crew.dispatch = false →
    readRecord s needRec 64 (kget s b.toNat).toNat 64 = .ok bs → recByte bs 0 = 1 →
    let size := recNat bs 4 4
    let good : Prop := recNat bs 1 3 = 0 ∧ recNat bs 12 52 = 0 ∧ 0 < size ∧ size % 4096 = 0
    let lo := s.crew.cmbase + s.crew.cmsize
    let alone : Prop := s.crew.live = true ∧ s.clus.id = s.crew.clus ∧ s.nextId < 2 ^ 64 ∧ (∀ g ∈ s.clus.grows, g.id < s.nextId) ∧
      ∀ g ∈ s.clus.grows, g.crew ≠ s.crew.id
    let possible : Prop := lo + size ≤ sliceBase s.crew.clus + 0x400000 ∧ s.crew.cmsize + size ≤ 0x400000
    let free : Prop := ∀ c ∈ s.allCrews, c.clus = s.crew.clus → c.dispatch = false → c.id ≠ s.crew.id → c.cmsize ≠ 0 →
      ¬ (c.cmbase < lo + size ∧ lo < c.cmbase + c.cmsize)
    (¬ good → OnceEnds (.cpy r b q) s (fun u => trapped u cOperand 3 s.sp.pc)) ∧
    (good → q ≠ 0 → OnceEnds (.cpy r b q) s (fun u => trapped u cOperand 5 s.sp.pc)) ∧
    (good → q = 0 → alone → possible → free → s.crew.cmsize + size < 2 ^ 64 → anyLane s = true → Issues (.cpy r b q) s →
      ∃ t, exec (.cpy r b q) s = .next t ∧ t.crew.cmsize = s.crew.cmsize + size ∧
        kget t b.toNat = (if b = 0 then 0 else BitVec.ofNat 64 (s.crew.cmsize + size)) ∧
        (∀ a, lo ≤ a → a < lo + size → byteAt t.mem a = 0) ∧
        (∀ a, a < lo ∨ lo + size ≤ a → byteAt t.mem a = byteAt s.mem a) ∧ t.clus.grows = s.clus.grows ∧
        t.w = { s.w with k := t.w.k } ∧ t.ctx = s.ctx) ∧
    (good → q = 0 → alone → possible → recNat bs 8 4 ≠ 0 → anyLane s = true → Issues (.cpy r b q) s →
      (∃ h ∈ holdersOf s s.crew.id lo (lo + size), waitingGrow s h = none) →
      exec (.cpy r b q) s = .next (waits (.cpy r b q) (keepArgs { issued (.cpy r b q) s with
        nextId := s.nextId + 1
        clus := { s.clus with grows := s.clus.grows ++ [{
          id := s.nextId, crew := s.crew.id, size := size, limit := recNat bs 8 4, since := s.cycle.toNat
          rank := s.w.core * 4 + s.w.quad, number := s.crew.number.toNat, result := none }] } }
        [BitVec.ofNat 64 s.nextId]))) ∧
    (good → q = 0 → alone → ¬ possible → anyLane s = true → Issues (.cpy r b q) s →
      exec (.cpy r b q) s = .next (retired { kset (issued (.cpy r b q) s) b.toNat 0 with nextId := s.nextId + 1 }))) ∧
  (∀ (s : State) (r b : BitVec 6) (q : BitVec 2) (g : Grow), argN s 0 ≠ 0 →
    s.clus.grows.find? (fun x => x.id == (argN s 0).toNat) = some g →
    (g.result = none → JudgedEnds (.cpy r b q) s { s with sp := { s.sp with
      state := if s.sp.state = .ready then .waiting else s.sp.state } }) ∧
    ∀ v, g.result = some v → JudgedEnds (.cpy r b q) s (goesOn (kset { s with clus := { s.clus with
      grows := s.clus.grows.filter (fun x => x.id != (argN s 0).toNat) } } b.toNat (BitVec.ofNat 64 v)))) ∧
  (∀ (s : State),
    let at_ : Cluster → State := fun c => focusOn s 0 0 c.id
    (∀ cs c ds t, (pack s).cluss = cs ++ c :: ds → (∀ d ∈ cs, growStep (at_ d) (openGrows (at_ d)) = none) →
      growStep (at_ c) (openGrows (at_ c)) = some t → exec .growDecided s = .next t) ∧
    (∀ cs c ds g, (pack s).cluss = cs ++ c :: ds → (∀ d ∈ cs, ∀ x ∈ (at_ d).clus.grows, growLate (at_ d) x = false) →
      (at_ c).clus.grows.find? (growLate (at_ c)) = some g → exec .growTimeout s = .next (setResult (at_ c) g.id 0)) ∧
    (∀ id v, setResult s id v = { s with clus := { s.clus with grows := s.clus.grows.map (fun g =>
      if g.id = id then { g with result := some v } else g) } }) ∧
    (∀ g c, crewAt s g.crew = some c → growImpossible c g = true → judgeGrow s g = some (setResult s g.id 0)) ∧
    (∀ g c, crewAt s g.crew = some c → growImpossible c g = false →
      holdersOf s c.id (growRange c g).1 (growRange c g).2 = [] → judgeGrow s g = some (grantGrow s c g)) ∧
    (∀ g c, crewAt s g.crew = some c → growImpossible c g = false → g.limit = 0 →
      holdersOf s c.id (growRange c g).1 (growRange c g).2 ≠ [] → judgeGrow s g = some (setResult s g.id 0)) ∧
    (∀ g, growLate s g = true ↔ g.result = none ∧ g.limit ≠ 0xFFFFFFFF ∧ g.since + g.limit ≤ s.cycle.toNat) ∧
    (∀ g c, crewAt s g.crew = some c → growImpossible c g = false → g.limit ≠ 0 →
      let hs := holdersOf s c.id (growRange c g).1 (growRange c g).2
      let gs := g :: hs.filterMap (waitingGrow s)
      hs ≠ [] →
      ((∀ h ∈ hs, (waitingGrow s h).isSome = true) → ∃ m ∈ gs, judgeGrow s g = some (setResult s m.id 0) ∧
        ∀ a ∈ gs, moreRecent a m = false) ∧
      (¬ (∀ h ∈ hs, (waitingGrow s h).isSome = true) → judgeGrow s g = none)) ∧
    (∀ a b, moreRecent a b = true ↔ b.since < a.since ∨ (a.since = b.since ∧ (b.rank < a.rank ∨
      (a.rank = b.rank ∧ b.number < a.number)))) ∧
    (∀ (h : Crew) (g : Grow), waitingGrow s h = some g → h.state = .running ∧ g ∈ s.clus.grows ∧ g.result = none ∧
      g.crew = h.id) ∧
    (∀ gs t, growStep s gs = some t ↔ ∃ a g b, gs = a ++ g :: b ∧ (∀ x ∈ a, judgeGrow s x = none) ∧ judgeGrow s g = some t))

/-- R192, R196, R399: AWAITF ends once its slot is filled, AWAITF.C once its chunk is; an unbound ring raises OPERAND 1,
a chunk the slot has not OPERAND 7, and a fault held for the slot is raised with its address by either. Delivering PAGE
clears the record and leaves the engine stopped; the next AWAITF issued on the slot sets the engine going before it is
judged, and raises PAGE itself where the mapping is still missing; one that is itself bad changes nothing. A return
orders the writes of its slot or chunk, and what was released with the slot before, before the lanes' reads (R197, log
7). An AWAITF that waits is judged against the ring as it then stands (log 90). R193, R194: RELS releases the warp's
oldest slot, raising OPERAND 1 on an unbound ring and OPERAND 6 where no filled slot is left to it. It adds one to the
slot's count and to the warp's cursor; then every slot from REL on whose count is NREL is freed, its count 0, up to FIL
or the first slot with another count. RNGST reads the ring's word. The encodings of RELS and RNGST. -/
def Obligations.RingWaitsAndReleases : Prop :=
  (∀ (s : State) (r b : BitVec 6), s.crew.dispatch = false →
    let x := ringAt s r.toNat
    let c := x.cursor s.w.id
    let j := (kget s b.toNat).toNat
    let both : (State → State) → Prop := fun f => OnceEnds (.awaitf r) s f ∧ OnceEnds (.awaitfC r b) s f
    let done : Option Nat → State → State := fun chunk u =>
      awaitMem u r.toNat c chunk ((x.pasts.filter (fun y => y.1 + x.depth == c)).map (fun y => y.2))
    let filled : Option Nat → State → State := fun chunk u => retired (done chunk u)
    let calm : Prop := ∀ f, x.fault = some f → f.delivered = false ∨ f.slot ≠ c
    (x.bound = false → both (fun u => trapped u cOperand 1 s.sp.pc)) ∧
    (x.bound = true → x.chunkCount ≤ j → OnceEnds (.awaitfC r b) s (fun u => trapped u cOperand 7 s.sp.pc)) ∧
    (x.bound = true → calm → c < x.fil → OnceEnds (.awaitf r) s (filled none) ∧
      (j < x.chunkCount → OnceEnds (.awaitfC r b) s (filled (some j)))) ∧
    (x.bound = true → calm → c = x.fil → j < x.chunkCount → j ∈ x.chunks → OnceEnds (.awaitfC r b) s (filled (some j))) ∧
    (x.bound = true → x.fil ≤ c → x.fault = none →
      OnceEnds (.awaitf r) s (fun u => waits (.awaitf r) (keepArgs u [])) ∧
      (j < x.chunkCount → ¬ (c = x.fil ∧ j ∈ x.chunks) →
        OnceEnds (.awaitfC r b) s (fun u => waits (.awaitfC r b) (keepArgs u [kget s b.toNat])))) ∧
    (x.bound = true → x.fil ≤ c → ∀ f, x.fault = some f → f.slot = c → f.delivered = false →
      let raised : State → State := fun u =>
        if f.cause = cPage ∧ deliverable u = true then
          trapped (onRing u r.toNat (fun y => { y with fault := some { f with delivered := true } })) f.cause f.addr s.sp.pc
        else trapped u f.cause f.addr s.sp.pc
      OnceEnds (.awaitf r) s raised ∧
        (j < x.chunkCount → ¬ (c = x.fil ∧ j ∈ x.chunks) → OnceEnds (.awaitfC r b) s raised)) ∧
    (x.bound = true → ∀ f, x.fault = some f → f.slot = c → f.delivered = true →
      (x.fil ≤ c → stillMissing s f = false → OnceEnds (.awaitf r) s (fun u =>
        waits (.awaitf r) (restartCommand (keepArgs u []) r.toNat))) ∧
      (stillMissing s f = false → c = x.fil → j < x.chunkCount → j ∈ x.chunks → OnceEnds (.awaitfC r b) s (fun u =>
        filled (some j) (restartCommand u r.toNat))) ∧
      (stillMissing s f = true → f.cause = cPage → s.crew.state = .running → heldByCrew s = false →
        handlerBusy s = false → s.sp.level = 0 →
        let raised : State → State := fun u => trapped (onRing u r.toNat (fun y =>
          { y with fault := some { f with delivered := true } })) f.cause f.addr s.sp.pc
        OnceEnds (.awaitf r) s raised ∧ (j < x.chunkCount → OnceEnds (.awaitfC r b) s raised))) ∧
    (∀ (u : State) (n : Nat), (∀ d ∈ (restartCommand u n).clus.copies, d.crew = u.crew.id → d.ring = n → d.stalled = false) ∧
      (n < u.crew.rings.length → (ringAt (restartCommand u n) n).fault = none)) ∧
    (x.bound = true → c < x.fil → JudgedEnds (.awaitf r) s (goesOn (done none s)))) ∧
  (∀ (s : State) (d r : BitVec 6), s.crew.dispatch = false →
    let x := ringAt s r.toNat
    let c := x.cursor s.w.id
    (x.bound = false → OnceEnds (.rels r) s (fun u => trapped u cOperand 1 s.sp.pc)) ∧
    (x.bound = true → x.fil ≤ c → OnceEnds (.rels r) s (fun u => trapped u cOperand 6 s.sp.pc)) ∧
    (x.bound = true → c < x.fil → OnceResult (.rels r) s (fun u => { u with writes := u.writes + 1, crew := { u.crew with
      rings := u.crew.rings.mapIdx (fun n y => if n = r.toNat then releaseSlot y s.w.id (pastNow s) else y) } })) ∧
    (∀ (y : Ring) (w : Nat) (p : Past),
      let z := releaseSlot y w p
      let count : Nat → Nat := fun n => sget 0 y.counts n + (if n = y.cursor w then 1 else 0)
      z = { y with counts := z.counts, cursors := z.cursors, rel := z.rel, pasts := z.pasts } ∧ (y.cursor w, p) ∈ z.pasts ∧
      z.cursor w = y.cursor w + 1 ∧
      (∀ v, v ≠ w → z.cursor v = y.cursor v) ∧ y.rel ≤ z.rel ∧ (y.rel ≤ y.fil → z.rel ≤ y.fil) ∧
      (∀ n, y.rel ≤ n → n < z.rel → count n = y.nrel) ∧ (z.rel < y.fil → count z.rel ≠ y.nrel) ∧
      (∀ n, sget 0 z.counts n = if y.rel ≤ n ∧ n < z.rel then 0 else count n)) ∧
    OnceResult (.rngst d r) s (fun u => kset u d.toNat
      (if x.bound then BitVec.ofNat 64 ((if x.faulted then 2 ^ 58 else 0) +
        (if s.crew.mcast.getLsbD r.toNat then 2 ^ 57 else 0) + 2 ^ 56 + x.skips * 2 ^ 48 + x.rel % 2 ^ 16 * 2 ^ 32 +
        x.fil % 2 ^ 16 * 2 ^ 16 + c % 2 ^ 16)
      else 0))) ∧
  (∀ (d r : BitVec 6), encode (.rels r) = 0xB4#8 ++ 0#6 ++ r ++ 0#12 ∧ encode (.rngst d r) = 0xB5#8 ++ d ++ r ++ 0#12)

/-- R189, R190, R196, R377: the oldest queued command of a cluster that may start does, four at most run, and the chunks
of its slot that no slice writes are filled as it starts; a running command fills a chunk, which advances FIL with the
slot's last; a source read that faults leaves its record in the ring. That the unwritten chunks are filled when the
command starts, and that one event performs the whole chunk that nextChunk names, is the model's choice (log 46); that a
fault changes the issuer's ring alone, of a multicast too, is its reading (log 48). -/
def Obligations.CopyEngine : Prop :=
  ∀ (s : State),
    (∀ cs k ds t, (pack s).cluss = cs ++ k :: ds → (∀ d ∈ cs, startCopy s d.id = none) → startCopy s k.id = some t →
      exec .copyCommandStart s = .next t) ∧
    (∀ k t, startCopy s k = some t → ((findCluster (pack s).cluss k).copies.filter (fun c => c.running)).length < 4 ∧
      ∃ c, (findCluster (pack s).cluss k).copies.find? (startable s) = some c ∧ c.running = false ∧ c.stalled = false ∧
        t = beginCommand (focusCrew s c.crew) c) ∧
    (∀ u c g, collectiveOf u { c with running := true } = some g →
      let v := setCommand u c { c with running := true }
      beginCommand u c = endCommand (fillChunks v { c with running := true } g (idleChunks v { c with running := true } g))
        { c with running := true } ∧
      ∀ j, j ∈ idleChunks v c g ↔ j < (ringAt u c.ring).chunkCount ∧ chunkWrites g j = []) ∧
    (∀ cl n u c g, focusCommand s cl n = some (u, c) → collectiveOf u c = some g → c.running = true →
      c.stalled = false →
      (∀ v k, workChunk u c g = (v, k, none) →
        let d : Command := { c with chunk := none, pos := 0 }
        exec (.chunkFilled cl n) s = .next (endCommand
          ((fillsOf (setCommand v c d) d g).foldl
            (fun x p => onCrew x p.1 (fun y => y.withRing c.ring (fillChunk (nextChunk u c) p.2))) (setCommand v c d)) d)) ∧
      (∀ v k cause addr, workChunk u c g = (v, k, some (cause, addr)) → ∃ t, exec (.copyFault cl n) s = .next t ∧
        t = { setCommand v c { c with running := false, stalled := true, chunk := some (nextChunk u c), pos := k } with
          crew := t.crew } ∧
        (c.ring < v.crew.rings.length → (ringAt t c.ring).fault =
          some { cause := cause, addr := BitVec.ofNat 64 addr, slot := c.slot, delivered := false }) ∧
        ∀ m, m ≠ c.ring → ringAt t m = ringAt v m)) ∧
    (∀ j slot (x : Ring), x.fil = slot → slot < x.res → x.chunks.Pairwise (· < ·) → (∀ m ∈ x.chunks, m < x.chunkCount) → j < x.chunkCount →
      ((∀ m < x.chunkCount, m = j ∨ m ∈ x.chunks) → (fillChunk j slot x).fil = slot + 1 ∧ (fillChunk j slot x).chunks = []) ∧
      (¬ (∀ m < x.chunkCount, m = j ∨ m ∈ x.chunks) →
        (fillChunk j slot x).fil = slot ∧ ∀ m, m ∈ (fillChunk j slot x).chunks ↔ m = j ∨ m ∈ x.chunks)) ∧
    (∀ u j x, x.src.inside x.from_ = false → copySource u j x = .ok (0, false)) ∧
    (∀ u j x ks, x.src.inside x.from_ = true → checkRun u needR (x.src.addr x.from_) (elemSize x.src.fmt) = .ok ks →
      copySource u j x = .ok (bitsOf (leNat (gatherBy (.job j) u ks)) (elemBit x.src.fmt (at_ x.from_ 0))
        (typeWidth x.src.fmt), ks.any (poisonedAt u)))

/-- R180 to R183: FENCE ends once the copies and tile work its masks name are done, and waits while they are not; with
an empty mask it ends at once. Which copies, neighbour-list operations, tasks and taps hold a fence back, whatever its
scope, and that a stream whose ring is full does not (R306), is the model's choice (log 77). As it ends, the writes it
waits for are performed for the agents of its scope (log 7). CINV checks its range: a size above 2^30 raises OPERAND
with k[b], and a range whose start is not canonical PROT with k[a], in this order, and a size of 0 checks nothing (log
82); it changes only what is known of the writes. -/
def Obligations.Fences : Prop :=
  ∀ (s : State) (p q c a b : BitVec 6),
    let full : NleOp → Prop := fun o => o.kind = .stream ∧ o.todo.isSome = true ∧ ∃ x ∈ s.allCrews, x.id = o.crew ∧
      let y := x.rings.getD o.ring Ring.blank
      y.depth ≤ y.res - y.rel
    let copies : Prop := (∃ w ∈ s.allCrews, ∃ r ∈ w.rings, ∃ g ∈ r.collectives, ∃ x ∈ g.slices, x.warp = s.w.id) ∨
      ∃ o ∈ s.nles, o.warp = s.w.id ∧ o.fault = none ∧ ¬ full o
    let tasks : Prop := (∃ t ∈ s.clus.tasks, t.warp = s.w.id) ∨ ∃ t ∈ s.ctx.taps, t.warp = s.w.id ∧ t.stage ≠ .done
    let blocked : Prop := p ≠ 0 ∧ q ≠ 0 ∧ ((p.extractLsb' 2 2 ≠ 0 ∧ copies) ∨ (p.extractLsb' 4 2 ≠ 0 ∧ tasks))
    let i : Instr := .fence p q c
    let done : State → State := fun u => fenceMem u p.toNat q.toNat c.toNat
    (¬ blocked → Issues i s →
      exec i s = .next (retired (if anyLane s then done (issued i s) else issued i s))) ∧
    (blocked → Issues i s → exec i s = .next (if anyLane s then waits i (issued i s) else retired (issued i s))) ∧
    (¬ blocked → JudgedEnds i s (goesOn (done s))) ∧
    (∀ j level, (level = 1 ∧ j = .cinvL1 a b) ∨ (level = 2 ∧ j = .cinvDie a b) →
      OnceEnds j s (fun u =>
        if 2 ^ 30 < (kget s b.toNat).toNat then trapped u cOperand (kget s b.toNat) s.sp.pc
        else if kget s b.toNat ≠ 0 ∧ 2 ^ 56 ≤ (kget s a.toNat).toNat then trapped u cProt (kget s a.toNat) s.sp.pc
        else retired (invalidateRange u level (kget s a.toNat).toNat (kget s b.toNat).toNat))) ∧
    (∀ level base size, ∃ l, invalidateRange s level base size = { s with late := l } ∧ (size = 0 → l = s.late))

/-- R201, R204, R205, R385: FETCH reads the elements of a compressed tensor by index into each participating lane, and a
predicate says which lanes got one; an id that is no such tensor raises OPERAND with the word, and a block that cannot
be read gives its trap. Block b is the one the directory's word b places: its bytes there, decoded as R202 and R203 say;
the lowest malformed block is taken as the one at the least address (log 82), and each malformed block is logged once,
after the lanes are written (log 44). Whether a line held is read again is free (log 8); where the lines held are as the
fetch unit reads memory, so are the bytes. FINV drops the tensor's lines from the cluster's fetch cache, and no line
brought in before it serves a later FETCH of the tensor (R205). R202, R203: a bitmap block's i-th element is the value
in the place of the set bits below i, and 0 where bit i is clear; a run-length block's elements are its runs in turn;
other bodies are malformed: N outside 1 to 32, a count of 0, counts that do not add up to 32, a reserved byte that is
not 0. Where every block it needs can be read and is well formed, FETCH completes. -/
def Obligations.FetchUnit : Prop :=
  (∀ (s : State) (d a b : BitVec 6) (la : BitVec 4),
    let h := (kget s b.toNat).toNat
    let good : Tensor → Prop := fun t => h < 2 ^ 11 ∧ tensorAt s (h % 256) = some t ∧ t.cform ≠ 0 ∧
      (typeWidth t.fmt = 8 ∨ typeWidth t.fmt = 16 ∨ typeWidth t.fmt = 32)
    let index : Nat → Nat := fun l => (xget s l a.toNat).toNat
    let draw : Draw := ⟨s.env.free, sget 0 s.clus.finvs (s.ctx.id * 256 + h % 256)⟩
    let drawn : State → State := fun u => { u with env := { u.env with free := u.env.free + 1 } }
    let want : Tensor → List Nat := fun t =>
      distinct (((lanesOf (partMask s)).filter (fun l => decide (index l < t.count))).map (fun l => index l / 32))
    ((∀ t, ¬ good t) → OnceEnds (.fetch d a b la) s (fun u =>
      trapped u cOperand ((encode (.fetch d a b la)).setWidth 64) s.sp.pc)) ∧
    (∀ t, good t → OnceEnds (.fetch d a b la) s (fun u =>
      match readBlocks draw (drawn u) t (want t) with
      | .error (c, v) => trapped (drawn u) c (BitVec.ofNat 64 v) s.sp.pc
      | .ok (blocks, v) =>
        let bads := (blocks.filter (fun x => !x.poisoned)).filterMap (fun x => x.bad)
        let results := (lanesOf (partMask s)).foldl (fun w l => fetchLane t blocks d.toNat (h / 256) (index l) l w) v
        match (if t.strict then leastAddr bads else none) with
        | some n => trapped v cFmterr (BitVec.ofNat 64 n) s.sp.pc
        | none => stopSteps (retired (bads.foldl logFormat results)))) ∧
    (∀ t blocks v, good t → readBlocks draw (drawn (issued (.fetch d a b la) s)) t (want t) = .ok (blocks, v) →
      (∀ x ∈ blocks, x.bad = none) → anyLane s = true → Issues (.fetch d a b la) s →
      ∃ u, exec (.fetch d a b la) s = .next u ∧ ∀ l, takesPart s l →
        (t.count ≤ index l → xget u l d.toNat = 0 ∧ (0 < h / 256 → (predMask u.w (h / 256)).getLsbD l = false)) ∧
        (index l < t.count → ∃ x ∈ blocks, x.num = index l / 32 ∧ (x.poisoned = false →
          xget u l d.toNat = BitVec.ofNat 32 (x.elems.getD (index l % 32) 0) ∧
          (0 < h / 256 → (predMask u.w (h / 256)).getLsbD l = true)))) ∧
    (∀ (t : Tensor) (blocks : List Block) (r p c l : Nat) (u : State), r < 64 → l < 32 → 0 < p →
      (t.count ≤ c → xget (fetchLane t blocks r p c l u) l r = 0 ∧
        (predMask (fetchLane t blocks r p c l u).w p).getLsbD l = false) ∧
      (c < t.count → ∀ x, blocks.find? (fun y => y.num == c / 32) = some x → x.poisoned = false → x.bad = none →
        xget (fetchLane t blocks r p c l u) l r = BitVec.ofNat 32 (x.elems.getD (c % 32) 0) ∧
        (predMask (fetchLane t blocks r p c l u).w p).getLsbD l = true)) ∧
    ((kget s a.toNat).toNat < 256 → ∀ t, tensorAt s (kget s a.toNat).toNat = some t →
      OnceResult (.finv a) s (fun u => { finvMem u with clus := { u.clus with
        fetch := u.clus.fetch.filter (fun e => !(tensorLines s t).contains e.1)
        finvs := sset 0 u.clus.finvs (s.ctx.id * 256 + (kget s a.toNat).toNat) (s.cycle.toNat + 1) } })) ∧
    (256 ≤ (kget s a.toNat).toNat ∨ tensorAt s (kget s a.toNat).toNat = none →
      OnceEnds (.finv a) s (fun u => trapped u cOperand ((encode (.finv a)).setWidth 64) s.sp.pc)) ∧
    (∀ (n : Draw) (u w : State) (t : Tensor) (bs : List Nat) (xs : List Block), readBlocks n u t bs = .ok (xs, w) →
      xs.map (fun x => x.num) = bs) ∧
    (∀ (n : Draw) (u v : State) (t : Tensor) (k : Nat) (x : Block), readBlock n u t k = .ok (x, v) →
      ∃ dir p0 u1, cacheRun n u (t.base + 4 * k) 4 = .ok (dir, p0, u1) ∧
        let start := t.base + leNat dir
        (start % 4 ≠ 0 → x.bad = some start ∧ x.poisoned = p0) ∧
        (start % 4 = 0 → ∃ head p1 u2 body p2, cacheRun n u1 start (headBytes t.cform) = .ok (head, p1, u2) ∧
          cacheRun n u2 (start + headBytes t.cform) (bodyBytes t.cform (elemSize t.fmt) head) = .ok (body, p2, v) ∧
          x.poisoned = (p0 || p1 || p2) ∧
          (blockBody t.cform (elemSize t.fmt) head body = none → x.bad = some start) ∧
          (∀ es, blockBody t.cform (elemSize t.fmt) head body = some es → x.bad = none ∧ x.elems = es))) ∧
    (∀ (n : Draw) (u v : State) (va size : Nat) (bs : List Byte) (p : Bool), cacheRun n u va size = .ok (bs, p, v) →
      let r := Reader.fetch u.clus.id
      (∀ line k (x : BitVec 1024), sget none u.clus.fetch line = some (k, x) →
        x = BitVec.ofNat 1024 (readAs r u (line * 128) 128)) →
      ∃ ks, checkRun u needR va size = .ok ks ∧ bs = gatherBy r u ks) ∧
    (∀ (n since : Nat) (u : State) (key k : Nat) (x : BitVec 1024), sget none u.clus.fetch (key / 128) = some (k, x) →
      k + 1 < since → (cacheByte n since u key).1 = readByte (.fetch u.clus.id) u key)) ∧
  (∀ (size : Nat) (head body : List Byte),
    (∀ es, blockBody 1 size head body = some es → es.length = 32 ∧ ∀ i < 32,
      es.getD i 0 = if (recNat head 0 4).testBit i then
        recNat body (size * ((List.range i).filter (fun j => (recNat head 0 4).testBit j)).length) size else 0) ∧
    (blockBody 1 size head body = none ↔ 32 < recByte head 4 ∨
      ((List.range 32).filter (fun j => (recNat head 0 4).testBit j)).length ≠ recByte head 4 ∨ recNat head 5 3 ≠ 0) ∧
    (∀ es, blockBody 2 size head body = some es → es.length = 32 ∧
      es = (List.range (recByte head 0)).flatMap (fun n =>
        List.replicate (recByte body ((size + 1) * n)) (recNat body ((size + 1) * n + 1) size))) ∧
    (blockBody 2 size head body = none ↔ recByte head 0 = 0 ∨ 32 < recByte head 0 ∨ recNat head 1 3 ≠ 0 ∨
      (∃ n < recByte head 0, recByte body ((size + 1) * n) = 0) ∨
      ((List.range (recByte head 0)).map (fun n => recByte body ((size + 1) * n))).sum ≠ 32))

/-- R224: MPATH gives each lane a row and a column of the merge path: the row is the greatest whose pointer does not
pass the lane's share, and the two add up to the share. A lane number above the descriptor's count raises OPERAND with
it. -/
def Obligations.MergePath : Prop :=
  ∀ (s : State) (d a b : BitVec 6) (la : BitVec 4),
    let i : Instr := .mpath d a b la
    let va := (kget s b.toNat).toNat
    let writes : List (Nat × Nat × Nat) → State → State := fun rs u => rs.foldl (fun t r =>
      xset (xset t r.1 d.toNat (BitVec.ofNat 32 r.2.1)) r.1 (d.toNat + 1) (BitVec.ofNat 32 r.2.2)) u
    (∀ c v, readRecord s needRecPage 32 va 32 = .error (c, v) →
      OnceEnds i s (fun u => trapped u c (BitVec.ofNat 64 v) s.sp.pc)) ∧
    (∀ bs, readRecord s needRecPage 32 va 32 = .ok bs →
      (∀ o, badOffset (mpathChecks bs) = some o → OnceEnds i s (fun u => trapped u cOperand (BitVec.ofNat 64 o) s.sp.pc)) ∧
      (badOffset (mpathChecks bs) = none →
        (∀ c v, mpathLanes s bs a.toNat (lanesOf (partMask s)) = .error (c, v) →
          OnceEnds i s (fun u => trapped u c (BitVec.ofNat 64 v) s.sp.pc)) ∧
        (∀ rs, mpathLanes s bs a.toNat (lanesOf (partMask s)) = .ok rs → OnceResult i s (writes rs)))) ∧
    (∀ bs ls rs, mpathLanes s bs a.toNat ls = .ok rs ↔ rs.map (fun r => r.1) = ls ∧
      ∀ r ∈ rs, mpathLane s bs (xget s r.1 a.toNat).toNat = .ok r.2) ∧
    (∀ bs, readRecord s needRecPage 32 va 32 = .ok bs → badOffset (mpathChecks bs) = none →
      (∀ l, takesPart s l → (xget s l a.toNat).toNat ≤ recNat bs 16 4) →
      (∀ m ≤ recNat bs 8 4, ∃ v, rowPointer s (recNat bs 0 8) m = .ok v) → Issues i s →
      ∃ rs, exec i s = .next (retired (if anyLane s then writes rs (issued i s) else issued i s)) ∧
        rs.map (fun r => r.1) = lanesOf (partMask s) ∧ ∀ r ∈ rs, mpathLane s bs (xget s r.1 a.toNat).toNat = .ok r.2) ∧
    (∀ (bs : List Byte) (n lo hi : Nat), n ≤ recNat bs 16 4 →
      let g := n * (recNat bs 8 4 + recNat bs 12 4) / recNat bs 16 4
      (mpathLane s bs n = .ok (lo, hi) ↔ hi = g - lo ∧
        mpathSearch s (recNat bs 0 8) g 33 (max 0 (g - recNat bs 12 4)) (min g (recNat bs 8 4)) = .ok lo)) ∧
    (∀ (bs : List Byte) (n lo hi : Nat), mpathLane s bs n = .ok (lo, hi) →
      n ≤ recNat bs 16 4 ∧ lo ≤ recNat bs 8 4 ∧ hi ≤ recNat bs 12 4 ∧
        lo + hi = n * (recNat bs 8 4 + recNat bs 12 4) / recNat bs 16 4) ∧
    (∀ (bs : List Byte) (n : Nat), recNat bs 16 4 < n → mpathLane s bs n = .error (cOperand, n)) ∧
    (∀ (rptr g lo hi r : Nat) (ptr : Nat → Nat), (∀ m, lo < m → m ≤ hi → rowPointer s rptr m = .ok (ptr m)) →
      (∀ m n, m ≤ n → ptr m ≤ ptr n) → lo ≤ hi → hi - lo < 2 ^ 32 → mpathSearch s rptr g 33 lo hi = .ok r →
      lo ≤ r ∧ r ≤ hi ∧ (∀ m, lo < m → m ≤ r → ptr m + m ≤ g) ∧ (∀ m, r < m → m ≤ hi → g < ptr m + m))

/-- R206, R207: TDEF replaces one tensor of the context by the record it reads; an id above 255 raises OPERAND with it,
a bad field OPERAND with its offset. R210, R217: TQPUT reads and checks a task record, raising OPERAND with the number
of the lowest row of the table it breaks, waits while the context's 256 entries of the cluster's queue are taken, and
else takes one and writes the record's status. -/
def Obligations.TensorsAndTaskPosting : Prop :=
  (∀ (s : State) (a b : BitVec 6),
    let id := (kget s a.toNat).toNat
    let rec0 := readRecord s needR 64 (kget s b.toNat).toNat 64
    (255 < id → OnceEnds (.tdef a b) s (fun u => trapped u cOperand (kget s a.toNat) s.sp.pc)) ∧
    (id ≤ 255 → ∀ c v, rec0 = .error (c, v) →
      OnceEnds (.tdef a b) s (fun u => trapped u c (BitVec.ofNat 64 v) s.sp.pc)) ∧
    (id ≤ 255 → ∀ bs o, rec0 = .ok bs → badOffset (tensorChecks bs) = some o →
      OnceEnds (.tdef a b) s (fun u => trapped u cOperand (BitVec.ofNat 64 o) s.sp.pc)) ∧
    (id ≤ 255 → ∀ bs, rec0 = .ok bs → badOffset (tensorChecks bs) = none →
      OnceResult (.tdef a b) s (fun u => { u with ctx := { u.ctx with
        tensors := sset none u.ctx.tensors id (some {
          base := recNat bs 0 8, dims := [recNat bs 8 4, recNat bs 12 4, recNat bs 16 4, recNat bs 20 4]
          strides := [recNat bs 24 4, recNat bs 28 4, recNat bs 32 4], sbase := recNat bs 36 8, fmt := recByte bs 48
          rank := recByte bs 49, scaleFmt := recByte bs 50 % 4, group := recByte bs 50 / 4 % 4, cform := recByte bs 51
          strict := recByte bs 52 % 2 == 1 }) } }))) ∧
  (∀ (s : State) (a : BitVec 6),
    let i : Instr := .tqput a
    let va := kget s a.toNat
    (∀ c v, readRecord s needR 64 va.toNat 64 = .error (c, v) →
      OnceEnds i s (fun u => trapped u c (BitVec.ofNat 64 v) s.sp.pc)) ∧
    (∀ bs, readRecord s needR 64 va.toNat 64 = .ok bs →
      let t := captureTask s va bs
      let kept : State → State := fun u => keepArgs u (va :: descArgs bs)
      (∀ n, taskRefusal s t = some n → OnceEnds i s (fun u => trapped u cOperand (BitVec.ofNat 64 n) s.sp.pc)) ∧
      (taskRefusal s t = none → 256 ≤ (s.clus.tasks.filter (fun x => x.ctx == s.ctx.id)).length →
        OnceEnds i s (fun u => waits i (kept u))) ∧
      (taskRefusal s t = none → (s.clus.tasks.filter (fun x => x.ctx == s.ctx.id)).length < 256 →
        OnceEnds i s (fun u =>
          retired (writeStatus { u with writes := u.writes + 1, clus := { u.clus with tasks := u.clus.tasks ++ [t] } } t 1 0))) ∧
      t.addr = va ∧ t.record = bs ∧ t.state = .queued ∧ t.crew = s.crew.id ∧ t.warp = s.w.id ∧ t.at_ = s.writes ∧
      t.fault = none))

/-- R218 to R222: TWAIT ends and TPOLL answers true once the count of a barrier has reached a value modulo 2^32; a
failed task raises TASKFLT with its record, whose mark a delivered trap takes away; the queued tasks that depend on a
marked barrier have failed by then (log 78), so none is left in the queue. TWAIT and TPOLL that see the count have
observed the tasks it counts. TSTAT reads a queued task's live status, or the status word of the record, as its lanes
see it after the status writes of observed tasks (R220, log 7). A task's own held fault is raised by the first of them
that issues in its crew; after that delivery the next that issues sets the task going again, or raises the fault anew
where its cause is still present (R222, R399). -/
def Obligations.TaskWaits : Prop :=
  ∀ (s : State) (d c b a : BitVec 6),
    let marks := sget [] s.ctx.failed (s.w.clus * 64 + c.toNat)
    let count := (sget 0 s.ctx.counts (s.w.clus * 64 + c.toNat)).toNat
    let reached : Prop := ((count : Int) - ((kget s b.toNat).toNat % 2 ^ 32 : Nat)).emod (2 ^ 32) < 2 ^ 31
    let quiet : Prop := marks = [] ∧ ∀ t ∈ s.clus.tasks, t.crew = s.crew.id → t.cbar = some c.toNat → t.fault = none
    let va := kget s a.toNat
    (quiet → reached → OnceEnds (.twait c b) s (fun u => retired (observeCount u c.toNat))) ∧
    (quiet → ¬ reached → OnceEnds (.twait c b) s (fun u => waits (.twait c b) (keepArgs u [kget s b.toNat]))) ∧
    (quiet → Issues (.tpoll d c b) s → ∃ t, exec (.tpoll d c b) s = .next t ∧
      t = { retired (issued (.tpoll d c b) s) with w := { s.w with preds := t.w.preds }, late := t.late } ∧
      (anyLane s = true → t.late = if reached then (observeCount s c.toNat).late else s.late) ∧
      (∀ l, takesPart s l → (predMask t.w d.toNat).getLsbD l = if d = 0 then true else decide reached) ∧
      (∀ l, ¬ takesPart s l → (predMask t.w d.toNat).getLsbD l = (predMask s.w d.toNat).getLsbD l) ∧
      ∀ q, q ≠ d.toNat → predMask t.w q = predMask s.w q) ∧
    (∀ v rest, marks = v :: rest → deliverable s = true →
      let cleared : State → State := fun u =>
        let f := failDependents u u.clus.tasks.length
        { f with ctx := { f.ctx with failed := sset [] f.ctx.failed (s.w.clus * 64 + c.toNat) [] } }
      OnceEnds (.twait c b) s (fun u => trapped (cleared (keepArgs u [kget s b.toNat])) cTaskflt v s.sp.pc) ∧
      OnceEnds (.tpoll d c b) s (fun u => trapped (cleared u) cTaskflt v s.sp.pc)) ∧
    (∀ t ∈ (failDependents s s.clus.tasks.length).clus.tasks, t ∈ s.clus.tasks ∧
      (t.ctx = s.ctx.id → dependsOnFailure (failDependents s s.clus.tasks.length) t = false)) ∧
    (va.toNat % 64 ≠ 0 → OnceEnds (.tstat d a) s (fun u => trapped u cAlign va s.sp.pc)) ∧
    (va.toNat % 64 = 0 → ∀ t, taskOf s va = some t → (t.crew = s.crew.id → t.fault = none) →
      OnceResult (.tstat d a) s (fun u => kset u d.toNat (BitVec.ofNat 64 (liveStatus s t)))) ∧
    (va.toNat % 64 = 0 → ∀ t f, taskOf s va = some t → t.crew = s.crew.id → t.fault = some f →
      (f.delivered = false ∨ stillMissing s f = true → OnceEnds (.tstat d a) s (fun u =>
        trapped (onTask u t { t with fault := some { f with delivered := deliverable u } }) f.cause f.addr s.sp.pc)) ∧
      (f.delivered = true → stillMissing s f = false → OnceResult (.tstat d a) s (fun u =>
        let v := onTask u t { t with state := .queued, fault := none }
        kset v d.toNat (BitVec.ofNat 64 (liveStatus v ((taskOf v va).getD t)))))) ∧
    (va.toNat % 64 = 0 → taskOf s va = none → ∀ key, checkAccess s needR (va.toNat + 8) 8 = .ok key →
      poisonedRange s key 8 = false →
      OnceResult (.tstat d a) s (fun u => kset u d.toNat (BitVec.ofNat 64 (readAs (statusReader s) s key 8)))) ∧
    (va.toNat % 64 = 0 → taskOf s va = none → ∀ k, checkAccess s needR (va.toNat + 8) 8 = .bad k →
      OnceEnds (.tstat d a) s (fun u => trapped u k (BitVec.ofNat 64 (va.toNat + 8)) s.sp.pc))

/-- R218, R222, R351: a tap encoder task goes ahead of all others; the oldest ready task starts on a free engine, the
lowest one by the model's choice (log 95), unless a thermal halt has stopped the engines (R395), after the completions
that its counts stand for (log 7); an engine's row group advances the task; a task whose rows are all written completes
in a step of its own, which writes STATE DONE into its record and adds 1 to its barrier's count; a translation fault
suspends it, another fails it, writes STATE FAILED with the cause and marks its barrier, and what depends on a marked
barrier fails. R60 to R62, R212 to R216: the values of MMA, SMMA, BMMA and TCVT tasks. A product exists where both
elements lie inside their tensors and neither is masked; SMMA's A takes the stored slot its metadata names, and a group
of the K range that is not well formed ends the row with a fault, used or not; an absent block of a BMMA table masks; a
block of 32 along K is summed exactly, scaled and rounded to f32, then added and rounded to f32. An output is written at
its element's address, and a written code reads back; where an output's bytes are also bytes of TA or TB its value is
free (R213, log 80). -/
def Obligations.TileEngine : Prop :=
  (∀ (s : State),
    (s.dev.halted = true → exec .tileTaskDispatch s = .next s ∧ ∀ cl e, exec (.rowGroupWritten cl e) s = .next s) ∧
    (s.dev.halted = false → ∀ t, nextEncoder s = some t → exec .tileTaskDispatch s = .next t) ∧
    (s.dev.halted = false → nextEncoder s = none →
      ∀ t, (pack s).cluss.findSome? (fun k => startTask s k.id) = some t → exec .tileTaskDispatch s = .next t) ∧
    (∀ k u t e, freeEngine s k = some e → focusTask s k canStart = some (u, t) →
      let v := startMem u u.ctx.id t.at_ (t.waits.map (fun w => countKey k w.1))
      ∃ tab, startTask s k = some { v with clus := { u.clus with tasks := u.clus.tasks.map (fun x =>
        if x = t then { t with state := .running, engine := e, table := tab } else x) } }) ∧
    (∀ cl e u t, focusTask s cl (runningOn e) = some (u, t) →
      (s.dev.halted = false → ∀ t1 ks, t.row < t.mt → groupWork u t = .ok (t1, ks) →
        exec (.rowGroupWritten cl e) s = .next (onTask (writeOutputs u t1 ks) t
          { t1 with row := min t.mt (t.row + 16), flags := orFlagsOf (ks.map (fun x => x.2)) t.flags })) ∧
      (s.dev.halted = false → t.mt ≤ t.row → exec (.rowGroupWritten cl e) s = .next (completeTask u t t)) ∧
      (∀ a, e < 4 → groupWork u t = .error (cPage, a) → exec (.taskFault cl e) s = .next (onTask u t { t with
        state := .suspended
        fault := some { cause := cPage, addr := BitVec.ofNat 64 a, slot := 0, delivered := false } })) ∧
      (∀ c a, e < 4 → c ≠ cPage → groupWork u t = .error (c, a) →
        exec (.taskFault cl e) s = .next (failTask u t t c))) ∧
    (∀ cl e u t, 4 ≤ e → focusTask s cl dependsOnFailure = some (u, t) →
      exec (.taskFault cl e) s = .next (failTask u t t cTaskflt)) ∧
    (∀ (t : Task) (c : Byte) (u v : State),
      let word : Nat → Nat → Nat := fun st cause => st + t.flags + cause * 2 ^ 8 + t.row * 2 ^ 16 + t.engine * 2 ^ 32
      let put : Nat → Nat → Except (Byte × Nat) State := fun st cause =>
        jobRun (dropTask s t) (t.job s) none 0 needW (t.addr.toNat + 8) (natLE (word st cause) 8)
      (put 5 0 = .ok u → (completeTask s t t).mem = u.mem ∧ t ∉ (completeTask s t t).clus.tasks) ∧
      (put 6 c.toNat = .ok v → (failTask s t t c).mem = v.mem ∧ t ∉ (failTask s t t c).clus.tasks)) ∧
    (∀ (t : Task) (n : Nat), t.cbar = some n → s.ctx.failed = [] →
      sget 0 (completeTask s t t).ctx.counts (s.clus.id * 64 + n) = sget 0 s.ctx.counts (s.clus.id * 64 + n) + 1 ∧
      sget [] (failTask s t t cProt).ctx.failed (s.clus.id * 64 + n) = [t.addr]) ∧
    (∀ (c t : Nat), countHolds c t = decide (((c : Int) - t).emod (2 ^ 32) < 2 ^ 31))) ∧
  (∀ (s : State) (t : Task) (m n : Nat) (k : Int),
    let bt : Tensor → Int := fun x => if 3 ≤ x.rank then (t.batch : Int) else 0
    let ixA := [k, t.m0 + m, bt t.ta, 0]
    let ixB := [k, t.n0 + n, bt t.tb, 0]
    let ixD := [t.n0 + n, t.m0 + m, bt t.td, 0]
    let masked : Prop := t.kind = 3 ∧ ∃ tab, t.table = some tab ∧
      ((recByte tab 5 = 1 ∧ blockPresent tab (m / 16) ((k - t.k0).toNat / 16) = false) ∨
       (recByte tab 5 = 2 ∧ blockPresent tab ((k - t.k0).toNat / 16) (n / 16) = false))
    (t.kind = 1 ∨ t.kind = 3 →
      (masked ∨ t.ta.inside ixA = false ∨ t.tb.inside ixB = false → productAt s t m n k = .ok none) ∧
      (¬ masked → t.ta.inside ixA = true → t.tb.inside ixB = true → ∀ a b,
        t.ta.readBits (tileReader s t) s ixA = .ok a → t.tb.readBits (tileReader s t) s ixB = .ok b →
        productAt s t m n k = .ok (some (fvMul (elemValue t.ta.fmt a) (elemValue t.tb.fmt b)).1))) ∧
    (t.kind = 2 → ∀ is, metaOf s t m (k.fdiv (pruning (t.kbyte 0)).1) = .ok (some is) →
      ((k.emod (pruning (t.kbyte 0)).1).toNat ∉ is → elemA s t m k = .ok none) ∧
      (∀ j, is.findIdx? (fun i => i == (k.emod (pruning (t.kbyte 0)).1).toNat) = some j → elemA s t m k =
        element (tileReader s t) s t.ta [k.fdiv (pruning (t.kbyte 0)).1 * (pruning (t.kbyte 0)).2.1 + j, t.m0 + m, bt t.ta, 0])) ∧
    (t.kind = 2 → ∀ g ∈ t.groups, ∀ e, metaOf s t m g = .error e → ∃ e', rowOutputs s t m = .error e') ∧
    (∀ tab r c, blockPresent tab r c = true ↔ r < recNat tab 0 2 ∧ c < recNat tab 2 2 ∧
      ((recByte tab 4 = 0 ∧ (leNat (tab.drop 16)).testBit (r * recNat tab 2 2 + c) = true) ∨
       (recByte tab 4 ≠ 0 ∧ ∃ e < recNat tab 8 4, recNat tab (16 + 4 * e) 2 = r ∧ recNat tab (18 + 4 * e) 2 = c))) ∧
    (∀ acc acc' sc sc' j, blockStep s t m n (acc, sc) j = .ok (acc', sc') → ∃ ps sa sb,
      mapE (productAt s t m n) (((List.range 32).map (fun (i : Nat) => 32 * j + (i : Int))).filter
        (fun k => decide (t.k0 ≤ k) && decide (k < t.k0 + t.klen))) = .ok ps ∧
      scaleAt (tileReader s t) s t.ta t.extentA (t.ix t.ta 0 (t.m0 + m)) j = .ok sa ∧
      scaleAt (tileReader s t) s t.tb (t.tb.dim 0) (t.ix t.tb 0 (t.n0 + n)) j = .ok sb ∧
      (ps.filterMap id = [] → acc' = acc) ∧
      (ps.filterMap id ≠ [] → acc' = round32 (fvAdd 0 acc (round32 (fvMul (fvMul (sumExact (ps.filterMap id))
        (sa.getD (.fin false 1 0))).1 (sb.getD (.fin false 1 0))).1)).1)) ∧
    (∀ o, mmaElement s t m n = .ok (some o) → o.ix = ixD ∧ t.td.inside ixD = true ∧ t.blocked 0 (m / 16) (n / 16) = false ∧
      ∃ a acc sc, initialAcc s t m n = .ok a ∧ blockSteps s t m n (a, false) t.blocks = .ok (acc, sc) ∧
        o.code = (convert (ovtNat s) false t.td.fmt 0 acc).1) ∧
    (t.td.inside ixD = false → mmaElement s t m n = .ok none) ∧
    (let src := [t.n0 + n, t.m0 + m, bt t.ta, 0]
     let dst := if t.kbyte 2 = 1 then [t.m0 + m, t.n0 + n, bt t.td, 0] else ixD
     (t.ta.inside src = false ∨ t.td.inside dst = false → cvtElement s t m n = .ok none) ∧
     (t.ta.inside src = true → t.td.inside dst = true → ∀ a, t.ta.readBits (tileReader s t) s src = .ok a → t.kbyte 0 = 0 →
       ∃ o, cvtElement s t m n = .ok (some o) ∧ o.ix = dst ∧
         o.code = (convert (ovtNat s) false t.td.fmt (t.kbyte 1) (elemValue t.ta.fmt a)).1)) ∧
    (∀ u ks, groupWork s t = .ok (u, ks) → u = { t with table := u.table } ∧ groupOutputs s u = .ok (ks.map (fun x => x.2)) ∧
      ∀ x ∈ ks, checkAccess s needW (t.td.addr x.2.ix) (elemSize t.td.fmt) = .ok x.1) ∧
    (∀ ks, t.td.fmt < 0xE → ks.Pairwise (fun x y : Nat × TileOut =>
        x.1 + elemSize t.td.fmt ≤ y.1 ∨ y.1 + elemSize t.td.fmt ≤ x.1) →
      (∀ x ∈ ks, t.clashes x.2 = false → x.2.code < 2 ^ typeWidth t.td.fmt →
        leNat (bytesAt (writeOutputs s t ks).mem x.1 (elemSize t.td.fmt)) = x.2.code) ∧
      KeptOutside s (writeOutputs s t ks) (fun a => ∃ x ∈ ks, x.1 ≤ a ∧ a < x.1 + elemSize t.td.fmt)))

/-- R225 to R227: NLBIN checks its descriptor and hands it to the engines; NLPAIR hands over a stream into a bound ring
of the crew, or a block table, which needs no ring; outside block mode a dispatch warp's NLPAIR raises PROT, its TRAPV
free (log 43). Under STALETRAP the NLPAIR waits for the engine's check (R229): it goes on once the stream has its pairs,
and raises STALE, or the check's fault, itself. NLSTAT reads the engines' status word for the descriptor; it raises a
fault held for it, and once delivered sets the engine going again, or raises the fault anew where its cause is still
present (R231, R399). R227 to R231: the engines' events. An operation runs in one of the two engines of its die (R2).
Binning ends with BINNED set, or BADPT where a point has no cell; the first event of a stream is its check, which finds
the lowest point that has moved too far: STALE, raised by the NLPAIR itself under STALETRAP; each later one fills a
slot; a block table is written at once; a fault is held. Each operation that ends leaves its engine and its status word
is written into the descriptor (the time is log 28). One event fills a whole slot (log 55); a stream of a descriptor
that is not binned, or is stale, has no pairs (log 20). Pairs after a program has written into WORK are free (R227, log
81). -/
def Obligations.NeighbourEngine : Prop :=
  (∀ (s : State) (d a r : BitVec 6),
    let va := kget s a.toNat
    let desc := readRecord s needRec 64 va.toNat 128
    (∀ c v, desc = .error (c, v) →
      OnceEnds (.nlbin a) s (fun u => trapped u c (BitVec.ofNat 64 v) s.sp.pc) ∧
      OnceEnds (.nlpair a r) s (fun u => trapped u c (BitVec.ofNat 64 v) s.sp.pc)) ∧
    (∀ bs, desc = .ok bs →
      (∀ o, badOffset (nlChecks bs) = some o →
        OnceEnds (.nlbin a) s (fun u => trapped u cOperand (BitVec.ofNat 64 o) s.sp.pc)) ∧
      (badOffset (nlChecks bs) = none → OnceResult (.nlbin a) s (fun u => submitOp u .bin 0 va bs)) ∧
      (nlBlock bs = true → OnceResult (.nlpair a r) s (fun u => submitOp u .table 0 va bs)) ∧
      (nlBlock bs = false → s.crew.dispatch = false → (ringAt s r.toNat).bound = false →
        OnceEnds (.nlpair a r) s (fun u => trapped u cOperand 1 s.sp.pc)) ∧
      (nlBlock bs = false → s.crew.dispatch = false → (ringAt s r.toNat).bound = true → nlStaleTrap bs = false →
        OnceResult (.nlpair a r) s (fun u => submitOp u .stream r.toNat va bs)) ∧
      (nlBlock bs = false → s.crew.dispatch = true → OnceEnds (.nlpair a r) s (fun u =>
        trapped { u with env := { u.env with free := u.env.free + 1 } } cProt (Config.freeDWord s.env.free) s.sp.pc)) ∧
      (nlBlock bs = false → s.crew.dispatch = false → (ringAt s r.toNat).bound = true → nlStaleTrap bs = true →
        s.nextId < 2 ^ 64 → (∀ o ∈ s.nles, o.id ≠ s.nextId) → OnceEnds (.nlpair a r) s (fun u =>
          waits (.nlpair a r) (keepArgs (submitOp u .stream r.toNat va bs) [BitVec.ofNat 64 s.nextId])))) ∧
    (∀ o, s.nles.find? (fun x => x.id == (argN s 0).toNat) = some o →
      (o.outcome = none → o.todo.isSome = true → JudgedEnds (.nlpair a r) s (goesOn s)) ∧
      (∀ c v, o.outcome = some (c, v) → JudgedEnds (.nlpair a r) s
        (goesOnTrapped { s with nles := s.nles.filter (fun x => x.id != (argN s 0).toNat) } c v s.sp.pc)) ∧
      (o.outcome = none → o.todo = none → JudgedEnds (.nlpair a r) s { s with sp := { s.sp with
        state := if s.sp.state = .ready then .waiting else s.sp.state } })) ∧
    ((statOf s s.ctx.id va).held = none → OnceResult (.nlstat d a) s (fun u =>
      kset (nlstatMem u va) d.toNat (nlWord s s.ctx.id va))) ∧
    (∀ f, (statOf s s.ctx.id va).held = some f →
      (f.delivered = false ∨ stillMissing s f = true → OnceEnds (.nlstat d a) s (fun u =>
        trapped (if deliverable u then onStat u s.ctx.id va (fun x => { x with
            flags := x.flags &&& ~~~0x80, held := if f.cause = cPage then some { f with delivered := true } else none })
          else u) f.cause f.addr s.sp.pc)) ∧
      (f.delivered = true → stillMissing s f = false → OnceResult (.nlstat d a) s (fun u =>
        let v := beginOps { onStat u s.ctx.id va (fun x => { x with held := none }) with
          nles := s.nles.map (fun o => if o.ctx = s.ctx.id ∧ o.addr = va then { o with fault := none } else o) }
        kset (nlstatMem v va) d.toNat (nlWord v s.ctx.id va)))) ∧
    (∀ (kind : NleKind) (ring : Nat) (bs : List Byte), ∃ o : NleOp,
      (submitOp s kind ring va bs).nles.map (fun x => { x with started := false, engine := none }) =
        (s.nles ++ [o]).map (fun x => { x with started := false, engine := none }) ∧ o.at_ = s.writes ∧
      o.kind = kind ∧ o.addr = va ∧ o.desc = bs ∧ o.crew = s.crew.id ∧ o.warp = s.w.id ∧ o.id = s.nextId ∧
      o.ring = ring ∧ o.fault = none) ∧
    (∀ (u : State) (x : NleOp), mayBegin u x = true → ∃ e < 2, freeNle u (dieOf x.clus) = some e ∧
      (∀ y ∈ u.nles, y.inEngine (dieOf x.clus) e = false) ∧
      ∀ z ∈ (enterEngine u x).nles, z.id = x.id → z.engine = some e)) ∧
  (∀ (s : State) (op : Nat) (t : State) (o : NleOp),
    (focusOp s op .bin = some (t, o) → ∀ u, binWork t o = .ok u → exec (.nlbinComplete op) s = .next (endOp u o)) ∧
    (focusOp s op .table = some (t, o) → ∀ u more, tableWork t o = .ok (u, more) →
      exec (.nleBlockTableDone op) s = .next (endStream u { o with resume := more })) ∧
    (focusOp s op .stream = some (t, o) → o.todo = none → ∀ u, streamCheck t o = .ok u →
      exec (.nleSlotFilled op) s = .next u) ∧
    (focusOp s op .stream = some (t, o) → ∀ recs, o.todo = some recs → streamReady t o = true →
      exec (.nleSlotFilled op) s = .next (fillSlot t o recs)) ∧
    (∀ kind c a, focusOp s op kind = some (t, o) → opFault t o = some (c, a) →
      exec (.nleFault op) s = .next (if o.kind = .stream then holdStream t o c a else holdOp t o c a)) ∧
    (∀ u ps, nlPoints t o o.desc = .ok ps → binWork t o = .ok u →
      let x := statOf u o.ctx o.addr
      ((∀ p ∈ ps, ∃ c, nlCell o.desc p = some c) → x.flags.getLsbD 0 = true ∧ x.snapshot = ps ∧ x.geom = o.desc ∧
        (∀ c, (ps.filterMap (nlCell o.desc)).count c ≤ x.maxocc)) ∧
      ((∃ p ∈ ps, nlCell o.desc p = none) → x.flags.getLsbD 6 = true)) ∧
    (∀ ps i, (statOf t o.ctx o.addr).flags.getLsbD 0 = true → nlPoints t o (statOf t o.ctx o.addr).geom = .ok ps →
      lowestMoved (statOf t o.ctx o.addr).geom (statOf t o.ctx o.addr).snapshot ps = some i →
      ∃ u, streamCheck t o = .ok u ∧
        (nlStaleTrap o.desc = false ∨ opsOf t o.ctx o.addr = [o] → (statOf u o.ctx o.addr).flags.getLsbD 5 = true) ∧
        (nlStaleTrap o.desc = true → ∀ x ∈ u.nles, x.id = o.id → x.outcome = some (cStale, BitVec.ofNat 64 i)) ∧
        (nlStaleTrap o.desc = false → ∀ x ∈ u.nles, x.id = o.id → x.todo = some [])) ∧
    (∀ (v : State) (x : NleStat) (now : List Point), streamPairs v x now =
      if workChanged v x then freeEntries v.env.free freeRecord else nlPairs (ovtNat v) x.geom x.snapshot now) ∧
    (∀ (u : State), (endOp u o).nles.all (fun x => x.id != o.id) = true ∧
      let v := { u with nles := u.nles.filter (fun x => x.id != o.id) }
      ∀ w, writeRun v needW (o.addr.toNat + 80) (natLE (nlWord v o.ctx o.addr).toNat 8) = .ok w → (endOp u o).mem = w.mem))

/-- R225 to R230: a coordinate's cell, the least image of a difference with ties to the smaller image number, when a
point has moved too far and which is the lowest such point, the pairs of a stream and the pair record. Every pair of
points of one cell or of neighbouring cells that is included stands in the stream exactly once, and no other pair does.
The stream takes the pairs in ascending order of the cell of i, then of i, then of j. -/
def Obligations.NeighbourGeometry : Prop :=
  ∀ (d : List Byte) (a : Nat) (x l : Int),
    nlLength d a = some l → 0 < l →
    (∀ (p : Point) (c : Nat), nlCoord d p a = some x → nlCellOn d p a = some c → 0 ≤ x ∧ x < l ∧
      (c : Int) * l ≤ x * nlCells d a ∧ x * nlCells d a < ((c : Int) + 1) * l) ∧
    (∀ (p : Point), nlCoord d p a = some x → (x < 0 ∨ l ≤ x) → nlCellOn d p a = none) ∧
    (nlPeriodic d a = false → leastImage d a x = (0, x)) ∧
    (nlPeriodic d a = true → ∃ n : Int, (n = -1 ∨ n = 0 ∨ n = 1) ∧ leastImage d a x = (n, x + n * l) ∧
      ∀ m : Int, m = -1 ∨ m = 0 ∨ m = 1 → (x + n * l).natAbs ≤ (x + m * l).natAbs ∧
        ((x + m * l).natAbs = (x + n * l).natAbs → n ≤ m)) ∧
    (∀ was now : Point, moved d was now = true ↔ ∀ ds, nlDiff d was now = some ds →
      nlSkin d ^ 2 < 4 * (ds.map (fun e => e.2.natAbs ^ 2)).sum) ∧
    (∀ (snap now : List Point) (i : Nat),
      let far : Nat → Prop := fun m => moved d (snap.getD m (0, 0, 0)) (now.getD m (0, 0, 0)) = true
      (lowestMoved d snap now = some i ↔ i < now.length ∧ far i ∧ ∀ m < i, ¬ far m)) ∧
    (∀ (ovt : Nat) (snap now : List Point),
      let cell : Nat → List Nat := fun i => (nlCell d (snap.getD i (0, 0, 0))).getD []
      (∀ r ∈ nlPairs ovt d snap now, ∃ i j ds, i < j ∧ j < snap.length ∧ nearCells d (cell i) (cell j) = true ∧
        nlDiff d (now.getD i (0, 0, 0)) (now.getD j (0, 0, 0)) = some ds ∧ (dist2 ovt d ds).2 = true ∧
        r.2 = BitVec.ofNat 128 (i + j * 2 ^ 32 + (dist2 ovt d ds).1 * 2 ^ 64 + imageCode ds * 2 ^ 96)) ∧
      (∀ i j ds, i < j → j < snap.length → snap.length ≤ 2 ^ 32 → nearCells d (cell i) (cell j) = true →
        nlDiff d (now.getD i (0, 0, 0)) (now.getD j (0, 0, 0)) = some ds → (dist2 ovt d ds).2 = true →
        ((nlPairs ovt d snap now).map (fun r => r.2)).count
          (BitVec.ofNat 128 (i + j * 2 ^ 32 + (dist2 ovt d ds).1 * 2 ^ 64 + imageCode ds * 2 ^ 96)) = 1) ∧
      let num : Nat → Nat := fun i =>
        (cell i).getD 0 0 + nlCells d 0 * ((cell i).getD 1 0 + nlCells d 1 * (cell i).getD 2 0)
      ∃ seq : List (Nat × Nat), (nlPairs ovt d snap now).map (fun r => r.2) = seq.filterMap (fun p => nlRecord ovt d now p.1 p.2) ∧
        seq.Pairwise (fun p q => num p.1 < num q.1 ∨ (num p.1 = num q.1 ∧ (p.1 < q.1 ∨ (p.1 = q.1 ∧ p.2 < q.2)))) ∧
        (nlPairs ovt d snap now).Pairwise (fun r q => r.1 < q.1)) ∧
    (nlInt d = true → ∀ (ovt : Nat) (ds : List (Int × Int)),
      (dist2 ovt d ds).2 = decide ((ds.map (fun e => e.2.natAbs ^ 2)).sum ≤ recNat d 28 4))

/-- R232, R235, R236: TAP checks its descriptor, is turned away with OPERAND 64 while the slot's tap holds rows or has
records, and else starts a tap at its root; TAPW ends once the rows of its block are released, and its return orders the
unit's writes of those rows before what follows (R236, log 7). That a root which fails its checks is reported at offset
32, in the order of offsets, is log 56; that a tap takes its tensors' definitions when TAP issues is log 66. A fault
held by a tap of the slot whose crew this is (PAGE, or MAJFAIL of the root's MLD), an older one with shadow rows among
them, is raised by TAPW with its address and then cleared by its delivery; the next TAPW that issues sets the unit going
again, or raises the fault anew where its cause is still present (R359, R399). -/
def Obligations.FeatureTaps : Prop :=
  ∀ (s : State) (a sn b : BitVec 6),
    let rec0 := readRecord s needRecPage 64 (kget s a.toNat).toNat 64
    (∀ c v, rec0 = .error (c, v) → OnceEnds (.tap a) s (fun u => trapped u c (BitVec.ofNat 64 v) s.sp.pc)) ∧
    (∀ bs, rec0 = .ok bs →
      let busy : Prop := ∃ t, slotTap s (recByte bs 0) = some t ∧ (t.holds = true ∨ hasRecords s t.id = true)
      (∀ o, badOffset (tapChecks s bs) = some o →
        OnceEnds (.tap a) s (fun u => trapped u cOperand (BitVec.ofNat 64 o) s.sp.pc)) ∧
      (badOffset (tapChecks s bs) = none → busy → OnceEnds (.tap a) s (fun u => trapped u cOperand 64 s.sp.pc)) ∧
      (badOffset (tapChecks s bs) = none → ¬ busy → anyLane s = true → Issues (.tap a) s →
        ∃ t, exec (.tap a) s = .next t ∧
          t = { retired (issued (.tap a) s) with
            ctx := { s.ctx with taps := t.ctx.taps }, nextId := s.nextId + 1, writes := s.writes + 1 } ∧
          ∃ x, t.ctx.taps.getLast? = some x ∧ x.id = s.nextId ∧ x.desc = tapDesc s bs ∧ x.stage = .root ∧
            x.crew = s.crew.id ∧ x.warp = s.w.id ∧ x.at_ = s.writes ∧ x.root = none ∧ x.rows = [] ∧
            x.intakeDone = false ∧ x.fault = none)) ∧
    (slotTap s sn.toNat = none → OnceEnds (.tapw sn b) s (fun u => trapped u cOperand 1 s.sp.pc)) ∧
    (∀ t, slotTap s sn.toNat = some t →
      let held := (s.ctx.taps.filter (fun x => x.desc.slot == sn.toNat && x.crew == s.crew.id)).filterMap (fun x =>
        x.fault.map (fun f => (x, f)))
      let kept : State → State := fun u => keepArgs u [kget s b.toNat]
      let raises : Tap × HeldFault → Prop := fun y => OnceEnds (.tapw sn b) s (fun u =>
        trapped (onTap (kept u) y.1.id (fun x => { x with fault := some { y.2 with delivered := deliverable u } }))
          y.2.cause y.2.addr s.sp.pc)
      (∀ y, held.find? (fun x => !x.2.delivered) = some y → raises y) ∧
      (held.find? (fun x => !x.2.delivered) = none →
        (∀ y, held.find? (fun x => tapStuck s x.1 x.2) = some y → raises y) ∧
        (held.find? (fun x => tapStuck s x.1 x.2) = none → OnceEnds (.tapw sn b) s (fun u =>
          let v := { kept u with ctx := { u.ctx with taps := u.ctx.taps.map (fun x =>
            if x.desc.slot == sn.toNat && x.crew == s.crew.id && x.fault.isSome then
              { x with fault := none, since := s.cycle.toNat } else x) } }
          if (t.block (kget s b.toNat).toNat).all t.rowReleased
            then retired (tapwMem v t.at_ [(t.warp, t.at_)] (t.block (kget s b.toNat).toNat))
          else waits (.tapw sn b) v)) ∧
        ((t.block (argN s 0).toNat).all t.rowReleased = true →
          JudgedEnds (.tapw sn b) s (goesOn (tapwMem s t.at_ [(t.warp, t.at_)] (t.block (argN s 0).toNat))))))

/-- R237, R238: TAPRD reads the crew's oldest trap record, TAPED the edit for its row, and TAPRES.CONT, .ABORT and .EDIT
take the record away, and with it the staged edit (for EDIT log 91), with one write of the row's entry that sets no
flag, ABORT or REPAIR, and clears PENDING with the row's last record once nothing else holds its decision open (log 57).
EDIT first writes the edit into SNAP and the repair list's next entry, and adds 1 to its count. With no record each
raises OPERAND 1, and EDIT without a TAPED OPERAND 2. R233, R234: FRULE reads a rule record and the root's cell; it
raises MAJFAIL where too few stacks serve the root, waits while an earlier store of the quadrant or another FRULE works
on it, and else puts the rule into the lowest empty entry of the list at LIST + (q * 16 + slot) * 1024, or empties that
list where KIND is 0, and stores the root with EPOCH one higher. A bad record raises OPERAND 1, a request the root has
not OPERAND 2, and a full list OPERAND 3. -/
def Obligations.TapRecordsAndRules : Prop :=
  (∀ (s : State) (d a : BitVec 6),
    let ends : BitVec 64 → Byte → State → State := fun v c u => trapped u c v s.sp.pc
    (s.crew.records = [] → ∀ i, i = .taprd d ∨ i = .taped a ∨ i = .tapresCont ∨ i = .tapresAbort ∨ i = .tapresEdit →
      OnceEnds i s (ends 1 cOperand)) ∧
    (∀ r rest, s.crew.records = r :: rest →
      OnceResult (.taprd d) s (fun u =>
        kset (kset (kset (kset { u with crew := { s.crew with edit := none } } d.toNat
          (BitVec.ofNat 64 (r.position * 2 ^ 32 + r.request))) (d.toNat + 1)
          (BitVec.ofNat 64 (r.rule * 2 ^ 40 + r.layer * 2 ^ 24 + r.slot * 2 ^ 20 + r.feature))) (d.toNat + 2)
          (BitVec.ofNat 64 (r.threshold.toNat * 2 ^ 32 + r.value.toNat))) (d.toNat + 3)
          (BitVec.ofNat 64 (rest.length * 2 ^ 32 + r.row % 2 ^ 32))) ∧
      (∀ t, tapOf s r.tap = some t →
        (∀ bs, readRecord s needR (elemSize t.desc.tact.fmt) (kget s a.toNat).toNat t.rowBytes = .ok bs →
          OnceResult (.taped a) s (fun u => { u with crew := { s.crew with edit := some bs } })) ∧
        (∀ c v, readRecord s needR (elemSize t.desc.tact.fmt) (kget s a.toNat).toNat t.rowBytes = .error (c, v) →
          OnceEnds (.taped a) s (ends (BitVec.ofNat 64 v) c)) ∧
        (s.crew.edit = none → OnceEnds .tapresEdit s (ends 2 cOperand)) ∧
        (∀ bs, s.crew.edit = some bs → OnceEnds .tapresEdit s (fun u => match applyEdit u t r rest bs with
          | .error (c, v) => ends (BitVec.ofNat 64 v) c u
          | .ok v => retired v))) ∧
      OnceEnds .tapresCont s (fun u => match resolveRecord u r rest 0 with
        | .error (c, v) => ends (BitVec.ofNat 64 v) c u
        | .ok v => retired v) ∧
      OnceEnds .tapresAbort s (fun u => match resolveRecord u r rest (2 ^ 29) with
        | .error (c, v) => ends (BitVec.ofNat 64 v) c u
        | .ok v => retired v) ∧
      (∀ u flag, resolveRecord s r rest flag = .ok u → u.crew = { s.crew with records := rest, edit := none }) ∧
      (∀ t, tapOf s r.tap = some t →
        let s0 : State := { s with crew := { s.crew with records := rest, edit := none } }
        let last := !rowHasRecord s0 t.id r.row && t.rowDecided r.row
        (∀ flag v w, engineRead (fduReader s0 t) s0 needRW (t.entryAddr r.row) 8 = .ok v →
          fduWrite s0 t r.row needRW (t.entryAddr r.row)
            (natLE (v - (v &&& (if last then 2 ^ 31 else 0)) ||| flag) 8) = .ok w →
          resolveRecord s r rest flag = .ok (if last then endRow w t.id r.row else w) ∧ (endRow w t.id r.row).mem = w.mem) ∧
        (∀ bs n s1 s2 s3,
          let rep := t.desc.repair.toNat
          fduWrite s t r.row needW (t.desc.snap.toNat + (r.row - t.desc.first) * t.rowBytes) bs = .ok s1 →
          engineRead (fduReader s t) s needRW rep 4 = .ok n →
          fduWrite s1 t r.row needW (rep + 16 + 16 * n)
            (natLE r.request 4 ++ natLE r.position 4 ++ natLE r.layer 2 ++ natLE r.slot 1 ++ natLE 0 5) = .ok s2 →
          fduWrite s2 t r.row needRW rep (natLE (n + 1) 4) = .ok s3 →
          applyEdit s t r rest bs = resolveRecord s3 r rest (2 ^ 30)) ∧
        ∀ bs u, applyEdit s t r rest bs = .ok u → u.crew = { s.crew with records := rest, edit := none }))) ∧
  (∀ (s : State) (t : Tap) (row : Nat) (n : Need) (va : Nat) (bs : List Byte) (u : State), fduWrite s t row n va bs = .ok u →
    ∃ ks, checkRun s n va bs.length = .ok ks ∧
      u = { s with mem := u.mem, poison := u.poison, spillPoison := u.spillPoison, late := u.late, writes := u.writes } ∧
      KeptOutside s u (fun k => k ∈ ks) ∧
      (ks.Nodup → ∀ (j k : Nat) (b : Byte), ks[j]? = some k → bs[j]? = some b → byteAt u.mem k = b)) ∧
  (∀ (s : State) (a b : BitVec 6),
    let i : Instr := .frule a b
    let rec0 := readRecord s needR 16 (kget s a.toNat).toNat 16
    let cellVa := kget s (b.toNat + 1)
    (∀ c v, rec0 = .error (c, v) → OnceEnds i s (fun u => trapped u c (BitVec.ofNat 64 v) s.sp.pc)) ∧
    (∀ bs, rec0 = .ok bs →
      (∀ c, checkCell s needRW cellVa.toNat = .bad c → OnceEnds i s (fun u => trapped u c cellVa s.sp.pc)) ∧
      (∀ key, checkCell s needRW cellVa.toNat = .ok key → cellOf key < 2 ^ 64 → bs.length = 16 →
        OnceEnds i s (fun u0 =>
          let u := keepArgs u0 [cellVa, BitVec.ofNat 64 (cellOf key), kget s b.toNat, BitVec.ofNat 64 (recNat bs 0 8),
            BitVec.ofNat 64 (recNat bs 8 8), 0]
          if tooFew u (cellOf key) then trapped u cMajfail cellVa s.sp.pc
          else if cellBusy u (cellOf key) || fruleBusy u (cellOf key) then waits i u
          else match majLoad u (cellOf key) with
          | .fail => trapped u cMajfail cellVa s.sp.pc
          | .wait => waits i u
          | .done _ v t => match installRule (acquireCell t (cellOf key)) (kget s b.toNat) bs v with
            | .error (c, n) => trapped t c (BitVec.ofNat 64 n) s.sp.pc
            | .ok w => finish i false (fruleStore { w with sp := { w.sp with args := w.sp.args.take 6 ++ [1] } } v)))) ∧
    (∀ (q : DWord) (r : List Byte) (root : Payload),
      (ruleBad r = true → installRule s q r root = .error (cOperand, 1)) ∧
      (ruleBad r = false → (root.extractLsb' 64 32).toNat ≤ q.toNat → installRule s q r root = .error (cOperand, 2)) ∧
      (ruleBad r = false → q.toNat < (root.extractLsb' 64 32).toNat →
        let base := (root.extractLsb' 0 64).toNat + (q.toNat * 16 + recByte r 14) * 1024
        (recByte r 12 = 0 → installRule s q r root = laneRun s base (List.replicate 1024 0)) ∧
        (recByte r 12 ≠ 0 → ∀ bs, readRecord s needR 1 base 1024 = .ok bs →
          (∀ i < 64, recByte bs (16 * i + 12) = 0 → (∀ j < i, recByte bs (16 * j + 12) ≠ 0) →
            installRule s q r root = laneRun s (base + 16 * i) r) ∧
          ((∀ i < 64, recByte bs (16 * i + 12) ≠ 0) → installRule s q r root = .error (cOperand, 3)))) ∧
      (∀ va bs u, laneRun s va bs = .ok u → ∃ ks, checkRun s needW va bs.length = .ok ks ∧
        u = { s with ctx := { s.ctx with taps := u.ctx.taps }, mem := u.mem, poison := u.poison
                     spillPoison := u.spillPoison, late := u.late, writes := u.writes } ∧
        u.ctx.taps.map (fun x => { x with before := [] }) = s.ctx.taps.map (fun x => { x with before := [] }) ∧
        KeptOutside s u (fun k => k ∈ ks) ∧ (ks.Nodup → ∀ (n k : Nat) (b : Byte), ks[n]? = some k → bs[n]? = some b → byteAt u.mem k = b)) ∧
      (nextEpoch root).extractLsb' 96 32 = root.extractLsb' 96 32 + 1#32 ∧
      (nextEpoch root).extractLsb' 0 96 = root.extractLsb' 0 96 ∧
      (nextEpoch root).extractLsb' 128 128 = root.extractLsb' 128 128))

/-- R235, R237, R347 to R359: the feature unit's stages: the root is read, the rows are taken in, encoded, selected, put
through their rules one rule at a time, and written back and released; the root is read once, and the row map and the
lists under it, from a suspended read on (log 87); a missing translation holds the tap and stops its encoder tasks, any
other fault ends its row, and its records with it, in every crew's queue (log 57). R235, R353: the selector takes at
most k features, positive ones only, and none left out is greater than one taken, or equal to one of a higher index; a
WATCH fires on a strict comparison; CLAMP gives min(max(v, VAL), HI) under R111, a NaN v counting as VAL, and ADD the
sum of v and VAL rounded to f32. -/
def Obligations.FeatureUnit : Prop :=
  (∀ (s : State) (tap : Nat) (u : State) (t : Tap), focusTap s tap = some (u, t) →
    (∀ key, t.stage = .root → t.root = none → checkCell u needR t.desc.ruleroot.toNat = .ok key →
      (∀ o v w, rootLoad u t (cellOf key) = .done o v w → let r := rootRead w t (cellOf key) v
        exec (.fduRootRead tap) s = .next ((readLists r { t with root := some v } v).getD r) ∧
        ∀ y, tapOf r t.id = some y → y.root = some v) ∧
      (rootLoad u t (cellOf key) = .fail →
        exec (.fduRootRead tap) s = .next (holdTap u t cMajfail t.desc.ruleroot.toNat))) ∧
    (∀ v w, t.stage = .root → t.root = some v → readLists u t v = some w → exec (.fduRootRead tap) s = .next w) ∧
    (∀ (v : Payload) (rs : List Nat) (xs : List TapRow) (all : Bool),
      (readRows u t v rs = (xs, true) ↔ mapE (rootRow u t v) rs = .ok xs) ∧
      (readRows u t v t.unread = (xs, all) → all = true ∨ xs ≠ [] → readLists u t v = some (onTap u t.id (fun x => { x with
        taken := x.taken ++ xs, stage := if all then .intake else .root, before := if all then [] else x.before })))) ∧
    (∀ xs, t.stage = .intake → intakeAll u t = .ok xs →
      let s1 := xs.foldl (intakeWrite t) u
      exec (.fduIntakeEnd tap) s = .next (settleTap (onTap
        (freeRows s1 (t.job s1) ((xs.filter (fun x => !x.held)).map (fun x => x.row))) t.id (fun x => { x with
        stage := .rows, intakeDone := true, taken := [], rows := x.rows ++ xs.filter (fun y => !y.rules.isEmpty) })) t.id)) ∧
    (∀ e xs, s.dev.halted = false → encoderTask u t = some e → mapE (encodeRow u t) (encoderRows u t) = .ok xs →
      exec (.fduEncoderTaskDone tap) s =
        .next (putRows { u with clus := { u.clus with encoders := u.clus.encoders.erase e } } t.id xs)) ∧
    (let xs := firstBlock t (fun x => !x.selected && x.pre.length == t.desc.f);
      xs ≠ [] → exec (.fduSelectDone tap) s = .next (putRows u t.id (xs.map (fun x => { x with
        selected := true, f := selectTop t.desc.topk x.pre, g := selectTop t.desc.topk x.pre })))) ∧
    (rowToClose t = none → (∃ x ∈ ruleRows t, ∃ v, ruleStep u t x = some v) →
      exec (.fduRuleUnit tap) s = .next ((ruleRows t).foldl (fun v x => (ruleStep v t x).getD v) u)) ∧
    (∀ x v, rowToClose t = some x → closeRow u t x = .ok v → exec (.fduRuleUnit tap) s = .next v) ∧
    (∀ x v, rowToWrite t = some x → writeBack u t x = .ok v → exec (.fduWriteback tap) s = .next v) ∧
    (∀ r c a, tapFault u t = some (r, c, a) →
      exec (.fduFault tap) s = .next (if c = cPage then stopEncoders (holdTap u t c a) t.id else abortRow u t r c a)) ∧
    (∀ r c a, (∀ x ∈ (abortRow u t r c a).crew.records, ¬ (x.tap = t.id ∧ x.row = r)) ∧
      ∀ k ∈ (abortRow u t r c a).crews, ∀ x ∈ k.records, ¬ (x.tap = t.id ∧ x.row = r)) ∧
    (∀ c, t.stage = .root → t.root = none → checkCell u needR t.desc.ruleroot.toNat = .bad c → exec (.fduFault tap) s = .next (rootFault u t c)) ∧
    (∀ x w y, rowToWrite t = some x → writeBack u t x = .ok w → (∀ z ∈ t.rows, z.row = x.row → z = x) →
      tapOf u t.id = some t → tapOf w t.id = some y →
      ∃ z ∈ y.rows, z.row = x.row ∧ z.finished = true ∧ z.released = true)) ∧
  (∀ (k : Nat) (pre : List Word) (r : List Byte) (v : Word),
    ((selectTop k pre).length ≤ k ∧ (∀ j w, (j, w) ∈ selectTop k pre → pre[j]? = some w ∧ 0 < w.toNat ∧ w.toNat ≤ 0x7F800000)) ∧
    ((selectTop k pre).length = k → ∀ j w, pre[j]? = some w → 0 < w.toNat → w.toNat ≤ 0x7F800000 →
      (∀ x, (j, x) ∉ selectTop k pre) → ∀ i x, (i, x) ∈ selectTop k pre → w.toNat ≤ x.toNat ∧ (w = x → i < j)) ∧
    ((selectTop k pre).length < k → ∀ j w, pre[j]? = some w → 0 < w.toNat → w.toNat ≤ 0x7F800000 → (j, w) ∈ selectTop k pre) ∧
    ((recByte r 13) % 2 = 0 → watchFires r v = fvLt false (decodeF .f32 (recNat r 4 4)) (decodeF .f32 v.toNat)) ∧
    ((recByte r 13) % 2 = 1 → watchFires r v = fvLt false (decodeF .f32 v.toNat) (decodeF .f32 (recNat r 4 4))) ∧
    (recByte r 12 = 1 → applyRule r v = v) ∧
    (recByte r 12 = 2 →
      let lo := recNat r 4 4
      let hi := recNat r 8 4
      (decodeF .f32 lo).isNan = false → (decodeF .f32 hi).isNan = false →
      let m := if (decodeF .f32 v.toNat).isNan || fvLt true (decodeF .f32 v.toNat) (decodeF .f32 lo) then lo else v.toNat
      applyRule r v = BitVec.ofNat 32 (if fvLt true (decodeF .f32 m) (decodeF .f32 hi) then m else hi)) ∧
    (recByte r 12 = 3 → applyRule r v =
      BitVec.ofNat 32 (roundTo 0x045 false .f32 0 (fvAdd 0 (decodeF .f32 v.toNat) (decodeF .f32 (recNat r 4 4))).1).1))

/-- R244: SHAPE gives the shape number of an acceptance estimate, at most 15, and raises OPERAND with its word above 16
bits; ACCUP moves the estimate a quarter of the way to the count times 256, and raises OPERAND with the operand that is
out of range. R240 to R242, R332 to R337, R245, R151: LAUNCH checks a record and enters it into the launch queue,
answering its id, or 0 where the queue is full, and is a release; a service core's launch does the same without an
answer, and a record it refuses enters nothing (log 58). Admission takes the first launch of the highest class, capped
by the context's ceiling. The records of a cluster's ring are consumed in order: refused, or bound, or kept, with those
behind them, where the crew's memory has no room. Which records agree with their launch (the spill area R240 gives a
warp, its crew's range, PRIO at most its class), and that a full ring takes no record, is log 59; what capture keeps is
log 63. A record for a crew warp loads it; a crew starts when its last warp is loaded, every warp ready at once. A
dispatch warp forms from the fullest queue, of those of one context and launch (log 50), passing over callees that
cannot form (log 51). The encodings of SHAPE and ACCUP, and the range of the estimate. -/
def Obligations.LaunchesAndDrafts : Prop :=
  (∀ (s : State) (d a : BitVec 6),
    let v := (kget s a.toNat).toNat
    let e := (kget s d.toNat).toNat
    (2 ^ 16 ≤ v → OnceEnds (.shape d a) s (fun u => trapped u cOperand ((encode (.shape d a)).setWidth 64) s.sp.pc)) ∧
    (v < 2 ^ 16 → OnceResult (.shape d a) s (fun u => kset u d.toNat (BitVec.ofNat 64 (min 15 (v / 128))))) ∧
    (65280 < e → OnceEnds (.accup d a) s (fun u => trapped u cOperand (kget s d.toNat) s.sp.pc)) ∧
    (e ≤ 65280 → 255 < v → OnceEnds (.accup d a) s (fun u => trapped u cOperand (kget s a.toNat) s.sp.pc)) ∧
    (e ≤ 65280 → v ≤ 255 → OnceResult (.accup d a) s (fun u =>
      kset u d.toNat (BitVec.ofInt 64 ((e : Int) + ((v : Int) * 256 - e).fdiv 4))))) ∧
  (∀ (s : State) (d a : BitVec 6),
    (∀ c v, readLaunch (laneReader s) s (kget s a.toNat).toNat = .error (c, v) →
      OnceEnds (.launch d a) s (fun u => trapped u c (BitVec.ofNat 64 v) s.sp.pc)) ∧
    (∀ r, readLaunch (laneReader s) s (kget s a.toNat).toNat = .ok r →
      (64 ≤ (queuedLaunches s).length → OnceResult (.launch d a) s (fun u => kset (releaseNow u).2 d.toNat 0)) ∧
      ((queuedLaunches s).length < 64 → OnceResult (.launch d a) s (fun u =>
        kset { (releaseNow u).2 with ctx := { u.ctx with
          launches := s.ctx.launches ++ [{ id := s.ctx.nextLaunch, record := r, admitted := false, unbindable := false
                                           prio := r.prio, nextCrew := 0, boundWarps := 0, nextNumber := r.ncrew
                                           crewsEnded := 0, dispSlots := [], past := some (pastNow s) }]
          nextLaunch := s.ctx.nextLaunch % (2 ^ 32 - 1) + 1 } } d.toNat (BitVec.ofNat 64 s.ctx.nextLaunch)))) ∧
    (∀ ctx va t, focusCtx s ctx = some t →
      (∀ e, readLaunch (.device (dieOf (t.ctx.part * 4))) t (BitVec.toNat va) = .error e →
        exec (.serviceLaunch ctx va) s = .next t) ∧
      (∀ r, readLaunch (.device (dieOf (t.ctx.part * 4))) t (BitVec.toNat va) = .ok r →
        exec (.serviceLaunch ctx va) s = .next (enterLaunch t r none).1) ∧
      (∀ l, firstOfClass t (t.ctx.launches.filter (fun l => !l.admitted)) = some l →
        exec (.launchAdmit ctx) s = .next (capture (admitLaunch t l) 1 (natLE l.id 4 ++ l.record.bytes)) ∧
        l.admitted = false ∧ ∀ m ∈ t.ctx.launches, m.admitted = false →
          min m.record.prio t.ctx.ceiling ≤ min l.record.prio t.ctx.ceiling)) ∧
    (∀ r : BitVec 256, r.toNat / 2 ^ 248 ≠ 0 → let ring := (findCluster (pack s).cluss (bindOf r).clus).binds
      (s.dev.replay = false → ring.length < 256 → exec (.bindRecord r) s = .next (drainRing s (bindOf r).clus [r])) ∧
      (s.dev.replay = true ∨ 256 ≤ ring.length → exec (.bindRecord r) s = .next s)) ∧
    (∀ r t, r.toNat / 2 ^ 248 = 0 → drainFirst s (pack s).cluss = some t → exec (.bindRecord r) s = .next t) ∧
    (∀ (clus : Nat) (r : BitVec 256) (rs : List (BitVec 256)),
      (ctxOfCluster s clus = none → bindAll clus s (r :: rs) = bindAll clus (refuseBind s r) rs) ∧
      ∀ c, ctxOfCluster s clus = some c → let u := focusOn s 0 c.id clus
        (∀ v, bindOne u r = some v → bindAll clus s (r :: rs) =
          bindAll clus (if (bindLaunch u (bindOf r)).isSome then capture v 2 (natLE r.toNat 32) else v) rs) ∧
        (bindOne u r = none → (bindAll clus s (r :: rs)).clus.binds = r :: rs)) ∧
    (∀ r : BitVec 256, bindLaunch s (bindOf r) = none → ∃ t, bindOne s r = some t ∧
      t = { s with dev := t.dev, env := t.env } ∧
      countOf t (bindOf r).clus nBindRefused = countOf s (bindOf r).clus nBindRefused + 1) ∧
    (∀ (r : BitVec 256) (l : Launch), let b := bindOf r
      bindLaunch s b = some l →
      (b.op = 1 → b.crew < l.record.ncrew ∧ b.warp < l.record.creww ∧
        b.spillb = l.record.spillpool.toNat + (b.crew * l.record.creww + b.warp) * l.record.spillsz) ∧
      (b.op = 2 → s.ctx.quotaMask.getLsbD b.clus = true ∧ bindOne s r = some (onLaunch s l.id (fun x => { x with dispSlots := x.dispSlots ++
        [{ clus := b.clus, core := b.core, quad := b.quad, place := b.place, allot := b.allot,
           spillb := BitVec.ofNat 64 b.spillb, busy := false }] }))) ∧
      (b.op ≠ 2 → (∀ c, bindingCrew s b = some c → bindOne s r = some (loadWarp s l b c.id)) ∧
        (bindingCrew s b = none → placeMemory s b.clus l.record.cmsize = none → bindOne s r = none) ∧
        (bindingCrew s b = none → ∀ base, placeMemory s b.clus l.record.cmsize = some base →
          bindOne s r = some (loadWarp { s with
            nextId := s.nextId + 1, crews := insertCrew (newCrew s l b s.nextId base) s.crews } l b s.nextId)))) ∧
    (∀ (l x : Launch) (b : Bind) (crew : Nat), launchAt s l.id = some x →
      let t := loadWarp s l b crew
      let last : Prop := l.record.creww ≤ x.boundWarps + 1
      (last → ∀ c ∈ t.crews, c.id = crew → c.state = .running) ∧ (¬ last → t.crews = s.crews) ∧
      (∃ y, launchAt t l.id = some y ∧ (last → y.nextCrew = x.nextCrew + 1 ∧ y.boundWarps = 0) ∧
        (¬ last → y.nextCrew = x.nextCrew ∧ y.boundWarps = x.boundWarps + 1)) ∧
      ∃ w ∈ t.warps, w.id = s.nextId ∧ w.crew = crew ∧ w.index = b.warp ∧ ∀ p ∈ w.splits, p.state = .ready) ∧
    (∀ (l : Launch) (b : Bind) (id crew : Nat), let w := newWarp s l b id crew
      w.index = b.warp ∧ w.mode = l.record.mode ∧ w.allot = b.allot ∧ w.prio = min b.prio l.prio ∧
      sget 0 w.k 1 = l.record.param ∧ w.spillb = BitVec.ofNat 64 b.spillb ∧
      (∀ n, n ≠ 1 → sget 0 w.k n = 0) ∧ (∀ n, predMask w (n + 1) = 0) ∧ w.fflags = 0 ∧ w.strand = 0 ∧
      ∃ p, w.splits = [p] ∧ p.state = .ready ∧ p.pc = BitVec.ofNat 64 b.entry ∧ p.active = 0xFFFFFFFF ∧
        p.entry = 0xFFFFFFFF ∧ p.level = 0 ∧ p.depth = 0 ∧ p.sig = 0) ∧
    (∀ t, (pack s).cluss.findSome? (fun k => formFirst s k.id (s.allCtxs.flatMap (fun c =>
      c.launches.map (fun l => (c.id, l.id))))) = some t → exec .dispatchWarpForm s = .next t) ∧
    (∀ ctx l n, n < 64 → (queueOf s ctx l n).length ≤ (fullestQueue s ctx l).2)) ∧
  (∀ (d a : BitVec 6), encode (.shape d a) = 0xD3#8 ++ d ++ a ++ 0#12 ∧ encode (.accup d a) = 0xD4#8 ++ d ++ a ++ 0#12 ∧
    ∀ e v : Nat, e ≤ 65280 → v ≤ 255 → 0 ≤ (e : Int) + ((v : Int) * 256 - e).fdiv 4 ∧
      (e : Int) + ((v : Int) * 256 - e).fdiv 4 ≤ 65280 ∧ (min (e : Int) (v * 256) ≤ (e : Int) + ((v : Int) * 256 - e).fdiv 4) ∧
      (e : Int) + ((v : Int) * 256 - e).fdiv 4 ≤ max (e : Int) (v * 256))

/-- R176, R243, R341, R344, R345, R374 to R376: what the service cores, the majority units and the sets' hardware do
with cells: their loads, stores and updates, which wait for replies at most 65,536 clocks and hand their outcome and
payload to the core, a store's to replay capture too (log 63); a reply that comes too late, an update that is done or
abandoned, the watchdog's HELD record, the scrubber's and the rebuild's visits, with the scrub count of log 2, and
stacks that leave, failing what is outstanding on their sets, and return, to the places of log 62. -/
def Obligations.MajorityEvents : Prop :=
  ∀ (s : State) (core cell : Nat), core < 32 → majBase + 32 * cell < majEnd s.shape →
    (let o : ServiceKind → DWord → Payload → ServiceOp := fun kind e p =>
        { core := some core, wid := 0xF00 + core, cell := cell, kind := kind, expect := e, payload := p
          since := s.cycle.toNat, tag := none, past := none }
     let issues : ServiceOp → State := fun x => advanceService { s with services := s.services ++ [x] } x
     exec (.serviceMld core cell) s = .next (issues (o .mld 0 0)) ∧
     (∀ p, exec (.serviceMst core cell p) s = .next (issues (o .mst 0 p))) ∧
     (∀ e p, exec (.serviceMcas core cell e p) s = .next (issues (o .mcas e p))) ∧
     (∀ x, exec (.serviceTrsigUpdate core cell x) s = .next (issues (o .trsig 0 (x.setWidth 256)))) ∧
     (∀ (ran : Nat) (budget : Option Nat), ran ≤ budget.getD 200000 →
       exec (.serviceKernelWatchdog core ⟨cell, some ran, budget⟩) s = .next s) ∧
     (∀ (ran budget : Option Nat), (∀ n, ran = some n → budget.getD 200000 < n) →
       exec (.serviceKernelWatchdog core ⟨cell, ran, budget⟩) s = .next { issues (o .hold 0 0) with dev := {
         (issues (o .hold 0 0)).dev with serviceLog := (issues (o .hold 0 0)).dev.serviceLog ++ [(cell, ran.isSome)] } })) ∧
    (∀ (u : State) (x : ServiceOp),
      (tooFew u x.cell = true → advanceService u x = endService u x (x.stores u) false false 0) ∧
      (tooFew u x.cell = false → serviceBusy u x = true → advanceService u x = u) ∧
      (tooFew u x.cell = false → serviceBusy u x = false → holdIdle u x = false →
        (∀ b v v2, serviceWork u x = .done b v v2 → advanceService u x = if b = true ∨ x.kind.repeats = false
          then endService (serviceOrder v2 x b) x (x.stores u) true b v else serviceOrder v2 x b) ∧
        (serviceWork u x = .fail → advanceService u x = endService u x (x.stores u) false false 0) ∧
        (serviceWork u x = .wait → advanceService u x =
          if x.since + 65536 ≤ u.cycle.toNat then endService u x (x.stores u) false false 0 else u)) ∧
      (x.kind = .mst ∨ x.kind = .mcas ∨ x.kind = .hold → x.stores u = true) ∧ (x.kind = .mld → x.stores u = false) ∧
      (x.kind = .trsig → ∀ w, cellValue u x.cell = some w →
        x.stores u = decide ((w.extractLsb' 0 64).toNat < (x.payload.extractLsb' 0 64).toNat)) ∧
      (x.kind = .mld → serviceWork u x = majLoad u x.cell) ∧
      (x.kind = .mst → x.tag = none → serviceWork u x = majStore u x.cell x.wid x.payload) ∧
      (x.kind = .mcas → x.tag = none → serviceWork u x = majCas u x.cell x.wid x.expect x.payload) ∧
      (x.kind = .trsig → serviceWork u x = raiseReady u x.cell x.wid (x.payload.extractLsb' 0 64) (x.before u)) ∧
      ∀ c a b v, x.core = some c →
        let heard : State := { u with services := u.services.erase x, dev := { u.dev with serviceReplies :=
          u.dev.serviceReplies ++ [{ core := c, cell := x.cell, kind := x.kind, answered := a, outcome := b, payload := v }] } }
        endService u x false a b v = heard ∧
        endService u x true a b v = captureAll heard 3 (natLE (majBase + 32 * x.cell) 8 ++
          natLE (if x.kind.repeats then v else x.payload).toNat 32 ++ [if b then 1 else 0])) ∧
    (∀ b v t x p, majLoad s cell = .done b v t → BitVec.toNat x ≤ (v.extractLsb' 0 64).toNat →
      raiseReady s cell (0xF00 + core) x p = .done true v t) ∧
    (∀ id slot rest i, splitsWhere s (fun _ p => majorityLate s.cycle.toNat p) = (id, slot) :: rest →
      (focusSplit s id slot).w.live = true → (focusSplit s id slot).sp.alive = true →
      (focusSplit s id slot).sp.wait = some i →
      exec .majorityTimeout s = .next (goesOnTrapped (focusSplit s id slot) cMajfail
        (argN (focusSplit s id slot) 0) (focusSplit s id slot).sp.pc)) ∧
    (∀ id slot a b, (focusSplit s id slot).w.live = true → (focusSplit s id slot).sp.alive = true →
      (focusSplit s id slot).sp.wait = some (.trwait a b) → exec (.trwaitRetry id slot) s =
        .next (finish (.trwait a b) true (trwaitAgain (focusSplit s id slot)))) ∧
    (∀ t, firstTrsig s s.trsigs = some t → exec .trsigUpdateDone s = .next t) ∧
    (∀ u, s.trsigs.find? (fun u => decide (u.since + 65536 ≤ s.cycle.toNat)) = some u →
      ∃ t, exec .trsigAbandon s = .next t ∧ t.trsigs = s.trsigs.erase u) ∧
    (∀ set < setCount s.shape, let r := repairCell s (sget 0 s.scrub set * setCount s.shape + set)
      (∃ t, exec (.scrubVisit set) s = .next t ∧ t = { r with scrub := t.scrub, scrubbed := t.scrubbed, dev := { r.dev with
          scrubPasses := t.dev.scrubPasses } } ∧ sget 0 t.scrub set = (sget 0 s.scrub set + 1) % 2 ^ 22) ∧
      (rebuildingIn s set ≠ [] → ∃ t, exec (.rebuildVisit set) s = .next t ∧
        t.majority = (repairCell s (sget 0 s.rebuild set * setCount s.shape + set)).majority) ∧
      sget 0 (scrubSet s set).scrubbed set = max (sget 0 s.scrubbed set) ((s.cycle.toNat + 4 - set) / 256)) ∧
    ((setStacks s cell).Nodup → ∀ k ∈ serving s cell, ∀ m ∈ serving s cell, (lineAt s m cell).holds = true →
      tagRank (lineAt s m cell).tag ≤ tagRank (lineAt (repairCell s cell) k cell).tag) ∧
    (∀ k, (s.hbm[k]? = some .inService ∨ s.hbm[k]? = some .rebuilding ∨ s.hbm[k]? = some .spare) →
      let t := doomSplits { s with hbm := s.hbm.set k .retired, flying := s.flying.filter (fun f => f.1 != k) }
      exec (.stackRetire k) s = .next ((t.allCtxs.flatMap (fun c => c.taps.map (fun x => x.id))).foldl failRoot t)) ∧
    (∀ u tap v t key, focusTap u tap = some (v, t) → t.stage = .root → t.root = none →
      checkCell v needR t.desc.ruleroot.toNat = .ok key → tooFew v (cellOf key) = true →
      failRoot u tap = holdTap v t cMajfail t.desc.ruleroot.toNat) ∧
    (∀ u : State, ∀ w ∈ u.warps, ∀ p ∈ w.splits, ∃ v ∈ (doomSplits u).warps, v.id = w.id ∧
      (p.alive = true → awaitsMajority p = true → tooFew u (p.args.getD 2 0).toNat = true →
        { p with doomed := true } ∈ v.splits) ∧ (tooFew u (p.args.getD 2 0).toNat = false → p ∈ v.splits)) ∧
    (∀ k, s.hbm[k]? = some .retired → ∃ t, exec (.stackReturn ⟨k, k⟩) s = .next t ∧
      t.hbm[k]? = some (if (setOfStack t k).isSome then .rebuilding else .spare) ∧
      ((setOfStack t k).isSome = true → lineAt t k cell = { tag := 0, payload := 0 })) ∧
    (∀ k place, s.hbm[k]? = some .spare → s.hbm[place]? = some .retired → (setOfStack s place).isSome = true →
      ∃ t, exec (.stackReturn ⟨k, place⟩) s = .next t ∧ t.hbm[k]? = some .rebuilding ∧ (place, k) ∈ t.spares ∧
        lineAt t k cell = { tag := 0, payload := 0 })

/-- R38, R39, R44, R223, R254 to R256, R265 to R269, R330, R340: the service's and firmware's events for crews and
contexts. KILL logs the crew, lets what its splits have sent to any copy run on, resolves its records as ABORT, discards
its tasks and rings, and ends it. A restore puts an image back: its warps with their waits begun anew, its crews and its
memory with its poison, and then judges the crews whose tile work was discarded. The model's choices here: a context has
one armed address, which a later command replaces (log 98), a restored TRWAIT keeps its step (log 104), a RESUME unwinds
every split that a level-1 crew holds (log 17), KILL leaves other crews' multicast slots reserved (log 47), the order of
the work a save completes and waits that begin anew at a restore (log 60), what a swap moves and that a context may be
created saved (log 71), the tile memory of an image (log 72), and destruction (log 75). -/
def Obligations.ContextEvents : Prop :=
  ∀ (s : State) (n : Nat),
    (∀ c, s.allCrews.find? Crew.spent = some c → exec .budgetExpiry s =
      .next (parkIdle (focusCrew s c.id) cBudget (firstMember (focusCrew s c.id)))) ∧
    (∀ b, let t := focusCrew s n
      t.crew.live = true → t.crew.state = .parked → t.crew.parkKind ≠ .level1 → exec (.resume n b) s = .next (resumed t n b)) ∧
    (∀ b u, let t := focusCrew s n
      t.crew.live = true → t.crew.state = .parked → t.crew.parkKind = .level1 → unwindAll ((t.warpsOf n).map (fun w => w.id)) t = .ok u →
      exec (.resume n b) s = .next (resumed u n b)) ∧
    (let t := focusCrew s n
     let w := firstMember t
     let parked := t.crew.state == .parked
     let s1 := logEvent t w { cause := if parked then t.crew.parkCause else 0, where_ := whereOldest w
                              flags := fgKilled + (if parked then fgParked else 0), pc := oldestPc w, trapv := 0 }
     let s2 := { s1 with services := s1.services ++ (s1.warpsOf n).flatMap (fun x => sentOps s1 x.id) }
     let s3 := discardWork (abortRecords s2 s2.crew.records.length)
     t.crew.live = true → t.crew.state = .running ∨ t.crew.state = .parked → s3.crew.dispatch = false →
       exec (.kill n) s = .next (endCrew { s3 with warps := s3.warps.filter (fun x => x.crew != n) })) ∧
    (∀ u : State, (∀ x ∈ (discardWork u).clus.tasks, x.crew ≠ u.crew.id) ∧
      (∀ c ∈ (discardWork u).clus.copies, c.crew = u.crew.id → 8 ≤ c.ring)) ∧
    (∀ t deadline, focusCtx s n = some t → t.ctx.place = .running → t.ctx.preempt = none → deadline ≤ 1000 →
      exec (.preemptRequest n (.within deadline)) s = .next { t with ctx := { t.ctx with preempt := some (t.cycle.toNat +
        if deadline = 0 then t.ctx.deadline else deadline * 1050) } }) ∧
    (∀ t a, focusCtx s n = some t →
      exec (.preemptRequest n (.reaching a)) s = .next { t with ctx := { t.ctx with armed := some a } }) ∧
    (∀ c, s.allCtxs.find? (saveDue s) = some c → let t := focusOn s 0 c.id 0
      exec .preemptDeadline s = .next (saveCtx t (lightCrews t))) ∧
    (∀ t, focusCtx s n = some t → partitionBusy t t.ctx.part = true → exec (.darkslideSwap n) s = .next s) ∧
    (∀ t, focusCtx s n = some t → partitionBusy t t.ctx.part = false → t.ctx.place = .saved →
      ∃ u, exec (.darkslideSwap n) s = .next u ∧
        u = { t with ctx := u.ctx, ctxs := u.ctxs } ∧ u.ctx = { t.ctx with place := .darkslide } ∧
        ∀ c ∈ u.ctxs, c.part = t.ctx.part → c.place ≠ .darkslide) ∧
    (∀ t, focusCtx s n = some t → partitionBusy t t.ctx.part = false →
      t.ctx.place = .darkslide ∨ t.ctx.place = .secondTier →
      exec (.darkslideSwap n) s = .next { t with ctx := { t.ctx with place := .saved } }) ∧
    (∀ t img, focusCtx s n = some t → t.ctx.place = .saved → t.ctx.image = some img → partitionBusy t t.ctx.part = false →
      let p := pack { t with ctx := { t.ctx with place := .running, image := none } }
      exec (.contextRestore n) s = .next ((img.crews.map (fun c => c.id)).foldl (fun u c => afterDiscard (focusCrew u c))
        (putImage p t.ctx img))) ∧
    (∀ (u : State) (c : Ctx) (img : Image), let v := putImage u c img
      let again : List Split → List Split := fun ps => ps.map (fun p => p.restored u.cycle.toNat)
      (∀ w ∈ img.warps, { w with splits := again w.splits, overflow := again w.overflow } ∈ v.warps) ∧
      (∀ x ∈ img.crews, x ∈ v.crews) ∧ (∀ w ∈ u.warps, w ∈ v.warps) ∧ v.ctxs = u.ctxs ∧
      (∀ k, k ∈ v.poison ↔ k ∈ img.poison ∨ k ∈ u.poison) ∧ (∀ k, k ∈ v.spillPoison ↔ k ∈ img.spillPoison ∨ k ∈ u.spillPoison) ∧
      ∀ a, byteAt v.mem a = (img.mem.foldl (fun b e => if e.1 = a then e.2 else b) (byteAt u.mem a))) ∧
    (∀ u : State, u.crew.discarded = false → afterDiscard u = u) ∧
    (∀ id root, n < 8 → ∃ u c, exec (.contextCreation n id root) s = .next u ∧ c ∈ u.ctxs ∧
      c.id = s.nextId ∧ c.ctxid = id ∧ c.part = n ∧ c.root = root ∧ c.live = true ∧
      c.place = (if partitionBusy (pack s) n then .saved else .running) ∧ u.warps = (pack s).warps) ∧
    (∀ t, focusCtx s n = some t → ∃ u, exec (.contextDestruction n) s = .next u ∧ (∀ c ∈ u.ctxs, c.id ≠ n) ∧
      (∀ w ∈ u.warps, w.ctx ≠ n) ∧ (∀ c ∈ u.crews, c.ctx ≠ n)) ∧
    (∀ (p : Split) (cycle : Nat), (p.state = .sleeping → (p.restored cycle).wake = 0) ∧
      (∀ a b, p.state = .waiting → p.wait = some (.trwait a b) → (p.restored cycle).state = .ready ∧
        (p.restored cycle).wait = none ∧ (p.restored cycle).pc = p.pc ∧ (p.restored cycle).sig = p.sigWas ∧
        (p.restored cycle).stepping = min 1 p.stepping) ∧
      (∀ a k l, p.state = .waiting → p.wait = some (.mld a k l) → p.restored cycle = { p with since := cycle })) ∧
    (∀ (w : Warp) (draw age cycle : Nat), w.strand ||| w.exited ≠ 0xFFFFFFFF →
      let r := w.restarted draw age cycle
      r.k = w.snap ∧ r.overflow = [] ∧ r.strand = w.strand ∧ r.exited = w.exited ∧ (∀ q, predMask r (q + 1) = 0) ∧
      ∃ p, r.splits = [p] ∧ p.pc = w.rlabel ∧ p.active = ~~~(w.strand ||| w.exited) ∧ p.depth = 0 ∧ p.sig = 0 ∧
        p.level = 0 ∧ p.state = .ready)

/-- R88, R89, R131, R144, R154, R249, R260, R261, R263, R313, R382, R383: the events of the issue hardware and of a
debugger. A split's outstanding instructions complete oldest first, by the model's choice (log 9); the cause and value
of a freeze's or a breakpoint's stop record are not stated (log 61); a breakpoint stops a split of its member warp at
its address, once before that word issues (R313, R321, log 61). A notification traps the warp's oldest ready split,
wherever it is kept; an exchange moves no stopped split. -/
def Obligations.IssueEvents : Prop :=
  ∀ (s : State),
    (∀ o rest, s.sp.out = o :: rest → exec .longLatencyComplete s = .next { s with sp := { s.sp with out := rest } }) ∧
    (∀ w p, (pack s).warps.find? (fun w => w.overdue s.cycle.toNat) = some w →
      (focusWarp s w.id).w.overflow.find? (fun p => p.overdue s.cycle.toNat) = some p →
      exec .splitOverflowExchange s = .next (swapIn (focusWarp s w.id) p)) ∧
    (∀ (p : Split) (cycle : Nat), p.overdue cycle = true ↔ p.state ≠ .stopped ∧ p.lastIssue + 512 ≤ cycle) ∧
    (∀ w p v rest, (pack s).warps.find? (noteReady s) = some w → oldestReady w = some p → w.notes = some v :: rest →
      exec .notificationDelivery s = .next (atSplit s w.id p (fun t =>
        takeTrap { t with w := { t.w with notes := rest } } cWatch v t.sp.pc))) ∧
    (∀ w p rest, (pack s).warps.find? (noteReady s) = some w → oldestReady w = some p → w.notes = none :: rest →
      exec .notificationDelivery s = .next (atSplit s w.id p (fun t =>
        takeTrap { t with w := { t.w with notes := rest, stranded := 0 } } cStrand (t.w.stranded.setWidth 64) t.sp.pc))) ∧
    (∀ id p f, (p.slot < 16 → atSplit s id p f = f (focusSplit s id p.slot)) ∧
      (16 ≤ p.slot → atSplit s id p f = onOverflow (focusWarp s id) ((focusWarp s id).w.overflow.findIdx (fun q => q == p)) f)) ∧
    (∀ w p, oldestReady w = some p → p ∈ w.splits ++ w.overflow ∧ p.state = .ready ∧
      ∀ q ∈ w.splits ++ w.overflow, q.alive = true → q.state = .ready → q.held = false → p.age ≤ q.age) ∧
    (∀ u : State, ∀ q ∈ u.w.splits, q.state = .stopped → q ∈ (evict u Split.movable).w.splits ∨
      ∃ r ∈ u.w.splits, r ≠ q ∧ r.slot = q.slot) ∧
    (∀ w p, (pack s).warps.find? (fun w => w.splits.any (sleepOver s.cycle.toNat)) = some w →
      w.splits.find? (sleepOver s.cycle.toNat) = some p →
      exec .sleepWake s = .next (stopSteps (advance (wake (focusSplit s w.id p.slot))))) ∧
    (∀ word, decode word = .error .illegal →
      exec (.refusedWord word) s = .next (takeTrap s cIllegal (word.setWidth 64) s.sp.pc)) ∧
    (∀ word, decode word = .error .operand →
      exec (.refusedWord word) s = .next (takeTrap s cOperand (word.setWidth 64) s.sp.pc)) ∧
    (∀ c, fetchWord s = .error c → exec .instructionFetchFault s = .next (takeTrap s c s.sp.pc s.sp.pc)) ∧
    (∀ scope target, frozenWarps s scope target ≠ [] →
      exec (.debugFreeze scope target) s = .next ((frozenWarps s scope target).foldl freezeWarp s)) ∧
    (∀ u : State, (u.sp.state = .ready → (freezeSplit u).sp.state = .stopped ∧ (freezeSplit u).sp.stoppedIn = .ready ∧
        (freezeSplit u).sp.pc = u.sp.pc) ∧
      (u.sp.state ≠ .ready → u.sp.state ≠ .stopped → (freezeSplit u).sp.state = u.sp.state ∧
        (freezeSplit u).sp.freeze.isSome = true)) ∧
    (∀ warp slot, slot < 16 → let t := focusSplit s warp slot
      t.w.live = true → t.sp.alive = true → t.sp.state = .stopped →
      exec (.debugContinue warp slot) s = .next { t with sp := { t.sp with state := t.sp.stoppedIn, stoppedIn := .free } } ∧
      exec (.debugStep warp slot) s = .next { t with sp := { t.sp with state := t.sp.stoppedIn, stoppedIn := .free
                                                                       stepping := if t.sp.stoppedIn = .ready then 1 else 2 } }) ∧
    (∀ ctx addr member t, focusCtx s ctx = some t → exec (.debugBreakpointHit member (.address ctx addr)) s = .next { t with
      ctx := { t.ctx with breaks := t.ctx.breaks ++ [{ addr := addr, member := member }] } }) ∧
    (∀ warp slot, let t := focusSplit s warp slot
      t.w.live = true → t.sp.alive = true → t.sp.state = .ready → breakAt t = true →
      ∃ u, exec (.debugBreakpointHit (some warp) (.split slot)) s = .next u ∧ u.sp.state = .stopped ∧ u.sp.stoppedIn = .ready ∧
        u.sp.pc = t.sp.pc ∧ u.sp.pass = some t.sp.pc) ∧
    (∀ u : State, breakAt u = true ↔ u.sp.stepping ≠ 1 ∧ u.sp.pass ≠ some u.sp.pc ∧
      ∃ b ∈ u.ctx.breaks, b.addr = u.sp.pc ∧ (b.member = none ∨ b.member = some u.w.index)) ∧
    (∀ q < 1024, ∃ t, exec (.scoreboardMismatch q) s = .next t ∧ t = { s with dev := t.dev } ∧
      countOf t (q / 32) nSquash = countOf s (q / 32) nSquash + 1 ∧
      (15 ≤ sget 0 s.dev.squashRun q → q ∈ t.dev.failing))

/-- R372, R387 to R395: the security core's and the package's events: reset and boot, attestation, recovery, the contact
sheet, replay capture, limits, power and heat, and a remote access that is not answered: a load's registers are
poisoned, each with its own address, a store or an atomic is dropped and logged, an MLD raises ECCFATAL, and each is
counted. What the boot's firmware sets, what the recovery window answers and what a thermal halt reports are free (log
36), the layout of the contact sheet's entries (log 32), of the attestation report and which images are accepted (log
33) are the model's, and so are where a write's refusal is counted (log 32), the power gate's draws (log 35), what
capture keeps (log 63), which accesses get no reply (log 64), and which old entries a translation may use until an
invalidation completes (log 79). -/
def Obligations.PackageEvents : Prop :=
  ∀ (s : State),
    (exec .deviceReset s = .next (bootFrom (resetKeeping s)) ∧ (resetKeeping s).cycle = 0 ∧ (resetKeeping s).warps = [] ∧
      (resetKeeping s).mem = [] ∧ (resetKeeping s).dev.minSvn = s.dev.minSvn) ∧
    (let x := chooseImage s 1
     let y := chooseImage s 2
     let z := chooseImage s 3
     (bootFrom s).dev.boot = (if x.isSome && y.isSome && z.isSome then .running else .recovery) ∧
     (x.isSome && y.isSome && z.isSome → (bootFrom s).dev.accepted = x.toList ++ y.toList ++ z.toList) ∧
     (bootFrom s).dev.partWindows = (if x.isSome then Config.partWindows else s.dev.partWindows) ∧
     (bootFrom s).dev.hostWindows = (if x.isSome then Config.hostWindows else s.dev.hostWindows)) ∧
    (∀ nonce, let report := natLE (BitVec.toNat nonce) 32 ++ s.dev.accepted.flatMap (fun i =>
          i.take 4 ++ (i.drop 8).take 4 ++ (i.drop 16).take 48) ++ natLE s.dev.devid.toNat 8
      exec (.attestationReport nonce) s = .next { s with dev := { s.dev with
        outbox := s.dev.outbox ++ [report ++ Config.attestSign report] } }) ∧
    (∀ n, (s.dev.boot ≠ .recovery → exec (.recoveryImageLoad n) s = .next s) ∧
      (s.dev.boot = .recovery → exec (.recoveryImageLoad n) s = .next { s with
        dev := { s.dev with outbox := s.dev.outbox ++
          [(match n with | some i => natLE i 4 | none => []) ++ natLE (Config.freeWord s.env.free).toNat 4] }
        env := { s.env with free := s.env.free + 1 } })) ∧
    (∀ buffer length, buffer % 4096 = 0 → 64 ≤ length → physOk s.shape buffer length = true →
      ∃ t, exec (.contact buffer length) s = .next t ∧ t.dev.sheetSeq = s.dev.sheetSeq + 1 ∧
        (∀ a, a < buffer ∨ buffer + length ≤ a → byteAt t.mem a = byteAt s.mem a) ∧ t.warps = s.warps ∧ t.w = s.w ∧
        (64 + (sheetBody s).length ≤ length → ∀ i < 64 + (sheetBody s).length, byteAt t.mem (buffer + i) =
          (sheetHeader s false (64 + (sheetBody s).length) ++ sheetBody s).getD i 0)) ∧
    (∀ n buffer length t, focusCtx s n = some t → tier2Base ≤ buffer → buffer + length ≤ tier2End →
      exec (.captureEnable n buffer length) s = .next { t with ctx := { t.ctx with
        capture := some { buffer := buffer, size := length, used := 0, stopped := false, replayed := none } } }) ∧
    (∀ n buffer length t, focusCtx s n = some t → tier2Base ≤ buffer → buffer + length ≤ tier2End →
      let c := replayOf t.ctx buffer length
      (∀ r pos, nextBind t c (length / 32 + 1) (c.replayed.getD 0) = some (r, pos) →
        exec (.replay ⟨n, buffer, length⟩) s = .next (drainRing { t with
          dev := { t.dev with replay := true }, ctx := { t.ctx with capture := some { c with replayed := some pos } } }
          (bindOf r).clus [r])) ∧
      (nextBind t c (length / 32 + 1) (c.replayed.getD 0) = none → exec (.replay ⟨n, buffer, length⟩) s = .next { t with
        dev := { t.dev with replay := false }, ctx := { t.ctx with capture := some c } })) ∧
    (∀ n va size c, c ∈ s.allCtxs → c.id = n → exec (.translationInvalidate n va size) s = .next (finishInvalidations
      (noteSeals { s with invalidations := s.invalidations ++ [(n, va.toNat, va.toNat + size)] }))) ∧
    (∀ (u : State) (r : Nat × Nat × Nat), (majorityIn u r = true → finishInvalidation u r = u) ∧
      (majorityIn u r = false → (∀ e ∈ (finishInvalidation u r).late, e.ctx = some r.1 → ∀ x : Reader, e.mustSee x = true) ∧
        (∀ o ∈ (finishInvalidation u r).oldEntries, r ∈ o.done) ∧
        (finishInvalidation u r).invalidations = u.invalidations.erase r ∧ (finishInvalidation u r).mem = u.mem)) ∧
    (∀ l, l = .keyStorage ∨ (∃ n, l = .majorityShape n) ∨ (∃ a b, l = .hostWindow a b) →
      exec (.firmwareLimitWrite l) s = .next (refuseWrite s)) ∧
    (refuseWrite s = { s with dev := (refuseWrite s).dev } ∧ countOf (refuseWrite s) 0 nRefusal = countOf s 0 nRefusal + 1) ∧
    (∀ pa v, pa % 8 = 0 → physOk s.shape pa 8 = true → ∃ t, exec (.firmwareLimitWrite (.pageEntry pa v)) s = .next t ∧
      leNat (bytesAt t.mem pa 8) = BitVec.toNat v ∧ (∀ a, a < pa ∨ pa + 8 ≤ a → byteAt t.mem a = byteAt s.mem a) ∧
      t.oldEntries = { key := pa, value := readKey s pa 8, done := [] } :: s.oldEntries) ∧
    (∀ die w, die < 2 → exec (.firmwareLimitWrite (.dieCap die w)) s = .next (if w ≤ s.dev.bootCap
      then { s with dev := { s.dev with dieCaps := s.dev.dieCaps.set die w } } else refuseWrite s)) ∧
    (∀ n t ceiling slots mask deadline tapeng, focusCtx s n = some t →
      exec (.firmwareLimitWrite (.quota n ceiling slots mask deadline tapeng)) s = .next
        (if ceiling ≤ 7 ∧ slots ≤ 16 ∧ 1 ≤ deadline ∧ deadline ≤ 1000 ∧ 1 ≤ tapeng ∧ tapeng ≤ 4
         then { t with ctx := { t.ctx with ceiling := ceiling, warpSlots := slots, quotaMask := mask
                                           deadline := deadline * 1050, tapeng := tapeng } } else refuseWrite t)) ∧
    (∀ w, exec (.firmwareLimitWrite (.packageCap w)) s = .next (if w ≤ s.dev.bootCap
      then { s with dev := { s.dev with packageCap := w } } else refuseWrite s)) ∧
    (exec .powerGateJudge s = .next { s with
      dev := { s.dev with shares := (List.range 1152).map (fun i => Config.issueShare (s.env.free + i)) }
      env := { s.env with free := s.env.free + 1152 } }) ∧
    (exec .thermalHalt s = .next { s with
      dev := { s.dev with halted := true, outbox := s.dev.outbox ++ [natLE (Config.freeWord s.env.free).toNat 4] }
      env := { s.env with free := s.env.free + 1 } }) ∧
    (∀ warp slot n rest, s.env.lost = ⟨warp, slot, n⟩ :: rest →
      let t := focusSplit { s with env := { s.env with lost := rest } } warp slot
      t.w.live = true → t.sp.alive = true →
      (∀ d k l, t.sp.wait = some (.mld d k l) → exec .remoteTimeout s =
        .next (remoteFailed (goesOnTrapped t cEccfatal (argN t 0) t.sp.pc))) ∧
      (∀ o, t.sp.wait = none → t.sp.out[n]? = some o →
        let u := remoteFailed { t with sp := { t.sp with out := t.sp.out.eraseIdx n } }
        let upto := match (t.sp.out.drop (n + 1)).head? with
          | some x => x.mark
          | none => t.writes
        (o.kind = .load → exec .remoteTimeout s = .next (poisonLoad u o)) ∧
        (o.kind = .store ∨ o.kind = .atomic → exec .remoteTimeout s = .next (dropAccess u o upto)))) ∧
    (∀ u : State, remoteFailed u = { u with dev := (remoteFailed u).dev } ∧
      countOf (remoteFailed u) u.w.clus nRemote = countOf u u.w.clus nRemote + 1) ∧
    (∀ (u : State) (o : Outstanding), poisonLoad u o = { u with w := { u.w with marks := (poisonLoad u o).w.marks } } ∧
      (o.addrs.Pairwise (fun x y => x.1 ≠ y.1) → (laneDests o.dests).Nodup → (∀ r, Dest.x r ∈ o.dests → r < 256) →
        ∀ l a j q, (l, a) ∈ o.addrs → (laneDests o.dests)[j]? = some q →
          sget 0 (poisonLoad u o).w.marks (l * 256 + q) = a + 4 * j))

/-- R295, R341, R384, R390, R393, R394: accesses that reach memory from outside the warps: a service core's, the host's,
another device's, and a frame that leaves marked. What a service core reads stays inside the device. A send by one of
the eight Ultra Ethernet ports, a host's read and another device's read carry no byte of a range that a sealed context
maps (log 74 says when a context is sealed); only the marking stage sends such bytes, each luma byte changed by one at
most (R394; the descriptor's layout and the pattern of the mark are log 34). Poison crosses a Skerry link with its
bytes, in a form that is the model's choice (log 82: one flag byte for each byte read; a poisoned write poisons every
sector it touches). A release of another device carries what it has written before (R303, log 106). The capture records
of a service core's writes and seeds are log 63, what such agents see and that only their aligned writes of at most
eight bytes are kept whole log 7. -/
def Obligations.OutsideAccesses : Prop :=
  ∀ (s : State) (a n : Nat) (bs : List Byte),
    let plain : Nat → Prop := fun size => a + size ≤ hbmEnd ∨ (tier2Base ≤ a ∧ a + size ≤ tier2End)
    let granted : Nat → Prop := fun size => ∃ w ∈ s.dev.hostWindows, w.1 ≤ a ∧ a + size ≤ w.1 + w.2
    let leaves : Reader → List Byte → List Byte → State := fun r head tail => if sealedRange s a n then s else
      { s with dev := { s.dev with outbox := s.dev.outbox ++ [head ++ gatherBy r s (keysFrom a n) ++ tail] } }
    let block := natLE a 8 ++ natLE bs.length 8 ++ bs
    (∀ core, core < 32 → n ≤ 65536 → plain n → exec (.serviceOrdinaryAccess core a (.read n)) s = .next { s with dev := {
      s.dev with serviceReads := s.dev.serviceReads ++ [gatherBy (serviceReader core) s (keysFrom a n)] } }) ∧
    (∀ core port, core < 32 → port < 8 → n ≤ 65536 → plain n →
      exec (.serviceOrdinaryAccess core a (.send port n)) s = .next (leaves (.outside true) [BitVec.ofNat 8 port] [])) ∧
    (∀ core, core < 32 → bs.length ≤ 65536 → plain bs.length →
      exec (.serviceOrdinaryAccess core a (.write bs)) s = .next (captureAll (agentWrite (serviceWrite core) s a bs) 4 block) ∧
      exec (.serviceOrdinaryAccess core a (.poisoned bs)) s =
        .next (captureAll (poisonWrite (serviceWrite core) s a bs) 4 block)) ∧
    (∀ core request v, core < 32 → plain 8 → exec (.serviceOrdinaryAccess core a (.seed request v)) s =
      .next (captureAll (agentWrite (serviceWrite core) s a (natLE (BitVec.toNat v) 8)) 5
        (natLE request 4 ++ natLE v.toNat 8))) ∧
    (∀ dv, plain n → exec (.skerryRemoteAccess dv a (.read n)) s = .next (leaves (.outside false) []
      ((keysFrom a n).map (fun k => if poisonedAt s k then 1 else 0)))) ∧
    (∀ dv, plain bs.length → exec (.skerryRemoteAccess dv a (.write bs)) s = .next (agentWrite (outsideWrite (some dv)) s a bs) ∧
      exec (.skerryRemoteAccess dv a (.poisoned bs)) s = .next (poisonWrite (outsideWrite (some dv)) s a bs) ∧
      exec (.skerryRemoteAccess dv a (.published bs)) s =
        .next (agentWrite { outsideWrite (some dv) with rel := some (remoteRelease s dv) } s a bs)) ∧
    (∀ dv, plain n → granted n → exec (.hostDma dv a (.read n)) s = .next (leaves (.outside true) [] [])) ∧
    (∀ dv, plain bs.length → granted bs.length →
      exec (.hostDma dv a (.write bs)) s = .next (agentWrite (outsideWrite none) s a bs) ∧
      exec (.hostDma dv a (.poisoned bs)) s = .next (poisonWrite (outsideWrite none) s a bs)) ∧
    (∀ dv, ¬ granted n → exec (.hostDma dv a (.read n)) s = .next s) ∧
    (∀ dv, ¬ granted bs.length → exec (.hostDma dv a (.write bs)) s = .next (refuseWrite s)) ∧
    (∀ e : Late, KeptOutside s (agentWrite e s a bs) (fun k => a ≤ k ∧ k < a + bs.length) ∧
      bytesAt (agentWrite e s a bs).mem a bs.length = bs ∧ (poisonWrite e s a bs).mem = (agentWrite e s a bs).mem ∧
      ∀ k, a ≤ k → k < a + bs.length → poisonedAt (poisonWrite e s a bs) k = true) ∧
    (∀ c launch t, focusCtx s c = some t → physOk t.shape a 18 = true →
      let f := readFrame t a
      f.width % 16 = 0 → f.height % 16 = 0 → f.format ≤ 1 → physOk t.shape f.pa f.bytes = true →
      ∃ u out, exec (.egressRequest ⟨c, launch⟩ a) s = .next u ∧ u = { t with dev := u.dev } ∧
        u.dev.outbox = t.dev.outbox ++ [BitVec.ofNat 8 f.port :: out] ∧ u.dev.frames = t.dev.frames + 1 ∧
        out.length = f.bytes ∧ ∀ i < f.bytes, let b := readByte markingStage t (f.pa + i)
          ((out.getD i 0).toNat : Int) - b.toNat ∈ [-1, 0, 1] ∧ (f.luma i = none → out.getD i 0 = b))

/-- R70 to R84: every well-formed instruction's word decodes to it, with every operand at every value its encoding
admits, and a word that decodes is the word of the instruction it decodes to. -/
def Obligations.DecodeEncode : Prop :=
  (∀ i : Instr, i.wf → decode (encode i) = .ok i) ∧ (∀ (w : Word) (i : Instr), decode w = .ok i → encode i = w ∧ i.isEvent = false)

/-- R71, R76 to R84, R206, R219, R243: words whose encodings the spec writes out decode to the instructions it names. -/
def Obligations.DecodeWords : Prop :=
  decode 0xB8004140 = .ok (.tdef 4 5) ∧ decode 0xAD090080 = .ok (.fence 2 16 2) ∧ decode 0x09000000 = .ok .exit ∧
  decode 0x11000000 = .ok .tret ∧ decode 0x0D000079 = .ok (.setm 0x79) ∧ decode 0x20105180 = .ok (.add 4 5 6 0) ∧
  decode 0x3B080007 = .ok (.movi 2 7) ∧ decode 0x40082001 = .ok (.addi 2 2 1) ∧ decode 0x1B700054 = .ok (.srd 28 1 0x14) ∧
  decode 0xD200C340 = .ok (.trwait 12 13) ∧ decode 0xB1001140 = .ok (.cpy 1 5 0) ∧
  decode 0x00000000 = .error .illegal ∧ decode 0xFF000000 = .error .illegal

/-- R131, R338: once what is due without a step of its own has settled, an event the world sends comes first; with none,
no event of time due, no wait over, and the engines and pending completions idle or the turn the issue's, a step stops
the chosen split at a breakpoint it has reached (log 61), or runs the instruction decoded at the PC of the split chosen
among those that no interlock holds, and the clock then moves on (log 1). -/
def Obligations.StepRunsDecoded : Prop :=
  ∀ (s : State) (i : Instr),
    let after : Host.Outcome State Fault Refusal → Host.Outcome State Fault Refusal := fun o => match o with
      | .next t => .next (tick s t)
      | .fault f => .fault f
      | .refused r => .refused r
    let p := settle (pack s)
    let q := takeTurn p
    let us := freeCands q (candidates q)
    (p.env.inbox = [] → firstNext p dueEvents = none → resumeFirst p (stalled p) = none → q.dev.boot = .running →
      q.dev.halted = false → p.env.turns.head? = some false ∨ (p.env.turns.head? ≠ some false ∧
        firstNext p (engineEvents p) = none ∧ completeStep q = none) →
      ∀ c, choose q us = some c → let t := focusCand (countStarve q us c) c
        (breakAt t = true → step s = after (.next (stopAtBreak (focusCand q c)))) ∧
        (breakAt t = false → armedAt t = false → ∀ key, fetchKey t t.sp.pc.toNat = .ok key →
          decode (wordOfBytes (bytesAt t.mem key 4)) = .ok i → step s = after (exec i t))) ∧
    (∀ rest, p.env.inbox = i :: rest → arrives p i = true →
      step s = after (exec i { p with env := { p.env with inbox := rest } })) ∧
    (∀ c ∈ us, interlocked (focusCand q c) = false) ∧
    (∀ t, (tick s t).cycle = t.cycle + BitVec.ofNat 64 (max 1 (s.env.pace.headD 1)) ∧ (tick s t).w = t.w ∧
      (tick s t).sp = t.sp ∧ (tick s t).mem = t.mem)

/-- R34, R177, R392: after device reset CYCLE is 0, nothing is bound and every engine is idle; a copy line is VALID with
tide 0. The window invariant, the order of the rings' counts and the canonical form of memory hold then. That memory and
payloads read 0 is the model's choice (log 4), and so is it that the uniform registers of the blank focus read 0 (log
3). -/
def Obligations.ResetState : Prop :=
  State.reset.cycle = 0 ∧ State.reset.warps = [] ∧ State.reset.crews = [] ∧ State.reset.ctxs = [] ∧
  State.reset.cluss = [] ∧ State.reset.w.live = false ∧ State.reset.crew.live = false ∧ State.reset.ctx.live = false ∧
  State.reset.trsigs = [] ∧ State.reset.nles = [] ∧ State.reset.dev.boot = .reset ∧
  (∀ stack cell, (lineAt State.reset stack cell).tag = 1) ∧ Memory.wf State.reset.mem = true ∧
  (∀ a, byteAt State.reset.mem a = 0) ∧ (∀ n, kget State.reset n = 0) ∧
  WindowsOk State.reset ∧ RingsOk State.reset ∧ MemoryOk State.reset

/-- R162, R170, R180 to R183, R197, R205, R236, R242, R295 to R301, R366: which writes an agent sees. An agent reads at
each byte the newest write of it that it sees, or what stood there before them all (R299); what it sees of a write made
whole it sees of every byte of it (R168, R299), and for good, while the writes known stay known. It sees its own writes,
what its split has read (R296), on an SO page every lane's (R300), and each write that happens before its read: by a
mark that names it and whose fences' scopes all hold it, its line being at hand where the page is UO (R301). A fence
marks the stores of its own lanes, and the writes of an engine that R181 attributes to the warp, for every agent of its
scope, and leaves a write that precedes nothing of its mask as it was. A release is performed at device scope; its past
is what reads of it, a barrier's return and a launch order. AWAITF orders the awaited slot's or chunk's writes, TAPW the
block's rows', each with what had been fenced before them, and neither orders any other write; CINV changes only the
bytes of the lines it names. A release of another device counts through a fence of the domain (R303, log 106); caches
that are full lack nothing more (R2, log 107). The relation, its marks and its free arrival times are the model's (log
7; for the litmus row of R298 that R299 contradicts, log 103). -/
def Obligations.MemoryOrdering : Prop :=
  ∀ (s : State) (r : Reader) (key : Nat),
    let holds : Late → Prop := fun e => (e.oldAt key).isSome = true
    let replaced : List Late → Byte := fun newer => match (newer.filter (fun f => (f.oldAt key).isSome)).getLast? with
      | some f => (f.oldAt key).getD 0
      | none => byteAt s.mem key
    let warpLanes : Nat → Mask → Reader → Prop := fun w mask x => ∃ l : LaneReader, x = .lanes l ∧ l.who = .warp w ∧
      l.lane = none ∧ mask &&& l.active ≠ 0
    let kept : Late → State → (Reader → Prop) → Prop := fun e t who => ∃ f ∈ t.late, f.id = e.id ∧ f.bytes = e.bytes ∧
      ∀ x, who x → f.mustSee x = true
    (∀ newer e older, s.late = newer ++ e :: older → holds e → e.sees s r key = true →
      (∀ f ∈ newer, holds f → f.sees s r key = false) → readByte r s key = replaced newer) ∧
    ((∀ f ∈ s.late, holds f → f.sees s r key = false) → readByte r s key = replaced s.late) ∧
    (∀ (t : State) (e : Late), s.cycle.toNat ≤ t.cycle.toNat → (∀ f ∈ s.late, f ∈ t.late) → e.sees s r key = true → e.sees t r key = true) ∧
    (∀ (e : Late) (k : Nat), e.whole = true → e.sees s r k = e.sees s r key) ∧
    (∀ (lanes : Mask) (va : Nat) (bs : List Byte), s.sp.active ≠ 0 → key < bs.length →
      readByte (laneReader s) (storeKey (laneWrite s lanes va) s va bs) (va + key) = bs.getD key 0) ∧
    (∀ (e : Late) (l : LaneReader) (lanes mates : Mask) (core ctx : Nat) (p : Party), e.by_ = .lane p lanes mates core ctx →
      (p = l.who → mates &&& l.active ≠ 0 → e.mustSee (.lanes l) = true) ∧ (e.so = true → e.mustSee (.lanes l) = true)) ∧
    (∀ reads : List (Nat × Nat), ∀ e ∈ s.late, e.by_ ≠ .hardware → (e.id, key) ∈ reads →
      (∃ f ∈ (rememberReads s reads).late, f.id = e.id ∧ f.bytes = e.bytes ∧ ∀ l : LaneReader, l.who = .warp s.w.id →
        s.sp.active &&& l.active ≠ 0 → ∀ t : State, f.sees t (.lanes l) key = true) ∧
      (holds e → e.uo = false → ∃ f ∈ (acquireReads s reads).late, f.id = e.id ∧ f.oldAt key = e.oldAt key ∧
        ∀ x, warpLanes s.w.id s.sp.active x → f.mustSee x = true)) ∧
    (∀ e : Late, e.sees s r key = true ↔ e.mustSee r = true ∨ e.readBy r key = true ∨ e.reaches r key ≤ s.cycle.toNat ∨
      (e.uo = true ∧ cacheLines ≤ (staleLines s.late r (e.reaches r key) e.id (e.unit key)).length)) ∧
    (∀ (e : Late) (j i : Job), e.by_ = .job j → j.id = i.id → e.mustSee (.job i) = true) ∧
    (∀ (e : Late) (m : Mark), m ∈ e.marks → m.names r = true → (∀ x ∈ m.chain.scopes, x.holds r = true) →
      e.cached r m.chain = true → e.mustSee r = true) ∧
    (∀ (e : Late) (c : Chain), (e.uo = false → e.cached r c = true) ∧ ∀ l : LaneReader, e.uo = true →
      (e.cached (.lanes l) c = true ↔ e.core = some l.core ∨ e.atCore l.core = true)) ∧
    (∀ (e : Late) (w : Nat) (c : AccessClass), e.attributed w c = true ↔ ∃ j, e.by_ = .job j ∧ j.path.writes = c ∧
      ((∃ p ∈ j.posters, p.1 = w) ∨ ∃ m ∈ e.marks, m.reach = .observed w c)) ∧
    (∀ pred succ scope, (pred = 0 ∨ succ = 0 → fenceMem s pred succ scope = s) ∧
      (pred ≠ 0 → succ ≠ 0 → ∀ e ∈ s.late,
        (e.uo = false → (pred.testBit 1 = true ∧ e.ownBy (pastNow s) = true) ∨
            (∃ c ∈ fenceClasses pred, e.attributed s.w.id c = true) →
          kept e (fenceMem s pred succ scope) (fun x => ∀ y ∈ fenceScope s scope, y.holds x = true)) ∧
        (e.fenced (pastNow s) s.w.id pred scope = [] → e ∈ (fenceMem s pred succ scope).late))) ∧
    (∀ (d pred succ : Nat), pred.testBit 0 = true → succ.testBit 0 = true → ∀ e ∈ s.late, e.uo = false →
      e.by_ = .outside (some d) → e.id < s.writes → (∀ m ∈ e.marks, m.time ≤ s.writes) → s.sp.active ≠ 0 →
      kept e (fenceMem (acquire s [remoteRelease s d]) pred succ 4) (warpLanes s.w.id s.sp.active)) ∧
    (∀ (c : AccessClass) (n : Nat), c ∈ fenceClasses n ↔
      n.testBit (match c with | .cr => 2 | .cw => 3 | .mr => 4 | .mw => 5) = true) ∧
    (∀ e ∈ s.late, e.uo = false → e.ownBy (pastNow s) = true → ∀ die, kept e (releaseNow s).2 (fun x => x = .device die)) ∧
    (∀ (ps : List Past) (rs : List Reach) (w : Nat) (mask : Mask) (p : Past), p ∈ ps → .lanes (.warp w) mask ∈ rs →
      ∀ e ∈ s.late, e.uo = false → e.ownBy p = true → kept e (receive s ps rs) (warpLanes w mask)) ∧
    (acquire s [] = s ∧ ∀ ps, (∀ p ∈ ps, ∀ d, p.who ≠ .remote d) →
      acquire s ps = receive s ps [.lanes (.warp s.w.id) s.sp.active]) ∧
    (∀ (l : Launch) (w : Nat), launchedAfter s l w = receive s l.past.toList
      [.lanes (.warp w) (BitVec.allOnes 32), .later w .cr, .later w .cw, .later w .mr, .later w .mw]) ∧
    (∀ (ring slot : Nat) (chunk : Option Nat) (rels : List Past), ∀ e ∈ s.late,
      (e.uo = false → e.fills s.crew.id ring slot chunk = true →
        kept e (awaitMem s ring slot chunk rels) (warpLanes s.w.id s.sp.active)) ∧
      (e.fills s.crew.id ring slot chunk = false → (∀ m ∈ e.marks, ∀ v c, m.reach ≠ .later v c) → rels = [] →
        e ∈ (awaitMem s ring slot chunk rels).late) ∧
      ∀ p ∈ rels, e.uo = false → e.ownBy p = true → kept e (awaitMem s ring slot chunk rels) (warpLanes s.w.id s.sp.active) ∧
        ∃ f ∈ (awaitMem s ring slot chunk rels).late, f.id = e.id ∧ ∃ m ∈ f.marks, m.reach = .observed s.w.id .cw) ∧
    (∀ (id : Nat) (posters : List (Nat × Nat)) (rows : List Nat), ∀ e ∈ s.late,
      (e.uo = false → e.job = some id → e.part ∈ rows → (∃ m ∈ e.marks, m.reach = .freed) →
        kept e (tapwMem s id posters rows) (warpLanes s.w.id s.sp.active)) ∧
      (e.job ≠ some id ∨ e.part ∉ rows → (∀ m ∈ e.marks, ∀ v c, m.reach ≠ .later v c) →
        e ∈ (tapwMem s id posters rows).late)) ∧
    (∀ (level : Nat) (keys : Nat → Bool), ∀ e ∈ s.late,
      ((∀ x ∈ e.bytes, keys x.1 = false) → e ∈ (invalidateLines s level keys).late) ∧
      (e.whole = false → ∀ x ∈ e.bytes, keys x.1 = false → ∃ f ∈ (invalidateLines s level keys).late, x ∈ f.bytes ∧
        f = { e with bytes := f.bytes }) ∧
      (e.uo = true → e.core ≠ some (coreOf s) → e.die = dieOf s.w.clus → (∃ c ∈ e.hereChains s, 1 ≤ c.level) →
        ∀ x ∈ e.bytes, keys x.1 = true →
          ∃ f ∈ (invalidateLines s level keys).late, f.id = e.id ∧ x ∈ f.bytes ∧ f.atCore (coreOf s) = true))
end

