-- ==== Sys2Proof/Laws/Sparse.lean ====
section
/-! SUPPORT. Maps in canonical form: reading after writing, and the form kept (log 4). -/

namespace Sys2Proof.Machine

variable {α : Type}

/-- A key erased reads as the default. -/
theorem sget_serase_same (d : α) (m : Sparse α) (a : Nat) : sget d (serase m a) a = d := by
  induction m with
  | nil => rfl
  | cons e t ih =>
    obtain ⟨k, v⟩ := e
    by_cases h : k = a
    · simpa [serase, h] using ih
    · simpa [serase, h, sget] using ih

/-- Erasing a key leaves every other one alone. -/
theorem sget_serase_ne (d : α) (m : Sparse α) {a b : Nat} (h : b ≠ a) : sget d (serase m a) b = sget d m b := by
  induction m with
  | nil => rfl
  | cons e t ih =>
    obtain ⟨k, v⟩ := e
    by_cases hk : k = a
    · subst hk
      have hb : ¬ k = b := fun h' => h h'.symm
      simpa [serase, sget, hb] using ih
    · by_cases hb : k = b
      · subst hb
        simp [serase, sget, hk]
      · simpa [serase, sget, hk, hb] using ih

/-- A key inserted into a map without it reads as its value. -/
theorem sget_sinsert_same (d : α) (m : Sparse α) (a : Nat) (v : α) (h : ∀ e ∈ m, e.1 ≠ a) :
    sget d (sinsert a v m) a = v := by
  induction m with
  | nil => simp [sinsert, sget]
  | cons e t ih =>
    obtain ⟨k, w⟩ := e
    have hk : k ≠ a := h (k, w) (by simp)
    by_cases hlt : a < k
    · simp [sinsert, hlt, sget]
    · simp [sinsert, hlt, sget, hk, ih (fun e he => h e (by simp [he]))]

/-- Inserting a key leaves every other one alone. -/
theorem sget_sinsert_ne (d : α) (m : Sparse α) {a b : Nat} (v : α) (h : b ≠ a) :
    sget d (sinsert a v m) b = sget d m b := by
  have hab : ¬ a = b := fun h' => h h'.symm
  induction m with
  | nil => simp [sinsert, sget, hab]
  | cons e t ih =>
    obtain ⟨k, w⟩ := e
    by_cases hlt : a < k
    · simp [sinsert, hlt, sget, hab]
    · by_cases hk : k = b
      · subst hk
        have : ¬ a < k := hlt
        simp [sinsert, this, sget]
      · simp [sinsert, hlt, sget, hk, ih]

theorem not_mem_serase (m : Sparse α) (a : Nat) : ∀ e ∈ serase m a, e.1 ≠ a := by
  intro e he
  simpa [serase] using (List.mem_filter.mp he).2

variable [DecidableEq α]

/-- A key reads as the value written to it. -/
@[simp] theorem sget_sset_same (d : α) (m : Sparse α) (a : Nat) (v : α) : sget d (sset d m a v) a = v := by
  unfold sset
  split
  · rename_i h; rw [sget_serase_same, h]
  · exact sget_sinsert_same d _ a v (not_mem_serase m a)

/-- Writing a key leaves every other one alone. -/
theorem sget_sset_ne (d : α) (m : Sparse α) {a b : Nat} (v : α) (h : b ≠ a) : sget d (sset d m a v) b = sget d m b := by
  unfold sset
  split
  · exact sget_serase_ne d m h
  · rw [sget_sinsert_ne d _ v h, sget_serase_ne d m h]

/-- A map read after a write. -/
theorem sget_sset (d : α) (m : Sparse α) (a b : Nat) (v : α) :
    sget d (sset d m a v) b = if b = a then v else sget d m b := by
  split
  · rename_i h; rw [h, sget_sset_same]
  · rename_i h; exact sget_sset_ne d m v h

theorem swfFrom_mono (d : α) {m : Sparse α} {lo lo' : Nat} (hl : lo ≤ lo') (h : swfFrom d lo' m = true) :
    swfFrom d lo m = true := by
  cases m with
  | nil => rfl
  | cons e t =>
    simp only [swfFrom, Bool.and_eq_true, decide_eq_true_eq] at h ⊢
    exact ⟨⟨by omega, h.1.2⟩, h.2⟩

theorem swfFrom_filter (d : α) (p : Nat × α → Bool) {m : Sparse α} {lo : Nat} (h : swfFrom d lo m = true) :
    swfFrom d lo (m.filter p) = true := by
  induction m generalizing lo with
  | nil => rfl
  | cons e t ih =>
    simp only [swfFrom, Bool.and_eq_true, decide_eq_true_eq] at h
    by_cases hp : p e = true
    · simp only [List.filter_cons, hp, if_true, swfFrom, Bool.and_eq_true, decide_eq_true_eq]
      exact ⟨h.1, ih h.2⟩
    · simp only [List.filter_cons, hp, Bool.false_eq_true, if_false]
      exact swfFrom_mono d (by omega) (ih h.2)

/-- A map with entries dropped keeps the form. -/
theorem swf_filter (d : α) (p : Nat × α → Bool) {m : Sparse α} (h : swf d m = true) : swf d (m.filter p) = true :=
  swfFrom_filter d p h

theorem swfFrom_sinsert (d : α) {m : Sparse α} {lo a : Nat} {v : α} (hl : lo ≤ a) (hv : v ≠ d)
    (hm : ∀ e ∈ m, e.1 ≠ a) (h : swfFrom d lo m = true) : swfFrom d lo (sinsert a v m) = true := by
  induction m generalizing lo with
  | nil => simp [sinsert, swfFrom, hl, hv]
  | cons e t ih =>
    obtain ⟨k, w⟩ := e
    have hk : k ≠ a := hm (k, w) (by simp)
    simp only [swfFrom, Bool.and_eq_true, decide_eq_true_eq] at h
    by_cases hlt : a < k
    · simp only [sinsert, hlt, if_true, swfFrom, Bool.and_eq_true, decide_eq_true_eq, bne_iff_ne]
      exact ⟨⟨hl, hv⟩, ⟨by omega, by simpa using h.1.2⟩, h.2⟩
    · simp only [sinsert, hlt, if_false, swfFrom, Bool.and_eq_true, decide_eq_true_eq]
      exact ⟨h.1, ih (by omega) (fun e he => hm e (by simp [he])) h.2⟩

/-- A write keeps the canonical form. -/
theorem swf_sset (d : α) {m : Sparse α} (a : Nat) (v : α) (h : swf d m = true) : swf d (sset d m a v) = true := by
  unfold sset
  split
  · exact swf_filter d _ h
  · rename_i hv
    exact swfFrom_sinsert d (Nat.zero_le a) hv (not_mem_serase m a) (swf_filter d _ h)

/-- An erased key keeps the canonical form. -/
theorem swf_serase (d : α) {m : Sparse α} (a : Nat) (h : swf d m = true) : swf d (serase m a) = true := swf_filter d _ h

end Sys2Proof.Machine
end

