-- ==== Sys2Proof/Laws/Lanes.lean ====
section
/-! SUPPORT. Lane registers: reading after writing, and what writing them in every participating lane does (R17, R24,
R90). -/

namespace Sys2Proof.Machine

theorem regs_ge (w : Warp) : 64 ≤ w.regs := by unfold Warp.regs; omega
theorem regs_le (w : Warp) : w.regs ≤ 256 := by unfold Warp.regs; omega

theorem physKey_lt (w : Warp) (q : Nat) : q % w.regs < 256 :=
  lt_of_lt_of_le (Nat.mod_lt _ (by have := regs_ge w; omega)) (regs_le w)

/-- Physical registers of different lanes or positions are different. -/
theorem physKey_inj (w : Warp) {l l' q q' : Nat} :
    physKey w l q = physKey w l' q' ↔ l = l' ∧ q % w.regs = q' % w.regs := by
  have h1 := physKey_lt w q
  have h2 := physKey_lt w q'
  unfold physKey
  omega

/-- Numbers of the 64 visible registers name different positions. -/
theorem mod_inj {n b i j : Nat} (hn : 64 ≤ n) (hi : i < 64) (hj : j < 64) (h : (b + i) % n = (b + j) % n) : i = j := by
  have h1 : (b + i) ≡ (b + j) [MOD n] := h
  have h2 : i ≡ j [MOD n] := Nat.ModEq.add_left_cancel' b h1
  have h3 : i % n = j % n := h2
  rwa [Nat.mod_eq_of_lt (by omega), Nat.mod_eq_of_lt (by omega)] at h3

/-- A physical register read after a write of one. -/
theorem physGet_physSet (w : Warp) (k k' : Nat) (v : Word) :
    physGet (physSet w k v) k' = if k' = k then v else physGet w k' := by
  unfold physGet physSet
  by_cases h : k' = k
  · subst h; simp [sget_serase_same]
  · simp [h, sget_serase_ne _ _ h, sget_sset_ne _ _ _ h]

@[simp] theorem regs_physSet (w : Warp) (k : Nat) (v : Word) : (physSet w k v).regs = w.regs := rfl
@[simp] theorem xset_sp (s : State) (l i : Nat) (v : Word) : (xset s l i v).sp = s.sp := rfl
@[simp] theorem xset_regs (s : State) (l i : Nat) (v : Word) : (xset s l i v).w.regs = s.w.regs := rfl
@[simp] theorem xset_physKey (s : State) (l i : Nat) (v : Word) (l' q : Nat) :
    physKey (xset s l i v).w l' q = physKey s.w l' q := rfl

/-- Nothing but lane registers, with their marks, differs. -/
def LanesOnly (s t : State) : Prop :=
  t = { s with w := { s.w with phys := t.w.phys, marks := t.w.marks, wild := t.w.wild } }

theorem LanesOnly.refl (s : State) : LanesOnly s s := rfl

theorem LanesOnly.xset (s : State) (l i : Nat) (v : Word) : LanesOnly s (xset s l i v) := rfl

theorem LanesOnly.trans {s t u : State} (h1 : LanesOnly s t) (h2 : LanesOnly t u) : LanesOnly s u := by
  unfold LanesOnly at *
  rw [h1] at h2
  exact h2

theorem LanesOnly.foldl {α : Type} (f : State → α → State) (hf : ∀ t x, LanesOnly t (f t x)) (L : List α) (s : State) :
    LanesOnly s (L.foldl f s) := by
  induction L generalizing s with
  | nil => exact LanesOnly.refl s
  | cons x L ih => exact (hf s x).trans (ih (f s x))

theorem LanesOnly.sp {s t : State} (h : LanesOnly s t) : t.sp = s.sp := by rw [h]
theorem LanesOnly.regs {s t : State} (h : LanesOnly s t) : t.w.regs = s.w.regs := by rw [h]; rfl
theorem LanesOnly.key {s t : State} (h : LanesOnly s t) (l q : Nat) : physKey t.w l q = physKey s.w l q := by
  unfold physKey; rw [h.regs]

/-- A lane register read after a write of one of the 64 (R17). -/
theorem xget_xset (s : State) {l l' i j : Nat} (v : Word) (hi : i < 64) (hj : j < 64) :
    xget (xset s l i v) l' j = if l' = l ∧ j = i then v else xget s l' j := by
  have key : physKey s.w l' (s.sp.wbase + j) = physKey s.w l (s.sp.wbase + i) ↔ l' = l ∧ j = i := by
    rw [physKey_inj]
    constructor
    · rintro ⟨h1, h2⟩; exact ⟨h1, mod_inj (regs_ge _) hj hi h2⟩
    · rintro ⟨rfl, rfl⟩; exact ⟨rfl, rfl⟩
  show physGet (physSet s.w _ v) (physKey s.w l' (s.sp.wbase + j)) = _
  rw [physGet_physSet]
  by_cases h : l' = l ∧ j = i
  · rw [if_pos (key.mpr h), if_pos h]
  · rw [if_neg (fun hk => h (key.mp hk)), if_neg h]; rfl

/-- One register written in the lanes of a list: what any register then reads. -/
theorem xget_foldl_xset (L : List Nat) (s : State) {d l j : Nat} (f : Nat → Word) (hd : d < 64) (hj : j < 64) :
    xget (L.foldl (fun t l => xset t l d (f l)) s) l j = if l ∈ L ∧ j = d then f l else xget s l j := by
  induction L generalizing s with
  | nil => simp
  | cons x L ih =>
    simp only [List.foldl_cons, ih, xget_xset s (f x) hd hj, List.mem_cons]
    by_cases h1 : l ∈ L ∧ j = d
    · simp [h1]
    · by_cases h2 : l = x ∧ j = d
      · obtain ⟨rfl, rfl⟩ := h2; simp
      · have : ¬ ((l = x ∨ l ∈ L) ∧ j = d) := by rintro ⟨h | h, h'⟩ <;> tauto
        simp [h1, h2, this]

/-- A physical register that no lane of the list names is left alone. -/
theorem physGet_foldl_xset (L : List Nat) (s : State) {d key : Nat} (f : Nat → Word)
    (h : ∀ l ∈ L, key ≠ physKey s.w l (s.sp.wbase + d)) :
    physGet (L.foldl (fun t l => xset t l d (f l)) s).w key = physGet s.w key := by
  induction L generalizing s with
  | nil => rfl
  | cons x L ih =>
    have hx := h x (by simp)
    rw [List.foldl_cons, ih _ (fun l hl => by simpa using h l (by simp [hl]))]
    show physGet (physSet s.w _ _) key = _
    rw [physGet_physSet, if_neg hx]

/-- A pair written in the lanes of a list: what any register then reads (R24). -/
theorem xget_foldl_pair (L : List Nat) (s : State) {d l j : Nat} (f g : Nat → Word) (hd : d + 1 < 64) (hj : j < 64) :
    xget (L.foldl (fun t l => xset (xset t l d (f l)) l (d + 1) (g l)) s) l j =
      if l ∈ L ∧ j = d then f l else if l ∈ L ∧ j = d + 1 then g l else xget s l j := by
  induction L generalizing s with
  | nil => simp
  | cons x L ih =>
    rw [List.foldl_cons, ih, xget_xset _ (g x) (by omega) hj, xget_xset _ (f x) (by omega) hj]
    simp only [List.mem_cons]
    by_cases h1 : l ∈ L
    · by_cases h2 : j = d
      · simp [h1, h2]
      · by_cases h3 : j = d + 1
        · simp [h1, h3]
        · simp [h1, h2, h3]
    · by_cases h4 : l = x
      · subst h4
        by_cases h2 : j = d
        · simp [h1, h2]
        · by_cases h3 : j = d + 1
          · simp [h1, h3]
          · simp [h1, h2, h3]
      · simp [h1, h4]

theorem mem_lanesOf {m : Mask} {l : Nat} : l ∈ lanesOf m ↔ l < 32 ∧ m.getLsbD l = true := by
  simp [lanesOf, lanes, List.mem_filter, List.mem_range]

/-- What `xwrite` writes, one register or two. -/
theorem xwrite_eq (s : State) (ty l d v : Nat) :
    xwrite s ty l d v = if type64 ty then
      xset (xset s l d ((BitVec.ofNat 64 v).extractLsb' 0 32)) l (d + 1) ((BitVec.ofNat 64 v).extractLsb' 32 32)
      else xset s l d (BitVec.ofNat 32 v) := rfl

theorem LanesOnly.xwrite (s : State) (ty l d v : Nat) : LanesOnly s (xwrite s ty l d v) := by
  rw [xwrite_eq]; split
  · exact (LanesOnly.xset s l d _).trans (LanesOnly.xset _ l (d + 1) _)
  · exact LanesOnly.xset s l d _

/-- The two halves of a 64-bit value joined. -/
theorem halves (v : DWord) : v.extractLsb' 32 32 ++ v.extractLsb' 0 32 = v := by
  apply BitVec.eq_of_getLsbD_eq
  intro i hi
  simp only [BitVec.getLsbD_append, BitVec.getLsbD_extractLsb']
  by_cases h : i < 32
  · simp [h]
  · have h1 : 32 + (i - 32) = i := by omega
    have h2 : i - 32 < 32 := by omega
    simp [h, h1, h2]

/-- Typed results written in every participating lane: what a destination reads (R24, R92). -/
theorem xread_foldl_xwrite (L : List Nat) (s : State) {ty d l : Nat} (v : Nat → Nat) (hd : d < 64)
    (he : type64 ty = true → d % 2 = 0) (hl : l ∈ L) :
    xread (L.foldl (fun t l => xwrite t ty l d (v l)) s) ty l d = v l % 2 ^ (if type64 ty then 64 else 32) := by
  by_cases h : type64 ty = true
  · have hd' : d + 1 < 64 := by have := he h; omega
    simp only [xwrite_eq, h, if_true, xread, xget64]
    rw [xget_foldl_pair L s _ _ hd' (by omega), xget_foldl_pair L s _ _ hd' hd]
    simp [hl, halves]
  · simp only [xwrite_eq, h, xread]
    simp [xget_foldl_xset L s (fun l => BitVec.ofNat 32 (v l)) hd hd, hl]

/-- Typed results written in every participating lane leave every other register of every lane alone. -/
theorem xget_foldl_xwrite (L : List Nat) (s : State) {ty d l j : Nat} (v : Nat → Nat) (hd : d < 64) (hj : j < 64)
    (he : type64 ty = true → d % 2 = 0) (h : l ∉ L ∨ (j ≠ d ∧ (type64 ty = true → j ≠ d + 1))) :
    xget (L.foldl (fun t l => xwrite t ty l d (v l)) s) l j = xget s l j := by
  by_cases ht : type64 ty = true
  · have hd' : d + 1 < 64 := by have := he ht; omega
    simp only [xwrite_eq, ht, if_true]
    rw [xget_foldl_pair L s _ _ hd' hj]
    rcases h with h | ⟨h1, h2⟩
    · simp [h]
    · simp [h1, h2 ht]
  · simp only [xwrite_eq, ht]
    simp only [Bool.false_eq_true, if_false]
    rw [xget_foldl_xset L s (fun l => BitVec.ofNat 32 (v l)) hd hj]
    rcases h with h | ⟨h1, _⟩
    · simp [h]
    · simp [h1]

end Sys2Proof.Machine
end

