-- ==== Sys2Proof/Laws/Issue.lean ====
section
/-! SUPPORT. The issue frame: what `run` and `runW` answer for each way an instruction's body may end (R88, R131, R134,
R156, R261). -/

namespace Sys2Proof.Machine

@[simp] theorem issued_w (i : Instr) (s : State) : (issued i s).w = s.w := rfl
@[simp] theorem issued_mem (i : Instr) (s : State) : (issued i s).mem = s.mem := rfl
@[simp] theorem issued_crew (i : Instr) (s : State) : (issued i s).crew = s.crew := rfl
@[simp] theorem issued_ctx (i : Instr) (s : State) : (issued i s).ctx = s.ctx := rfl
@[simp] theorem issued_clus (i : Instr) (s : State) : (issued i s).clus = s.clus := rfl
@[simp] theorem issued_cycle (i : Instr) (s : State) : (issued i s).cycle = s.cycle := rfl
@[simp] theorem issued_env (i : Instr) (s : State) : (issued i s).env = s.env := rfl
@[simp] theorem issued_dev (i : Instr) (s : State) : (issued i s).dev = s.dev := rfl
@[simp] theorem issued_pc (i : Instr) (s : State) : (issued i s).sp.pc = s.sp.pc := rfl
@[simp] theorem issued_active (i : Instr) (s : State) : (issued i s).sp.active = s.sp.active := rfl
@[simp] theorem issued_wbase (i : Instr) (s : State) : (issued i s).sp.wbase = s.sp.wbase := rfl
@[simp] theorem issued_level (i : Instr) (s : State) : (issued i s).sp.level = s.sp.level := rfl
@[simp] theorem issued_depth (i : Instr) (s : State) : (issued i s).sp.depth = s.sp.depth := rfl
@[simp] theorem issued_state (i : Instr) (s : State) : (issued i s).sp.state = s.sp.state := rfl
@[simp] theorem issued_wait (i : Instr) (s : State) : (issued i s).sp.wait = s.sp.wait := rfl
@[simp] theorem partMask_issued (i : Instr) (s : State) : partMask (issued i s) = partMask s := rfl
@[simp] theorem anyLane_issued (i : Instr) (s : State) : anyLane (issued i s) = anyLane s := rfl
@[simp] theorem xget_issued (i : Instr) (s : State) (l r : Nat) : xget (issued i s) l r = xget s l r := rfl
@[simp] theorem xget64_issued (i : Instr) (s : State) (l r : Nat) : xget64 (issued i s) l r = xget64 s l r := rfl
@[simp] theorem xread_issued (i : Instr) (s : State) (t l r : Nat) : xread (issued i s) t l r = xread s t l r := rfl
@[simp] theorem bread_issued (i : Instr) (s : State) (t : Nat) (u : BitVec 1) (l r : Nat) :
    bread (issued i s) t u l r = bread s t u l r := rfl
@[simp] theorem kget_issued (i : Instr) (s : State) (n : Nat) : kget (issued i s) n = kget s n := rfl

/-- A split that no debugger steps or has frozen is not to be stopped at its issue (R260, R261). -/
theorem issued_stopDue {i : Instr} {s : State} (h : s.sp.stepping = 0) (hf : s.sp.freeze = none) :
    (issued i s).sp.stopDue = false := by
  have h1 : (issued i s).sp.stepping = 0 := by
    show (if s.sp.stepping = 1 then 2 else s.sp.stepping) = 0
    simp [h]
  have h2 : (issued i s).sp.freeze = none := hf
  simp [Split.stopDue, Split.stepped, h1, h2]

/-- Nothing is stopped where no split has made a step or is frozen (R260, R261). -/
theorem stopSteps_none {s : State} (h : s.sp.stopDue = false)
    (hw : (s.w.splits ++ s.w.overflow).filter Split.stopDue = []) : stopSteps s = s := by
  rw [List.filter_append, List.append_eq_nil_iff] at hw
  have hp : ∀ n, stopParked s n = s := by
    intro n
    unfold stopParked
    split
    next p hn => rw [if_neg (List.filter_eq_nil_iff.mp hw.2 p (List.mem_of_getElem? hn))]
    · rfl
  have hf : ∀ ns : List Nat, ns.foldl stopParked s = s := by
    intro ns
    induction ns with
    | nil => rfl
    | cons n t ih => rw [List.foldl_cons, hp, ih]
  simp [stopSteps, h, hw.1, hf]

/-- A normal issue reaches the instruction's body. -/
theorem issueW_eq {i : Instr} {s : State} (h : Issues i s) (body : Bool → State → Res) :
    issueW i body s = finish i false (body false (issued i s)) := by
  have hc : consume (noteIssue (hashSig s i) i) i = issued i s := by
    have : poisonedLanes (noteIssue (hashSig s i) i) i = 0 := h.clean
    simp [consume, this, issued]
  simp [issueW, h.fresh, h.checks, hc]

theorem run_eq {i : Instr} {s : State} (h : Issues i s) (body : State → Res) :
    run i body s = .next (finish i false (body (issued i s))) := by
  rw [run, issue, issueW_eq h]

/-- An instruction whose body goes through. -/
theorem run_ok {i : Instr} {s u : State} {body : State → Res} (h : Issues i s) (hb : body (issued i s) = .ok u)
    (hs : u.sp.stopDue = false) (hw : (u.w.splits ++ u.w.overflow).filter Split.stopDue = []) : run i body s = .next (retired u) := by
  rw [run_eq h, hb]
  show Host.Outcome.next (stopSteps (advance (dropArgs u))) = _
  rw [stopSteps_none (s := advance (dropArgs u)) hs hw]; rfl

/-- An instruction whose body sets the PC. -/
theorem run_jump {i : Instr} {s u : State} {body : State → Res} (h : Issues i s) (hb : body (issued i s) = .jump u)
    : run i body s = .next (jumped u) := by
  rw [run_eq h, hb]; rfl

/-- Where no split has made a step, an instruction that sets the PC changes nothing after its effect. -/
theorem jumped_eq {s : State} (hs : s.sp.stopDue = false) (hw : (s.w.splits ++ s.w.overflow).filter Split.stopDue = []) :
    jumped s = dropArgs s := stopSteps_none (s := dropArgs s) hs hw

/-- An instruction whose body raises a trap. -/
theorem run_trap {i : Instr} {s u : State} {body : State → Res} {c : Byte} {v pc : DWord} (h : Issues i s)
    (hb : body (issued i s) = .trap c v pc u) : run i body s = .next (trapped u c v pc) := by
  rw [run_eq h, hb]; rfl

/-- An instruction whose body goes through, where it may also wait. -/
theorem runW_ok {i : Instr} {s u : State} {body : Bool → State → Res} (h : Issues i s)
    (hb : body false (issued i s) = .ok u) (hs : u.sp.stopDue = false) (hw : (u.w.splits ++ u.w.overflow).filter Split.stopDue = []) :
    runW i body s = .next (retired u) := by
  rw [runW, issueW_eq h, hb]
  show Host.Outcome.next (stopSteps (advance (dropArgs u))) = _
  rw [stopSteps_none (s := advance (dropArgs u)) hs hw]; rfl

/-- An instruction whose body waits. -/
theorem runW_wait {i : Instr} {s u : State} {body : Bool → State → Res} (h : Issues i s)
    (hb : body false (issued i s) = .wait u) : runW i body s = .next (waits i u) := by
  rw [runW, issueW_eq h, hb]; rfl

/-- An end of a body that goes through, where no split has made a step. -/
theorem finish_ok {i : Instr} {u : State} (hs : u.sp.stopDue = false) (hw : (u.w.splits ++ u.w.overflow).filter Split.stopDue = []) :
    finish i false (.ok u) = retired u := stopSteps_none (s := advance (dropArgs u)) hs hw

@[simp] theorem finish_jump (i : Instr) (u : State) : finish i false (.jump u) = jumped u := rfl
@[simp] theorem finish_trap (i : Instr) (c : Byte) (v pc : DWord) (u : State) :
    finish i false (.trap c v pc u) = trapped u c v pc := rfl
@[simp] theorem finish_wait (i : Instr) (u : State) : finish i false (.wait u) = waits i u := rfl

/-- What an instruction that acts once does, from what its body does where some lane passes the guard (R29). -/
theorem once_ends {i : Instr} {s : State} {body : State → Res} {ends : State → State}
    (he : exec i s = run i (fun s => once s body) s)
    (hb : Issues i s → anyLane s = true → finish i false (body (issued i s)) = ends (issued i s)) :
    OnceEnds i s ends := by
  intro h
  rw [he, run_eq h]
  by_cases ha : anyLane s = true
  · simp only [once, anyLane_issued, ha, if_true]; rw [hb h ha]
  · simp only [once, anyLane_issued, ha, if_false, Bool.false_eq_true]
    rw [finish_ok (issued_stopDue h.whole.1 h.whole.2.1) h.whole.2.2]

/-- The same of an instruction that may wait. -/
theorem once_endsW {i : Instr} {s : State} {body : State → Res} {more : State → Res} {ends : State → State}
    (he : exec i s = runW i (fun again s => if again then more s else once s body) s)
    (hb : Issues i s → anyLane s = true → finish i false (body (issued i s)) = ends (issued i s)) :
    OnceEnds i s ends := by
  intro h
  rw [he, runW, issueW_eq h]
  by_cases ha : anyLane s = true
  · simp only [once, anyLane_issued, ha, if_true, Bool.false_eq_true, if_false]; rw [hb h ha]
  · simp only [once, anyLane_issued, ha, if_false, Bool.false_eq_true]
    rw [finish_ok (issued_stopDue h.whole.1 h.whole.2.1) h.whole.2.2]

/-- What the next judgement of a waiting instruction does. -/
theorem judged_ends {i : Instr} {s : State} {body : Bool → State → Res} {ends : State}
    (he : exec i s = runW i body s) (hb : finish i true (body true s) = ends) : JudgedEnds i s ends := by
  intro h
  rw [he, runW, issueW, if_pos h, hb]

/-- Lane results: the instruction retires with them, and only lane registers change. -/
theorem run_lanes {i : Instr} {s u : State} {body : State → Res} (h : Issues i s) (hb : body (issued i s) = .ok u)
    (hu : LanesOnly (issued i s) u) : run i body s = .next (retired u) := by
  refine run_ok h hb ?_ ?_
  · rw [hu.sp]; exact issued_stopDue h.whole.1 h.whole.2.1
  · rw [hu]; exact h.whole.2.2

end Sys2Proof.Machine
end

