-- ==== Sys2Proof/Laws/Memory.lean ====
section
/-! SUPPORT. Memory: what a write is read back as, and that every memory operation keeps the canonical form (R169, log 4). -/

namespace Sys2Proof.Machine

/-- A state whose memory is in canonical form. -/
def Good (s : State) : Prop := Memory.wf s.mem = true

/-- A byte written at one key leaves the bytes at other keys. -/
theorem byteAt_sset (m : Memory) (a b : Nat) (v : Byte) :
    byteAt (sset 0 m a v) b = if b = a then v else byteAt m b := sget_sset 0 m a b v

/-- A key below a write reads as before. -/
theorem byteAt_putBytes_lt (bs : List Byte) (m : Memory) {key a : Nat} (h : a < key) :
    byteAt (putBytes m key bs) a = byteAt m a := by
  induction bs generalizing m key with
  | nil => rfl
  | cons b t ih =>
    rw [putBytes, ih _ (Nat.lt_succ_of_lt h), byteAt_sset, if_neg (Nat.ne_of_lt h)]

/-- The i-th byte of a write is read at the i-th key. -/
theorem byteAt_putBytes (bs : List Byte) (m : Memory) (key a : Nat) :
    byteAt (putBytes m key bs) a = if key ≤ a ∧ a < key + bs.length then bs.getD (a - key) 0 else byteAt m a := by
  induction bs generalizing m key with
  | nil => simp [putBytes]
  | cons b t ih =>
    rw [putBytes, ih, byteAt_sset]
    rcases Nat.lt_trichotomy a key with h | h | h
    · rw [if_neg (by omega), if_neg (by omega), if_neg (by simp; omega)]
    · subst h; simp
    · by_cases h2 : a < key + 1 + t.length
      · have e : a - key = (a - (key + 1)) + 1 := by omega
        rw [if_pos (by omega), if_pos (by simp; omega), e]; simp
      · rw [if_neg (by omega), if_neg (by omega), if_neg (by simp; omega)]

/-- A write reads back as it was written. -/
theorem bytesAt_putBytes (bs : List Byte) (m : Memory) (key : Nat) : bytesAt (putBytes m key bs) key bs.length = bs := by
  induction bs generalizing m key with
  | nil => rfl
  | cons b t ih =>
    rw [List.length_cons, bytesAt, putBytes, ih, byteAt_putBytes_lt _ _ (Nat.lt_succ_self _), byteAt_sset, if_pos rfl]

/-- A byte outside a write reads as before. -/
theorem byteAt_putBytes_out (bs : List Byte) (m : Memory) {key a : Nat} (h : a < key ∨ key + bs.length ≤ a) :
    byteAt (putBytes m key bs) a = byteAt m a := by
  rw [byteAt_putBytes, if_neg (by omega)]

/-- The bytes of a number are as many as asked. -/
@[simp] theorem natLE_length (v n : Nat) : (natLE v n).length = n := by
  induction n generalizing v with
  | zero => rfl
  | succ n ih => simp [natLE, ih]

/-- The number of a number's bytes is the number, cut to their width. -/
theorem leNat_natLE (v n : Nat) : leNat (natLE v n) = v % 256 ^ n := by
  induction n generalizing v with
  | zero => simp [natLE, leNat, Nat.mod_one]
  | succ n ih =>
    rw [natLE, leNat, ih, Nat.pow_succ', Nat.mod_mul]
    simp

/-- A byte set keeps the form. -/
theorem wf_sset {m : Memory} (a : Nat) (v : Byte) (h : m.wf = true) : Memory.wf (sset 0 m a v) = true := swf_sset 0 a v h

/-- Bytes left out keep the form. -/
theorem wf_filter {m : Memory} (p : Nat × Byte → Bool) (h : m.wf = true) : Memory.wf (m.filter p) = true :=
  swf_filter 0 p h

/-- A write keeps the form. -/
theorem wf_putBytes (bs : List Byte) {m : Memory} (key : Nat) (h : m.wf = true) : Memory.wf (putBytes m key bs) = true := by
  induction bs generalizing m key with
  | nil => exact h
  | cons b t ih => exact ih _ (wf_sset _ _ h)

/-- Entries set one after another keep the form. -/
theorem wf_foldl_sset (es : List (Nat × Byte)) {m : Memory} (h : m.wf = true) :
    Memory.wf (es.foldl (fun m e => sset 0 m e.1 e.2) m) = true := by
  induction es generalizing m with
  | nil => exact h
  | cons e t ih => exact ih (wf_sset _ _ h)

/-- A write by key keeps the form. -/
theorem good_storeKey {e : Late} {s : State} (key : Nat) (bs : List Byte) (h : Good s) : Good (storeKey e s key bs) :=
  wf_putBytes bs key h

theorem good_writeKey {s : State} (key : Nat) (bs : List Byte) (h : Good s) : Good (writeKey s key bs) :=
  good_storeKey key bs h

/-- A write by key changes the bytes of its range and, of the rest of the state, only which sectors are poisoned and what is
known of the writes. -/
theorem storeKey_eq (e : Late) (s : State) (key : Nat) (bs : List Byte) :
    storeKey e s key bs = { s with mem := putBytes s.mem key bs, poison := (storeKey e s key bs).poison
                                   spillPoison := (storeKey e s key bs).spillPoison
                                   late := (storeKey e s key bs).late, writes := s.writes + 1 } := by
  unfold storeKey clearPoison; split <;> rfl

theorem writeKey_eq (s : State) (key : Nat) (bs : List Byte) :
    writeKey s key bs = { s with mem := putBytes s.mem key bs, poison := (writeKey s key bs).poison
                                 spillPoison := (writeKey s key bs).spillPoison
                                 late := (writeKey s key bs).late, writes := s.writes + 1 } := storeKey_eq ..

/-- A read by key after a write at the same key. -/
theorem readKey_writeKey (s : State) (key v n : Nat) : readKey (writeKey s key (natLE v n)) key n = v % 256 ^ n := by
  have h := bytesAt_putBytes (natLE v n) s.mem key
  rw [natLE_length] at h
  show leNat (bytesAt (putBytes s.mem key (natLE v n)) key n) = _
  rw [h, leNat_natLE]

/-- Bytes scattered change memory alone. -/
theorem scatter_eq (ks : List Nat) (bs : List Byte) (s : State) : scatter s ks bs = { s with mem := (scatter s ks bs).mem } := by
  induction ks generalizing s bs with
  | nil => cases bs <;> rfl
  | cons k t ih =>
    cases bs with
    | nil => rfl
    | cons b u => rw [scatter, ih]

/-- Bytes scattered keep the form. -/
theorem good_scatter (ks : List Nat) (bs : List Byte) {s : State} (h : Good s) : Good (scatter s ks bs) := by
  induction ks generalizing s bs with
  | nil => cases bs <;> exact h
  | cons k t ih =>
    cases bs with
    | nil => exact h
    | cons b u => exact ih u (s := { s with mem := sset 0 s.mem k b }) (wf_sset k b h)

/-- A byte outside the keys of a scatter reads as before. -/
theorem byteAt_scatter (ks : List Nat) (bs : List Byte) (s : State) {a : Nat} (h : a ∉ ks) :
    byteAt (scatter s ks bs).mem a = byteAt s.mem a := by
  induction ks generalizing s bs with
  | nil => cases bs <;> rfl
  | cons k t ih =>
    cases bs with
    | nil => rfl
    | cons b u =>
      rw [List.mem_cons, not_or] at h
      rw [scatter, ih u _ h.2]
      show byteAt (sset 0 s.mem k b) a = _
      rw [byteAt_sset, if_neg h.1]

/-- Bytes stored at keys change memory, which sectors are poisoned and what is known of the writes, and nothing else. -/
theorem storeKeys_eq (e : Late) (s : State) (ks : List Nat) (bs : List Byte) :
    storeKeys e s ks bs = { s with mem := (storeKeys e s ks bs).mem, poison := (storeKeys e s ks bs).poison
                                   spillPoison := (storeKeys e s ks bs).spillPoison
                                   late := (storeKeys e s ks bs).late, writes := s.writes + 1 } := by
  unfold storeKeys; rw [scatter_eq]; rfl

/-- Bytes stored at keys keep the form. -/
theorem good_storeKeys {e : Late} {s : State} (ks : List Nat) (bs : List Byte) (h : Good s) : Good (storeKeys e s ks bs) :=
  good_scatter ks bs h

/-- A byte outside the keys of a store reads as before. -/
theorem byteAt_storeKeys (e : Late) (ks : List Nat) (bs : List Byte) (s : State) {a : Nat} (h : a ∉ ks) :
    byteAt (storeKeys e s ks bs).mem a = byteAt s.mem a := byteAt_scatter ks bs _ h

/-- A virtual run written keeps the form. -/
theorem good_writeRun {s t : State} {n : Need} {va : Nat} {bs : List Byte} (h : Good s) (he : writeRun s n va bs = .ok t) :
    Good t := by
  unfold writeRun at he
  split at he
  · cases he
  · cases he; exact good_storeKeys _ bs h

/-- A virtual run written changes memory, which sectors are poisoned and what is known of the writes, and nothing else. -/
theorem writeRun_eq {s t : State} {n : Need} {va : Nat} {bs : List Byte} (he : writeRun s n va bs = .ok t) :
    t = { s with mem := t.mem, poison := t.poison, spillPoison := t.spillPoison, late := t.late, writes := t.writes } := by
  unfold writeRun at he
  split at he
  · cases he
  · cases he; rw [storeKeys_eq]

end Sys2Proof.Machine
end

