-- ==== Sys2Proof/Laws/Order.lean ====
section
/-! SUPPORT. Memory ordering: what an agent that must see every write reads, and what an engine's write may change (10 R295
to R301; log 7). -/

namespace Sys2Proof.Machine

/-- An agent that sees every write to a byte reads it as it is in memory (R299). -/
theorem seenByte_seen (sees : Late → Bool) (key : Nat) (es : List Late) (v : Byte)
    (h : ∀ e ∈ es, (e.oldAt key).isSome → sees e = true) : seenByte sees key es v = v := by
  induction es with
  | nil => rfl
  | cons e t ih =>
    have ht := ih (fun f hf => h f (List.mem_cons_of_mem _ hf))
    unfold seenByte
    split
    · exact ht
    · next o ho => rw [if_pos (h e (List.mem_cons_self ..) (by simp [ho]))]

theorem readByte_seen {r : Reader} {s : State} {key : Nat}
    (h : ∀ e ∈ s.late, (e.oldAt key).isSome → e.sees s r key = true) : readByte r s key = byteAt s.mem key :=
  seenByte_seen _ _ _ _ h

/-- Where no write may be unseen, every agent reads memory as it is. -/
@[simp] theorem readByte_settled {r : Reader} {s : State} {key : Nat} (h : s.late = []) :
    readByte r s key = byteAt s.mem key := readByte_seen (by simp [h])

/-- An agent that sees a write reads nothing older than it (R299). -/
theorem seenByte_cons {sees : Late → Bool} {key : Nat} {e : Late} {t : List Late} {v : Byte} (hk : (e.oldAt key).isSome)
    (hs : sees e = true) : seenByte sees key (e :: t) v = v := by
  obtain ⟨o, ho⟩ := Option.isSome_iff_exists.mp hk
  simp [seenByte, ho, hs]

/-- A write to other bytes does not change what an agent reads. -/
theorem seenByte_other {sees : Late → Bool} {key : Nat} {e : Late} {t : List Late} {v : Byte} (hk : e.oldAt key = none) :
    seenByte sees key (e :: t) v = seenByte sees key t v := by simp [seenByte, hk]

/-- The bytes of a write: those of its keys. -/
theorem oldAt_map (e : Late) (f : Nat → Byte) (ks : List Nat) (a : Nat) :
    ({ e with bytes := ks.map (fun k => (k, f k)) } : Late).oldAt a = if a ∈ ks then some (f a) else none := by
  induction ks with
  | nil => rfl
  | cons k t ih =>
    unfold Late.oldAt at ih ⊢
    rw [List.map_cons, List.find?_cons]
    by_cases hk : k = a
    · subst hk; simp
    · rw [beq_false_of_ne hk]
      exact ih.trans (by simp [Ne.symm hk])

/-- An agent that must see a write reads the bytes it has stored (R299). -/
theorem readByte_storeKey {e : Late} {r : Reader} (s : State) (key : Nat) (bs : List Byte) {a : Nat}
    (ha : a ∈ keysFrom key bs.length)
    (hs : ∀ f : Late, f.by_ = e.by_ → f.so = e.so → f.uo = e.uo → f.marks = e.marks → f.ownOf r = true) :
    readByte r (storeKey e s key bs) a = byteAt (putBytes s.mem key bs) a := by
  have hlate : (storeKey e s key bs).late =
      { e with id := s.writes, bytes := (keysFrom key bs.length).map (fun k => (k, byteAt s.mem k)) } :: s.late := by
    unfold storeKey clearPoison; split <;> rfl
  unfold readByte
  rw [hlate, seenByte_cons]
  · rfl
  · exact (oldAt_map { e with id := s.writes } _ _ _).trans (if_pos ha) ▸ rfl
  · simp only [Late.sees, Late.mustSee, Bool.or_eq_true]
    exact .inl (.inl (.inl (.inl (hs _ rfl rfl rfl rfl))))

/-- A run stored page by page changes memory, which sectors are poisoned and what is known of the writes. -/
theorem storeParts_eq (f : Nat → Late) (n : Nat) (va : Nat) (s : State) (ks : List Nat) (bs : List Byte) :
    storeParts f va n s ks bs = { s with
      mem := (storeParts f va n s ks bs).mem, poison := (storeParts f va n s ks bs).poison
      spillPoison := (storeParts f va n s ks bs).spillPoison
      late := (storeParts f va n s ks bs).late, writes := (storeParts f va n s ks bs).writes } := by
  induction n generalizing va s ks bs with
  | zero => rfl
  | succ n ih =>
    unfold storeParts
    dsimp only
    split
    · rw [storeKeys_eq]
    · rw [ih, storeKeys_eq]

theorem storeRun_eq (f : Nat → Late) (s : State) (va : Nat) (ks : List Nat) (bs : List Byte) :
    storeRun f s va ks bs = { s with
      mem := (storeRun f s va ks bs).mem, poison := (storeRun f s va ks bs).poison
      spillPoison := (storeRun f s va ks bs).spillPoison
      late := (storeRun f s va ks bs).late, writes := (storeRun f s va ks bs).writes } := by
  unfold storeRun; rw [storeParts_eq]; rfl

/-- A run stored keeps the form of memory. -/
theorem good_storeParts (f : Nat → Late) (n : Nat) (va : Nat) {s : State} (ks : List Nat) (bs : List Byte) (h : Good s) :
    Good (storeParts f va n s ks bs) := by
  induction n generalizing va s ks bs with
  | zero => exact h
  | succ n ih =>
    unfold storeParts
    dsimp only
    split
    · exact good_storeKeys _ _ h
    · exact ih _ _ _ (good_storeKeys _ _ h)

theorem good_storeRun (f : Nat → Late) {s : State} (va : Nat) (ks : List Nat) (bs : List Byte) (h : Good s) :
    Good (storeRun f s va ks bs) := good_storeParts f _ va ks bs h

/-- An engine's write changes memory, which sectors are poisoned, and what is known of the writes. -/
theorem jobRun_eq {s t : State} {j : Job} {slot : Option (Nat × Nat × Nat)} {part va : Nat} {n : Need} {bs : List Byte}
    (he : jobRun s j slot part n va bs = .ok t) :
    t = { s with mem := t.mem, poison := t.poison, spillPoison := t.spillPoison, late := t.late, writes := t.writes } := by
  unfold jobRun at he
  split at he
  · cases he
  · cases he; rw [storeRun_eq]

/-- An engine's write keeps the form of memory. -/
theorem good_jobRun {s t : State} {j : Job} {slot : Option (Nat × Nat × Nat)} {part va : Nat} {n : Need} {bs : List Byte}
    (h : Good s) (he : jobRun s j slot part n va bs = .ok t) : Good t := by
  unfold jobRun at he
  split at he
  · cases he
  · cases he; exact good_storeRun _ _ _ _ h

/-- A write that learns what it happens before is the same write, with the marks it had and perhaps one more. -/
theorem learn_eq (time : Nat) (r : Reach) (e : Late) (c : Chain) :
    e.learn time r c = { e with marks := (e.learn time r c).marks } := by
  unfold Late.learn
  split <;> rfl

theorem mem_learn_marks {m : Mark} {e : Late} (time : Nat) (r : Reach) (c : Chain) (h : m ∈ e.marks) :
    m ∈ (e.learn time r c).marks := by
  unfold Late.learn
  split
  · exact h
  · exact List.mem_cons_of_mem _ h

/-- Learning keeps all of a write but its marks, which only grow. -/
theorem foldl_learn (time : Nat) (rs : List (Reach × Chain)) (e : Late) :
    let g := rs.foldl (fun f x => f.learn time x.1 x.2) e
    g = { e with marks := g.marks } ∧ ∀ m ∈ e.marks, m ∈ g.marks := by
  induction rs generalizing e with
  | nil => exact ⟨rfl, fun _ h => h⟩
  | cons x t ih =>
    obtain ⟨h, hm⟩ := ih (e.learn time x.1 x.2)
    refine ⟨?_, fun m hmem => hm m (mem_learn_marks time x.1 x.2 hmem)⟩
    simp only [List.foldl_cons]
    rw [h, learn_eq]

/-- A change of some bytes leaves a write that has none of them as it is. -/
theorem at_untouched {e : Late} {keys : Nat → Bool} (f : Late → Late) (h : ∀ x ∈ e.bytes, keys x.1 = false) :
    e.at keys f = [e] := by
  have : e.bytes.any (fun x => keys x.1) = false := by simpa using fun a b hx => h (a, b) hx
  simp [Late.at, this]

/-- A change of all of a write's bytes changes the write. -/
theorem at_covered {e : Late} {keys : Nat → Bool} (f : Late → Late) (hne : e.bytes ≠ []) (h : ∀ x ∈ e.bytes, keys x.1 = true) :
    e.at keys f = [f e] := by
  have ha : e.bytes.all (fun x => keys x.1) = true := by simpa using fun a b hx => h (a, b) hx
  obtain ⟨x, t, hx⟩ := List.exists_cons_of_ne_nil hne
  have hb : e.bytes.any (fun x => keys x.1) = true := by simpa [hx] using .inl (h x (by simp [hx]))
  simp [Late.at, ha, hb]

/-- The writes passed over and the rest are the writes. -/
theorem passOver_append (ks : List Nat) (p : Late → Bool) (es : List Late) : (passOver ks p es).1 ++ (passOver ks p es).2 = es := by
  induction es with
  | nil => rfl
  | cons e t ih => unfold passOver; split <;> simp [ih]

/-- A list without its later repeats has none. -/
theorem nodup_eraseDups {α} [DecidableEq α] (l : List α) : l.eraseDups.Nodup := by
  induction h : l.length using Nat.strong_induction_on generalizing l with
  | _ n ih =>
    cases l with
    | nil => simp
    | cons a t =>
      rw [List.eraseDups_cons, List.nodup_cons]
      refine ⟨by simp [List.mem_eraseDups], ih _ ?_ _ rfl⟩
      subst h
      exact Nat.lt_succ_of_le (List.length_filter_le _ _)
/-- The UO lines of which an agent does not see some write. -/
def unseenLines (s : State) (r : Reader) : List Nat :=
  ((s.late.filter (fun e => e.uo)).flatMap (fun e =>
    (e.bytes.filter (fun x => !e.sees s r x.1)).map (fun x => x.1 / 128))).eraseDups

/-- An agent never lacks writes of more UO lines than the caches hold (R2, log 107); a write made whole lies in one line (R168). -/
theorem unseen_le_caches (s : State) (r : Reader) (h : ∀ e ∈ s.late, ∀ f ∈ s.late, e.id = f.id → e.whole = true → f.whole = true →
    ∀ x ∈ e.bytes, ∀ y ∈ f.bytes, x.1 / 128 = y.1 / 128) : (unseenLines s r).length ≤ cacheLines := by
  let P : Set (Late × (Nat × Byte)) := fun p => p.1 ∈ s.late ∧ p.1.uo = true ∧ p.2 ∈ p.1.bytes ∧ p.1.sees s r p.2.1 = false
  let m : Late × (Nat × Byte) → ℕ ×ₗ ℕ ×ₗ ℕ := fun p => toLex (p.1.reaches r p.2.1, toLex (p.1.id, p.1.unit p.2.1))
  by_cases hP : P.Nonempty
  · obtain ⟨p, hp, hmin⟩ : ∃ p ∈ P, ∀ q ∈ P, ¬ m q < m p := by
      obtain ⟨p, hp, hm⟩ := (InvImage.wf m wellFounded_lt).has_min P hP
      exact ⟨p, hp, hm⟩
    have hev : p.1.evicted s r p.2.1 = false := by
      have := hp.2.2.2
      simp only [Late.sees, Bool.or_eq_false_iff] at this
      exact this.2
    simp only [Late.evicted, hp.2.1, Bool.true_and, decide_eq_false_iff_not, not_le] at hev
    have hsub : unseenLines s r ⊆ p.2.1 / 128 :: staleLines s.late r (p.1.reaches r p.2.1) p.1.id (p.1.unit p.2.1) := by
      intro n hn
      simp only [unseenLines, List.mem_eraseDups, List.mem_flatMap, List.mem_filter, List.mem_map, Bool.not_eq_true'] at hn
      obtain ⟨e, ⟨he, hu⟩, x, ⟨hx, hs⟩, rfl⟩ := hn
      have hq : (e, x) ∈ P := ⟨he, hu, hx, hs⟩
      have hle := hmin _ hq
      rw [not_lt] at hle
      rcases eq_or_lt_of_le hle with heq | hlt
      · refine List.mem_cons.mpr (.inl ?_)
        simp only [m, toLex_inj, Prod.mk.injEq, Late.unit] at heq
        obtain ⟨-, hid, hun⟩ := heq
        cases h1 : p.1.whole <;> cases h2 : e.whole <;> simp only [h1, h2, Bool.false_eq_true, if_false, if_true] at hun
        · rw [Nat.succ.inj hun]
        · omega
        · omega
        · exact h e he p.1 hp.1 hid.symm h2 h1 x hx p.2 hp.2.2.1
      · refine List.mem_cons.mpr (.inr ?_)
        simp only [staleLines, List.mem_eraseDups, List.mem_flatMap, List.mem_filter, List.mem_map, decide_eq_true_eq]
        refine ⟨e, ⟨he, hu⟩, x, ⟨hx, ?_⟩, rfl⟩
        simpa [m, Prod.Lex.toLex_lt_toLex] using hlt
    have hlen := (List.subperm_of_subset (nodup_eraseDups _) hsub).length_le
    simp only [List.length_cons] at hlen
    exact hlen.trans hev
  · have : unseenLines s r = [] := by
      rw [List.eq_nil_iff_forall_not_mem]
      intro n hn
      simp only [unseenLines, List.mem_eraseDups, List.mem_flatMap, List.mem_filter, List.mem_map, Bool.not_eq_true'] at hn
      obtain ⟨e, ⟨he, hu⟩, x, ⟨hx, hs⟩, -⟩ := hn
      exact hP ⟨(e, x), he, hu, hx, hs⟩
    simp [this]
end Sys2Proof.Machine
end

