-- ==== Sys2Proof/Laws/LaneOps.lean ====
section
/-! SUPPORT. What lane instructions of each shape do: results in every participating lane, predicates, and effects of the
whole warp (R29, R90, R92, R94). -/

namespace Sys2Proof.Machine

/-- A physical register that typed results in some lanes do not name keeps its value and its mark. -/
theorem others_foldl_xwrite (L : List Nat) (s : State) {ty d key : Nat} (v : Nat → Nat)
    (h : ∀ l ∈ L, ∀ r ∈ (if type64 ty then [d, d + 1] else [d]), key ≠ physKey s.w l (s.sp.wbase + r)) :
    physGet (L.foldl (fun t l => xwrite t ty l d (v l)) s).w key = physGet s.w key ∧
      sget 0 (L.foldl (fun t l => xwrite t ty l d (v l)) s).w.marks key = sget 0 s.w.marks key := by
  induction L generalizing s with
  | nil => exact ⟨rfl, rfl⟩
  | cons x L ih =>
    have hx := h x (by simp)
    have hk : ∀ l ∈ L, ∀ r ∈ (if type64 ty then [d, d + 1] else [d]),
        key ≠ physKey (xwrite s ty x d (v x)).w l ((xwrite s ty x d (v x)).sp.wbase + r) := by
      intro l hl r hr
      rw [(LanesOnly.xwrite s ty x d (v x)).key, (LanesOnly.xwrite s ty x d (v x)).sp]
      exact h l (by simp [hl]) r hr
    rw [List.foldl_cons]
    obtain ⟨h1, h2⟩ := ih _ hk
    rw [h1, h2, xwrite_eq]
    by_cases ht : type64 ty = true
    · have e1 : key ≠ physKey s.w x (s.sp.wbase + d) := hx d (by simp [ht])
      have e2 : key ≠ physKey s.w x (s.sp.wbase + (d + 1)) := hx (d + 1) (by simp [ht])
      rw [if_pos ht]
      constructor
      · show physGet (physSet (physSet s.w _ _) (physKey s.w x (s.sp.wbase + (d + 1))) _) key = _
        rw [physGet_physSet, if_neg e2, physGet_physSet, if_neg e1]
      · show sget 0 (serase (serase s.w.marks _) (physKey s.w x (s.sp.wbase + (d + 1)))) key = _
        rw [sget_serase_ne _ _ e2, sget_serase_ne _ _ e1]
    · have e1 : key ≠ physKey s.w x (s.sp.wbase + d) := hx d (by simp [ht])
      rw [if_neg ht]
      constructor
      · show physGet (physSet s.w _ _) key = _
        rw [physGet_physSet, if_neg e1]
      · show sget 0 (serase s.w.marks _) key = _
        rw [sget_serase_ne _ _ e1]

/-- Typed results in every participating lane of an issued instruction. -/
def laneResults (i : Instr) (s : State) (ty d : Nat) (v : Nat → Nat) : State :=
  (lanesOf (partMask s)).foldl (fun t l => xwrite t ty l d (v l)) (issued i s)

theorem laneResults_only (i : Instr) (s : State) (ty d : Nat) (v : Nat → Nat) :
    LanesOnly (issued i s) (laneResults i s ty d v) :=
  LanesOnly.foldl (fun t l => xwrite t ty l d (v l)) (fun t l => LanesOnly.xwrite t ty l d (v l)) _ _

theorem takesPart_iff {s : State} {l : Nat} : takesPart s l ↔ l ∈ lanesOf (partMask s) := by
  rw [mem_lanesOf]; rfl

/-- Lane results change only destinations of participating lanes. -/
theorem writes_laneResults (i : Instr) (s : State) (ty : Nat) (d : BitVec 6) (v : Nat → Nat) :
    WritesLanes i (destRegs ty d) s (retired (laneResults i s ty d.toNat v)) where
  frame := by
    have h := laneResults_only i s ty d.toNat v
    generalize laneResults i s ty d.toNat v = u at h
    unfold LanesOnly at h
    rw [h]; rfl
  others := by
    intro key hk
    refine others_foldl_xwrite _ (issued i s) v ?_
    intro l hl r hr
    exact hk l (takesPart_iff.mpr hl) r hr
  flags := by
    have h := laneResults_only i s ty d.toNat v
    show (laneResults i s ty d.toNat v).w.fflags &&& s.w.fflags = s.w.fflags
    rw [h]; simp

theorem flags_laneResults (i : Instr) (s : State) (ty d : Nat) (v : Nat → Nat) :
    (laneResults i s ty d v).w.fflags = s.w.fflags := by rw [laneResults_only i s ty d v]; rfl

/-- Reading a register is not changed by retirement. -/
theorem xread_retired (s : State) (ty l d : Nat) : xread (retired s) ty l d = xread s ty l d := rfl

/-- A lane instruction whose body writes a typed result in each participating lane. -/
theorem lane_result {i : Instr} {s : State} {ty : Nat} {d : BitVec 6} {v : Nat → Nat} {body : State → Res}
    (hx : exec i s = run i body s) (hb : body (issued i s) = .ok (laneResults i s ty d.toNat v))
    (he : Issues i s → type64 ty = true → d.toNat % 2 = 0)
    (hv : Issues i s → ∀ l, takesPart s l → v l < 2 ^ (if type64 ty then 64 else 32)) : LaneResult i ty d s v := by
  intro h
  refine ⟨_, hx.trans (run_lanes h hb (laneResults_only i s ty d.toNat v)), writes_laneResults i s ty d v,
    flags_laneResults i s ty d.toNat v, ?_⟩
  intro l hl
  rw [xread_retired]
  exact (xread_foldl_xwrite _ (issued i s) v d.isLt (he h) (takesPart_iff.mp hl)).trans (Nat.mod_eq_of_lt (hv h l hl))

/-- Sub-element k of packed values. -/
theorem subElem_packElems (w : Nat) (f : Nat → Nat) {n k : Nat} (hk : k < n) :
    subElem (packElems w f n) w k = f k % 2 ^ w := by
  have lt : ∀ n, packElems w f n < 2 ^ (w * n) := by
    intro n
    induction n with
    | zero => simp [packElems]
    | succ n ih =>
      have h1 : f n % 2 ^ w < 2 ^ w := Nat.mod_lt _ (by positivity)
      have h2 : 2 ^ (w * (n + 1)) = 2 ^ w * 2 ^ (w * n) := by rw [← pow_add]; ring_nf
      simp only [packElems]
      nlinarith [Nat.two_pow_pos (w * n)]
  induction n with
  | zero => omega
  | succ n ih =>
    simp only [packElems, subElem, bitsOf]
    by_cases h : k = n
    · subst h
      rw [Nat.add_mul_div_right _ _ (by positivity), Nat.div_eq_of_lt (lt k), Nat.zero_add, Nat.mod_mod]
    · have hlt : k < n := by omega
      have e : w * n = w * k + w * (n - k) := by rw [← Nat.mul_add]; congr 1; omega
      have e2 : 2 ^ (w * n) = 2 ^ (w * k) * 2 ^ (w * (n - k)) := by rw [e, pow_add]
      have e3 : w ≤ w * (n - k) := Nat.le_mul_of_pos_right _ (by omega)
      rw [e2, mul_comm (2 ^ (w * k)), ← mul_assoc, Nat.add_mul_div_right _ _ (by positivity), Nat.add_mod,
        Nat.mul_mod, show 2 ^ (w * (n - k)) = 2 ^ w * 2 ^ (w * (n - k) - w) by rw [← pow_add]; congr 1; omega]
      simp only [Nat.mul_mod_right, Nat.mul_zero, Nat.zero_mod, Nat.add_zero, Nat.mod_mod]
      have := ih hlt
      simpa [subElem, bitsOf] using this

/-- The writes that are passed over each leave the keys alone or pass. -/
theorem passOver_pass {ks : List Nat} {p : Late → Bool} {es : List Late} {e : Late} (h : e ∈ (passOver ks p es).1)
    (ht : e.touches ks = true) : p e = true := by
  induction es with
  | nil => simp [passOver] at h
  | cons a t ih =>
    simp only [passOver] at h
    split at h
    · rename_i hc
      rcases List.mem_cons.mp h with rfl | h
      · simpa [ht] using hc
      · exact ih h
    · simp at h

/-- A lane's step of a reduction stores at the newest place of coherence order, or just before a write of its location that
it passes over with all the newer ones (R174, R299). -/
theorem redStore_cases (s : State) (size l va key : Nat) (new : Nat → Nat) (t : State) :
    let ks := keysFrom key size
    redStore s size l va key new t = laneStore s none true (oneLane l) va key (natLE (new (readKey t key size)) size) t ∨
    ∃ newer e older, t.late = newer ++ older ∧ e ∈ newer ∧ e.touches ks = true ∧
      (∀ f ∈ newer, f.touches ks = true → Late.overtaken t l ks t.writes f = true) ∧
      redStore s size l va key new t = storeBefore { laneWrite s (oneLane l) va with rmw := true } e newer older t key
        (natLE (new (leNat (ks.map (fun k => (e.oldAt k).getD 0)))) size) := by
  intro ks
  simp only [redStore]
  split
  · exact .inl rfl
  · rename_i e he
    have hm := List.mem_of_getLast? he
    split at hm
    · simp at hm
    · refine .inr ⟨_, e, _, (passOver_append ks _ t.late).symm, (List.mem_filter.mp hm).1, (List.mem_filter.mp hm).2,
        fun f hf ht => passOver_pass hf ht, ?_⟩
      simp_all [ks]

end Sys2Proof.Machine
end

