-- ==== Sys2Proof/Laws/State.lean ====
section
/-! SUPPORT. What each named update of the state changes and leaves, field by field (R11, R15). -/

namespace Sys2Proof.Machine

@[simp] theorem advance_w_eq (s : State) : (advance s).w = s.w := rfl
@[simp] theorem advance_crew_eq (s : State) : (advance s).crew = s.crew := rfl
@[simp] theorem advance_ctx_eq (s : State) : (advance s).ctx = s.ctx := rfl
@[simp] theorem advance_clus_eq (s : State) : (advance s).clus = s.clus := rfl
@[simp] theorem advance_mem_eq (s : State) : (advance s).mem = s.mem := rfl
@[simp] theorem advance_late_eq (s : State) : (advance s).late = s.late := rfl
@[simp] theorem advance_poison_eq (s : State) : (advance s).poison = s.poison := rfl
@[simp] theorem advance_logs_eq (s : State) : (advance s).logs = s.logs := rfl
@[simp] theorem advance_cycle_eq (s : State) : (advance s).cycle = s.cycle := rfl
@[simp] theorem advance_env_eq (s : State) : (advance s).env = s.env := rfl
@[simp] theorem advance_dev_eq (s : State) : (advance s).dev = s.dev := rfl
@[simp] theorem advance_majority_eq (s : State) : (advance s).majority = s.majority := rfl
@[simp] theorem advance_warps_eq (s : State) : (advance s).warps = s.warps := rfl
@[simp] theorem advance_crews_eq (s : State) : (advance s).crews = s.crews := rfl
@[simp] theorem advance_nextAge_eq (s : State) : (advance s).nextAge = s.nextAge := rfl
@[simp] theorem advance_pc (s : State) : (advance s).sp.pc = s.sp.pc + 4 := rfl
@[simp] theorem advance_active (s : State) : (advance s).sp.active = s.sp.active := rfl

@[simp] theorem goTo_w_eq (pc : DWord) (s : State) : (goTo pc s).w = s.w := rfl
@[simp] theorem goTo_crew_eq (pc : DWord) (s : State) : (goTo pc s).crew = s.crew := rfl
@[simp] theorem goTo_ctx_eq (pc : DWord) (s : State) : (goTo pc s).ctx = s.ctx := rfl
@[simp] theorem goTo_clus_eq (pc : DWord) (s : State) : (goTo pc s).clus = s.clus := rfl
@[simp] theorem goTo_mem_eq (pc : DWord) (s : State) : (goTo pc s).mem = s.mem := rfl
@[simp] theorem goTo_late_eq (pc : DWord) (s : State) : (goTo pc s).late = s.late := rfl
@[simp] theorem goTo_poison_eq (pc : DWord) (s : State) : (goTo pc s).poison = s.poison := rfl
@[simp] theorem goTo_logs_eq (pc : DWord) (s : State) : (goTo pc s).logs = s.logs := rfl
@[simp] theorem goTo_cycle_eq (pc : DWord) (s : State) : (goTo pc s).cycle = s.cycle := rfl
@[simp] theorem goTo_env_eq (pc : DWord) (s : State) : (goTo pc s).env = s.env := rfl
@[simp] theorem goTo_dev_eq (pc : DWord) (s : State) : (goTo pc s).dev = s.dev := rfl
@[simp] theorem goTo_majority_eq (pc : DWord) (s : State) : (goTo pc s).majority = s.majority := rfl
@[simp] theorem goTo_warps_eq (pc : DWord) (s : State) : (goTo pc s).warps = s.warps := rfl
@[simp] theorem goTo_crews_eq (pc : DWord) (s : State) : (goTo pc s).crews = s.crews := rfl
@[simp] theorem goTo_nextAge_eq (pc : DWord) (s : State) : (goTo pc s).nextAge = s.nextAge := rfl
@[simp] theorem goTo_pc (pc : DWord) (s : State) : (goTo pc s).sp.pc = pc := rfl

@[simp] theorem youngest_w_eq (s : State) : (youngest s).w = s.w := rfl
@[simp] theorem youngest_crew_eq (s : State) : (youngest s).crew = s.crew := rfl
@[simp] theorem youngest_ctx_eq (s : State) : (youngest s).ctx = s.ctx := rfl
@[simp] theorem youngest_clus_eq (s : State) : (youngest s).clus = s.clus := rfl
@[simp] theorem youngest_mem_eq (s : State) : (youngest s).mem = s.mem := rfl
@[simp] theorem youngest_late_eq (s : State) : (youngest s).late = s.late := rfl
@[simp] theorem youngest_poison_eq (s : State) : (youngest s).poison = s.poison := rfl
@[simp] theorem youngest_logs_eq (s : State) : (youngest s).logs = s.logs := rfl
@[simp] theorem youngest_cycle_eq (s : State) : (youngest s).cycle = s.cycle := rfl
@[simp] theorem youngest_env_eq (s : State) : (youngest s).env = s.env := rfl
@[simp] theorem youngest_dev_eq (s : State) : (youngest s).dev = s.dev := rfl
@[simp] theorem youngest_majority_eq (s : State) : (youngest s).majority = s.majority := rfl
@[simp] theorem youngest_warps_eq (s : State) : (youngest s).warps = s.warps := rfl
@[simp] theorem youngest_crews_eq (s : State) : (youngest s).crews = s.crews := rfl
@[simp] theorem youngest_pc (s : State) : (youngest s).sp.pc = s.sp.pc := rfl
@[simp] theorem youngest_age (s : State) : (youngest s).sp.age = s.nextAge := rfl

@[simp] theorem wake_w_eq (s : State) : (wake s).w = s.w := rfl
@[simp] theorem wake_crew_eq (s : State) : (wake s).crew = s.crew := rfl
@[simp] theorem wake_ctx_eq (s : State) : (wake s).ctx = s.ctx := rfl
@[simp] theorem wake_clus_eq (s : State) : (wake s).clus = s.clus := rfl
@[simp] theorem wake_mem_eq (s : State) : (wake s).mem = s.mem := rfl
@[simp] theorem wake_late_eq (s : State) : (wake s).late = s.late := rfl
@[simp] theorem wake_poison_eq (s : State) : (wake s).poison = s.poison := rfl
@[simp] theorem wake_logs_eq (s : State) : (wake s).logs = s.logs := rfl
@[simp] theorem wake_cycle_eq (s : State) : (wake s).cycle = s.cycle := rfl
@[simp] theorem wake_env_eq (s : State) : (wake s).env = s.env := rfl
@[simp] theorem wake_dev_eq (s : State) : (wake s).dev = s.dev := rfl
@[simp] theorem wake_majority_eq (s : State) : (wake s).majority = s.majority := rfl
@[simp] theorem wake_warps_eq (s : State) : (wake s).warps = s.warps := rfl
@[simp] theorem wake_crews_eq (s : State) : (wake s).crews = s.crews := rfl
@[simp] theorem wake_pc (s : State) : (wake s).sp.pc = s.sp.pc := rfl
@[simp] theorem wake_state (s : State) : (wake s).sp.state = .ready := rfl
@[simp] theorem wake_wait (s : State) : (wake s).sp.wait = none := rfl

@[simp] theorem dropArgs_w_eq (s : State) : (dropArgs s).w = s.w := rfl
@[simp] theorem dropArgs_crew_eq (s : State) : (dropArgs s).crew = s.crew := rfl
@[simp] theorem dropArgs_ctx_eq (s : State) : (dropArgs s).ctx = s.ctx := rfl
@[simp] theorem dropArgs_clus_eq (s : State) : (dropArgs s).clus = s.clus := rfl
@[simp] theorem dropArgs_mem_eq (s : State) : (dropArgs s).mem = s.mem := rfl
@[simp] theorem dropArgs_late_eq (s : State) : (dropArgs s).late = s.late := rfl
@[simp] theorem dropArgs_poison_eq (s : State) : (dropArgs s).poison = s.poison := rfl
@[simp] theorem dropArgs_logs_eq (s : State) : (dropArgs s).logs = s.logs := rfl
@[simp] theorem dropArgs_cycle_eq (s : State) : (dropArgs s).cycle = s.cycle := rfl
@[simp] theorem dropArgs_env_eq (s : State) : (dropArgs s).env = s.env := rfl
@[simp] theorem dropArgs_dev_eq (s : State) : (dropArgs s).dev = s.dev := rfl
@[simp] theorem dropArgs_majority_eq (s : State) : (dropArgs s).majority = s.majority := rfl
@[simp] theorem dropArgs_warps_eq (s : State) : (dropArgs s).warps = s.warps := rfl
@[simp] theorem dropArgs_crews_eq (s : State) : (dropArgs s).crews = s.crews := rfl
@[simp] theorem dropArgs_nextAge_eq (s : State) : (dropArgs s).nextAge = s.nextAge := rfl
@[simp] theorem dropArgs_args (s : State) : (dropArgs s).sp.args = [] := rfl
@[simp] theorem dropArgs_pc (s : State) : (dropArgs s).sp.pc = s.sp.pc := rfl

@[simp] theorem keepArgs_w_eq (s : State) (vs : List DWord) : (keepArgs s vs).w = s.w := rfl
@[simp] theorem keepArgs_crew_eq (s : State) (vs : List DWord) : (keepArgs s vs).crew = s.crew := rfl
@[simp] theorem keepArgs_ctx_eq (s : State) (vs : List DWord) : (keepArgs s vs).ctx = s.ctx := rfl
@[simp] theorem keepArgs_clus_eq (s : State) (vs : List DWord) : (keepArgs s vs).clus = s.clus := rfl
@[simp] theorem keepArgs_mem_eq (s : State) (vs : List DWord) : (keepArgs s vs).mem = s.mem := rfl
@[simp] theorem keepArgs_late_eq (s : State) (vs : List DWord) : (keepArgs s vs).late = s.late := rfl
@[simp] theorem keepArgs_poison_eq (s : State) (vs : List DWord) : (keepArgs s vs).poison = s.poison := rfl
@[simp] theorem keepArgs_logs_eq (s : State) (vs : List DWord) : (keepArgs s vs).logs = s.logs := rfl
@[simp] theorem keepArgs_cycle_eq (s : State) (vs : List DWord) : (keepArgs s vs).cycle = s.cycle := rfl
@[simp] theorem keepArgs_env_eq (s : State) (vs : List DWord) : (keepArgs s vs).env = s.env := rfl
@[simp] theorem keepArgs_dev_eq (s : State) (vs : List DWord) : (keepArgs s vs).dev = s.dev := rfl
@[simp] theorem keepArgs_majority_eq (s : State) (vs : List DWord) : (keepArgs s vs).majority = s.majority := rfl
@[simp] theorem keepArgs_warps_eq (s : State) (vs : List DWord) : (keepArgs s vs).warps = s.warps := rfl
@[simp] theorem keepArgs_crews_eq (s : State) (vs : List DWord) : (keepArgs s vs).crews = s.crews := rfl
@[simp] theorem keepArgs_nextAge_eq (s : State) (vs : List DWord) : (keepArgs s vs).nextAge = s.nextAge := rfl
@[simp] theorem keepArgs_pc (s : State) (vs : List DWord) : (keepArgs s vs).sp.pc = s.sp.pc := rfl

@[simp] theorem retired_w_eq (s : State) : (retired s).w = s.w := rfl
@[simp] theorem retired_crew_eq (s : State) : (retired s).crew = s.crew := rfl
@[simp] theorem retired_ctx_eq (s : State) : (retired s).ctx = s.ctx := rfl
@[simp] theorem retired_clus_eq (s : State) : (retired s).clus = s.clus := rfl
@[simp] theorem retired_mem_eq (s : State) : (retired s).mem = s.mem := rfl
@[simp] theorem retired_late_eq (s : State) : (retired s).late = s.late := rfl
@[simp] theorem retired_poison_eq (s : State) : (retired s).poison = s.poison := rfl
@[simp] theorem retired_logs_eq (s : State) : (retired s).logs = s.logs := rfl
@[simp] theorem retired_cycle_eq (s : State) : (retired s).cycle = s.cycle := rfl
@[simp] theorem retired_env_eq (s : State) : (retired s).env = s.env := rfl
@[simp] theorem retired_dev_eq (s : State) : (retired s).dev = s.dev := rfl
@[simp] theorem retired_majority_eq (s : State) : (retired s).majority = s.majority := rfl
@[simp] theorem retired_warps_eq (s : State) : (retired s).warps = s.warps := rfl
@[simp] theorem retired_crews_eq (s : State) : (retired s).crews = s.crews := rfl
@[simp] theorem retired_nextAge_eq (s : State) : (retired s).nextAge = s.nextAge := rfl
@[simp] theorem retired_pc (s : State) : (retired s).sp.pc = s.sp.pc + 4 := rfl
@[simp] theorem retired_active (s : State) : (retired s).sp.active = s.sp.active := rfl

@[simp] theorem xset_crew_eq (s : State) (l i : Nat) (v : Word) : (xset s l i v).crew = s.crew := rfl
@[simp] theorem xset_ctx_eq (s : State) (l i : Nat) (v : Word) : (xset s l i v).ctx = s.ctx := rfl
@[simp] theorem xset_clus_eq (s : State) (l i : Nat) (v : Word) : (xset s l i v).clus = s.clus := rfl
@[simp] theorem xset_mem_eq (s : State) (l i : Nat) (v : Word) : (xset s l i v).mem = s.mem := rfl
@[simp] theorem xset_late_eq (s : State) (l i : Nat) (v : Word) : (xset s l i v).late = s.late := rfl
@[simp] theorem xset_poison_eq (s : State) (l i : Nat) (v : Word) : (xset s l i v).poison = s.poison := rfl
@[simp] theorem xset_logs_eq (s : State) (l i : Nat) (v : Word) : (xset s l i v).logs = s.logs := rfl
@[simp] theorem xset_cycle_eq (s : State) (l i : Nat) (v : Word) : (xset s l i v).cycle = s.cycle := rfl
@[simp] theorem xset_env_eq (s : State) (l i : Nat) (v : Word) : (xset s l i v).env = s.env := rfl
@[simp] theorem xset_dev_eq (s : State) (l i : Nat) (v : Word) : (xset s l i v).dev = s.dev := rfl
@[simp] theorem xset_majority_eq (s : State) (l i : Nat) (v : Word) : (xset s l i v).majority = s.majority := rfl
@[simp] theorem xset_warps_eq (s : State) (l i : Nat) (v : Word) : (xset s l i v).warps = s.warps := rfl
@[simp] theorem xset_crews_eq (s : State) (l i : Nat) (v : Word) : (xset s l i v).crews = s.crews := rfl
@[simp] theorem xset_nextAge_eq (s : State) (l i : Nat) (v : Word) : (xset s l i v).nextAge = s.nextAge := rfl
@[simp] theorem xset_k (s : State) (l i : Nat) (v : Word) : (xset s l i v).w.k = s.w.k := rfl
@[simp] theorem xset_preds (s : State) (l i : Nat) (v : Word) : (xset s l i v).w.preds = s.w.preds := rfl
@[simp] theorem xset_mode (s : State) (l i : Nat) (v : Word) : (xset s l i v).w.mode = s.w.mode := rfl
@[simp] theorem xset_fflags (s : State) (l i : Nat) (v : Word) : (xset s l i v).w.fflags = s.w.fflags := rfl

@[simp] theorem pset_sp_eq (s : State) (n : Nat) (v : Mask) : (pset s n v).sp = s.sp := rfl
@[simp] theorem pset_crew_eq (s : State) (n : Nat) (v : Mask) : (pset s n v).crew = s.crew := rfl
@[simp] theorem pset_ctx_eq (s : State) (n : Nat) (v : Mask) : (pset s n v).ctx = s.ctx := rfl
@[simp] theorem pset_clus_eq (s : State) (n : Nat) (v : Mask) : (pset s n v).clus = s.clus := rfl
@[simp] theorem pset_mem_eq (s : State) (n : Nat) (v : Mask) : (pset s n v).mem = s.mem := rfl
@[simp] theorem pset_late_eq (s : State) (n : Nat) (v : Mask) : (pset s n v).late = s.late := rfl
@[simp] theorem pset_poison_eq (s : State) (n : Nat) (v : Mask) : (pset s n v).poison = s.poison := rfl
@[simp] theorem pset_logs_eq (s : State) (n : Nat) (v : Mask) : (pset s n v).logs = s.logs := rfl
@[simp] theorem pset_cycle_eq (s : State) (n : Nat) (v : Mask) : (pset s n v).cycle = s.cycle := rfl
@[simp] theorem pset_env_eq (s : State) (n : Nat) (v : Mask) : (pset s n v).env = s.env := rfl
@[simp] theorem pset_dev_eq (s : State) (n : Nat) (v : Mask) : (pset s n v).dev = s.dev := rfl
@[simp] theorem pset_majority_eq (s : State) (n : Nat) (v : Mask) : (pset s n v).majority = s.majority := rfl
@[simp] theorem pset_warps_eq (s : State) (n : Nat) (v : Mask) : (pset s n v).warps = s.warps := rfl
@[simp] theorem pset_crews_eq (s : State) (n : Nat) (v : Mask) : (pset s n v).crews = s.crews := rfl
@[simp] theorem pset_nextAge_eq (s : State) (n : Nat) (v : Mask) : (pset s n v).nextAge = s.nextAge := rfl

@[simp] theorem psetLane_sp_eq (s : State) (n l : Nat) (v : Bool) : (psetLane s n l v).sp = s.sp := rfl
@[simp] theorem psetLane_crew_eq (s : State) (n l : Nat) (v : Bool) : (psetLane s n l v).crew = s.crew := rfl
@[simp] theorem psetLane_ctx_eq (s : State) (n l : Nat) (v : Bool) : (psetLane s n l v).ctx = s.ctx := rfl
@[simp] theorem psetLane_clus_eq (s : State) (n l : Nat) (v : Bool) : (psetLane s n l v).clus = s.clus := rfl
@[simp] theorem psetLane_mem_eq (s : State) (n l : Nat) (v : Bool) : (psetLane s n l v).mem = s.mem := rfl
@[simp] theorem psetLane_late_eq (s : State) (n l : Nat) (v : Bool) : (psetLane s n l v).late = s.late := rfl
@[simp] theorem psetLane_poison_eq (s : State) (n l : Nat) (v : Bool) : (psetLane s n l v).poison = s.poison := rfl
@[simp] theorem psetLane_logs_eq (s : State) (n l : Nat) (v : Bool) : (psetLane s n l v).logs = s.logs := rfl
@[simp] theorem psetLane_cycle_eq (s : State) (n l : Nat) (v : Bool) : (psetLane s n l v).cycle = s.cycle := rfl
@[simp] theorem psetLane_env_eq (s : State) (n l : Nat) (v : Bool) : (psetLane s n l v).env = s.env := rfl
@[simp] theorem psetLane_dev_eq (s : State) (n l : Nat) (v : Bool) : (psetLane s n l v).dev = s.dev := rfl
@[simp] theorem psetLane_majority_eq (s : State) (n l : Nat) (v : Bool) : (psetLane s n l v).majority = s.majority := rfl
@[simp] theorem psetLane_warps_eq (s : State) (n l : Nat) (v : Bool) : (psetLane s n l v).warps = s.warps := rfl
@[simp] theorem psetLane_crews_eq (s : State) (n l : Nat) (v : Bool) : (psetLane s n l v).crews = s.crews := rfl
@[simp] theorem psetLane_nextAge_eq (s : State) (n l : Nat) (v : Bool) : (psetLane s n l v).nextAge = s.nextAge := rfl

@[simp] theorem orFlags_sp_eq (s : State) (f : BitVec 5) : (orFlags s f).sp = s.sp := rfl
@[simp] theorem orFlags_crew_eq (s : State) (f : BitVec 5) : (orFlags s f).crew = s.crew := rfl
@[simp] theorem orFlags_ctx_eq (s : State) (f : BitVec 5) : (orFlags s f).ctx = s.ctx := rfl
@[simp] theorem orFlags_clus_eq (s : State) (f : BitVec 5) : (orFlags s f).clus = s.clus := rfl
@[simp] theorem orFlags_mem_eq (s : State) (f : BitVec 5) : (orFlags s f).mem = s.mem := rfl
@[simp] theorem orFlags_late_eq (s : State) (f : BitVec 5) : (orFlags s f).late = s.late := rfl
@[simp] theorem orFlags_poison_eq (s : State) (f : BitVec 5) : (orFlags s f).poison = s.poison := rfl
@[simp] theorem orFlags_logs_eq (s : State) (f : BitVec 5) : (orFlags s f).logs = s.logs := rfl
@[simp] theorem orFlags_cycle_eq (s : State) (f : BitVec 5) : (orFlags s f).cycle = s.cycle := rfl
@[simp] theorem orFlags_env_eq (s : State) (f : BitVec 5) : (orFlags s f).env = s.env := rfl
@[simp] theorem orFlags_dev_eq (s : State) (f : BitVec 5) : (orFlags s f).dev = s.dev := rfl
@[simp] theorem orFlags_majority_eq (s : State) (f : BitVec 5) : (orFlags s f).majority = s.majority := rfl
@[simp] theorem orFlags_warps_eq (s : State) (f : BitVec 5) : (orFlags s f).warps = s.warps := rfl
@[simp] theorem orFlags_crews_eq (s : State) (f : BitVec 5) : (orFlags s f).crews = s.crews := rfl
@[simp] theorem orFlags_nextAge_eq (s : State) (f : BitVec 5) : (orFlags s f).nextAge = s.nextAge := rfl
@[simp] theorem orFlags_fflags (s : State) (f : BitVec 5) : (orFlags s f).w.fflags = s.w.fflags ||| f := rfl
@[simp] theorem orFlags_phys (s : State) (f : BitVec 5) : (orFlags s f).w.phys = s.w.phys := rfl
@[simp] theorem orFlags_k (s : State) (f : BitVec 5) : (orFlags s f).w.k = s.w.k := rfl

@[simp] theorem setMode_sp_eq (s : State) (m : BitVec 18) : (setMode s m).sp = s.sp := rfl
@[simp] theorem setMode_crew_eq (s : State) (m : BitVec 18) : (setMode s m).crew = s.crew := rfl
@[simp] theorem setMode_ctx_eq (s : State) (m : BitVec 18) : (setMode s m).ctx = s.ctx := rfl
@[simp] theorem setMode_clus_eq (s : State) (m : BitVec 18) : (setMode s m).clus = s.clus := rfl
@[simp] theorem setMode_mem_eq (s : State) (m : BitVec 18) : (setMode s m).mem = s.mem := rfl
@[simp] theorem setMode_late_eq (s : State) (m : BitVec 18) : (setMode s m).late = s.late := rfl
@[simp] theorem setMode_poison_eq (s : State) (m : BitVec 18) : (setMode s m).poison = s.poison := rfl
@[simp] theorem setMode_logs_eq (s : State) (m : BitVec 18) : (setMode s m).logs = s.logs := rfl
@[simp] theorem setMode_cycle_eq (s : State) (m : BitVec 18) : (setMode s m).cycle = s.cycle := rfl
@[simp] theorem setMode_env_eq (s : State) (m : BitVec 18) : (setMode s m).env = s.env := rfl
@[simp] theorem setMode_dev_eq (s : State) (m : BitVec 18) : (setMode s m).dev = s.dev := rfl
@[simp] theorem setMode_majority_eq (s : State) (m : BitVec 18) : (setMode s m).majority = s.majority := rfl
@[simp] theorem setMode_warps_eq (s : State) (m : BitVec 18) : (setMode s m).warps = s.warps := rfl
@[simp] theorem setMode_crews_eq (s : State) (m : BitVec 18) : (setMode s m).crews = s.crews := rfl
@[simp] theorem setMode_nextAge_eq (s : State) (m : BitVec 18) : (setMode s m).nextAge = s.nextAge := rfl
@[simp] theorem setMode_mode (s : State) (m : BitVec 18) : (setMode s m).w.mode = m := rfl

@[simp] theorem setTrapRegs_sp_eq (s : State) (c : Byte) (v pc : DWord) : (setTrapRegs s c v pc).sp = s.sp := rfl
@[simp] theorem setTrapRegs_crew_eq (s : State) (c : Byte) (v pc : DWord) : (setTrapRegs s c v pc).crew = s.crew := rfl
@[simp] theorem setTrapRegs_ctx_eq (s : State) (c : Byte) (v pc : DWord) : (setTrapRegs s c v pc).ctx = s.ctx := rfl
@[simp] theorem setTrapRegs_clus_eq (s : State) (c : Byte) (v pc : DWord) : (setTrapRegs s c v pc).clus = s.clus := rfl
@[simp] theorem setTrapRegs_mem_eq (s : State) (c : Byte) (v pc : DWord) : (setTrapRegs s c v pc).mem = s.mem := rfl
@[simp] theorem setTrapRegs_late_eq (s : State) (c : Byte) (v pc : DWord) : (setTrapRegs s c v pc).late = s.late := rfl
@[simp] theorem setTrapRegs_poison_eq (s : State) (c : Byte) (v pc : DWord) : (setTrapRegs s c v pc).poison = s.poison := rfl
@[simp] theorem setTrapRegs_logs_eq (s : State) (c : Byte) (v pc : DWord) : (setTrapRegs s c v pc).logs = s.logs := rfl
@[simp] theorem setTrapRegs_cycle_eq (s : State) (c : Byte) (v pc : DWord) : (setTrapRegs s c v pc).cycle = s.cycle := rfl
@[simp] theorem setTrapRegs_env_eq (s : State) (c : Byte) (v pc : DWord) : (setTrapRegs s c v pc).env = s.env := rfl
@[simp] theorem setTrapRegs_dev_eq (s : State) (c : Byte) (v pc : DWord) : (setTrapRegs s c v pc).dev = s.dev := rfl
@[simp] theorem setTrapRegs_majority_eq (s : State) (c : Byte) (v pc : DWord) : (setTrapRegs s c v pc).majority = s.majority := rfl
@[simp] theorem setTrapRegs_warps_eq (s : State) (c : Byte) (v pc : DWord) : (setTrapRegs s c v pc).warps = s.warps := rfl
@[simp] theorem setTrapRegs_crews_eq (s : State) (c : Byte) (v pc : DWord) : (setTrapRegs s c v pc).crews = s.crews := rfl
@[simp] theorem setTrapRegs_nextAge_eq (s : State) (c : Byte) (v pc : DWord) : (setTrapRegs s c v pc).nextAge = s.nextAge := rfl
@[simp] theorem setTrapRegs_trapc (s : State) (c : Byte) (v pc : DWord) : (setTrapRegs s c v pc).w.trapc = c := rfl
@[simp] theorem setTrapRegs_trapv (s : State) (c : Byte) (v pc : DWord) : (setTrapRegs s c v pc).w.trapv = v := rfl
@[simp] theorem setTrapRegs_trappc (s : State) (c : Byte) (v pc : DWord) : (setTrapRegs s c v pc).w.trappc = pc := rfl
@[simp] theorem setTrapRegs_phys (s : State) (c : Byte) (v pc : DWord) : (setTrapRegs s c v pc).w.phys = s.w.phys := rfl
@[simp] theorem setTrapRegs_k (s : State) (c : Byte) (v pc : DWord) : (setTrapRegs s c v pc).w.k = s.w.k := rfl

@[simp] theorem countError_w_eq (s : State) (c : Byte) : (countError s c).w = s.w := by unfold countError; (repeat' split) <;> rfl
@[simp] theorem countError_sp_eq (s : State) (c : Byte) : (countError s c).sp = s.sp := by unfold countError; (repeat' split) <;> rfl
@[simp] theorem countError_crew_eq (s : State) (c : Byte) : (countError s c).crew = s.crew := by unfold countError; (repeat' split) <;> rfl
@[simp] theorem countError_ctx_eq (s : State) (c : Byte) : (countError s c).ctx = s.ctx := by unfold countError; (repeat' split) <;> rfl
@[simp] theorem countError_clus_eq (s : State) (c : Byte) : (countError s c).clus = s.clus := by unfold countError; (repeat' split) <;> rfl
@[simp] theorem countError_mem_eq (s : State) (c : Byte) : (countError s c).mem = s.mem := by unfold countError; (repeat' split) <;> rfl
@[simp] theorem countError_late_eq (s : State) (c : Byte) : (countError s c).late = s.late := by unfold countError; (repeat' split) <;> rfl
@[simp] theorem countError_poison_eq (s : State) (c : Byte) : (countError s c).poison = s.poison := by unfold countError; (repeat' split) <;> rfl
@[simp] theorem countError_logs_eq (s : State) (c : Byte) : (countError s c).logs = s.logs := by unfold countError; (repeat' split) <;> rfl
@[simp] theorem countError_cycle_eq (s : State) (c : Byte) : (countError s c).cycle = s.cycle := by unfold countError; (repeat' split) <;> rfl
@[simp] theorem countError_env_eq (s : State) (c : Byte) : (countError s c).env = s.env := by unfold countError; (repeat' split) <;> rfl
@[simp] theorem countError_majority_eq (s : State) (c : Byte) : (countError s c).majority = s.majority := by unfold countError; (repeat' split) <;> rfl
@[simp] theorem countError_warps_eq (s : State) (c : Byte) : (countError s c).warps = s.warps := by unfold countError; (repeat' split) <;> rfl
@[simp] theorem countError_crews_eq (s : State) (c : Byte) : (countError s c).crews = s.crews := by unfold countError; (repeat' split) <;> rfl
@[simp] theorem countError_nextAge_eq (s : State) (c : Byte) : (countError s c).nextAge = s.nextAge := by unfold countError; (repeat' split) <;> rfl

@[simp] theorem hold_sp_eq (s : State) (c : Byte) : (hold s c).sp = s.sp := rfl
@[simp] theorem hold_ctx_eq (s : State) (c : Byte) : (hold s c).ctx = s.ctx := rfl
@[simp] theorem hold_clus_eq (s : State) (c : Byte) : (hold s c).clus = s.clus := rfl
@[simp] theorem hold_mem_eq (s : State) (c : Byte) : (hold s c).mem = s.mem := rfl
@[simp] theorem hold_late_eq (s : State) (c : Byte) : (hold s c).late = s.late := rfl
@[simp] theorem hold_poison_eq (s : State) (c : Byte) : (hold s c).poison = s.poison := rfl
@[simp] theorem hold_logs_eq (s : State) (c : Byte) : (hold s c).logs = s.logs := rfl
@[simp] theorem hold_cycle_eq (s : State) (c : Byte) : (hold s c).cycle = s.cycle := rfl
@[simp] theorem hold_env_eq (s : State) (c : Byte) : (hold s c).env = s.env := rfl
@[simp] theorem hold_dev_eq (s : State) (c : Byte) : (hold s c).dev = s.dev := rfl
@[simp] theorem hold_majority_eq (s : State) (c : Byte) : (hold s c).majority = s.majority := rfl
@[simp] theorem hold_warps_eq (s : State) (c : Byte) : (hold s c).warps = s.warps := rfl
@[simp] theorem hold_crews_eq (s : State) (c : Byte) : (hold s c).crews = s.crews := rfl
@[simp] theorem hold_nextAge_eq (s : State) (c : Byte) : (hold s c).nextAge = s.nextAge := rfl
@[simp] theorem hold_phys (s : State) (c : Byte) : (hold s c).w.phys = s.w.phys := rfl
@[simp] theorem hold_k (s : State) (c : Byte) : (hold s c).w.k = s.w.k := rfl
@[simp] theorem hold_mode (s : State) (c : Byte) : (hold s c).w.mode = s.w.mode := rfl

@[simp] theorem hashSig_w_eq (s : State) (i : Instr) : (hashSig s i).w = s.w := rfl
@[simp] theorem hashSig_crew_eq (s : State) (i : Instr) : (hashSig s i).crew = s.crew := rfl
@[simp] theorem hashSig_ctx_eq (s : State) (i : Instr) : (hashSig s i).ctx = s.ctx := rfl
@[simp] theorem hashSig_clus_eq (s : State) (i : Instr) : (hashSig s i).clus = s.clus := rfl
@[simp] theorem hashSig_mem_eq (s : State) (i : Instr) : (hashSig s i).mem = s.mem := rfl
@[simp] theorem hashSig_late_eq (s : State) (i : Instr) : (hashSig s i).late = s.late := rfl
@[simp] theorem hashSig_poison_eq (s : State) (i : Instr) : (hashSig s i).poison = s.poison := rfl
@[simp] theorem hashSig_logs_eq (s : State) (i : Instr) : (hashSig s i).logs = s.logs := rfl
@[simp] theorem hashSig_cycle_eq (s : State) (i : Instr) : (hashSig s i).cycle = s.cycle := rfl
@[simp] theorem hashSig_env_eq (s : State) (i : Instr) : (hashSig s i).env = s.env := rfl
@[simp] theorem hashSig_dev_eq (s : State) (i : Instr) : (hashSig s i).dev = s.dev := rfl
@[simp] theorem hashSig_majority_eq (s : State) (i : Instr) : (hashSig s i).majority = s.majority := rfl
@[simp] theorem hashSig_warps_eq (s : State) (i : Instr) : (hashSig s i).warps = s.warps := rfl
@[simp] theorem hashSig_crews_eq (s : State) (i : Instr) : (hashSig s i).crews = s.crews := rfl
@[simp] theorem hashSig_nextAge_eq (s : State) (i : Instr) : (hashSig s i).nextAge = s.nextAge := rfl
@[simp] theorem hashSig_pc (s : State) (i : Instr) : (hashSig s i).sp.pc = s.sp.pc := rfl
@[simp] theorem hashSig_sigWas (s : State) (i : Instr) : (hashSig s i).sp.sigWas = s.sp.sig := rfl

@[simp] theorem noteIssue_w_eq (s : State) (i : Instr) : (noteIssue s i).w = s.w := rfl
@[simp] theorem noteIssue_crew_eq (s : State) (i : Instr) : (noteIssue s i).crew = s.crew := rfl
@[simp] theorem noteIssue_ctx_eq (s : State) (i : Instr) : (noteIssue s i).ctx = s.ctx := rfl
@[simp] theorem noteIssue_clus_eq (s : State) (i : Instr) : (noteIssue s i).clus = s.clus := rfl
@[simp] theorem noteIssue_mem_eq (s : State) (i : Instr) : (noteIssue s i).mem = s.mem := rfl
@[simp] theorem noteIssue_late_eq (s : State) (i : Instr) : (noteIssue s i).late = s.late := rfl
@[simp] theorem noteIssue_poison_eq (s : State) (i : Instr) : (noteIssue s i).poison = s.poison := rfl
@[simp] theorem noteIssue_logs_eq (s : State) (i : Instr) : (noteIssue s i).logs = s.logs := rfl
@[simp] theorem noteIssue_cycle_eq (s : State) (i : Instr) : (noteIssue s i).cycle = s.cycle := rfl
@[simp] theorem noteIssue_env_eq (s : State) (i : Instr) : (noteIssue s i).env = s.env := rfl
@[simp] theorem noteIssue_dev_eq (s : State) (i : Instr) : (noteIssue s i).dev = s.dev := rfl
@[simp] theorem noteIssue_majority_eq (s : State) (i : Instr) : (noteIssue s i).majority = s.majority := rfl
@[simp] theorem noteIssue_warps_eq (s : State) (i : Instr) : (noteIssue s i).warps = s.warps := rfl
@[simp] theorem noteIssue_crews_eq (s : State) (i : Instr) : (noteIssue s i).crews = s.crews := rfl
@[simp] theorem noteIssue_nextAge_eq (s : State) (i : Instr) : (noteIssue s i).nextAge = s.nextAge := rfl
@[simp] theorem noteIssue_pc (s : State) (i : Instr) : (noteIssue s i).sp.pc = s.sp.pc := rfl
@[simp] theorem noteIssue_sig (s : State) (i : Instr) : (noteIssue s i).sp.sig = s.sp.sig := rfl

@[simp] theorem setCommand_w_eq (s : State) (old new : Command) : (setCommand s old new).w = s.w := rfl
@[simp] theorem setCommand_sp_eq (s : State) (old new : Command) : (setCommand s old new).sp = s.sp := rfl
@[simp] theorem setCommand_crew_eq (s : State) (old new : Command) : (setCommand s old new).crew = s.crew := rfl
@[simp] theorem setCommand_ctx_eq (s : State) (old new : Command) : (setCommand s old new).ctx = s.ctx := rfl
@[simp] theorem setCommand_mem_eq (s : State) (old new : Command) : (setCommand s old new).mem = s.mem := rfl
@[simp] theorem setCommand_late_eq (s : State) (old new : Command) : (setCommand s old new).late = s.late := rfl
@[simp] theorem setCommand_poison_eq (s : State) (old new : Command) : (setCommand s old new).poison = s.poison := rfl
@[simp] theorem setCommand_logs_eq (s : State) (old new : Command) : (setCommand s old new).logs = s.logs := rfl
@[simp] theorem setCommand_cycle_eq (s : State) (old new : Command) : (setCommand s old new).cycle = s.cycle := rfl
@[simp] theorem setCommand_env_eq (s : State) (old new : Command) : (setCommand s old new).env = s.env := rfl
@[simp] theorem setCommand_dev_eq (s : State) (old new : Command) : (setCommand s old new).dev = s.dev := rfl
@[simp] theorem setCommand_majority_eq (s : State) (old new : Command) : (setCommand s old new).majority = s.majority := rfl
@[simp] theorem setCommand_warps_eq (s : State) (old new : Command) : (setCommand s old new).warps = s.warps := rfl
@[simp] theorem setCommand_crews_eq (s : State) (old new : Command) : (setCommand s old new).crews = s.crews := rfl
@[simp] theorem setCommand_nextAge_eq (s : State) (old new : Command) : (setCommand s old new).nextAge = s.nextAge := rfl

@[simp] theorem onTask_w_eq (s : State) (old new : Task) : (onTask s old new).w = s.w := rfl
@[simp] theorem onTask_sp_eq (s : State) (old new : Task) : (onTask s old new).sp = s.sp := rfl
@[simp] theorem onTask_crew_eq (s : State) (old new : Task) : (onTask s old new).crew = s.crew := rfl
@[simp] theorem onTask_ctx_eq (s : State) (old new : Task) : (onTask s old new).ctx = s.ctx := rfl
@[simp] theorem onTask_mem_eq (s : State) (old new : Task) : (onTask s old new).mem = s.mem := rfl
@[simp] theorem onTask_late_eq (s : State) (old new : Task) : (onTask s old new).late = s.late := rfl
@[simp] theorem onTask_poison_eq (s : State) (old new : Task) : (onTask s old new).poison = s.poison := rfl
@[simp] theorem onTask_logs_eq (s : State) (old new : Task) : (onTask s old new).logs = s.logs := rfl
@[simp] theorem onTask_cycle_eq (s : State) (old new : Task) : (onTask s old new).cycle = s.cycle := rfl
@[simp] theorem onTask_env_eq (s : State) (old new : Task) : (onTask s old new).env = s.env := rfl
@[simp] theorem onTask_dev_eq (s : State) (old new : Task) : (onTask s old new).dev = s.dev := rfl
@[simp] theorem onTask_majority_eq (s : State) (old new : Task) : (onTask s old new).majority = s.majority := rfl
@[simp] theorem onTask_warps_eq (s : State) (old new : Task) : (onTask s old new).warps = s.warps := rfl
@[simp] theorem onTask_crews_eq (s : State) (old new : Task) : (onTask s old new).crews = s.crews := rfl
@[simp] theorem onTask_nextAge_eq (s : State) (old new : Task) : (onTask s old new).nextAge = s.nextAge := rfl

@[simp] theorem onTap_w_eq (s : State) (id : Nat) (f : Tap → Tap) : (onTap s id f).w = s.w := rfl
@[simp] theorem onTap_sp_eq (s : State) (id : Nat) (f : Tap → Tap) : (onTap s id f).sp = s.sp := rfl
@[simp] theorem onTap_crew_eq (s : State) (id : Nat) (f : Tap → Tap) : (onTap s id f).crew = s.crew := rfl
@[simp] theorem onTap_clus_eq (s : State) (id : Nat) (f : Tap → Tap) : (onTap s id f).clus = s.clus := rfl
@[simp] theorem onTap_mem_eq (s : State) (id : Nat) (f : Tap → Tap) : (onTap s id f).mem = s.mem := rfl
@[simp] theorem onTap_late_eq (s : State) (id : Nat) (f : Tap → Tap) : (onTap s id f).late = s.late := rfl
@[simp] theorem onTap_poison_eq (s : State) (id : Nat) (f : Tap → Tap) : (onTap s id f).poison = s.poison := rfl
@[simp] theorem onTap_logs_eq (s : State) (id : Nat) (f : Tap → Tap) : (onTap s id f).logs = s.logs := rfl
@[simp] theorem onTap_cycle_eq (s : State) (id : Nat) (f : Tap → Tap) : (onTap s id f).cycle = s.cycle := rfl
@[simp] theorem onTap_env_eq (s : State) (id : Nat) (f : Tap → Tap) : (onTap s id f).env = s.env := rfl
@[simp] theorem onTap_dev_eq (s : State) (id : Nat) (f : Tap → Tap) : (onTap s id f).dev = s.dev := rfl
@[simp] theorem onTap_majority_eq (s : State) (id : Nat) (f : Tap → Tap) : (onTap s id f).majority = s.majority := rfl
@[simp] theorem onTap_warps_eq (s : State) (id : Nat) (f : Tap → Tap) : (onTap s id f).warps = s.warps := rfl
@[simp] theorem onTap_crews_eq (s : State) (id : Nat) (f : Tap → Tap) : (onTap s id f).crews = s.crews := rfl
@[simp] theorem onTap_nextAge_eq (s : State) (id : Nat) (f : Tap → Tap) : (onTap s id f).nextAge = s.nextAge := rfl

@[simp] theorem setResult_w_eq (s : State) (id v : Nat) : (setResult s id v).w = s.w := rfl
@[simp] theorem setResult_sp_eq (s : State) (id v : Nat) : (setResult s id v).sp = s.sp := rfl
@[simp] theorem setResult_crew_eq (s : State) (id v : Nat) : (setResult s id v).crew = s.crew := rfl
@[simp] theorem setResult_ctx_eq (s : State) (id v : Nat) : (setResult s id v).ctx = s.ctx := rfl
@[simp] theorem setResult_mem_eq (s : State) (id v : Nat) : (setResult s id v).mem = s.mem := rfl
@[simp] theorem setResult_late_eq (s : State) (id v : Nat) : (setResult s id v).late = s.late := rfl
@[simp] theorem setResult_poison_eq (s : State) (id v : Nat) : (setResult s id v).poison = s.poison := rfl
@[simp] theorem setResult_logs_eq (s : State) (id v : Nat) : (setResult s id v).logs = s.logs := rfl
@[simp] theorem setResult_cycle_eq (s : State) (id v : Nat) : (setResult s id v).cycle = s.cycle := rfl
@[simp] theorem setResult_env_eq (s : State) (id v : Nat) : (setResult s id v).env = s.env := rfl
@[simp] theorem setResult_dev_eq (s : State) (id v : Nat) : (setResult s id v).dev = s.dev := rfl
@[simp] theorem setResult_majority_eq (s : State) (id v : Nat) : (setResult s id v).majority = s.majority := rfl
@[simp] theorem setResult_warps_eq (s : State) (id v : Nat) : (setResult s id v).warps = s.warps := rfl
@[simp] theorem setResult_crews_eq (s : State) (id v : Nat) : (setResult s id v).crews = s.crews := rfl
@[simp] theorem setResult_nextAge_eq (s : State) (id v : Nat) : (setResult s id v).nextAge = s.nextAge := rfl

@[simp] theorem waits_w_eq (i : Instr) (s : State) : (waits i s).w = s.w := rfl
@[simp] theorem waits_crew_eq (i : Instr) (s : State) : (waits i s).crew = s.crew := rfl
@[simp] theorem waits_ctx_eq (i : Instr) (s : State) : (waits i s).ctx = s.ctx := rfl
@[simp] theorem waits_clus_eq (i : Instr) (s : State) : (waits i s).clus = s.clus := rfl
@[simp] theorem waits_mem_eq (i : Instr) (s : State) : (waits i s).mem = s.mem := rfl
@[simp] theorem waits_late_eq (i : Instr) (s : State) : (waits i s).late = s.late := rfl
@[simp] theorem waits_poison_eq (i : Instr) (s : State) : (waits i s).poison = s.poison := rfl
@[simp] theorem waits_logs_eq (i : Instr) (s : State) : (waits i s).logs = s.logs := rfl
@[simp] theorem waits_cycle_eq (i : Instr) (s : State) : (waits i s).cycle = s.cycle := rfl
@[simp] theorem waits_env_eq (i : Instr) (s : State) : (waits i s).env = s.env := rfl
@[simp] theorem waits_dev_eq (i : Instr) (s : State) : (waits i s).dev = s.dev := rfl
@[simp] theorem waits_majority_eq (i : Instr) (s : State) : (waits i s).majority = s.majority := rfl
@[simp] theorem waits_warps_eq (i : Instr) (s : State) : (waits i s).warps = s.warps := rfl
@[simp] theorem waits_crews_eq (i : Instr) (s : State) : (waits i s).crews = s.crews := rfl
@[simp] theorem waits_nextAge_eq (i : Instr) (s : State) : (waits i s).nextAge = s.nextAge := rfl
@[simp] theorem waits_wait (i : Instr) (s : State) : (waits i s).sp.wait = some i := rfl
@[simp] theorem waits_pc (i : Instr) (s : State) : (waits i s).sp.pc = s.sp.pc := rfl

@[simp] theorem receive_w_eq (s : State) (ps : List Past) (rs : List Reach) : (receive s ps rs).w = s.w := rfl
@[simp] theorem receive_sp_eq (s : State) (ps : List Past) (rs : List Reach) : (receive s ps rs).sp = s.sp := rfl
@[simp] theorem receive_crew_eq (s : State) (ps : List Past) (rs : List Reach) : (receive s ps rs).crew = s.crew := rfl
@[simp] theorem receive_ctx_eq (s : State) (ps : List Past) (rs : List Reach) : (receive s ps rs).ctx = s.ctx := rfl
@[simp] theorem receive_clus_eq (s : State) (ps : List Past) (rs : List Reach) : (receive s ps rs).clus = s.clus := rfl
@[simp] theorem receive_mem_eq (s : State) (ps : List Past) (rs : List Reach) : (receive s ps rs).mem = s.mem := rfl
@[simp] theorem receive_cycle_eq (s : State) (ps : List Past) (rs : List Reach) : (receive s ps rs).cycle = s.cycle := rfl
@[simp] theorem receive_env_eq (s : State) (ps : List Past) (rs : List Reach) : (receive s ps rs).env = s.env := rfl
@[simp] theorem receive_dev_eq (s : State) (ps : List Past) (rs : List Reach) : (receive s ps rs).dev = s.dev := rfl
@[simp] theorem receive_majority_eq (s : State) (ps : List Past) (rs : List Reach) : (receive s ps rs).majority = s.majority := rfl
@[simp] theorem receive_warps_eq (s : State) (ps : List Past) (rs : List Reach) : (receive s ps rs).warps = s.warps := rfl
@[simp] theorem receive_crews_eq (s : State) (ps : List Past) (rs : List Reach) : (receive s ps rs).crews = s.crews := rfl
@[simp] theorem receive_nextAge_eq (s : State) (ps : List Past) (rs : List Reach) : (receive s ps rs).nextAge = s.nextAge := rfl
@[simp] theorem receive_poison_eq (s : State) (ps : List Past) (rs : List Reach) : (receive s ps rs).poison = s.poison := rfl
@[simp] theorem receive_logs_eq (s : State) (ps : List Past) (rs : List Reach) : (receive s ps rs).logs = s.logs := rfl

@[simp] theorem acquire_w_eq (s : State) (ps : List Past) : (acquire s ps).w = s.w := rfl
@[simp] theorem acquire_sp_eq (s : State) (ps : List Past) : (acquire s ps).sp = s.sp := rfl
@[simp] theorem acquire_crew_eq (s : State) (ps : List Past) : (acquire s ps).crew = s.crew := rfl
@[simp] theorem acquire_ctx_eq (s : State) (ps : List Past) : (acquire s ps).ctx = s.ctx := rfl
@[simp] theorem acquire_clus_eq (s : State) (ps : List Past) : (acquire s ps).clus = s.clus := rfl
@[simp] theorem acquire_mem_eq (s : State) (ps : List Past) : (acquire s ps).mem = s.mem := rfl
@[simp] theorem acquire_cycle_eq (s : State) (ps : List Past) : (acquire s ps).cycle = s.cycle := rfl
@[simp] theorem acquire_env_eq (s : State) (ps : List Past) : (acquire s ps).env = s.env := rfl
@[simp] theorem acquire_dev_eq (s : State) (ps : List Past) : (acquire s ps).dev = s.dev := rfl
@[simp] theorem acquire_majority_eq (s : State) (ps : List Past) : (acquire s ps).majority = s.majority := rfl
@[simp] theorem acquire_warps_eq (s : State) (ps : List Past) : (acquire s ps).warps = s.warps := rfl
@[simp] theorem acquire_crews_eq (s : State) (ps : List Past) : (acquire s ps).crews = s.crews := rfl
@[simp] theorem acquire_nextAge_eq (s : State) (ps : List Past) : (acquire s ps).nextAge = s.nextAge := rfl
@[simp] theorem acquire_poison_eq (s : State) (ps : List Past) : (acquire s ps).poison = s.poison := rfl
@[simp] theorem acquire_logs_eq (s : State) (ps : List Past) : (acquire s ps).logs = s.logs := rfl

@[simp] theorem acquireCell_w_eq (s : State) (cell : Nat) : (acquireCell s cell).w = s.w := rfl
@[simp] theorem acquireCell_sp_eq (s : State) (cell : Nat) : (acquireCell s cell).sp = s.sp := rfl
@[simp] theorem acquireCell_crew_eq (s : State) (cell : Nat) : (acquireCell s cell).crew = s.crew := rfl
@[simp] theorem acquireCell_ctx_eq (s : State) (cell : Nat) : (acquireCell s cell).ctx = s.ctx := rfl
@[simp] theorem acquireCell_clus_eq (s : State) (cell : Nat) : (acquireCell s cell).clus = s.clus := rfl
@[simp] theorem acquireCell_mem_eq (s : State) (cell : Nat) : (acquireCell s cell).mem = s.mem := rfl
@[simp] theorem acquireCell_cycle_eq (s : State) (cell : Nat) : (acquireCell s cell).cycle = s.cycle := rfl
@[simp] theorem acquireCell_env_eq (s : State) (cell : Nat) : (acquireCell s cell).env = s.env := rfl
@[simp] theorem acquireCell_dev_eq (s : State) (cell : Nat) : (acquireCell s cell).dev = s.dev := rfl
@[simp] theorem acquireCell_majority_eq (s : State) (cell : Nat) : (acquireCell s cell).majority = s.majority := rfl
@[simp] theorem acquireCell_warps_eq (s : State) (cell : Nat) : (acquireCell s cell).warps = s.warps := rfl
@[simp] theorem acquireCell_crews_eq (s : State) (cell : Nat) : (acquireCell s cell).crews = s.crews := rfl
@[simp] theorem acquireCell_nextAge_eq (s : State) (cell : Nat) : (acquireCell s cell).nextAge = s.nextAge := rfl
@[simp] theorem acquireCell_poison_eq (s : State) (cell : Nat) : (acquireCell s cell).poison = s.poison := rfl
@[simp] theorem acquireCell_logs_eq (s : State) (cell : Nat) : (acquireCell s cell).logs = s.logs := rfl

@[simp] theorem releaseCell_w_eq (s : State) (cell : Nat) (b : Bool) (p : Past) : (releaseCell s cell b p).w = s.w := rfl
@[simp] theorem releaseCell_sp_eq (s : State) (cell : Nat) (b : Bool) (p : Past) : (releaseCell s cell b p).sp = s.sp := rfl
@[simp] theorem releaseCell_crew_eq (s : State) (cell : Nat) (b : Bool) (p : Past) : (releaseCell s cell b p).crew = s.crew := rfl
@[simp] theorem releaseCell_ctx_eq (s : State) (cell : Nat) (b : Bool) (p : Past) : (releaseCell s cell b p).ctx = s.ctx := rfl
@[simp] theorem releaseCell_clus_eq (s : State) (cell : Nat) (b : Bool) (p : Past) : (releaseCell s cell b p).clus = s.clus := rfl
@[simp] theorem releaseCell_mem_eq (s : State) (cell : Nat) (b : Bool) (p : Past) : (releaseCell s cell b p).mem = s.mem := rfl
@[simp] theorem releaseCell_cycle_eq (s : State) (cell : Nat) (b : Bool) (p : Past) : (releaseCell s cell b p).cycle = s.cycle := rfl
@[simp] theorem releaseCell_env_eq (s : State) (cell : Nat) (b : Bool) (p : Past) : (releaseCell s cell b p).env = s.env := rfl
@[simp] theorem releaseCell_dev_eq (s : State) (cell : Nat) (b : Bool) (p : Past) : (releaseCell s cell b p).dev = s.dev := rfl
@[simp] theorem releaseCell_majority_eq (s : State) (cell : Nat) (b : Bool) (p : Past) : (releaseCell s cell b p).majority = s.majority := rfl
@[simp] theorem releaseCell_warps_eq (s : State) (cell : Nat) (b : Bool) (p : Past) : (releaseCell s cell b p).warps = s.warps := rfl
@[simp] theorem releaseCell_crews_eq (s : State) (cell : Nat) (b : Bool) (p : Past) : (releaseCell s cell b p).crews = s.crews := rfl
@[simp] theorem releaseCell_nextAge_eq (s : State) (cell : Nat) (b : Bool) (p : Past) : (releaseCell s cell b p).nextAge = s.nextAge := rfl
@[simp] theorem releaseCell_poison_eq (s : State) (cell : Nat) (b : Bool) (p : Past) : (releaseCell s cell b p).poison = s.poison := rfl
@[simp] theorem releaseCell_logs_eq (s : State) (cell : Nat) (b : Bool) (p : Past) : (releaseCell s cell b p).logs = s.logs := rfl

@[simp] theorem stamp_w_eq (s : State) : (stamp s).2.w = s.w := rfl
@[simp] theorem stamp_sp_eq (s : State) : (stamp s).2.sp = s.sp := rfl
@[simp] theorem stamp_crew_eq (s : State) : (stamp s).2.crew = s.crew := rfl
@[simp] theorem stamp_ctx_eq (s : State) : (stamp s).2.ctx = s.ctx := rfl
@[simp] theorem stamp_clus_eq (s : State) : (stamp s).2.clus = s.clus := rfl
@[simp] theorem stamp_mem_eq (s : State) : (stamp s).2.mem = s.mem := rfl
@[simp] theorem stamp_cycle_eq (s : State) : (stamp s).2.cycle = s.cycle := rfl
@[simp] theorem stamp_env_eq (s : State) : (stamp s).2.env = s.env := rfl
@[simp] theorem stamp_dev_eq (s : State) : (stamp s).2.dev = s.dev := rfl
@[simp] theorem stamp_majority_eq (s : State) : (stamp s).2.majority = s.majority := rfl
@[simp] theorem stamp_warps_eq (s : State) : (stamp s).2.warps = s.warps := rfl
@[simp] theorem stamp_crews_eq (s : State) : (stamp s).2.crews = s.crews := rfl
@[simp] theorem stamp_nextAge_eq (s : State) : (stamp s).2.nextAge = s.nextAge := rfl
@[simp] theorem stamp_poison_eq (s : State) : (stamp s).2.poison = s.poison := rfl
@[simp] theorem stamp_logs_eq (s : State) : (stamp s).2.logs = s.logs := rfl

@[simp] theorem releaseNow_w_eq (s : State) : (releaseNow s).2.w = s.w := rfl
@[simp] theorem releaseNow_sp_eq (s : State) : (releaseNow s).2.sp = s.sp := rfl
@[simp] theorem releaseNow_crew_eq (s : State) : (releaseNow s).2.crew = s.crew := rfl
@[simp] theorem releaseNow_ctx_eq (s : State) : (releaseNow s).2.ctx = s.ctx := rfl
@[simp] theorem releaseNow_clus_eq (s : State) : (releaseNow s).2.clus = s.clus := rfl
@[simp] theorem releaseNow_mem_eq (s : State) : (releaseNow s).2.mem = s.mem := rfl
@[simp] theorem releaseNow_cycle_eq (s : State) : (releaseNow s).2.cycle = s.cycle := rfl
@[simp] theorem releaseNow_env_eq (s : State) : (releaseNow s).2.env = s.env := rfl
@[simp] theorem releaseNow_dev_eq (s : State) : (releaseNow s).2.dev = s.dev := rfl
@[simp] theorem releaseNow_majority_eq (s : State) : (releaseNow s).2.majority = s.majority := rfl
@[simp] theorem releaseNow_warps_eq (s : State) : (releaseNow s).2.warps = s.warps := rfl
@[simp] theorem releaseNow_crews_eq (s : State) : (releaseNow s).2.crews = s.crews := rfl
@[simp] theorem releaseNow_nextAge_eq (s : State) : (releaseNow s).2.nextAge = s.nextAge := rfl
@[simp] theorem releaseNow_poison_eq (s : State) : (releaseNow s).2.poison = s.poison := rfl
@[simp] theorem releaseNow_logs_eq (s : State) : (releaseNow s).2.logs = s.logs := rfl

@[simp] theorem readHome_w_eq (s : State) (keys : List Nat) : (readHome s keys).w = s.w := rfl
@[simp] theorem readHome_sp_eq (s : State) (keys : List Nat) : (readHome s keys).sp = s.sp := rfl
@[simp] theorem readHome_crew_eq (s : State) (keys : List Nat) : (readHome s keys).crew = s.crew := rfl
@[simp] theorem readHome_ctx_eq (s : State) (keys : List Nat) : (readHome s keys).ctx = s.ctx := rfl
@[simp] theorem readHome_clus_eq (s : State) (keys : List Nat) : (readHome s keys).clus = s.clus := rfl
@[simp] theorem readHome_mem_eq (s : State) (keys : List Nat) : (readHome s keys).mem = s.mem := rfl
@[simp] theorem readHome_cycle_eq (s : State) (keys : List Nat) : (readHome s keys).cycle = s.cycle := rfl
@[simp] theorem readHome_env_eq (s : State) (keys : List Nat) : (readHome s keys).env = s.env := rfl
@[simp] theorem readHome_dev_eq (s : State) (keys : List Nat) : (readHome s keys).dev = s.dev := rfl
@[simp] theorem readHome_majority_eq (s : State) (keys : List Nat) : (readHome s keys).majority = s.majority := rfl
@[simp] theorem readHome_warps_eq (s : State) (keys : List Nat) : (readHome s keys).warps = s.warps := rfl
@[simp] theorem readHome_crews_eq (s : State) (keys : List Nat) : (readHome s keys).crews = s.crews := rfl
@[simp] theorem readHome_nextAge_eq (s : State) (keys : List Nat) : (readHome s keys).nextAge = s.nextAge := rfl
@[simp] theorem readHome_poison_eq (s : State) (keys : List Nat) : (readHome s keys).poison = s.poison := rfl
@[simp] theorem readHome_logs_eq (s : State) (keys : List Nat) : (readHome s keys).logs = s.logs := rfl
@[simp] theorem rememberReads_w_eq (s : State) (reads : List (Nat × Nat)) : (rememberReads s reads).w = s.w := rfl
@[simp] theorem rememberReads_sp_eq (s : State) (reads : List (Nat × Nat)) : (rememberReads s reads).sp = s.sp := rfl
@[simp] theorem rememberReads_crew_eq (s : State) (reads : List (Nat × Nat)) : (rememberReads s reads).crew = s.crew := rfl
@[simp] theorem rememberReads_ctx_eq (s : State) (reads : List (Nat × Nat)) : (rememberReads s reads).ctx = s.ctx := rfl
@[simp] theorem rememberReads_clus_eq (s : State) (reads : List (Nat × Nat)) : (rememberReads s reads).clus = s.clus := rfl
@[simp] theorem rememberReads_mem_eq (s : State) (reads : List (Nat × Nat)) : (rememberReads s reads).mem = s.mem := rfl
@[simp] theorem rememberReads_cycle_eq (s : State) (reads : List (Nat × Nat)) : (rememberReads s reads).cycle = s.cycle := rfl
@[simp] theorem rememberReads_env_eq (s : State) (reads : List (Nat × Nat)) : (rememberReads s reads).env = s.env := rfl
@[simp] theorem rememberReads_dev_eq (s : State) (reads : List (Nat × Nat)) : (rememberReads s reads).dev = s.dev := rfl
@[simp] theorem rememberReads_majority_eq (s : State) (reads : List (Nat × Nat)) : (rememberReads s reads).majority = s.majority := rfl
@[simp] theorem rememberReads_warps_eq (s : State) (reads : List (Nat × Nat)) : (rememberReads s reads).warps = s.warps := rfl
@[simp] theorem rememberReads_crews_eq (s : State) (reads : List (Nat × Nat)) : (rememberReads s reads).crews = s.crews := rfl
@[simp] theorem rememberReads_nextAge_eq (s : State) (reads : List (Nat × Nat)) : (rememberReads s reads).nextAge = s.nextAge := rfl
@[simp] theorem rememberReads_poison_eq (s : State) (reads : List (Nat × Nat)) : (rememberReads s reads).poison = s.poison := rfl
@[simp] theorem rememberReads_logs_eq (s : State) (reads : List (Nat × Nat)) : (rememberReads s reads).logs = s.logs := rfl
@[simp] theorem acquireReads_w_eq (s : State) (reads : List (Nat × Nat)) : (acquireReads s reads).w = s.w := rfl
@[simp] theorem acquireReads_sp_eq (s : State) (reads : List (Nat × Nat)) : (acquireReads s reads).sp = s.sp := rfl
@[simp] theorem acquireReads_crew_eq (s : State) (reads : List (Nat × Nat)) : (acquireReads s reads).crew = s.crew := rfl
@[simp] theorem acquireReads_ctx_eq (s : State) (reads : List (Nat × Nat)) : (acquireReads s reads).ctx = s.ctx := rfl
@[simp] theorem acquireReads_clus_eq (s : State) (reads : List (Nat × Nat)) : (acquireReads s reads).clus = s.clus := rfl
@[simp] theorem acquireReads_mem_eq (s : State) (reads : List (Nat × Nat)) : (acquireReads s reads).mem = s.mem := rfl
@[simp] theorem acquireReads_cycle_eq (s : State) (reads : List (Nat × Nat)) : (acquireReads s reads).cycle = s.cycle := rfl
@[simp] theorem acquireReads_env_eq (s : State) (reads : List (Nat × Nat)) : (acquireReads s reads).env = s.env := rfl
@[simp] theorem acquireReads_dev_eq (s : State) (reads : List (Nat × Nat)) : (acquireReads s reads).dev = s.dev := rfl
@[simp] theorem acquireReads_majority_eq (s : State) (reads : List (Nat × Nat)) : (acquireReads s reads).majority = s.majority := rfl
@[simp] theorem acquireReads_warps_eq (s : State) (reads : List (Nat × Nat)) : (acquireReads s reads).warps = s.warps := rfl
@[simp] theorem acquireReads_crews_eq (s : State) (reads : List (Nat × Nat)) : (acquireReads s reads).crews = s.crews := rfl
@[simp] theorem acquireReads_nextAge_eq (s : State) (reads : List (Nat × Nat)) : (acquireReads s reads).nextAge = s.nextAge := rfl
@[simp] theorem acquireReads_poison_eq (s : State) (reads : List (Nat × Nat)) : (acquireReads s reads).poison = s.poison := rfl
@[simp] theorem acquireReads_logs_eq (s : State) (reads : List (Nat × Nat)) : (acquireReads s reads).logs = s.logs := rfl
@[simp] theorem mapBytes_w_eq (s : State) (ks : Late → Nat → Bool) (f : Late → Late) : (mapBytes s ks f).w = s.w := rfl
@[simp] theorem mapBytes_sp_eq (s : State) (ks : Late → Nat → Bool) (f : Late → Late) : (mapBytes s ks f).sp = s.sp := rfl
@[simp] theorem mapBytes_crew_eq (s : State) (ks : Late → Nat → Bool) (f : Late → Late) : (mapBytes s ks f).crew = s.crew := rfl
@[simp] theorem mapBytes_ctx_eq (s : State) (ks : Late → Nat → Bool) (f : Late → Late) : (mapBytes s ks f).ctx = s.ctx := rfl
@[simp] theorem mapBytes_clus_eq (s : State) (ks : Late → Nat → Bool) (f : Late → Late) : (mapBytes s ks f).clus = s.clus := rfl
@[simp] theorem mapBytes_mem_eq (s : State) (ks : Late → Nat → Bool) (f : Late → Late) : (mapBytes s ks f).mem = s.mem := rfl
@[simp] theorem mapBytes_cycle_eq (s : State) (ks : Late → Nat → Bool) (f : Late → Late) : (mapBytes s ks f).cycle = s.cycle := rfl
@[simp] theorem mapBytes_env_eq (s : State) (ks : Late → Nat → Bool) (f : Late → Late) : (mapBytes s ks f).env = s.env := rfl
@[simp] theorem mapBytes_dev_eq (s : State) (ks : Late → Nat → Bool) (f : Late → Late) : (mapBytes s ks f).dev = s.dev := rfl
@[simp] theorem mapBytes_majority_eq (s : State) (ks : Late → Nat → Bool) (f : Late → Late) : (mapBytes s ks f).majority = s.majority := rfl
@[simp] theorem mapBytes_warps_eq (s : State) (ks : Late → Nat → Bool) (f : Late → Late) : (mapBytes s ks f).warps = s.warps := rfl
@[simp] theorem mapBytes_crews_eq (s : State) (ks : Late → Nat → Bool) (f : Late → Late) : (mapBytes s ks f).crews = s.crews := rfl
@[simp] theorem mapBytes_nextAge_eq (s : State) (ks : Late → Nat → Bool) (f : Late → Late) : (mapBytes s ks f).nextAge = s.nextAge := rfl
@[simp] theorem mapBytes_poison_eq (s : State) (ks : Late → Nat → Bool) (f : Late → Late) : (mapBytes s ks f).poison = s.poison := rfl
@[simp] theorem mapBytes_logs_eq (s : State) (ks : Late → Nat → Bool) (f : Late → Late) : (mapBytes s ks f).logs = s.logs := rfl

@[simp] theorem awaitMem_w_eq (s : State) (r n : Nat) (c : Option Nat) (ps : List Past) : (awaitMem s r n c ps).w = s.w := rfl
@[simp] theorem awaitMem_sp_eq (s : State) (r n : Nat) (c : Option Nat) (ps : List Past) : (awaitMem s r n c ps).sp = s.sp := rfl
@[simp] theorem awaitMem_crew_eq (s : State) (r n : Nat) (c : Option Nat) (ps : List Past) : (awaitMem s r n c ps).crew = s.crew := rfl
@[simp] theorem awaitMem_ctx_eq (s : State) (r n : Nat) (c : Option Nat) (ps : List Past) : (awaitMem s r n c ps).ctx = s.ctx := rfl
@[simp] theorem awaitMem_clus_eq (s : State) (r n : Nat) (c : Option Nat) (ps : List Past) : (awaitMem s r n c ps).clus = s.clus := rfl
@[simp] theorem awaitMem_mem_eq (s : State) (r n : Nat) (c : Option Nat) (ps : List Past) : (awaitMem s r n c ps).mem = s.mem := rfl
@[simp] theorem awaitMem_cycle_eq (s : State) (r n : Nat) (c : Option Nat) (ps : List Past) : (awaitMem s r n c ps).cycle = s.cycle := rfl
@[simp] theorem awaitMem_env_eq (s : State) (r n : Nat) (c : Option Nat) (ps : List Past) : (awaitMem s r n c ps).env = s.env := rfl
@[simp] theorem awaitMem_dev_eq (s : State) (r n : Nat) (c : Option Nat) (ps : List Past) : (awaitMem s r n c ps).dev = s.dev := rfl
@[simp] theorem awaitMem_majority_eq (s : State) (r n : Nat) (c : Option Nat) (ps : List Past) : (awaitMem s r n c ps).majority = s.majority := rfl
@[simp] theorem awaitMem_warps_eq (s : State) (r n : Nat) (c : Option Nat) (ps : List Past) : (awaitMem s r n c ps).warps = s.warps := rfl
@[simp] theorem awaitMem_crews_eq (s : State) (r n : Nat) (c : Option Nat) (ps : List Past) : (awaitMem s r n c ps).crews = s.crews := rfl
@[simp] theorem awaitMem_nextAge_eq (s : State) (r n : Nat) (c : Option Nat) (ps : List Past) : (awaitMem s r n c ps).nextAge = s.nextAge := rfl
@[simp] theorem awaitMem_poison_eq (s : State) (r n : Nat) (c : Option Nat) (ps : List Past) : (awaitMem s r n c ps).poison = s.poison := rfl
@[simp] theorem awaitMem_logs_eq (s : State) (r n : Nat) (c : Option Nat) (ps : List Past) : (awaitMem s r n c ps).logs = s.logs := rfl

@[simp] theorem observeMem_w_eq (s : State) (c k : Nat) : (observeMem s c k).w = s.w := rfl
@[simp] theorem observeMem_sp_eq (s : State) (c k : Nat) : (observeMem s c k).sp = s.sp := rfl
@[simp] theorem observeMem_crew_eq (s : State) (c k : Nat) : (observeMem s c k).crew = s.crew := rfl
@[simp] theorem observeMem_ctx_eq (s : State) (c k : Nat) : (observeMem s c k).ctx = s.ctx := rfl
@[simp] theorem observeMem_clus_eq (s : State) (c k : Nat) : (observeMem s c k).clus = s.clus := rfl
@[simp] theorem observeMem_mem_eq (s : State) (c k : Nat) : (observeMem s c k).mem = s.mem := rfl
@[simp] theorem observeMem_cycle_eq (s : State) (c k : Nat) : (observeMem s c k).cycle = s.cycle := rfl
@[simp] theorem observeMem_env_eq (s : State) (c k : Nat) : (observeMem s c k).env = s.env := rfl
@[simp] theorem observeMem_dev_eq (s : State) (c k : Nat) : (observeMem s c k).dev = s.dev := rfl
@[simp] theorem observeMem_majority_eq (s : State) (c k : Nat) : (observeMem s c k).majority = s.majority := rfl
@[simp] theorem observeMem_warps_eq (s : State) (c k : Nat) : (observeMem s c k).warps = s.warps := rfl
@[simp] theorem observeMem_crews_eq (s : State) (c k : Nat) : (observeMem s c k).crews = s.crews := rfl
@[simp] theorem observeMem_nextAge_eq (s : State) (c k : Nat) : (observeMem s c k).nextAge = s.nextAge := rfl
@[simp] theorem observeMem_poison_eq (s : State) (c k : Nat) : (observeMem s c k).poison = s.poison := rfl
@[simp] theorem observeMem_logs_eq (s : State) (c k : Nat) : (observeMem s c k).logs = s.logs := rfl

@[simp] theorem tapwMem_w_eq (s : State) (id : Nat) (ps : List (Nat × Nat)) (rs : List Nat) : (tapwMem s id ps rs).w = s.w := rfl
@[simp] theorem tapwMem_sp_eq (s : State) (id : Nat) (ps : List (Nat × Nat)) (rs : List Nat) : (tapwMem s id ps rs).sp = s.sp := rfl
@[simp] theorem tapwMem_crew_eq (s : State) (id : Nat) (ps : List (Nat × Nat)) (rs : List Nat) : (tapwMem s id ps rs).crew = s.crew := rfl
@[simp] theorem tapwMem_ctx_eq (s : State) (id : Nat) (ps : List (Nat × Nat)) (rs : List Nat) : (tapwMem s id ps rs).ctx = s.ctx := rfl
@[simp] theorem tapwMem_clus_eq (s : State) (id : Nat) (ps : List (Nat × Nat)) (rs : List Nat) : (tapwMem s id ps rs).clus = s.clus := rfl
@[simp] theorem tapwMem_mem_eq (s : State) (id : Nat) (ps : List (Nat × Nat)) (rs : List Nat) : (tapwMem s id ps rs).mem = s.mem := rfl
@[simp] theorem tapwMem_cycle_eq (s : State) (id : Nat) (ps : List (Nat × Nat)) (rs : List Nat) : (tapwMem s id ps rs).cycle = s.cycle := rfl
@[simp] theorem tapwMem_env_eq (s : State) (id : Nat) (ps : List (Nat × Nat)) (rs : List Nat) : (tapwMem s id ps rs).env = s.env := rfl
@[simp] theorem tapwMem_dev_eq (s : State) (id : Nat) (ps : List (Nat × Nat)) (rs : List Nat) : (tapwMem s id ps rs).dev = s.dev := rfl
@[simp] theorem tapwMem_majority_eq (s : State) (id : Nat) (ps : List (Nat × Nat)) (rs : List Nat) : (tapwMem s id ps rs).majority = s.majority := rfl
@[simp] theorem tapwMem_warps_eq (s : State) (id : Nat) (ps : List (Nat × Nat)) (rs : List Nat) : (tapwMem s id ps rs).warps = s.warps := rfl
@[simp] theorem tapwMem_crews_eq (s : State) (id : Nat) (ps : List (Nat × Nat)) (rs : List Nat) : (tapwMem s id ps rs).crews = s.crews := rfl
@[simp] theorem tapwMem_nextAge_eq (s : State) (id : Nat) (ps : List (Nat × Nat)) (rs : List Nat) : (tapwMem s id ps rs).nextAge = s.nextAge := rfl
@[simp] theorem tapwMem_poison_eq (s : State) (id : Nat) (ps : List (Nat × Nat)) (rs : List Nat) : (tapwMem s id ps rs).poison = s.poison := rfl
@[simp] theorem tapwMem_logs_eq (s : State) (id : Nat) (ps : List (Nat × Nat)) (rs : List Nat) : (tapwMem s id ps rs).logs = s.logs := rfl

@[simp] theorem settleMem_w_eq (s : State) (n : Nat) : (settleMem s n).w = s.w := rfl
@[simp] theorem settleMem_sp_eq (s : State) (n : Nat) : (settleMem s n).sp = s.sp := rfl
@[simp] theorem settleMem_crew_eq (s : State) (n : Nat) : (settleMem s n).crew = s.crew := rfl
@[simp] theorem settleMem_ctx_eq (s : State) (n : Nat) : (settleMem s n).ctx = s.ctx := rfl
@[simp] theorem settleMem_clus_eq (s : State) (n : Nat) : (settleMem s n).clus = s.clus := rfl
@[simp] theorem settleMem_mem_eq (s : State) (n : Nat) : (settleMem s n).mem = s.mem := rfl
@[simp] theorem settleMem_cycle_eq (s : State) (n : Nat) : (settleMem s n).cycle = s.cycle := rfl
@[simp] theorem settleMem_env_eq (s : State) (n : Nat) : (settleMem s n).env = s.env := rfl
@[simp] theorem settleMem_dev_eq (s : State) (n : Nat) : (settleMem s n).dev = s.dev := rfl
@[simp] theorem settleMem_majority_eq (s : State) (n : Nat) : (settleMem s n).majority = s.majority := rfl
@[simp] theorem settleMem_warps_eq (s : State) (n : Nat) : (settleMem s n).warps = s.warps := rfl
@[simp] theorem settleMem_crews_eq (s : State) (n : Nat) : (settleMem s n).crews = s.crews := rfl
@[simp] theorem settleMem_nextAge_eq (s : State) (n : Nat) : (settleMem s n).nextAge = s.nextAge := rfl
@[simp] theorem settleMem_poison_eq (s : State) (n : Nat) : (settleMem s n).poison = s.poison := rfl
@[simp] theorem settleMem_logs_eq (s : State) (n : Nat) : (settleMem s n).logs = s.logs := rfl

@[simp] theorem invalidateLines_w_eq (s : State) (n : Nat) (ks : Nat → Bool) : (invalidateLines s n ks).w = s.w := rfl
@[simp] theorem invalidateLines_sp_eq (s : State) (n : Nat) (ks : Nat → Bool) : (invalidateLines s n ks).sp = s.sp := rfl
@[simp] theorem invalidateLines_crew_eq (s : State) (n : Nat) (ks : Nat → Bool) : (invalidateLines s n ks).crew = s.crew := rfl
@[simp] theorem invalidateLines_ctx_eq (s : State) (n : Nat) (ks : Nat → Bool) : (invalidateLines s n ks).ctx = s.ctx := rfl
@[simp] theorem invalidateLines_clus_eq (s : State) (n : Nat) (ks : Nat → Bool) : (invalidateLines s n ks).clus = s.clus := rfl
@[simp] theorem invalidateLines_mem_eq (s : State) (n : Nat) (ks : Nat → Bool) : (invalidateLines s n ks).mem = s.mem := rfl
@[simp] theorem invalidateLines_cycle_eq (s : State) (n : Nat) (ks : Nat → Bool) : (invalidateLines s n ks).cycle = s.cycle := rfl
@[simp] theorem invalidateLines_env_eq (s : State) (n : Nat) (ks : Nat → Bool) : (invalidateLines s n ks).env = s.env := rfl
@[simp] theorem invalidateLines_dev_eq (s : State) (n : Nat) (ks : Nat → Bool) : (invalidateLines s n ks).dev = s.dev := rfl
@[simp] theorem invalidateLines_majority_eq (s : State) (n : Nat) (ks : Nat → Bool) : (invalidateLines s n ks).majority = s.majority := rfl
@[simp] theorem invalidateLines_warps_eq (s : State) (n : Nat) (ks : Nat → Bool) : (invalidateLines s n ks).warps = s.warps := rfl
@[simp] theorem invalidateLines_crews_eq (s : State) (n : Nat) (ks : Nat → Bool) : (invalidateLines s n ks).crews = s.crews := rfl
@[simp] theorem invalidateLines_nextAge_eq (s : State) (n : Nat) (ks : Nat → Bool) : (invalidateLines s n ks).nextAge = s.nextAge := rfl
@[simp] theorem invalidateLines_poison_eq (s : State) (n : Nat) (ks : Nat → Bool) : (invalidateLines s n ks).poison = s.poison := rfl
@[simp] theorem invalidateLines_logs_eq (s : State) (n : Nat) (ks : Nat → Bool) : (invalidateLines s n ks).logs = s.logs := rfl

/-! Operations of memory ordering change only what is known of each write, and its time (R296 to R300). -/

theorem mapLate_eq (s : State) (f : Late → Late) : mapLate s f = { s with late := (mapLate s f).late } := rfl
theorem spread_eq (s : State) (rs : List Reach) (f : Late → List Chain) : spread s rs f = { s with late := (spread s rs f).late } := rfl
theorem receive_eq (s : State) (ps : List Past) (rs : List Reach) : receive s ps rs = { s with late := (receive s ps rs).late } := rfl
theorem acquire_eq (s : State) (ps : List Past) : acquire s ps = { s with late := (acquire s ps).late } := rfl
theorem acquireCell_eq (s : State) (cell : Nat) : acquireCell s cell = { s with late := (acquireCell s cell).late } := rfl
theorem readHome_eq (s : State) (keys : List Nat) : readHome s keys = { s with late := (readHome s keys).late } := rfl
theorem rememberReads_eq (s : State) (reads : List (Nat × Nat)) : rememberReads s reads = { s with late := (rememberReads s reads).late } := rfl
theorem acquireReads_eq (s : State) (reads : List (Nat × Nat)) : acquireReads s reads = { s with late := (acquireReads s reads).late } := rfl
theorem mapBytes_eq (s : State) (ks : Late → Nat → Bool) (f : Late → Late) : mapBytes s ks f = { s with late := (mapBytes s ks f).late } := rfl
theorem storeBefore_eq (w e : Late) (newer older : List Late) (s : State) (key : Nat) (bs : List Byte) :
    storeBefore w e newer older s key bs =
      { s with late := (storeBefore w e newer older s key bs).late, writes := s.writes + 1 } := rfl
theorem awaitMem_eq (s : State) (r n : Nat) (c : Option Nat) (ps : List Past) : awaitMem s r n c ps = { s with late := (awaitMem s r n c ps).late } := rfl
theorem forgetSlots_eq (s : State) (c r : Nat) : forgetSlots s c r = { s with late := (forgetSlots s c r).late } := rfl
theorem countMem_eq (s : State) (j : Job) (k : Nat) : countMem s j k = { s with late := (countMem s j k).late } := rfl
theorem observeMem_eq (s : State) (c k : Nat) : observeMem s c k = { s with late := (observeMem s c k).late } := rfl
theorem startMem_eq (s : State) (c id : Nat) (ks : List Nat) : startMem s c id ks = { s with late := (startMem s c id ks).late } := rfl
theorem observeJob_eq (s : State) (id : Nat) (c : AccessClass) : observeJob s id c = { s with late := (observeJob s id c).late } := rfl
theorem freeRows_eq (s : State) (j : Job) (rs : List Nat) : freeRows s j rs = { s with late := (freeRows s j rs).late } := rfl
theorem tapwMem_eq (s : State) (id : Nat) (ps : List (Nat × Nat)) (rs : List Nat) : tapwMem s id ps rs = { s with late := (tapwMem s id ps rs).late } := rfl
theorem finvMem_eq (s : State) : finvMem s = { s with late := (finvMem s).late } := rfl
theorem invalidateLines_eq (s : State) (n : Nat) (ks : Nat → Bool) : invalidateLines s n ks = { s with late := (invalidateLines s n ks).late } := rfl
theorem settleMem_eq (s : State) (n : Nat) : settleMem s n = { s with late := (settleMem s n).late } := rfl
theorem forgetKeys_eq (s : State) (p : Nat → Bool) : forgetKeys s p = { s with late := (forgetKeys s p).late } := rfl
theorem performPart_eq (s : State) (j : Job) (k : Nat) : performPart s j k = { s with late := (performPart s j k).late } := by
  unfold performPart; split <;> rfl
theorem takePast_eq (s : State) : (takePast s).2 = { s with late := (takePast s).2.late, writes := s.writes + 1 } := rfl
theorem releaseNow_eq (s : State) : (releaseNow s).2 = { s with late := (releaseNow s).2.late, writes := s.writes + 1 } := rfl
theorem releaseCell_eq (s : State) (cell : Nat) (b : Bool) (p : Past) :
    releaseCell s cell b p = { s with cellPasts := (releaseCell s cell b p).cellPasts } := rfl
theorem fenceMem_eq (s : State) (p q c : Nat) :
    fenceMem s p q c = { s with late := (fenceMem s p q c).late, writes := (fenceMem s p q c).writes } := by
  unfold fenceMem; split <;> rfl

@[simp] theorem raiseCount_w_eq (s : State) (c k n : Nat) : (raiseCount s c k n).w = s.w := rfl
@[simp] theorem raiseCount_sp_eq (s : State) (c k n : Nat) : (raiseCount s c k n).sp = s.sp := rfl
@[simp] theorem raiseCount_crew_eq (s : State) (c k n : Nat) : (raiseCount s c k n).crew = s.crew := rfl
@[simp] theorem raiseCount_ctx_eq (s : State) (c k n : Nat) : (raiseCount s c k n).ctx = s.ctx := rfl
@[simp] theorem raiseCount_clus_eq (s : State) (c k n : Nat) : (raiseCount s c k n).clus = s.clus := rfl
@[simp] theorem raiseCount_mem_eq (s : State) (c k n : Nat) : (raiseCount s c k n).mem = s.mem := rfl
@[simp] theorem raiseCount_cycle_eq (s : State) (c k n : Nat) : (raiseCount s c k n).cycle = s.cycle := rfl
@[simp] theorem raiseCount_env_eq (s : State) (c k n : Nat) : (raiseCount s c k n).env = s.env := rfl
@[simp] theorem raiseCount_majority_eq (s : State) (c k n : Nat) : (raiseCount s c k n).majority = s.majority := rfl
@[simp] theorem raiseCount_warps_eq (s : State) (c k n : Nat) : (raiseCount s c k n).warps = s.warps := rfl
@[simp] theorem raiseCount_crews_eq (s : State) (c k n : Nat) : (raiseCount s c k n).crews = s.crews := rfl
@[simp] theorem raiseCount_nextAge_eq (s : State) (c k n : Nat) : (raiseCount s c k n).nextAge = s.nextAge := rfl
@[simp] theorem raiseCount_poison_eq (s : State) (c k n : Nat) : (raiseCount s c k n).poison = s.poison := rfl
@[simp] theorem raiseCount_logs_eq (s : State) (c k n : Nat) : (raiseCount s c k n).logs = s.logs := rfl
@[simp] theorem raiseCount_late_eq (s : State) (c k n : Nat) : (raiseCount s c k n).late = s.late := rfl

/-- A write of a uniform register changes the warp's k registers alone. -/
theorem kset_eq (s : State) (n : Nat) (v : DWord) : kset s n v = { s with w := { s.w with k := (kset s n v).w.k } } := by
  unfold kset; split <;> rfl

@[simp] theorem kset_sp (s : State) (n : Nat) (v : DWord) : (kset s n v).sp = s.sp := by unfold kset; split <;> rfl
@[simp] theorem kset_mem (s : State) (n : Nat) (v : DWord) : (kset s n v).mem = s.mem := by unfold kset; split <;> rfl
@[simp] theorem kset_phys (s : State) (n : Nat) (v : DWord) : (kset s n v).w.phys = s.w.phys := by unfold kset; split <;> rfl
@[simp] theorem kset_preds (s : State) (n : Nat) (v : DWord) : (kset s n v).w.preds = s.w.preds := by unfold kset; split <;> rfl

/-- k0 reads zero (R22). -/
@[simp] theorem kget_zero (s : State) : kget s 0 = 0 := rfl

/-- A uniform register reads back what was written; a write leaves the others alone (R22). -/
theorem kget_kset (s : State) {n : Nat} (m : Nat) (v : DWord) (hn : n ≠ 0) :
    kget (kset s n v) m = if m = n then v else kget s m := by
  unfold kget kset
  rw [if_neg hn]
  by_cases hm : m = 0
  · simp [hm, Ne.symm hn]
  · simp only [hm, if_false, sget_sset]

/-- A predicate of a warp reads back what was written in the lanes written, and its old value in the others; p0 reads
true (R23). -/
theorem predMask_setPred (w : Warp) (n m : Nat) (lanes v : Mask) :
    predMask (setPred w n lanes v) m =
      if n = 0 ∨ m ≠ n then predMask w m else (predMask w m &&& ~~~lanes) ||| (v &&& lanes) := by
  by_cases hn : n = 0
  · simp [setPred, hn]
  · by_cases hm : m = n
    · subst hm; simp [setPred, predMask, hn]
    · simp only [setPred, hn, hm, if_false, predMask, sget_sset, ne_eq, not_false_eq_true, or_true, if_true]

/-- Taking a trap where nothing stops it is the entry of R250. -/
theorem takeTrap_level0 {s : State} {c : Byte} {v pc : DWord} (hr : s.crew.state = .running) (hh : heldByCrew s = false)
    (hb : handlerBusy s = false) (hl : s.sp.level = 0) : takeTrap s c v pc = enterTrap (countError s c) c v pc := by
  simp [takeTrap, hr, hh, hb, hl]

/-- A trap of kind F or S inside a handler parks the crew (R250). -/
theorem takeTrap_double {s : State} {c : Byte} {v pc : DWord} (hr : s.crew.state = .running) (hh : heldByCrew s = false)
    (hl : s.sp.level ≠ 0) (hk : (kindF c || kindS c) = true) :
    takeTrap s c v pc = logEvent (park (countError s c) c s.sp.pc .level1) (countError s c).wholeWarp
      { cause := c, where_ := whereOf s.sp, flags := fgParked + fgDouble, pc := s.sp.pc, trapv := v } := by
  simp [takeTrap, hr, hh, hl, hk]

/-- A trap of a warp that another warp's handler holds, or whose crew does not run, waits (R249). -/
theorem takeTrap_held {s : State} {c : Byte} {v pc : DWord} (h : s.crew.state ≠ .running ∨ heldByCrew s = true) :
    takeTrap s c v pc = s := by
  unfold takeTrap
  rcases h with h | h <;> simp [h]

end Sys2Proof.Machine
end

