-- ==== Sys2Proof/Laws/Tasks.lean ====
section
/-! SUPPORT. Tile tasks: what a status write, a failure and the failures that follow from it may change (07 R211, R222). -/

namespace Sys2Proof.Machine

/-- A status write changes memory, which sectors are poisoned and what is known of the writes, and nothing else. -/
theorem writeStatus_eq (s : State) (t : Task) (state cause : Nat) : writeStatus s t state cause =
    { s with mem := (writeStatus s t state cause).mem, poison := (writeStatus s t state cause).poison
             spillPoison := (writeStatus s t state cause).spillPoison
             late := (writeStatus s t state cause).late, writes := (writeStatus s t state cause).writes } := by
  unfold writeStatus
  split
  next u h => exact jobRun_eq h
  · rfl

@[simp] theorem writeStatus_clus (s : State) (t : Task) (state cause : Nat) :
    (writeStatus s t state cause).clus = s.clus := by
  rw [writeStatus_eq]

@[simp] theorem writeStatus_ctx (s : State) (t : Task) (state cause : Nat) :
    (writeStatus s t state cause).ctx = s.ctx := by
  rw [writeStatus_eq]

/-- A task that fails leaves the queue. -/
theorem failTask_tasks (s : State) (old t : Task) (cause : Byte) :
    (failTask s old t cause).clus.tasks = s.clus.tasks.filter (fun x => x != old) := by
  unfold failTask
  dsimp only
  split <;> simp [dropTask]

/-- A task's failure leaves its context's name. -/
theorem failTask_ctx_id (s : State) (old t : Task) (cause : Byte) : (failTask s old t cause).ctx.id = s.ctx.id := by
  unfold failTask
  dsimp only
  split <;> simp [dropTask]

/-- The queue after some failures is part of the queue before. -/
theorem failDependents_sub (n : Nat) (s : State) : ∀ t ∈ (failDependents s n).clus.tasks, t ∈ s.clus.tasks := by
  induction n generalizing s with
  | zero => exact fun t h => h
  | succ n ih =>
    intro t h
    unfold failDependents at h
    split at h
    · exact h
    · have h1 := ih _ t h
      rw [failTask_tasks] at h1
      exact (List.mem_filter.mp h1).1

end Sys2Proof.Machine
end

