-- ==== Sys2Proof/Tests/Slice0.lean ====
section
/-! SUPPORT. The model's own tests: words of the spec decoded, ill-formed terms refused, worked examples of the spec run for
one step, and states that meet the hypotheses of the statements. -/

set_option Elab.async false

namespace Sys2Proof.Tests

open Sys2Proof Sys2Proof.Machine

/-- A machine with one warp about to run NOP at VA 0x10000, whose page is mapped with every permission. -/
def base : State := focusSplit (State.reset.withFetchWord 32 0x01000000) 3 0

/-- The same machine under a MODE. -/
def under (m : BitVec 18) : State := { base with w := { base.w with mode := m } }

/-- A uniform register of a machine set. -/
def kk (n : Nat) (v : DWord) (s : State) : State := kset s n v

/-- Lane registers set in every lane, by number. -/
def xx (n : Nat) (v : Nat → Word) (s : State) : State := (List.range 32).foldl (fun t l => xset t l n (v l)) s

/-- Bytes put at an offset of the mapped page. -/
def at_ (off : Nat) (bs : List Byte) (s : State) : State := writeKey s (0x20000 + off) bs

/-- Inside a handler whose frame is the outermost. -/
def handler (s : State) : State :=
  { s with sp := { s.sp with level := 1, depth := 1, wbase := 64, frames := 15 }, w := { s.w with tdepth := 1, allot := 128 } }

/-- Every hypothesis of a normal issue holds. -/
def ready (s : State) (i : Instr) : Bool :=
  s.sp.state == .ready && s.sp.wait.isNone && (r88 s.w.mode s.sp.level i).isNone && poisonedLanes s i == 0 &&
    s.sp.stepping == 0 && s.sp.freeze.isNone && ((s.w.splits ++ s.w.overflow).filter Split.stopDue).isEmpty

theorem ready_issues {s : State} {i : Instr} (h : ready s i = true) : Issues i s := by
  simp only [ready, Bool.and_eq_true, beq_iff_eq, Option.isNone_iff_eq_none, List.isEmpty_iff] at h
  exact ⟨h.1.1.1.1.1.1, h.1.1.1.1.1.2, h.1.1.1.1.2, h.1.1.1.2, h.1.1.2, h.1.2, h.2⟩

/-- The state an instruction answers, or the machine as it was. -/
def after (i : Instr) (s : State) : State := match exec i s with
  | .next t => t
  | _ => s

/-- An instruction answers a next state. -/
def goes (i : Instr) (s : State) : Bool := match exec i s with
  | .next _ => true
  | _ => false

/-- A computation succeeds. -/
def isOk {ε α : Type} : Except ε α → Bool
  | .ok _ => true
  | .error _ => false

/-- A value gives a check's key. -/
def keyOf : Check → Option Nat
  | .ok k => some k
  | .bad _ => none

/-! Words the spec writes out. -/

theorem test_decode_control : decode 0x09000000 = .ok .exit ∧ decode 0x10004221 = .ok (.trap 0x42 0x21) ∧
    decode 0x11000000 = .ok .tret ∧ decode 0x0D000079 = .ok (.setm 0x79) ∧ decode 0x0F054A73 = .ok (.sigchk 0x054A73) ∧
    decode 0x1B700054 = .ok (.srd 28 1 0x14) := by decide +kernel
theorem test_decode_lane : decode 0x20105180 = .ok (.add 4 5 6 0) ∧ decode 0x3B080007 = .ok (.movi 2 7) ∧
    decode 0x40082001 = .ok (.addi 2 2 1) ∧ decode 0x401C7001 = .ok (.addi 7 7 1) := by decide +kernel
theorem test_decode_uniform : decode 0x89240003 = .ok (.kmovi 9 3) ∧ decode 0x8A13F000 = .ok (.kcat 4 0x3F000) := by
  decide +kernel
theorem test_decode_memory : decode 0x9408140C = .ok (.ldw 2 1 8 1 2 0) ∧ decode 0xAD090080 = .ok (.fence 2 16 2) ∧
    decode 0xAD801080 = .ok (.fence 32 1 2) ∧ decode 0xB0001100 = .ok (.rngdef 1 4) ∧
    decode 0xB1001140 = .ok (.cpy 1 5 0) ∧ decode 0xB3001181 = .ok (.awaitfC 1 6) ∧ decode 0xB4001000 = .ok (.rels 1) := by
  decide +kernel
theorem test_decode_engines : decode 0xB8004140 = .ok (.tdef 4 5) ∧ decode 0xB9006000 = .ok (.tqput 6) ∧
    decode 0xBA0031C0 = .ok (.twait 3 7) ∧ decode 0xD200C340 = .ok (.trwait 12 13) ∧
    decode 0xD4289000 = .ok (.accup 10 9) ∧ decode 0xD32CA000 = .ok (.shape 11 10) := by decide +kernel
theorem test_decode_refuses : decode 0x00000000 = .error .illegal ∧ decode 0x01000001 = .error .illegal ∧
    decode 0x89800003 = .ok (.kmovi 32 3) ∧ (after (.kmovi 32 3) base).w.trapc = 0x06 ∧
    (after (.kmovi 32 3) base).w.trapv = 0x89800003 := by decide +kernel

/-! An ill-formed term for every check of well-formedness. -/

theorem test_wf_event : Instr.wf .deviceReset = false := by decide +kernel
theorem test_wf_condition : Instr.wf (.cmp 1 2 3 0 8) = false ∧ Instr.wf (.cmp 1 2 3 0 7) = true := by decide +kernel
theorem test_wf_register : Instr.wf (.kmovi 32 0) = false ∧ Instr.wf (.kmovi 31 0) = true := by decide +kernel
theorem test_wf_quad : Instr.wf (.ldq 2 63 1 0 0 0) = false ∧ Instr.wf (.ldq 4 63 1 0 0 0) = true := by decide +kernel

/-! Worked examples of the spec, one step each. -/

/-- R100: the packed saturating add, and the wrapping one. -/
theorem test_add_saturates :
    xget (after (.add 4 5 6 0) (xx 5 (fun _ => 0x7F8010F0) (xx 6 (fun _ => 0x01FF7F20) (under 0x848)))) 9 4 = 0x7F807F10 ∧
    xget (after (.add 4 5 6 0) (xx 5 (fun _ => 0x7F8010F0) (xx 6 (fun _ => 0x01FF7F20) (under 0x048)))) 9 4 = 0x807F8F10 := by
  decide +kernel
/-- R107: the sign of byte 0 in every byte. -/
theorem test_perm_sign :
    xget (after (.perm 4 5 6 7) (xx 5 (fun _ => 0x00000080) (xx 7 (fun _ => 0x00410410) base))) 3 4 = 0xFFFFFFFF := by
  decide +kernel
/-- R130: the address built by KMOVI and KCAT. -/
theorem test_kcat : kget (after (.kcat 4 0) (kk 4 0x0000003FC0000010 base)) 4 = 0x00FF000000400000 ∧
    kget (after (.kcat 4 0x3F000) (kk 4 3 base)) 4 = 0x00000000000FF000 := by decide +kernel
/-- R157: SIG after MOVI is the hash of its opcode; the SIGCHK that carries the wrong value raises SIGMIS. -/
theorem test_sig : (after (.movi 7 5) base).sp.sig = 0x1500857C ∧
    (after (.addi 7 7 1) { base with sp := { base.sp with sig := 0x1500857C } }).sp.sig = 0x8C054A73 ∧
    (after (.sigchk 0x054A73) { base with sp := { base.sp with sig := 0x8C054A73 } }).w.trapc = 0 ∧
    (after (.sigchk 0x054A74) { base with sp := { base.sp with sig := 0x8C054A73 } }).w.trapv = 0x8C054A73 := by
  decide +kernel
/-- R169: a word stored is read back little-endian. -/
theorem test_store_load :
    byteAt (after (.stw 2 63 1 0 0 0) (kk 1 0x10010 (xx 2 (fun _ => 0x11223344) base))).mem 0x20010 = 0x44 ∧
    xget (after (.ldbs 3 63 1 0 0 0) (kk 1 0x10010 (at_ 0x10 [0x80] base))) 5 3 = 0xFFFFFF80 := by decide +kernel
/-- R244: an estimate of 0 moves a quarter of the way to a count of 3. -/
theorem test_accup : kget (after (.accup 10 9) (kk 9 3 base)) 10 = 192 ∧ kget (after (.shape 11 9) (kk 9 0x3FF base)) 11 = 7 := by
  decide +kernel
/-- R22, R88: k0 discards writes; a privileged write at level 0 raises PRIV. -/
theorem test_k0 : kget (after (.kmovi 0 5) base) 0 = 0 ∧ (after .tret base).w.trapc = 0x02 := by decide +kernel

/-! States and operands that meet the hypotheses of the statements, clause by clause. -/

theorem witness_integer : ([.add 1 2 3 0, .add 1 2 3 1, .sub 1 2 3 0, .mul 1 2 3 0, .mulh 1 2 3 0, .min 1 2 3 0, .max 1 2 3 0,
    .abs 1 2, .neg 1 2, .mad 1 2 3 4, .shl 1 2 3 0, .shr 1 2 3 0, .sar 1 2 3 0, .rol 1 2 3 0, .shli 1 2 63, .shri 1 2 0,
    .sari 1 2 31, .addi 1 2 0xFFF, .muli 1 2 3, .mini 1 2 0xFFF, .maxi 1 2 0, .and 1 2 3 0, .or 1 2 3 1, .xor 1 2 3 0,
    .andn 1 2 3 0, .andi 1 2 0xFFF, .ori 1 2 1, .xori 1 2 2, .sel 1 2 3 0 7, .popc 1 2, .clz 1 2, .brev 1 2, .perm 1 2 3 4,
    .movx 1 2, .movxK 1 2, .movi 1 0x3FFFF, .movh 1 5, .pmov 1 7, .pset 7 1, .pset 0 1, .plog 1 2 3 9, .cmp 7 1 2 0 7,
    .cmp 0 1 2 1 0, .cmpi 7 5 1 0xFFF] : List Instr).all (ready base) = true ∧
    ([.add 2 4 6 0, .bfx 2 4 32 32] : List Instr).all (ready (under 0xC8)) = true ∧ takesPart base 31 ∧
    acceptsType 0xD (.cmpi 1 2 3 4) = true ∧ (lookahead (.plog 1 2 3 9)).isNone = true := by
  refine ⟨by decide +kernel, by decide +kernel, ⟨by decide, by decide +kernel⟩, by decide, by decide⟩
theorem witness_bitFields : ready base (.bfx 1 2 32 0) = true ∧ ready base (.bfi 1 2 1 31) = true ∧
    0 < (32 : BitVec 6).toNat ∧ (32 : BitVec 6).toNat + (0 : BitVec 6).toNat ≤ typeWidth (modeType base.w.mode) ∧
    (1 : BitVec 6).toNat + (31 : BitVec 6).toNat ≤ typeWidth (modeType base.w.mode) ∧
    typeWidth (modeType base.w.mode) < (2 : BitVec 6).toNat + (31 : BitVec 6).toNat ∧ ready base (.bfx 1 2 2 31) = true ∧
    ready base (.bfi 1 2 0 0) = true ∧ anyLane base = true := by decide +kernel
theorem witness_float : ([.fadd 1 2 3 0, .fsub 1 2 3 1, .fmul 1 2 3 0, .fma 1 2 3 4, .fmin 1 2 3 0, .fmax 1 2 3 0, .fabs 1 2,
    .fneg 1 2, .fcmp 7 1 2 0 2, .frnd 1 2, .fcls 1 2, .rcp 1 2 0, .rsq 1 2 15, .lg2 1 2 0, .ex2 1 2 0, .sin 1 2 0, .cos 1 2 0,
    .tanh 1 2 0, .ppe 1 2 0 3] : List Instr).all (ready (under 0x68)) = true := by decide +kernel
theorem witness_conversions : ([.cvt 1 2 0, .cvtz 1 2 4, .pack 1 2 3 7, .unpk 1 2 0 7] : List Instr).all
    (fun i => ready (under 0x68) i || ready (under 0x78) i || ready (under 0x48) i) = true := by decide +kernel
theorem witness_ppuLoad : let s := kk 1 0x10000 (kk 2 1 base)
    ready s (.ppld 1 2 0 3) = true ∧ isOk (ppldWords s 0x10000 (5 * 1)) = true ∧
    firstPoison s 0x10000 (20 * 1) = none ∧ anyLane s = true ∧ (kget (kk 2 64 base) 2).toNat ≤ 64 := by decide +kernel
theorem witness_crossLane : ([.shflFrom 1 2 3 0, .shflRot 1 2 3 0, .shflRotn 1 2 3 0, .shflXor 1 2 3 0, .voteQuorum 7 1 2 0,
    .voteUnan 0 7 0, .voteMask 1 2 0, .voteCount 1 2 0, .matchLanes 1 2 0, .x2k 1 2 31 0, .redxAdd 1 2 0, .redxMin 1 2 0,
    .redxMax 1 2 0, .argmxMax 1 2 0, .argmxMin 1 2 0, .scanAddIncl 1 2 0, .scanAddExcl 1 2 0, .scanMax 1 2 0,
    .scanMin 1 2 0] : List Instr).all (ready base) = true ∧
    ([.redxAdd 1 2 0, .argmxMax 1 2 0] : List Instr).all (ready (under 0x68)) = true := by decide +kernel
theorem witness_uniform : ([.kadd 1 2 3, .ksub 1 2 3, .kmul 1 2 3, .kand 1 2 3, .kor 1 2 3, .kxor 1 2 3, .kshl 1 2 3,
    .kshr 1 2 3, .kaddi 31 0 0xFFF, .kmovi 0 1, .kcat 1 2, .kcmp 1 2 3 13, .ksel 1 2 3 31, .kmin 1 2 3, .kminU 1 2 3,
    .kmax 1 2 3, .kmaxU 1 2 3] : List Instr).all (ready base) = true := by decide +kernel
theorem witness_specialReads : ready base (.srd 1 0 31) = true ∧ ready base (.srd 1 1 0) = true ∧
    ready base (.srd 1 1 0x20) = true := by decide +kernel
theorem witness_specialWrites : let s := handler base
    ([.swrMode 1 1, .swrFflags 1 0, .swrTrapc 1 1, .swrTrapv 1 1, .swrTrappc 1 1, .swrOvt 1 1, .swrSpillb 1 1, .swrStrand 1 0,
      .ovtld 1, .setm 8, .setg 0 1] : List Instr).all (ready s) = true ∧
    (kget (kk 1 (BitVec.ofNat 64 (2 ^ 56)) s) 1).toNat = 2 ^ 56 ∧ (kget (kk 1 0xFFFFFFFFFFF001 s) 1).toNat % 4096 ≠ 0 ∧
    (kget (kk 1 0xFFFFFFFFFFF000 s) 1).toNat % 4096 = 0 ∧ (0x045 : Nat) < 4096 := by decide +kernel
theorem witness_spillb_quiet : (handler base).sp.depth = 1 ∧ (handler base).w.tdepth = 1 ∧ (handler base).sp.sfloor = 0 ∧
    (∀ p ∈ (handler base).w.splits, p.alive = true → p.depth = 0) ∧ (handler base).w.overflow = [] ∧
    { handler base with sp := { (handler base).sp with depth := 2 } }.sp.depth ≠ 1 := by decide +kernel
theorem witness_stranding : base.w.live = true ∧ base.crew.flog = 0 := by decide +kernel
theorem witness_issueChecks : r88 base.w.mode base.sp.level .tret = some cPriv ∧ Instr.wf .tret = true ∧
    r88 (0x68 : BitVec 18) 0 (.add 1 2 3 0) = some cIllegal ∧ r88 (0xC8 : BitVec 18) 0 (.add 1 2 4 0) = some cOperand ∧
    base.sp.wait = none ∧ ready base (.sigchk 0) = true ∧ lookahead (.ldw 1 63 1 3 0 0) = some 3 ∧
    precise (.ldw 1 63 1 3 0 0) = false ∧ privileged .tret = true := by decide +kernel
theorem witness_branches : ready base (.bra 7 1 0x80000) = true ∧ ready (kk 1 0x10002 base) (.jmpk 1) = true ∧
    freeSlot base = some 1 := by decide +kernel
/-- A warp whose table is full. -/
def full : State := { base with w := { base.w with splits := (List.range 15).map (fun n =>
  { base.sp with slot := n + 1, lastIssue := n }) } }
theorem witness_splitTable : freeSlot full = none ∧ (longestIdle (full.w.splits.filter Split.alive)).isSome = true := by
  decide +kernel
theorem witness_calls : ready base (.call 15 0x80000) = true ∧ ready (kk 1 0x10002 base) (.callk 1 0) = true ∧
    let s := { base with w := { base.w with allot := 128 } }
    s.sp.depth < 8 ∧ s.sp.wbase + 4 * ((15 : BitVec 4).toNat + 1) + 64 ≤ s.sp.sfloor + s.w.allot := by decide +kernel
theorem witness_returns : let s := xx 62 (fun _ => 0x10000) (handler base)
    let out := { s with sp := { s.sp with level := 0 } }
    ready s .ret = true ∧ ready (under 9) .ret = true ∧ anyLane (under 9) = false ∧ ¬ s.w.tdepth < s.sp.depth ∧
    ready out .ret = true ∧ (planDown out).isSome = true ∧ (retGroups out ((planDown out).getD ⟨0, 0, [], none⟩) allLanes).length = 1 ∧
    checkSlide out needSpillR (slideAddrs out ((planDown out).getD ⟨0, 0, [], none⟩) (partMask out)) = none ∧
    partMask out = out.sp.active ∧ 0 < out.sp.depth ∧ out.sp.depth ≤ 8 ∧ out.sp.sfloor ≤ out.sp.wbase - 4 * (15 + 1) := by
  decide +kernel
theorem witness_returns_fail : base.sp.depth = 0 ∧ ready (xx 62 (fun _ => 2) base) .ret = true ∧
    let s := { base with sp := { base.sp with depth := 1, wbase := 4, frames := 0, sfloor := 4, active := 1 } }
    (checkSlide s needSpillR (slideAddrs s ((planDown s).getD ⟨0, 0, [], none⟩) (partMask s))).isSome = true := by decide +kernel
theorem witness_reconvergence : ready base (.srcv 0x800000) = true ∧ ready base .rcv = true ∧
    (base.w.splits ++ base.w.overflow).all (fun p => p.state != .waitRcv) = true := by decide +kernel
theorem witness_waits : ([.nop, .yield, .yieldp, .sleep 1, .exit, .setrl 5] : List Instr).all (ready base) = true ∧
    base.ctx.preempt = none ∧ base.crew.dispatch = false ∧
    base.w.splits ++ base.w.overflow = [] ∧ base.sp.active = ~~~(base.w.strand ||| base.w.exited) ∧ base.sp.depth = 0 ∧
    { base with sp := { base.sp with wait := some (.sleep 1) } }.sp.wake ≤ base.cycle.toNat := by decide +kernel
theorem witness_softwareTraps : ready base (.trap 0x42 0x21) = true ∧ ready base (.bkpt 1) = true ∧
    ready (handler base) .tret = true ∧ (handler base).sp.depth = (handler base).w.tdepth ∧
    (handler base).sp.sfloor ≤ (handler base).sp.wbase - 4 * ((handler base).sp.frames.toNat % 16 + 1) ∧
    { handler base with sp := { (handler base).sp with depth := 2 } }.sp.depth ≠ (handler base).w.tdepth := by decide +kernel
theorem witness_takingTraps : base.crew.state = .running ∧ heldByCrew base = false ∧ handlerBusy base = false ∧
    base.sp.level = 0 ∧ base.crew.handler = 0 ∧ (handler base).sp.level ≠ 0 ∧ kindF cAlign = true ∧ kindS 0x21 = true ∧
    isOk (slideUp (setTrapRegs (countError { base with w := { base.w with allot := 128 } } cAlign) cAlign 0 0x10000) 15) = true := by
  decide +kernel

/-- A crew with tile memory, a bound ring of four slots, and cells mapped at VA 0x20000. -/
def crew : State :=
  { base with crew := { base.crew with cmbase := tileBase, cmsize := 0x1000, rings := base.crew.rings.set 1 { Ring.blank with
      bound := true, desc := 0x00FF000000000000, base := tileBase, slotBytes := 256, depth := 4, nrel := 1, nslice := 1 } } }

/-- The machine with a majority cell mapped at VA 0x20000. -/
def cells : State := writeKey base 0x14010 (natLE (0x99 + 2 ^ 46 + 2 ^ 58) 8)

/-- Bytes put in the tile window. -/
def tile (off : Nat) (bs : List Byte) (s : State) : State := writeKey s (tileBase + off) bs

/-- The machine as a dispatch warp. -/
def disp : State := { base with crew := { base.crew with dispatch := true }, w := { base.w with handles := List.replicate 32 ⟨9, 4⟩ } }

theorem witness_roles : let s := kk 1 0x10000 (at_ 0 (natLE (0x10100 + 64 * 2 ^ 64) 16) base)
    ready s (.role 1) = true ∧ s.crew.dispatch = false ∧ s.sp.depth = 0 ∧ s.w.splits ++ s.w.overflow = [] ∧
    s.sp.active = ~~~(s.w.strand ||| s.w.exited) ∧ (handler base).sp.depth ≠ 0 ∧
    quadUsed s s.w.clus s.w.core s.w.quad s.w.id + 64 ≤ 1024 ∧
    readRecord s needRole 16 0x10000 16 = .ok (natLE (0x10100 + 64 * 2 ^ 64) 16) ∧
    isOk (readRecord s needRole 16 0x10001 16) = false ∧ { base with sp := { base.sp with active := 1 } }.sp.active ≠ 0xFFFFFFFF := by
  decide +kernel
/-- A crew of two warps beside another crew of its launch. -/
def pair : State := { base with
  warps := [{ base.w with id := 8, index := 1, core := 1, splits := [] }]
  crews := [{ base.crew with id := 7, number := 5, nwarp := 31 }] }
theorem witness_crewChanges : ready pair (.cjoin 1 2) = true ∧ ready pair (.cleave 1) = true ∧ pair.crew.dispatch = false ∧
    (members base).length ≤ 1 ∧ ¬ (members pair).length ≤ 1 ∧ (joinTarget pair 5).isSome = true ∧ (joinTarget base 5).isNone = true ∧
    (31 : Nat) < 32 ∧ (placeMemory pair pair.crew.clus 0).isSome = true := by decide +kernel
theorem witness_barriers : let s := kk 1 1024 (kk 2 1025 base)
    ready s (.bara 15 1) = true ∧ ready s (.bars 15 1) = true ∧ ready s (.barw 15 1) = true ∧ 1024 < (kget s 2).toNat ∧
    (kget s 1).toNat ≤ 1024 ∧ sget 0 (s.crew.bars.getD 15 Barrier.blank).arrived s.w.id &&& partMask s = 0 ∧
    (s.crew.bars.getD 15 Barrier.blank).expect = none ∧ s.crew.bars.length = 16 := by decide +kernel
theorem witness_barrierClash : let s := { base with crew := { base.crew with
      bars := base.crew.bars.set 0 { Barrier.blank with arrived := [(3, 1)], expect := some 1 } } }
    sget 0 (s.crew.bars.getD 0 Barrier.blank).arrived s.w.id &&& partMask s ≠ 0 ∧
    (s.crew.bars.getD 0 Barrier.blank).arrived ≠ [] ∧ ((s.crew.bars.getD 0 Barrier.blank).arrived.map (fun e => laneCount e.2)).sum = 1 := by
  decide +kernel
theorem witness_dispatch : ready disp (.dispq 1) = true ∧ disp.crew.dispatch = true ∧ ready base (.dispq 1) = true ∧
    (dispqCheck (xx 1 (fun _ => 64) base) 1 0) = some (cOperand, 64) ∧ ready disp .qend = true ∧ ready base .qend = true ∧
    disp.w.handles[31]? = some ⟨9, 4⟩ ∧ (queueOf base base.ctx.id base.w.launch 0).length + 32 ≤ 512 ∧
    argN base 0 = 0 ∧ lanesOf (argLanes base) = [] := by decide +kernel
/-- A launch record with one callee table. -/
def rec0 : LaunchRec :=
  { entry := 0x10000, param := 0, ncrew := 1, cmsize := 0x1000, mode := 8, handler := 0, flog := 0, budget := 0, creww := 1,
    allot := 64, prio := 0, ndisp := 1, clmask := 1, spillsz := 0, spillpool := 0, callees := 0x10100, shapes := none, bytes := [] }
/-- The machine with its launch. -/
def callee : State := { base with
  mem := (at_ 0x100 (natLE 0x10200 8) base).mem
  ctx := { base.ctx with launches := [{ id := 1, record := rec0, admitted := true, unbindable := false, prio := 0, nextCrew := 0,
                                        boundWarps := 0, nextNumber := 1, crewsEnded := 0, dispSlots := [], past := none }] } }
theorem witness_dispatchItem : ready callee (.dispq 1) = true ∧ dispqCheck callee 1 0 = none ∧
    (lanesOf (partMask { callee with sp := { callee.sp with active := 1 } })).findSome? (dispqCheck callee 1) = none := by
  decide +kernel
theorem witness_memory :
    ([.ldb 1 63 1 0 0 0, .ldbs 1 2 1 15 3 1, .ldh 1 63 1 0 0 0, .ldhs 1 63 1 0 0 0, .ldw 1 63 1 0 0 0, .ldd 2 63 1 0 0 0,
      .ldq 4 63 1 0 0 0, .lda 1 63 1 0 0 0, .stb 1 63 1 0 0 0, .sth 1 63 1 0 0 0, .stw 1 63 1 0 0 0, .std 2 63 1 0 0 0,
      .stq 4 63 1 0 0 0, .stl 1 63 1 0 0 0, .atadd 1 63 1 0 0 0, .atmin 1 63 1 0 0 0, .atmax 1 63 1 0 0 0, .atand 1 63 1 0 0 0,
      .ator 1 63 1 0 0 0, .atxor 1 63 1 0 0 0, .atxch 1 63 1 0 0 0, .atcas 2 63 1 0 0 0, .reda 1 63 1 0 0 0, .kld 1 1 0,
      .kst 0 1 0] : List Instr).all (ready base) = true ∧ ready (under 0x78) (.redaf 1 63 1 0 0 0) = true ∧
    keyOf (checkAccess base needR 0x1FFF0 16) = some 0x2FFF0 ∧ keyOf (checkAccess base needW 0x1FFF0 16) = some 0x2FFF0 ∧
    keyOf (checkAccess base needAtomic 0x1FFF8 8) = some 0x2FFF8 ∧ poisonedRange base 0x2FFF8 8 = false ∧
    poisonedRange { base with poison := [0x2FFF8 / 32] } 0x2FFF8 8 = true := by decide +kernel
theorem witness_accessChecks : checkAccess base needR (2 ^ 56) 1 = .bad cProt ∧ checkAccess base needR 0x10002 4 = .bad cAlign ∧
    checkAccess base needR 0x20000 4 = .bad cPage ∧ translate base (2 ^ 56 - 4) = .prot ∧ checkAccess base needR (tileBase + 0x1000000) 4 = .bad cProt ∧
    checkAccess cells needR 0x20000 4 = .bad cProt ∧ Memory.wf [] = true := by decide +kernel
theorem witness_majority : let s := kk 1 0x20000 cells
    ready s (.mld 4 1 0) = true ∧ ready s (.mst 4 1 0 7) = true ∧ ready s (.mcas 4 2 1 0 7) = true ∧ ready s (.trsig 1 2) = true ∧
    ready s (.trwait 1 2) = true ∧ checkCell s needR 0x20000 = .ok majBase ∧ checkCell s needW 0x20000 = .ok majBase ∧
    checkCell s ⟨true, true, false, false⟩ 0x20000 = .ok majBase ∧ cellOf majBase < 2 ^ 64 ∧ cellBusy s (cellOf majBase) = false ∧
    s.sp.phase = none ∧ s.env.parted = [] ∧ checkCell s needR 0x20001 = .bad cAlign ∧ checkCell s needW 0x10000 = .bad cProt ∧
    (match majLoad s 0 with | .done _ _ _ => true | _ => false) = true := by decide +kernel
theorem witness_readsSeeStores : (base.shape = 3 ∨ base.shape = 5) ∧ (setStacks base 0).Nodup ∧ (3 : Nat) < 4096 ∧
    tagTide 1 < 2 ^ 48 - 1 ∧ (match storePhase base 0 3 1 77 with
      | .done true _ t => (readPhase { t with env := { t.env with replies := [1, 2] } } 0).isSome
      | _ => false) = true := by decide +kernel
theorem witness_noCrew : ([.role 1, .cjoin 1 2, .cleave 1, .bara 1 2, .barw 1 2, .bars 1 2, .rngdef 1 2, .cpy 1 2 0,
    .cpym 1 1 2 0, .awaitf 1, .awaitfC 1 2, .rels 1, .rngst 1 1, .setrl 4] : List Instr).all (ready disp) = true := by decide +kernel
theorem witness_ringDefinitions : let s := kk 1 0x00FF000000000100 (kk 2 0x00FF000000000FF0 (kk 3 0x00FF000000001000 crew))
    let d := natLE (0x00FF000000000200 + 1 * 2 ^ 64 + 1 * 2 ^ 97) 32
    ready s (.rngdef 2 1) = true ∧ rngRefused s 2 = false ∧ (kget s 0).toNat = 0 ∧ (kget s 2).toNat % 32 ≠ 0 ∧
    s.crew.cmbase + s.crew.cmsize < (kget s 3).toNat + 32 ∧ readRecord (tile 0x100 d s) needR 32 0x00FF000000000100 32 = .ok d ∧
    ringBad (leNat d) = false ∧ ringBad 0 = true ∧ s.crew.rings.length = 8 ∧
    rngRefused { s with crew := { s.crew with rings := s.crew.rings.set 1 { ringAt s 1 with res := 1 } } } 1 = true := by
  decide +kernel
theorem witness_copySlices : let s := kk 1 0x00FF000000000100 (kk 2 0xFF (kk 3 0x100 crew))
    ready s (.cpy 1 1 0) = true ∧ ready s (.cpym 2 1 1 0) = true ∧ s.crew.dispatch = false ∧
    readRecord s needRec 64 0x00FF000000000100 64 = .ok (List.replicate 64 0) ∧ recByte (List.replicate 64 0) 0 ≠ 1 ∧
    isOk (readRecord s needRec 64 0x00FF000000000101 64) = false ∧ 256 ≤ (kget s 3).toNat ∧ (kget s 2).toNat < 256 ∧
    (openCollective s 1 none).isSome = true ∧ (1 : Nat) < s.crew.rings.length := by decide +kernel
theorem witness_growth : let d : List Byte := [1, 0, 0, 0, 0, 0x10, 0, 0] ++ List.replicate 56 0
    let s := kk 1 0x00FF000000000100 (tile 0x100 d crew)
    ready s (.cpy 1 1 0) = true ∧ readRecord s needRec 64 0x00FF000000000100 64 = .ok d ∧ recByte d 0 = 1 ∧ recNat d 1 3 = 0 ∧
    recNat d 12 52 = 0 ∧ recNat d 4 4 = 4096 ∧ s.crew.live = true ∧ s.clus.id = s.crew.clus ∧ s.nextId < 2 ^ 64 ∧ s.clus.grows = [] ∧
    s.crew.cmbase + s.crew.cmsize + 4096 ≤ sliceBase s.crew.clus + 0x400000 ∧ s.allCrews.all (fun c => c.id == s.crew.id) = true ∧
    anyLane s = true := by decide +kernel
/-- A grow request of the focused crew that another crew's memory stands in the way of. -/
def growing : State := { crew with
  clus := { crew.clus with grows := [{ id := 40, crew := crew.crew.id, size := 4096, limit := 10, since := 0, rank := 0, number := 0, result := none }] }
  crews := [{ crew.crew with id := 7, cmbase := tileBase + 0x1000 }], cycle := 10 }

/-- A flat tensor of rank 2. -/
def ten (base d0 d1 step fmt : Nat) : Tensor :=
  { base := base, dims := [d0, d1, 1, 1], strides := [step, 0, 0], sbase := 0, fmt := fmt, rank := 2, scaleFmt := 0, group := 0
    cform := 0, strict := false }

/-- A tensor of the context defined. -/
def tdef (n : Nat) (t : Tensor) (s : State) : State :=
  { s with ctx := { s.ctx with tensors := sset none s.ctx.tensors n (some t) } }

/-- A task record: a product of one element, its count on barrier 3. -/
def taskRec : List Byte :=
  [1, 1, 3, 0, 0, 0, 0, 0] ++ List.replicate 20 0 ++ [1, 2, 0, 4] ++ List.replicate 12 0 ++ natLE 1 4 ++ natLE 1 2 ++ natLE 1 2 ++
    List.replicate 12 0

/-- A machine whose tile memory holds three tensors and the record at offset 0x400. -/
def tiles : State := tile 0x400 taskRec (tdef 1 (ten (tileBase + 0x100) 1 1 64 7) (tdef 2 (ten (tileBase + 0x200) 1 1 64 7)
  (tdef 4 (ten (tileBase + 0x300) 1 1 64 6) (kk 1 0x00FF000000000400 (kk 2 1 crew)))))

/-- The record posted. -/
def posted : State := after (.tqput 1) tiles
/-- The posted task started. -/
def started : State := after .tileTaskDispatch posted

/-- A CPY descriptor: one element from tensor 1 to tensor 5. -/
def sliceRec : List Byte :=
  [0, 1, 5, 0] ++ List.replicate 32 0 ++ natLE 1 4 ++ natLE 1 4 ++ natLE 1 4 ++ natLE 1 4 ++ List.replicate 12 0
/-- The descriptor handed over, and its command started. -/
def copying : State :=
  after .copyCommandStart (after (.cpy 1 3 0) (kk 3 0x00FF000000000500 (tile 0x500 sliceRec (tdef 5 (ten 0 1 1 64 7) tiles))))

/-- A FETCH tensor of 32 elements, one bitmap block of 8-bit elements with no bit set. -/
def fetchTen : Tensor := { ten (tileBase + 0x600) 32 1 1 2 with cform := 1, dims := [32, 1, 1, 1], strides := [0, 0, 0], rank := 1 }

/-- Merge-path rows: two rows of one item each, two lanes' worth. -/
def mpathRec : List Byte := natLE 0x10020 8 ++ natLE 2 4 ++ natLE 2 4 ++ natLE 2 4 ++ List.replicate 12 0
def merging : State := kk 1 0x10000 (xx 2 (fun l => BitVec.ofNat 32 (l % 2))
  (at_ 0 (mpathRec ++ natLE 0 4 ++ natLE 1 4 ++ natLE 2 4) { base with sp := { base.sp with active := 3 } }))

/-- A neighbour-list descriptor: two integer points one apart. -/
def nlRec (flags : Nat) : List Byte :=
  natLE (tileBase + 0x700) 8 ++ natLE 2 4 ++ natLE flags 1 ++ natLE 0 3 ++ natLE 100 4 ++ natLE 100 4 ++ natLE 100 4 ++ natLE 4 4 ++
    natLE 0 4 ++ natLE 1 2 ++ natLE 1 2 ++ natLE 1 2 ++ natLE 0 6 ++ natLE 0x18000 8 ++ natLE 8192 8 ++
    natLE (tileBase + 0x800) 8 ++ natLE 8 4 ++ natLE 0 52
def points : List Byte := natLE 5 4 ++ natLE 5 4 ++ natLE 5 4 ++ natLE 0 4 ++ natLE 6 4 ++ natLE 5 4 ++ natLE 5 4 ++ natLE 0 4
def neighbours (flags : Nat) : State :=
  kk 1 0x00FF000000000900 (kk 2 1 (tile 0x900 (nlRec flags) (tile 0x700 points crew)))

/-- A rule record: CLAMP of feature 0 to the range 1 to 2. -/
def clampRule : List Byte := natLE 0 4 ++ natLE 0x3F800000 4 ++ natLE 0x40000000 4 ++ [2, 0, 0, 0]
/-- The machine with a rule-table root in the cell at VA 0x20000: lists in tile memory, one request. -/
def rooted : State :=
  { after (.mst 4 1 0 7) (kk 1 0x20000 (kk 4 0x00FF000000010000 (kk 5 1 { cells with crew := { cells.crew with handler := 0x10000 } }))) with
    sp := base.sp }
/-- A tap descriptor of one row and one feature, and its tensors. -/
def tapRec : List Byte :=
  [0, 0, 3, 0, 1, 2, 3, 4, 5, 6, 0, 0] ++ natLE 0 4 ++ natLE 1 4 ++ natLE 1 4 ++ natLE 1 1 ++ natLE 0 7 ++ natLE 0x20000 8 ++
    natLE 0 8 ++ natLE 0x19000 8 ++ natLE 0x1A000 8
def row1 (b f : Nat) : Tensor := { ten b 1 1 64 f with rank := 1, strides := [0, 0, 0] }
def tappable : State :=
  kk 8 0x10400 (at_ 0x400 tapRec (tile 0x10000 clampRule (tdef 1 (ten (tileBase + 0xA00) 1 1 64 6)
    (tdef 2 (row1 (tileBase + 0xB00) 13) (tdef 3 (ten (tileBase + 0xC00) 1 1 64 7) (tdef 4 (ten (tileBase + 0xC40) 1 1 64 7)
      (tdef 5 (row1 (tileBase + 0xC80) 6) (tdef 6 (row1 (tileBase + 0xCC0) 6) rooted))))))))
/-- The tap that the descriptor starts. -/
def tapped : State := { tappable with nextId := 5, ctx := { tappable.ctx with taps :=
  [{ id := 4, clus := 0, desc := tapDesc tappable tapRec, crew := tappable.crew.id, warp := 3, number := 0, index := 0, core := 0
     quad := 0, flog := 0, pc := 0x10000, stage := .root, since := 0, at_ := 0, root := none, before := [], taken := [], rows := [], intakeDone := false, fault := none }] } }
/-- A task's outcome of one row group. -/
def groupOk (s : State) (cl e : Nat) : Bool := match focusTask s cl (runningOn e) with
  | some (u, t) => isOk (groupWork u t)
  | none => false

theorem witness_growDecisions : (growStep (focusOn growing 0 0 0) (openGrows (focusOn growing 0 0 0))).isNone = true ∧
    growLate growing (growing.clus.grows.headD ⟨0, 0, 0, 0, 0, 0, 0, none⟩) = true ∧ (pack growing).cluss.map (fun c => c.id) = [0] ∧
    (crewAt growing growing.crew.id).isSome = true ∧ goes .growTimeout growing = true ∧
    goes .growDecided { growing with crews := [] } = true ∧
    (growing.clus.grows.all (fun g => growImpossible growing.crew { g with size := 0x400000 }) = true) ∧
    holdersOf growing growing.crew.id (tileBase + 0x1000) (tileBase + 0x2000) ≠ [] ∧
    growing.clus.grows.all (fun g => !growImpossible growing.crew g) = true := by decide +kernel
theorem witness_ringWaits : let s := kk 1 1 crew
    let filled := { s with crew := { s.crew with rings := s.crew.rings.set 1 { ringAt s 1 with res := 1, fil := 1 } } }
    ready s (.awaitf 1) = true ∧ ready s (.awaitfC 1 0) = true ∧ (ringAt s 2).bound = false ∧ (ringAt s 1).bound = true ∧
    (ringAt s 1).chunkCount ≤ (kget s 1).toNat ∧ (ringAt s 1).fil ≤ (ringAt s 1).cursor s.w.id ∧ (ringAt s 1).fault = none ∧
    (ringAt filled 1).cursor s.w.id < (ringAt filled 1).fil ∧ (kget filled 0).toNat < (ringAt filled 1).chunkCount ∧
    ready filled (.rels 1) = true ∧ ready filled (.rngst 1 1) = true := by decide +kernel
theorem witness_ringFault : let f : HeldFault := { cause := cProt, addr := 7, slot := 0, delivered := false }
    let s := { crew with crew := { crew.crew with rings := crew.crew.rings.set 1 { ringAt crew 1 with fault := some f, chunks := [0] } } }
    (ringAt s 1).bound = true ∧ (ringAt s 1).fil ≤ (ringAt s 1).cursor s.w.id ∧ f.slot = (ringAt s 1).cursor s.w.id ∧
    f.cause ≠ cPage ∧ 0 ∈ (ringAt s 1).chunks ∧ (ringAt s 1).cursor s.w.id = (ringAt s 1).fil := by decide +kernel
theorem witness_copyEngine : (match focusCommand copying 0 0 with
      | some (u, c) => (match collectiveOf u c with
        | some g => c.running && !c.stalled && (workChunk u c g).2.2.isNone && decide (c.ring < u.crew.rings.length)
        | none => false)
      | none => false) = true ∧
    (match focusCommand { copying with ctx := { copying.ctx with tensors := [] } } 0 0 with
      | some (u, c) => (match collectiveOf u c with
        | some g => c.running && (workChunk { u with ctx := { u.ctx with part := 1 } } c g).2.2.isSome
        | none => false)
      | none => false) = true ∧ goes (.chunkFilled 0 0) copying = true := by decide +kernel
theorem witness_fences : ready base (.fence 63 63 2) = true ∧ base.clus.tasks = [] ∧ base.nles = [] ∧ base.ctx.taps = [] ∧
    ready base (.cinvL1 1 2) = true ∧ ready base (.cinvDie 1 2) = true ∧ posted.clus.tasks.all (fun t => t.warp == posted.w.id) = true ∧
    posted.clus.tasks ≠ [] ∧ (63 : BitVec 6).extractLsb' 4 2 ≠ 0 := by decide +kernel
theorem witness_fetch : let s := kk 1 0x109 (xx 2 (fun l => BitVec.ofNat 32 l) (tdef 9 fetchTen base))
    ready s (.fetch 4 2 1 0) = true ∧ (kget s 1).toNat < 2 ^ 11 ∧ tensorAt s 9 = some fetchTen ∧ fetchTen.cform ≠ 0 ∧
    typeWidth fetchTen.fmt = 16 ∧ ready base (.fetch 4 2 0 0) = true ∧ tensorAt base 0 = none ∧ ready (kk 1 9 s) (.finv 1) = true ∧
    fetchTen.count = 32 := by decide +kernel
theorem witness_compressed : blockBody 1 1 [3, 0, 0, 0, 2, 0, 0, 0] [7, 9] = some ([7, 9] ++ List.replicate 30 0) ∧
    blockBody 2 1 [1, 0, 0, 0] [32, 5] = some (List.replicate 32 5) := by decide +kernel
theorem witness_mergePath : ready merging (.mpath 4 2 1 0) = true ∧ isOk (readRecord merging needRecPage 32 0x10000 32) = true ∧
    badOffset (mpathChecks mpathRec) = none ∧ badOffset (mpathChecks (List.replicate 32 0)) = some 16 ∧
    isOk (mpathLanes merging mpathRec 2 [0, 1]) = true ∧ isOk (readRecord merging needRecPage 32 0x10001 32) = false ∧
    isOk (mpathLane merging mpathRec 2) = true ∧ recNat mpathRec 16 4 = 2 := by decide +kernel
/-- A tensor record. -/
def tenRec : List Byte := natLE tileBase 8 ++ natLE 4 4 ++ natLE 4 4 ++ natLE 1 4 ++ natLE 1 4 ++ natLE 16 4 ++ natLE 0 20 ++ [6, 2] ++ natLE 0 14
theorem witness_tdef : let s := kk 1 255 (kk 2 0x00FF000000000400 (tile 0x400 tenRec base))
    ready s (.tdef 1 2) = true ∧ readRecord s needR 64 0x00FF000000000400 64 = .ok tenRec ∧ badOffset (tensorChecks tenRec) = none ∧
    (badOffset (tensorChecks (List.replicate 64 0))).isSome = true ∧ (kget s 1).toNat ≤ 255 ∧ (kget (kk 1 256 s) 1).toNat = 256 := by
  decide +kernel
theorem witness_taskPosting : ready tiles (.tqput 1) = true ∧ readRecord tiles needR 64 0x00FF000000000400 64 = .ok taskRec ∧
    taskRefusal tiles (captureTask tiles 0x00FF000000000400 taskRec) = none ∧
    taskRefusal tiles (captureTask tiles 0x00FF000000000400 (List.replicate 64 0)) = some 1 ∧
    (tiles.clus.tasks.filter (fun x => x.ctx == tiles.ctx.id)).length < 256 := by decide +kernel
theorem witness_taskWaits : let counted := { posted with ctx := { posted.ctx with counts := [(3, 1)] } }
    let failed := { posted with ctx := { posted.ctx with failed := [(3, [0x400])] } }
    ready posted (.twait 3 2) = true ∧ ready posted (.tpoll 1 3 2) = true ∧ ready posted (.tstat 1 1) = true ∧
    sget [] posted.ctx.failed 3 = [] ∧ countHolds 1 1 = true ∧ countHolds 0 1 = false ∧ (sget 0 counted.ctx.counts 3).toNat = 1 ∧
    (sget [] failed.ctx.failed 3).length = 1 ∧ deliverable failed = true ∧ (taskOf posted 0x00FF000000000400).isSome = true ∧
    (taskOf tiles 0x00FF000000000400).isNone = true ∧ keyOf (checkAccess tiles needR 0x00FF000000000408 8) = some 0x00FF000000000408 := by
  decide +kernel
/-- A task that waits on barrier 5 fails, and marks its own barrier 3, when barrier 5's mark is cleared (R222). -/
theorem test_dependents : let t0 := captureTask tiles 0x00FF000000000400 ([1, 1, 3, 1, 5] ++ taskRec.drop 5)
    let s := { posted with
      clus := { posted.clus with tasks := [t0] }, ctx := { posted.ctx with failed := [(5, [0x80])] } }
    let t := clearMark s 5
    dependsOnFailure s t0 = true ∧ t.clus.tasks = [] ∧ marksAt t 0 5 = [] ∧ marksAt t 0 3 = [0x00FF000000000400] ∧
      byteAt t.mem 0x00FF000000000408 = 6 ∧ byteAt t.mem 0x00FF000000000409 = 0x13 := by decide +kernel
theorem witness_tileEngine : (startTask (pack posted) 0).isSome = true ∧ (freeEngine posted 0).isSome = true ∧
    groupOk started 0 0 = true ∧ goes .tileTaskDispatch posted = true := by decide +kernel
theorem witness_tileFaults :
    goes (.taskFault 0 0) { started with clus := { started.clus with tasks := started.clus.tasks.map (fun t =>
      { t with ta := { t.ta with base := 0x40000 } }) } } = true ∧
    goes (.taskFault 0 0) { started with clus := { started.clus with tasks := started.clus.tasks.map (fun t =>
      { t with ta := { t.ta with base := tileBase + 0x1000000 } }) } } = true := by decide +kernel
theorem witness_neighbourLists : ready (neighbours 1) (.nlbin 1) = true ∧ ready (neighbours 1) (.nlpair 1 2) = true ∧
    ready (neighbours 1) (.nlstat 3 1) = true ∧ badOffset (nlChecks (nlRec 1)) = none ∧ (badOffset (nlChecks (nlRec 64))).isSome = true ∧
    nlBlock (nlRec 3) = true ∧ nlBlock (nlRec 1) = false ∧ nlStaleTrap (nlRec 1) = false ∧
    readRecord (neighbours 1) needRec 64 0x00FF000000000900 128 = .ok (nlRec 1) ∧ (ringAt (neighbours 1) 1).bound = true ∧
    (ringAt (neighbours 1) 2).bound = false ∧ (statOf (neighbours 1) 1 0x00FF000000000900).held = none := by decide +kernel
/-- The engines' record of two binned points. -/
def binned : State := { neighbours 1 with nleStats :=
  [{ statOf (neighbours 1) 1 0x00FF000000000900 with flags := nsBinned, maxocc := 2, geom := nlRec 1, snapshot := [(5, 5, 5), (6, 5, 5)] }] }
/-- A stream, before and after its check. -/
def streaming : State := after (.nlpair 1 1) binned
def checked : State := after (.nleSlotFilled 4) streaming
theorem witness_neighbourEngine : let bins := after (.nlbin 1) (neighbours 1)
    (focusOp bins 4 .bin).isSome = true ∧ (match focusOp bins 4 .bin with
      | some (t, o) => isOk (nlPoints t o o.desc)
      | none => false) = true ∧ goes (.nleFault 4) { bins with mem := [] } = true ∧
    (focusOp streaming 4 .stream).isSome = true := by decide +kernel
/-- A run that stays in the page of a key already checked passes. -/
theorem run_in_page (s : State) (n : Need) : ∀ (k va key : Nat), (∀ i < k, (va + i) % 0x10000 ≠ 0) →
    isOk (checkRunFrom s n (some key) va k) = true
  | 0, _, _, _ => rfl
  | k + 1, va, key, h => by
    have h0 : (va % 0x10000 == 0) = false := by simpa using h 0 (Nat.succ_pos k)
    have ih := run_in_page s n k (va + 1) (key + 1) (fun i hi => by
      have := h (i + 1) (by omega)
      rwa [show va + (i + 1) = va + 1 + i by omega] at this)
    simp only [checkRunFrom, h0, Bool.false_eq_true, if_false]
    cases hr : checkRunFrom s n (some (key + 1)) (va + 1) k with
    | ok ks => rfl
    | error e => simp [hr, isOk] at ih
theorem run_of_page (s : State) (n : Need) (va k : Nat) (h : (keyOf (checkAccess s n va 1)).isSome = true)
    (hp : va % 0x10000 + k < 0x10000) : isOk (checkRun s n va (k + 1)) = true := by
  cases hc : checkAccess s n va 1 with
  | bad c => simp [hc, keyOf] at h
  | ok key =>
    have := run_in_page s n k (va + 1) key (fun i hi => by omega)
    simp only [checkRun, checkRunFrom, hc]
    cases hr : checkRunFrom s n (some key) (va + 1) k with
    | ok ks => rfl
    | error e => simp [hr, isOk] at this
/-- The work area of a binning can be written whole. -/
theorem witness_binWork : let s := after (.nlbin 1) (neighbours 1)
    isOk (checkRun s needSpillW 0x18000 (nlWork (nlRec 1))) = true := by
  have h : nlWork (nlRec 1) = 4391 + 1 := by decide +kernel
  rw [h]
  exact run_of_page _ _ _ _ (by decide +kernel) (by decide)
theorem witness_neighbourStream : (match focusOp streaming 4 .stream with
      | some (t, o) => o.todo.isNone && isOk (streamCheck t o)
      | none => false) = true ∧ (match focusOp checked 4 .stream with
      | some (t, o) => o.todo.isSome && streamReady t o
      | none => false) = true := by decide +kernel
theorem witness_blockTable : (match focusOp (after (.nlpair 1 0) { binned with mem := (neighbours 3).mem }) 4 .table with
      | some (t, o) => isOk (tableWork t o)
      | none => false) = true := by decide +kernel
theorem witness_geometry : nlLength (nlRec 1) 0 = some 100 ∧ nlCoord (nlRec 1) (5, 5, 5) 0 = some 5 ∧
    nlCellOn (nlRec 1) (5, 5, 5) 0 = some 0 ∧ nlCellOn (nlRec 1) (100, 5, 5) 0 = none ∧ nlPeriodic (nlRec 1) 0 = false ∧
    nlPeriodic (nlRec 5) 0 = true ∧ leastImage (nlRec 5) 0 50 = (-1, -50) ∧ nlInt (nlRec 1) = true ∧
    (nlPairs 0x45 (nlRec 1) [] [(5, 5, 5), (6, 5, 5)]).length ≤ 1 := by decide +kernel

theorem witness_taps : ready tappable (.tap 8) = true ∧ readRecord tappable needRecPage 64 0x10400 64 = .ok tapRec ∧
    badOffset (tapChecks tappable tapRec) = none ∧ slotTap tappable 0 = none ∧ (badOffset (tapChecks base tapRec)).isSome = true ∧
    ready tapped (.tapw 0 0) = true ∧ (slotTap tapped 0).isSome = true ∧ anyLane tappable = true ∧
    (slotTap tapped 0).all (fun t => t.fault.isNone && t.holds) = true := by decide +kernel
theorem witness_records : let r : TapRecord := { tap := 4, request := 0, position := 0, rule := 0, layer := 3, slot := 0, feature := 0
                                                 threshold := 0, value := 0, row := 0 }
    let s := { tapped with crew := { tapped.crew with records := [r], edit := some [0, 0, 0, 0] } }
    ([.taprd 4, .taped 1, .tapresCont, .tapresAbort, .tapresEdit] : List Instr).all (ready s) = true ∧ tapped.crew.records = [] ∧
    (tapOf s 4).isSome = true ∧ s.crew.records ≠ [] ∧ tapped.crew.edit = none := by decide +kernel
theorem witness_frule : let s := kk 9 0x10800 (kk 10 0 (kk 11 0x20000 (at_ 0x800 clampRule rooted)))
    ready s (.frule 9 10) = true ∧ readRecord s needR 16 0x10800 16 = .ok clampRule ∧ checkCell s needRW 0x20000 = .ok majBase ∧
    cellBusy s (cellOf majBase) = false ∧ fruleBusy s (cellOf majBase) = false ∧ clampRule.length = 16 ∧ ruleBad clampRule = false ∧
    ruleBad (List.replicate 16 1) = true ∧ checkCell s needRW 0x20001 = .bad cAlign ∧
    (match majLoad s 0 with | .done _ v _ => (v.extractLsb' 64 32).toNat | _ => 0) = 1 := by decide +kernel
/-- The stages of the tap. -/
def intake : State := after (.fduRootRead 4) tapped
def rowsIn : State := { after (.fduIntakeEnd 4) intake with late := [] }
def encoding : State := after .tileTaskDispatch rowsIn
def encoded : State := after (.fduEncoderTaskDone 4) encoding
def selected : State := after (.fduSelectDone 4) encoded
def ruled : State := after (.fduRuleUnit 4) selected
theorem witness_featureUnit : (focusTap tapped 4).isSome = true ∧ goes (.fduRootRead 4) tapped = true ∧
    goes (.fduIntakeEnd 4) intake = true ∧ goes (.fduFault 4) { tapped with mem := [] } = true := by decide +kernel
theorem witness_featureStages : goes (.fduEncoderTaskDone 4) rowsIn = true ∧ goes (.fduSelectDone 4) encoded = true := by
  decide +kernel
theorem witness_featureRules : goes (.fduRuleUnit 4) selected = true ∧ goes (.fduWriteback 4) ruled = true ∧
    goes (.fduRuleUnit 4) (onRow ruled 4 0 (fun x => { x with held := false })) = true := by decide +kernel
theorem witness_featureValues : selectTop 1 [0x3F800000, 0x40000000, 0] = [(1, 0x40000000)] ∧ (selectTop 3 [0x3F800000]).length = 1 ∧
    (selectTop 0 [0x3F800000]).length = 0 ∧ selectTop 1 [0x3F800000, 0x3F800000] = [(0, 0x3F800000)] ∧ recByte clampRule 13 % 2 = 0 ∧ recByte (List.replicate 16 1) 12 = 1 := by decide +kernel

/-- A launch record of one crew. -/
def launchRec : List Byte :=
  natLE 0x10000 8 ++ natLE 0 20 ++ natLE 1 4 ++ natLE 0x1000 4 ++ [8] ++ natLE 0 28 ++ [1] ++ natLE 64 2 ++ natLE 0 4 ++ natLE 1 4 ++
    natLE 12288 4 ++ natLE 0 48
/-- The machine with the record at VA 0x10800, and one launch waiting. -/
def queued : State :=
  let s := kk 1 0x10800 (at_ 0x800 launchRec base)
  { s with ctx := { s.ctx with
      launches := callee.ctx.launches.map (fun l => { l with admitted := false })
      nextLaunch := 2 } }
theorem witness_drafts : let s := kk 1 0xFFFF (kk 2 0x10000 (kk 3 65280 (kk 4 255 base)))
    ready s (.shape 5 1) = true ∧ ready s (.accup 3 4) = true ∧ (kget s 2).toNat = 2 ^ 16 ∧ (kget s 3).toNat = 65280 ∧
    (kget s 4).toNat = 255 ∧ 65280 < (kget s 2).toNat := by decide +kernel
theorem witness_launches : ready queued (.launch 3 1) = true ∧ (queuedLaunches queued).length < 64 ∧
    isOk (readLaunch (laneReader queued) queued 0x10801) = false ∧ isOk (readLaunch (.device 0) queued 0x10801) = false ∧ (focusCtx queued queued.ctx.id).isSome = true ∧
    (firstOfClass queued (queued.ctx.launches.filter (fun l => !l.admitted))).isSome = true := by decide +kernel
theorem witness_launchRecord : let s := writeKey queued 0x12000 (natLE 0xB9 8)
    isOk (readLaunch (laneReader s) s 0x20800) = true ∧ isOk (readLaunch (.device 0) s 0x20800) = true := by decide +kernel
theorem witness_binds : (1 <<< 248 : BitVec 256).toNat / 2 ^ 248 ≠ 0 ∧ bindLaunch base (bindOf 0) = none ∧
    (drainFirst { base with clus := { base.clus with binds := [0] } } (pack { base with clus := { base.clus with binds := [0] } }).cluss).isSome = true ∧
    (64 : Nat) ≤ (List.replicate 64 rec0).length := by decide +kernel
theorem witness_majorityEvents : majBase + 32 * 5 < majEnd base.shape ∧ (match majLoad base 5 with | .done _ _ _ => true | _ => false) = true ∧
    (match majStore base 5 0xF1F 7 with | .done b _ _ => b | _ => false) = true ∧
    (match majCas base 5 0xF1F 0 7 with | .done b _ _ => b | _ => false) = true ∧
    (match raiseReady base 5 0xF1F 1 (pastNow base) with | .done b _ _ => b | _ => false) = true ∧
    majLoad { base with hbm := base.hbm.map (fun _ => .retired) } 5 = .fail ∧ (setStacks base 5).Nodup ∧
    base.hbm[0]? = some .inService ∧ goes (.stackReturn ⟨0, 0⟩) { base with hbm := base.hbm.set 0 .retired } = true ∧ 0 < setCount base.shape ∧
    (firstTrsig (after (.trsig 1 2) (kk 1 0x20000 cells)) (after (.trsig 1 2) (kk 1 0x20000 cells)).trsigs).isSome = true ∧
    rebuildingIn { base with hbm := base.hbm.set 0 .rebuilding } 0 ≠ [] := by decide +kernel
/-- A split that has waited for a majority, and for a token, since clock 0. -/
def waiting (i : Instr) : State := pack { cells with cycle := 65536, sp := { cells.sp with state := .waiting, wait := some i } }
theorem witness_majorityWaits : (splitsWhere (waiting (.mld 4 1 0)) (fun _ p => majorityLate 65536 p)).length = 1 ∧
    (focusSplit (waiting (.mld 4 1 0)) 3 0).w.live = true ∧ (focusSplit (waiting (.mld 4 1 0)) 3 0).sp.alive = true ∧
    (focusSplit (waiting (.trwait 1 2)) 3 0).sp.wait = some (.trwait 1 2) ∧
    ((after (.trsig 1 2) (kk 1 0x20000 cells)).trsigs.find? (fun u => decide (u.since + 65536 ≤ 65536))).isSome = true := by
  decide +kernel
theorem witness_contextEvents :
    (({ base with crew := { base.crew with budget := some 0 } } : State).allCrews.find? Crew.spent).isSome = true ∧
    (focusCrew base 2).crew.live = true ∧ (focusCrew base 2).crew.state = .running ∧ (focusCtx base 1).isSome = true ∧
    base.ctx.place = .running ∧ base.ctx.preempt = none ∧
    (({ base with ctx := { base.ctx with preempt := some 0 } } : State).allCtxs.find? (saveDue base)).isSome = true ∧
    partitionBusy { base with ctx := { base.ctx with place := .saved } } base.ctx.part = false ∧ (7 : Nat) < 8 ∧
    base.w.strand ||| base.w.exited ≠ 0xFFFFFFFF := by decide +kernel
theorem witness_resume : let s := { base with crew := { base.crew with state := .parked, parkKind := .level0 } }
    let t := { handler base with crew := { base.crew with state := .parked, parkKind := .level1 } }
    (focusCrew s 2).crew.parkKind ≠ .level1 ∧ goes (.resume 2 0) s = true ∧ (focusCrew t 2).crew.parkKind = .level1 ∧
    isOk (unwindAll (((focusCrew t 2).warpsOf 2).map (fun w => w.id)) (focusCrew t 2)) = true := by decide +kernel
theorem witness_places : ({ base.ctx with place := .saved } : Ctx).place = .saved ∧
    goes (.contextRestore 1) { base with ctx := { base.ctx with place := .saved } } = true ∧
    goes (.darkslideSwap 1) { base with ctx := { base.ctx with place := .darkslide } } = true ∧
    ({ base.sp with state := .sleeping } : Split).state = .sleeping := by decide +kernel
theorem witness_issueEvents : let s := { base with sp := { base.sp with out := [⟨0, [], 0x10000, .load, [], 0⟩] } }
    s.sp.out ≠ [] ∧ decode 0 = .error .illegal ∧ decode 0xFF000000 = .error .illegal ∧ frozenWarps base .warp 3 ≠ [] ∧
    (focusSplit (pack base) 3 0).sp.state = .ready ∧ (1023 : Nat) < 1024 ∧
    fetchWord { base with sp := { base.sp with pc := 0x20000 } } = .error cPage ∧
    (focusSplit (pack { base with sp := { base.sp with state := .stopped, stoppedIn := .ready } }) 3 0).sp.state = .stopped := by
  decide +kernel
theorem witness_notes : let s := pack { base with w := { base.w with notes := [some 7, none] }, crew := { base.crew with handler := 0x10000 } }
    (s.warps.find? (noteReady s)).isSome = true ∧ (s.warps.find? (noteReady s)).all (fun w => (oldestReady w).isSome) = true := by
  decide +kernel
theorem witness_timed : let s := pack { base with sp := { base.sp with state := .sleeping, wait := some (.sleep 1) } }
    let o := pack { base with cycle := 512, w := { base.w with overflow := [{ base.sp with slot := 16 }] } }
    (s.warps.find? (fun w => w.splits.any (sleepOver s.cycle.toNat))).isSome = true ∧
    (o.warps.find? (fun w => w.overdue o.cycle.toNat)).isSome = true := by decide +kernel
theorem witness_sheet : (0x40000 : Nat) % 4096 = 0 ∧ physOk base.shape 0x40000 64 = true ∧ (focusCtx base 1).isSome = true ∧
    tier2Base ≤ tier2Base ∧ tier2Base + 64 ≤ tier2End := by decide +kernel
theorem witness_outside : (31 : Nat) < 32 ∧ 0 + 65536 ≤ hbmEnd ∧
    (base.allCtxs.find? (fun x => x.id == base.ctx.id)).isSome = true ∧ physOk base.shape 0x20800 18 = true ∧
    ∃ w ∈ ({ base.dev with hostWindows := [(0, 0x10000)] } : Device).hostWindows, w.1 ≤ 0x1000 ∧ 0x1000 + 16 ≤ w.1 + w.2 := by
  refine ⟨by decide, by decide, by decide +kernel, by decide +kernel, (0, 0x10000), ?_, by decide, by decide⟩
  exact List.mem_singleton.2 rfl
theorem witness_frame : (readFrame base 0x30000).width % 16 = 0 ∧ (readFrame base 0x30000).format ≤ 1 ∧
    physOk base.shape (readFrame base 0x30000).pa (readFrame base 0x30000).bytes = true := by decide +kernel
/-- The hypotheses of a step: no event, no wait over, the issue's turn, and ADDI at the PC. -/
theorem witness_step : let s := State.reset.withFetchWord 32 0x40082001
    s.env.inbox = [] ∧ (firstNext (settle (pack s)) dueEvents).isNone = true ∧ (resumeFirst (settle (pack s)) (stalled (settle (pack s)))).isNone = true ∧
    s.dev.boot = .running ∧ s.env.turns.head? = some false ∧ nextKey s = some 0x20000 ∧
    decode (wordOfBytes (bytesAt s.mem 0x20000 4)) = .ok (.addi 2 2 1) ∧ interlocked base = false ∧ armedAt base = false ∧ breakAt base = false ∧
    (firstNext (pack s) (engineEvents (pack s))).isNone = true ∧ (completeStep (takeTurn (settle (pack s)))).isNone = true ∧
    (choose (takeTurn (settle (pack s))) (freeCands (takeTurn (settle (pack s))) (candidates (takeTurn (settle (pack s)))))).isSome = true := by decide +kernel
theorem witness_arrives : arrives base .deviceReset = true ∧ Instr.wf (.add 63 63 31 1) = true := by decide +kernel
/-- One step from the machine with ADDI placed: x2 becomes 1 and the PC moves on. -/
theorem test_step : (match step (State.reset.withFetchWord 32 0x40082001) with
    | .next t => (xget (focusSplit t 3 0) 31 2, (focusSplit t 3 0).sp.pc, t.cycle)
    | _ => (0, 0, 0)) = (1, 0x10004, 1) := by decide +kernel
/-- Taking an exception: the words of R88 and R250 after TRET at level 0 in a crew without a handler. -/
theorem test_trap : let t := after .tret base
    t.w.trapc = 0x02 ∧ t.w.trapv = 0x11000000 ∧ t.w.trappc = 0x10000 ∧ t.crew.state = .parked := by decide +kernel
/-- Returning from one: TRET at level 1 goes to TRAPPC with MODE restored. -/
theorem test_tret : let s := handler base
    let t := after .tret { s with w := { s.w with trappc := 0x10040, savedMode := 0x79, savedSig := 5 } }
    t.sp.pc = 0x10040 ∧ t.sp.level = 0 ∧ t.w.mode = 0x79 ∧ t.sp.sig = 5 ∧ t.sp.wbase = 0 := by decide +kernel
theorem test_reset_memory : Memory.wf State.reset.mem = true := by decide

/-! States that meet the hypotheses of the clauses about logging, merges, waits, faults and events. -/

/-- The machine with a fault log whose root stands in the cell at VA 0x20000: HEAD 2 and LHEAD 1, with CAP places each. -/
def logging (cap : Nat) : State := match majStore { cells with crew := { cells.crew with flog := 0x20000 } } 0 3
    (BitVec.ofNat 256 (2 + 2 ^ 32 + 0x10000 * 2 ^ 64 + cap * 2 ^ 128 + cap * 2 ^ 160 + 0x10200 * 2 ^ 192)) with
  | .done _ _ t => t
  | _ => cells
/-- A place of the log can be claimed and written. -/
def claims (s : State) (lo at_ size : Nat) : Bool := match majLoad s 0 with
  | .done _ root t => (match majCas t 0 (warpWid s.w) (root.extractLsb' 0 64)
      (BitVec.ofNat 256 (root.toNat - bitsOf root.toNat lo 32 * 2 ^ lo + (bitsOf root.toNat lo 32 + 1) % 2 ^ 32 * 2 ^ lo)) with
    | .done true _ u => isOk (writeRun u needW (at_ + bitsOf root.toNat lo 32 % 4 * size) (List.replicate size 0))
    | _ => false)
  | _ => false
theorem witness_strandLogged : let s := logging 4
    s.w.live = true ∧ s.crew.flog ≠ 0 ∧ checkCell s needAtomic s.crew.flog.toNat = .ok majBase ∧
    quadBusy s (warpWid s.w) (cellOf majBase) = false ∧ s.logs = [] ∧ claims s 0 0x10000 32 = true ∧ claims s 32 0x10200 16 = true ∧
    (match majLoad (logging 0) 0 with | .done _ root _ => bitsOf root.toNat 128 32 == 0 | _ => false) = true := by decide +kernel
/-- Two splits of one warp at the point 0x10040: the lanes each was to meet, and the second's spill floor and frames. -/
def meeting (want : Mask) (floor : Nat) (frames : BitVec 32) : State :=
  let p : Split := { base.sp with state := .waitRcv, wait := some .rcv, rpc := 0x10040, pc := 0x10040, rmask := want }
  packSplit { base with sp := { p with active := 0xFFFF }, w := { base.w with splits :=
    [{ p with slot := 1, age := 7, active := 0xFFFF0000, sfloor := floor, frames := frames }] } }
theorem witness_merges : let s := meeting 0xFFFFFFFF 0 0
    let g := groupAt s 0x10040
    completePoint s = some 0x10040 ∧ g.length = 2 ∧ (oldestSplit g).isSome = true ∧ s.crew.state = .running ∧
    heldByCrew s = false ∧ checkSlide s needSpillW (levelAddrs s g 0) = none ∧
    g.foldl (fun m p => m ||| p.active) 0 = g.foldl (fun m p => m ||| p.rmask) 0 ∧
    (groupAt (meeting 1 0 0) 0x10040).foldl (fun m p => m ||| p.rmask) 0 = 1 ∧
    (groupAt (meeting 1 0 7) 0x10040).map (fun p => p.frames) = [0, 7] ∧
    (checkSlide (meeting 1 4 0) needSpillW (levelAddrs (meeting 1 4 0) (groupAt (meeting 1 4 0) 0x10040) 4)).isSome = true ∧
    completePoint base = none ∧ (∃ p ∈ s.w.splits ++ s.w.overflow, p.state = .waitRcv) := by decide +kernel
theorem witness_rejudged : let dead := { base with sp := { base.sp with active := 0 } }
    let t := returnOverflow (mergeAll (handlerGone { dead with w := dead.w }) none) 16
    base.crew.bars.all (fun b => !barrierDone base b) = true ∧ (∃ p ∈ allSplits (returnOverflow (mergeAll base none) 16), p.alive = true) ∧
    t.w.live = true ∧ (∀ p ∈ allSplits t, p.alive = false) ∧ base.sp.level = 0 ∧ base.crew.holder ≠ some base.w.id ∧
    ({ base with crew := { base.crew with holder := some base.w.id } } : State).crew.holder = some base.w.id := by decide +kernel
theorem witness_joined : (joinTarget pair 5).all (fun c => pair.crews.all (fun x => x.id != c.id || x == c) && pair.crew.id != c.id) = true ∧
    (launchAt callee callee.crew.launch).isSome = true ∧ callee.crews.all (fun x => x.id != callee.nextId) = true ∧
    callee.crew.id ≠ callee.nextId ∧ (base.crew.bars[15]?).isSome = true := by decide +kernel
/-- A queue without room, and the split that waits for it. -/
def crammed : State := { callee with sp := { callee.sp with active := 1 }, clus := { callee.clus with
  items := List.replicate 512 { ctx := callee.ctx.id, launch := 1, callee := 0, regs := [], handle := { warp := 3, lane := 0 } } } }
theorem witness_fullQueue : ready crammed (.dispq 1) = true ∧ partMask crammed = laneBit 0 ∧ dispqCheck crammed 1 0 = none ∧
    512 ≤ (queueOf crammed crammed.ctx.id crammed.w.launch (xget crammed 0 1).toNat).length ∧
    (lanesOf (partMask crammed)).findSome? (dispqCheck crammed 1) = none ∧
    let s := { after (.dispq 1) crammed with clus := callee.clus }
    s.sp.wait = some (.dispq 1) ∧ argN s 0 = (laneBit 0).setWidth 64 ∧ (argLanes s).getLsbD 0 = true ∧
    (queueOf s s.ctx.id s.w.launch (xget s 0 1).toNat).length < 512 := by decide +kernel
theorem witness_majorityShort : let s := { kk 1 0x20000 cells with hbm := cells.hbm.map (fun _ => .retired) }
    tooFew s 0 = true ∧ tooFew cells 0 = false ∧ cellBusy (after (.trsig 1 2) (kk 1 0x20000 cells)) 0 = true ∧
    ready s (.mld 4 1 0) = true ∧ checkCell s needR 0x20000 = .ok majBase := by decide +kernel
/-- A slice that waits for a free slot. -/
def sliceWaits : State :=
  let s := kk 3 0x00FF000000000500 (tile 0x500 sliceRec (tdef 5 (ten 0 1 1 64 7) tiles))
  after (.cpy 1 3 0) { s with crew := { s.crew with rings := s.crew.rings.set 1 { ringAt s 1 with res := 4 } } }
theorem witness_sliceWaits : let t := { sliceWaits with crew := tiles.crew }
    sliceWaits.sp.wait = some (.cpy 1 3 0) ∧ argN sliceWaits 0 = 0 ∧ sliceWaits.sp.slice.isSome = true ∧
    (openFor sliceWaits 1).isNone = true ∧ (openCollective sliceWaits 1 none).isNone = true ∧
    t.sp.wait = some (.cpy 1 3 0) ∧ mustWait t 1 none t.sp.since = false ∧ (openCollective t 1 none).isSome = true ∧
    (openFor t 1).isNone = true := by decide +kernel
theorem witness_growAll : let s := { growing with clus := { growing.clus with grows := growing.clus.grows ++
      [{ id := 41, crew := 7, size := 4096, limit := 10, since := 1, rank := 0, number := 0, result := none }] } }
    let hs := holdersOf s s.crew.id (tileBase + 0x1000) (tileBase + 0x2000)
    hs ≠ [] ∧ hs.all (fun h => (waitingGrow s h).isSome) = true ∧ (growStep s s.clus.grows).isSome = true ∧
    (holdersOf growing growing.crew.id (tileBase + 0x1000) (tileBase + 0x2000)).all (fun h => (waitingGrow growing h).isSome) = false ∧
    ¬ (({ crew with crew := { crew.crew with cmsize := 4194304 } } : State).crew.cmsize + 4096 ≤ 4194304) := by
  decide +kernel
/-- A ring whose oldest slot holds a fault, its chunk 0 filled. -/
def heldRing (c : Byte) (a : DWord) (d : Bool) : State :=
  { crew with crew := { crew.crew with handler := 0x10000, rings := crew.crew.rings.set 1 { ringAt crew 1 with
      chunks := [0], res := 1, fault := some { cause := c, addr := a, slot := 0, delivered := d } } } }
theorem witness_ringDelivered : let s := heldRing cPage 0x10000 true
    let t := heldRing cPage 0x30000 true
    ready s (.awaitf 1) = true ∧ ready s (.awaitfC 1 0) = true ∧ (ringAt s 1).cursor s.w.id = 0 ∧ (ringAt s 1).fil = 0 ∧
    stillMissing s ⟨cPage, 0x10000, 0, true⟩ = false ∧ stillMissing t ⟨cPage, 0x30000, 0, true⟩ = true ∧
    t.crew.state = .running ∧ heldByCrew t = false ∧ handlerBusy t = false ∧ t.sp.level = 0 ∧
    deliverable (heldRing cPage 0 false) = true ∧ 0 < (ringAt s 1).chunkCount := by decide +kernel
/-- The descriptor handed over. -/
def handed : State := after (.cpy 1 3 0) (kk 3 0x00FF000000000500 (tile 0x500 sliceRec (tdef 5 (ten 0 1 1 64 7) tiles)))
theorem witness_copyStarts : (startCopy handed 0).isSome = true ∧ (match focusCommand copying 0 0 with
      | some (u, c) => (collectiveOf u { c with running := true }).isSome
      | none => false) = true ∧ ((pack handed).cluss.any (fun k => (startCopy handed k.id).isSome)) = true ∧
    [0, 2].Pairwise (· < ·) := by decide +kernel
/-- The FETCH tensor's one block in memory. -/
def fetching : State := tdef 9 fetchTen (tile 0x600 (natLE 4 4 ++ [0, 0, 0, 0, 0, 0, 0, 0]) base)
theorem witness_fetchBlocks : isOk (readBlocks ⟨0, 2⟩ fetching fetchTen [0]) = true ∧
    (match readBlock ⟨0, 2⟩ fetching fetchTen 0 with | .ok (x, _) => x.bad.isNone && x.elems.length == 32 | .error _ => false) = true ∧
    isOk (cacheRun ⟨0, 2⟩ fetching fetchTen.base 4) = true ∧ (match readBlocks ⟨0, 2⟩ fetching fetchTen [0] with
      | .ok (_, u) => (sget none u.clus.fetch ((tileBase + 0x600) / 128)).any (fun e => decide (e.1 + 1 < 5))
      | .error _ => false) = true := by decide +kernel
theorem witness_mergePathRows : ([0, 1, 2] : List Nat).all (fun m => isOk (rowPointer merging (recNat mpathRec 0 8) m)) = true ∧
    (lanesOf (partMask merging)).all (fun l => decide ((xget merging l 2).toNat ≤ recNat mpathRec 16 4)) = true ∧
    isOk (mpathSearch merging (recNat mpathRec 0 8) 2 33 0 2) = true := by decide +kernel
/-- The posted task held with a fault. -/
def owed (a : DWord) (d : Bool) : State := { posted with clus := { posted.clus with tasks := posted.clus.tasks.map (fun t =>
  { t with state := .suspended, fault := some { cause := cPage, addr := a, slot := 0, delivered := d } }) } }
theorem witness_taskOwed : (taskOf (owed 0x30000 true) 0x00FF000000000400).all (fun t => t.crew == posted.crew.id && t.fault.isSome) = true ∧
    stillMissing (owed 0x30000 true) ⟨cPage, 0x30000, 0, true⟩ = true ∧ stillMissing (owed 0x10000 true) ⟨cPage, 0x10000, 0, true⟩ = false ∧
    ready (owed 0x10000 true) (.tstat 1 1) = true ∧ checkAccess posted needR 0x20008 8 = .bad cPage := by decide +kernel
theorem witness_tileEnds : let t0 := captureTask tiles 0x00FF000000000400 ([1, 1, 3, 1, 5] ++ taskRec.drop 5)
    (match focusTask (after (.rowGroupWritten 0 0) started) 0 (runningOn 0) with | some (_, t) => decide (t.mt ≤ t.row) | none => false) = true ∧
    (focusTask { posted with clus := { posted.clus with tasks := [t0] }, ctx := { posted.ctx with failed := [(5, [0x80])] } } 0
      dependsOnFailure).isSome = true ∧ t0.cbar = some 3 ∧ posted.ctx.failed = [] ∧
    isOk (jobRun (dropTask posted t0) (t0.job posted) none 0 needW (t0.addr.toNat + 8) (List.replicate 8 0)) = true := by decide +kernel
theorem witness_tileValues : let t := captureTask tiles 0x00FF000000000400 taskRec
    t.kind = 1 ∧ t.ta.inside [0, 0, 0, 0] = true ∧ t.tb.inside [0, 0, 0, 0] = true ∧ t.td.inside [0, 0, 0, 0] = true ∧
    t.td.inside [1, 0, 0, 0] = false ∧ isOk (t.ta.readBits (tileReader tiles t) tiles [0, 0, 0, 0]) = true ∧
    isOk (t.tb.readBits (tileReader tiles t) tiles [0, 0, 0, 0]) = true ∧ isOk (blockStep tiles t 0 0 (.fin false 0 0, false) 0) = true ∧
    (match mmaElement tiles t 0 0 with | .ok o => o.isSome | .error _ => false) = true ∧ isOk (groupWork tiles t) = true ∧
    t.td.fmt < 0xE := by decide +kernel
theorem witness_tileKinds : let t := captureTask tiles 0x00FF000000000400 taskRec
    let sparse := { t with tmeta := ten (tileBase + 0xE00) 1 1 64 1, record := (2 :: taskRec.drop 1).set 56 2 }
    sparse.kind = 2 ∧ (match metaOf tiles sparse 0 0 with | .ok o => o == some [0] | .error _ => false) = true ∧
    isOk (cvtElement tiles { t with record := 4 :: taskRec.drop 1 } 0 0) = true := by decide +kernel
/-- A stream under STALETRAP whose first point has moved, and one whose points have not. -/
def trapStream (x : Nat) : State := let n := neighbours 32
  after (.nlpair 1 1) { n with nleStats := [{ statOf n 1 0x00FF000000000900 with
    flags := nsBinned, maxocc := 2, geom := nlRec 32, snapshot := [(BitVec.ofNat 32 x, 5, 5), (6, 5, 5)] }] }
theorem witness_staleTrap : nlStaleTrap (nlRec 32) = true ∧ nlBlock (nlRec 32) = false ∧ ready (neighbours 32) (.nlpair 1 1) = true ∧
    (trapStream 50).sp.wait = some (.nlpair 1 1) ∧ argN (trapStream 50) 0 = 4 ∧
    (trapStream 50).nles.map (fun o => (o.id, o.outcome.isSome, o.todo.isSome)) = [(4, false, false)] ∧
    (after (.nleSlotFilled 4) (trapStream 50)).nles.map (fun o => (o.id, o.outcome)) = [(4, some (cStale, 0))] ∧
    (after (.nleSlotFilled 4) (trapStream 5)).nles.map (fun o => (o.id, o.outcome.isSome, o.todo.isSome)) = [(4, false, true)] ∧
    lowestMoved (nlRec 32) [(50, 5, 5), (6, 5, 5)] [(5, 5, 5), (6, 5, 5)] = some 0 := by decide +kernel
theorem witness_neighbourPairs : (nlPairs 0x45 (nlRec 1) [(5, 5, 5), (6, 5, 5)] [(5, 5, 5), (6, 5, 5)]).length = 1 ∧
    nearCells (nlRec 1) [0, 0, 0] [0, 0, 0] = true ∧ nlCell (nlRec 1) (500, 5, 5) = none ∧ nlCell (nlRec 1) (5, 5, 5) = some [0, 0, 0] ∧
    ready { disp with mem := (neighbours 1).mem, w := { disp.w with k := (neighbours 1).w.k } } (.nlpair 1 1) = true := by decide +kernel
/-- The tap held with a fault. -/
def owing (a : DWord) (d : Bool) : State := { tapped with ctx := { tapped.ctx with taps := tapped.ctx.taps.map (fun t =>
  { t with fault := some { cause := cPage, addr := a, slot := 0, delivered := d } }) } }
theorem witness_tapOwing : (slotTap (owing 0x30000 true) 0).all (fun t => tapStuck (owing 0x30000 true) t ⟨cPage, 0x30000, 0, true⟩ &&
      t.crew == tapped.crew.id) = true ∧
    (slotTap (owing 0x10000 true) 0).all (fun t => !tapStuck (owing 0x10000 true) t ⟨cPage, 0x10000, 0, true⟩) = true ∧
    (slotTap tapped 0).all (fun t => (t.block 1).all t.rowReleased) = true ∧ ready (owing 0 true) (.tapw 0 0) = true := by decide +kernel
/-- The root of the rule table. -/
def ruleRoot : Payload := match majLoad rooted 0 with
  | .done _ v _ => v
  | _ => 0
theorem witness_installs : isOk (installRule rooted 0 clampRule ruleRoot) = true ∧ ruleBad clampRule = false ∧ recByte clampRule 12 ≠ 0 ∧
    isOk (readRecord rooted needR 1 0x00FF000000010000 1024) = true ∧
    ruleBad (List.replicate 16 0) = false ∧ recByte (List.replicate 16 0) 12 = 0 ∧
    isOk (laneRun rooted 0x00FF000000010000 clampRule) = true := by
  decide +kernel
theorem witness_fullList : let s := { rooted with mem := rooted.mem ++ (List.range 1024).map (fun i => (tileBase + 0x10000 + i, 1)) }
    (match readRecord s needR 1 0x00FF000000010000 1024 with
      | .ok bs => (List.range 64).all (fun i => recByte bs (16 * i + 12) != 0)
      | .error _ => false) = true := by decide +kernel
/-- What holds of the tap and its machine. -/
def tapHas (s : State) (p : State → Tap → Bool) : Bool := (focusTap s 4).any (fun x => p x.1 x.2)
theorem witness_tapStages :
    tapHas tapped (fun u t => t.stage == .root && (match rootLoad u t 0 with
      | .done _ v w => isOk (mapE (rootRow w t v) t.openRows)
      | _ => false)) = true ∧
    tapHas { tapped with hbm := tapped.hbm.map (fun _ => .retired) } (fun u t => match rootLoad u t 0 with
      | .fail => true
      | _ => false) = true ∧
    tapHas intake (fun u t => t.stage == .intake && isOk (intakeAll u t)) = true ∧
    tapHas { intake with mem := [] } (fun u t => (tapFault u t).isSome) = true ∧ (nextEncoder rowsIn).isSome = true := by decide +kernel
theorem witness_tapRows :
    tapHas encoding (fun u t => (encoderTask u t).isSome && isOk (mapE (encodeRow u t) (encoderRows u t))) = true ∧
    tapHas encoded (fun _ t => !(firstBlock t (fun x => !x.selected && x.pre.length == t.desc.f)).isEmpty) = true ∧
    tapHas selected (fun u t => (rowToClose t).isNone && (ruleRows t).any (fun x => (ruleStep u t x).isSome)) = true := by
  decide +kernel
theorem witness_tapEnds :
    tapHas ruled (fun u t => (rowToWrite t).any (fun x => isOk (writeBack u t x))) = true ∧
    tapHas (onRow selected 4 0 (fun x => { x with held := false, rules := [] }))
      (fun u t => (rowToClose t).any (fun x => isOk (closeRow u t x))) = true ∧
    tapHas { tapped with ctx := { tapped.ctx with taps := tapped.ctx.taps.map (fun t =>
      { t with desc := { t.desc with ruleroot := 0x20001 } }) } } (fun u t => (match checkCell u needR t.desc.ruleroot.toNat with
        | .bad _ => true
        | .ok _ => false)) = true := by decide +kernel
/-- A bind record of launch 1. -/
def bindRec (op crew place : Nat) : BitVec 256 := BitVec.ofNat 256 (op * 2 ^ 248 + place * 2 ^ 224 + 5 * 2 ^ 208 + 64 * 2 ^ 192 +
  1 * 2 ^ 160 + crew * 2 ^ 128 + (if op = 1 then 0x10000 else 0))
theorem witness_bindsOne : let b := bindOf (bindRec 1 0 5)
    let tight := { callee with crews := (List.range 3).map (fun n =>
      { crew.crew with id := 20 + n, cmbase := tileBase + n * 0x200000, cmsize := 0x200000 }) }
    (bindLaunch callee b).isSome = true ∧ (bindLaunch callee (bindOf (bindRec 2 0xFFFFFFFF 5))).isSome = true ∧
    (bindingCrew callee b).isNone = true ∧ (placeMemory callee b.clus 0x1000).isSome = true ∧ (ctxOfCluster callee 0).isSome = true ∧
    (ctxOfCluster callee 4).isNone = true ∧ (placeMemory tight b.clus 0x1000).isNone = true ∧ (bindOne tight (bindRec 1 0 5)).isNone = true ∧
    (launchAt callee 1).isSome = true ∧
    (bindingCrew { callee with crews := [{ crew.crew with id := 7, number := 0, launch := 1, state := .binding }] } b).isSome = true := by
  decide +kernel
/-- A launch with a free dispatch slot, and an item for its callee. -/
def formable : State := { callee with
  mem := (at_ 0x100 (natLE 0x10200 8 ++ natLE 64 2) base).mem
  ctx := { callee.ctx with launches := callee.ctx.launches.map (fun l => { l with dispSlots :=
    [{ clus := 0, core := 1, quad := 0, place := 2, allot := 64, spillb := 0, busy := false }] }) }
  clus := { callee.clus with items := [{ ctx := callee.ctx.id, launch := 1, callee := 0, regs := [], handle := { warp := 3, lane := 0 } }] } }
theorem witness_forms : ((pack formable).cluss.findSome? (fun k => formFirst formable k.id (formable.allCtxs.flatMap (fun c =>
    c.launches.map (fun l => (c.id, l.id)))))).isSome = true := by decide +kernel
/-- A service core's MST. -/
def serviceStore : ServiceOp :=
  { core := some 1, wid := 0xF01, cell := 5, kind := .mst, expect := 0, payload := 7, since := 0, tag := none, past := none }
theorem witness_services : tooFew base 5 = false ∧ serviceBusy base serviceStore = false ∧ holdIdle base serviceStore = false ∧
    (match serviceWork base serviceStore with | .done b _ _ => b | _ => false) = true ∧
    serviceBusy { base with services := [{ serviceStore with kind := .trsig }] } { serviceStore with kind := .mld } = true ∧
    (setOfStack base 0).isSome = true ∧ ({ base with hbm := base.hbm.set 3 .spare } : State).hbm[3]? = some .spare := by decide +kernel
theorem witness_doomed : let s := after (.mld 4 1 0) { after (.trsig 1 2) (kk 1 0x20000 cells) with sp := base.sp }
    s.sp.alive = true ∧ awaitsMajority s.sp = true ∧ tooFew s (s.sp.args.getD 2 0).toNat = false ∧
    tooFew { s with hbm := s.hbm.map (fun _ => .retired) } (s.sp.args.getD 2 0).toNat = true ∧
    majorityIn s (1, 0, 0x1000000) = true ∧ majorityIn base (1, 0, 0x1000000) = false := by decide +kernel
/-- A context that has been saved. -/
def savedCtx : State := { base with ctx := { base.ctx with
  place := .saved
  image := some { crews := [base.crew], warps := [base.w], copies := [], items := [], grows := [], mem := [], poison := [], spillPoison := [] } } }
theorem witness_saved : ((focusCtx savedCtx savedCtx.ctx.id).all (fun t => !partitionBusy t t.ctx.part && t.ctx.image.isSome &&
      t.ctx.place == .saved)) = true ∧ ((focusCtx base base.ctx.id).all (fun t => partitionBusy t t.ctx.part)) = true ∧
    (focusCrew base 2).crew.live = true ∧ (focusCrew base 2).crew.state = .running ∧ base.crew.dispatch = false ∧
    base.crew.discarded = false := by decide +kernel
theorem witness_remote : let s := { base with
      sp := { base.sp with out := [⟨3, [.x 5], 0x10000, .load, [(0, 0x10041)], 0⟩] }, env := { base.env with lost := [⟨3, 0, 0⟩] } }
    s.env.lost = [⟨3, 0, 0⟩] ∧ (focusSplit s 3 0).w.live = true ∧ (focusSplit s 3 0).sp.alive = true ∧ (focusSplit s 3 0).sp.wait = none ∧
    (focusSplit s 3 0).sp.out.map (fun o => o.kind) = [.load] ∧ [((0 : Nat), (0x10041 : Nat))].Pairwise (fun x y => x.1 ≠ y.1) ∧ (laneDests [.x 5, .x 6]).Nodup ∧
    (laneDests [.x 5, .x 6])[1]? = some 6 := by
  decide +kernel
theorem witness_limits : base.dev.bootCap = 1800 ∧ (focusCtx base base.ctx.id).isSome = true ∧ physOk base.shape 0x20000 8 = true ∧
    (base.allCtxs.any (fun c => c.id == base.ctx.id)) = true := by decide +kernel
/-- A write of one byte that others need not see yet, and one of the warp's copy job. -/
def late1 (uo : Bool) (by_ : Writer) : Late :=
  { id := 0, bytes := [(0x20010, 9)], whole := true, by_ := by_, uo := uo, so := false, f1 := none, f2 := none, slot := none
    part := 0, rel := none, rmw := false, marks := [] }
def laneLate (uo : Bool) : Late := late1 uo (.lane (.warp base.w.id) 1 base.sp.active 0 base.ctx.id)
def jobLate (p : EnginePath) : Late := late1 false (.job { path := p, id := 1, posters := [(base.w.id, 0)], clus := some 0, die := 0, ctx := base.ctx.id })
/-- Clock 1, with every write so far numbered below 5. -/
def clocked (e : Late) : State := { base with late := [e], writes := 5 }
theorem witness_ordering : let s := clocked (laneLate false)
    let e := laneLate false
    (e.oldAt 0x20010).isSome = true ∧ e.sees s (laneReader s) 0x20010 = true ∧ e.ownBy (pastNow s) = true ∧ e.uo = false ∧
    (e.whole = true) ∧ s.sp.active ≠ 0 ∧ e.by_ ≠ .hardware ∧ (e.id, 0x20010) ∈ [(0, 0x20010)] ∧ (jobLate .copy).attributed s.w.id .cw = true ∧
    (jobLate .matrix).attributed s.w.id .mw = true ∧ (jobLate .feature).attributed s.w.id .mw = true ∧
    (jobLate .copy).attributed 99 .cw = false ∧ e.fenced (pastNow s) s.w.id 8 2 = [] ∧
    ((fenceMem s 2 1 2).late.all (fun f => f.mustSee (.lanes { who := .warp 9, active := 1, lane := none, core := 3, clus := some 0, tasks := false }))) = true ∧
    ((fenceMem s 2 1 2).late.all (fun f => f.mustSee (.lanes { who := .warp 9, active := 1, lane := none, core := 9, clus := some 1, tasks := false }))) = false := by
  decide +kernel
theorem witness_orderingReturns : let s := clocked { jobLate .copy with slot := some (base.crew.id, 1, 0) }
    let e : Late := { jobLate .copy with slot := some (base.crew.id, 1, 0) }
    let free : Late := { jobLate .feature with part := 7, marks := [⟨.freed, 1, ⟨[], 0⟩⟩] }
    e.fills s.crew.id 1 0 none = true ∧ e.fills s.crew.id 1 0 (some 0) = true ∧ e.fills s.crew.id 1 1 none = false ∧
    (jobLate .copy).marks = [] ∧ free.job = some 1 ∧ free.part ∈ [7] ∧ (∃ m ∈ free.marks, m.reach = .freed) ∧
    ((awaitMem s 1 0 none []).late.all (fun f => f.mustSee (laneReader s))) = true ∧
    ((awaitMem s 1 1 none []).late.all (fun f => f.mustSee (laneReader s))) = false ∧
    pastNow s ∈ [pastNow s] ∧ (.lanes (.warp 9) 1 : Reach) ∈ [Reach.lanes (.warp 9) 1] := by decide +kernel
theorem witness_orderingLines : let e : Late := { laneLate true with by_ := .lane (.warp 9) 1 1 3 0, f1 := some 1 }
    let s := { clocked e with writes := 5 }
    e.uo = true ∧ e.core ≠ some (coreOf s) ∧ e.die = dieOf s.w.clus ∧ (∀ x ∈ e.bytes, (fun _ => true) x.1 = true) ∧
    (∀ x ∈ e.bytes, (fun (_ : Nat) => false) x.1 = false) ∧ ({ e with whole := false } : Late).whole = false ∧ e.oldAt 3 = none ∧
    ({ e with marks := [⟨.lanes (.warp base.w.id) 1, 0, ⟨[], 1⟩⟩] } : Late).hereChains s ≠ [] := by decide +kernel
/-- The invariants of the windows, the rings and memory hold where a step answers a next state. -/
theorem witness_invariants :
    WindowsOk base ∧ RingsOk base ∧ MemoryOk base ∧ (match step base with | .next _ => true | _ => false) = true := by
  have none_ : ∀ c ∈ base.ctx :: base.ctxs, c.image = none := by decide +kernel
  have unsaved : ∀ {P : Image → Prop} (c : Ctx), c ∈ base.ctx :: base.ctxs → ∀ i, c.image = some i → P i := by
    intro P c hc i hi
    rw [none_ c hc] at hi
    cases hi
  have rings : ∀ c ∈ base.crew :: base.crews, ∀ x ∈ c.rings, x = Ring.blank := by decide +kernel
  refine ⟨⟨fun _ => ⟨⟨by decide +kernel, ?_⟩, ?_⟩, ?_, ?_⟩, ⟨?_, ?_⟩, ⟨by decide +kernel, fun c hc i hi => unsaved (P := fun i => Memory.wf i.mem = true) c hc i hi⟩,
    by decide +kernel⟩
  · have h : base.w.splits ++ base.w.overflow = [] := by decide +kernel
    rw [h]
    simp
  · intro _
    decide +kernel
  · have h : base.warps = [] := by decide +kernel
    rw [h]
    simp
  · rintro w ⟨c, hc, i, hi, -⟩
    exact unsaved (P := fun _ => w.windowsOk) c hc i hi
  · intro c hc x hx
    rw [rings c hc x hx]
    exact ⟨le_refl _, le_refl _, Nat.zero_le _, fun w => by simp [Ring.cursor, Ring.blank, sget]⟩
  · intro c hc i hi
    exact unsaved (P := fun i => ∀ k ∈ i.crews, ∀ x ∈ k.rings, x.ordered) c hc i hi
theorem witness_engineEntry : let s := after (.nlbin 1) (neighbours 1)
    let u := { s with nles := s.nles.map (fun x => { x with started := false, engine := none }) }
    u.nles.all (mayBegin u) = true ∧ u.nles ≠ [] ∧ (freeNle u 0).isSome = true := by decide +kernel
theorem witness_suspendedRoot : tapHas tapped (fun u t => t.root.isNone && t.stage == .root &&
      (readLists u { t with root := some ruleRoot } ruleRoot).isSome && (readRows u t ruleRoot t.unread).2) = true ∧
    tapHas { tapped with hbm := tapped.hbm.map (fun _ => .retired) } (fun u t => match checkCell u needR t.desc.ruleroot.toNat with
      | .ok key => tooFew u (cellOf key)
      | .bad _ => false) = true := by decide +kernel
theorem witness_resolved : let r : TapRecord := { tap := 4, request := 0, position := 0, rule := 0, layer := 3, slot := 0, feature := 0
                                                  threshold := 0, value := 0, row := 0 }
    let s := { tapped with crew := { tapped.crew with records := [r], edit := some [0, 0, 0, 0] } }
    isOk (resolveRecord s r [] 0) = true ∧ (tapOf s 4).all (fun t => isOk (applyEdit s t r [] [0, 0, 0, 0]) &&
      isOk (engineRead (fduReader s t) s needRW (t.entryAddr 0) 8) && isOk (engineRead (fduReader s t) s needRW t.desc.repair.toNat 4) &&
      isOk (fduWrite s t 0 needW t.desc.snap.toNat [0, 0, 0, 0])) = true := by decide +kernel
theorem witness_badGroup : let t := captureTask tiles 0x00FF000000000400 taskRec
    let sparse := { t with tmeta := ten (tileBase + 0xE00) 1 1 64 1, record := ((2 :: taskRec.drop 1).set 56 1).set 44 4 }
    sparse.kind = 2 ∧ (0 : Int) ∈ sparse.groups ∧ isOk (metaOf tiles sparse 0 0) = false := by decide +kernel
/-- A machine whose warp has one split, ready, in its overflow block. -/
def spilled : State := pack { base with sp := { base.sp with active := 0, entry := 0, state := .free }, w := { base.w with
  overflow := [{ base.sp with slot := 16, age := 1 }], notes := [some 7] }, crew := { base.crew with handler := 0x10000 } }
theorem witness_overflowNote : (spilled.warps.find? (noteReady spilled)).any (fun w => (oldestReady w).any (fun p => p.slot == 16)) = true ∧
    goes .notificationDelivery spilled = true := by decide +kernel
theorem witness_places2 : (cellValue base 5).isSome = true ∧ (let s := { base with hbm := (base.hbm.set 3 .spare).set 0 .retired }
    s.hbm[3]? = some .spare ∧ s.hbm[0]? = some .retired ∧ (setOfStack s 0).isSome = true) ∧
    (laneLate false).ctx = some base.ctx.id ∧ base.dev.boot ≠ .recovery := by decide +kernel
theorem witness_host : (∃ w ∈ ({ base.dev with hostWindows := [(0, 0x10000)] } : Device).hostWindows, w.1 ≤ 0x1000 ∧ 0x1000 + 8 ≤ w.1 + w.2) ∧
    ¬ (∃ w ∈ base.dev.hostWindows, w.1 ≤ 0x1000 ∧ 0x1000 + 8 ≤ w.1 + w.2) ∧ 
    (readFrame base 0x20800).width % 16 = 0 ∧ (readFrame base 0x20800).format ≤ 1 ∧ (focusCtx base base.ctx.id).isSome = true := by
  decide +kernel
/-- A word that decodes to a term outside the well-formed ones is refused as R88 says. -/
theorem witness_refused : Instr.wf (.kmovi 32 3) = false ∧ decode 0x89800003 = .ok (.kmovi 32 3) ∧
    r88 base.w.mode base.sp.level (.kmovi 32 3) = some cOperand ∧ Instr.isEvent (.kmovi 32 3) = false := by decide +kernel
/-- Two breakpoints of the focused warp's context at its PC: one for a member warp, one for all. -/
def broken (m : Option Nat) : State := { base with ctx := { base.ctx with breaks := [{ addr := 0x10000, member := m }] } }
theorem witness_breakpoints : breakAt (focusSplit (broken (some 0)) 3 0) = true ∧ breakAt (broken (some 1)) = false ∧ breakAt (broken none) = true ∧
    goes (.debugBreakpointHit (some 3) (.split 0)) (broken none) = true ∧ (focusCtx base 1).isSome = true ∧
    (let t := after (.debugBreakpointHit (some 3) (.split 0)) (broken none)
     t.sp.state = .stopped ∧ t.sp.pass = some 0x10000) := by decide +kernel
/-- A FETCH whose lane l reads element l: every lane's block is well formed, and element 32 is outside the tensor. -/
theorem witness_fetchCompletes : let s := kk 1 0x109 (xx 2 (fun l => BitVec.ofNat 32 l)
      { fetching with clus := { fetching.clus with finvs := [(fetching.ctx.id * 256 + 9, 5)] } })
    let i : Instr := .fetch 4 2 1 0
    ready s i = true ∧ anyLane s = true ∧ tensorAt s 9 = some fetchTen ∧ ¬ (fetchTen.count ≤ (xget s 31 2).toNat) ∧
    fetchTen.count ≤ (xget (xx 2 (fun _ => 32) s) 31 2).toNat ∧
    (match readBlocks ⟨s.env.free, sget 0 s.clus.finvs (s.ctx.id * 256 + 9)⟩ { issued i s with env := { s.env with free := s.env.free + 1 } }
        fetchTen [0] with
      | .ok (xs, _) => xs.all (fun x => x.bad.isNone && !x.poisoned)
      | .error _ => false) = true ∧ goes i s = true ∧ xget (after i s) 5 4 = 0 ∧ (predMask (after i s).w 1).getLsbD 5 = true ∧
    ready (kk 1 9 s) (.finv 1) = true ∧ goes (.finv 1) (kk 1 9 s) = true := by decide +kernel
/-- A descriptor that holds a fault, and a part of the machine that a thermal halt has stopped. -/
theorem witness_neighbourHeld : let held (a : DWord) (d : Bool) : State := { neighbours 1 with nleStats :=
      [{ statOf (neighbours 1) 1 0x00FF000000000900 with held := some { cause := cPage, addr := a, slot := 0, delivered := d } }] }
    ready (held 0x10000 true) (.nlstat 3 1) = true ∧ ((statOf (held 0x10000 true) 1 0x00FF000000000900).held).isSome = true ∧
    stillMissing (held 0x10000 true) ⟨cPage, 0x10000, 0, true⟩ = false ∧ stillMissing (held 0x30000 true) ⟨cPage, 0x30000, 0, true⟩ = true ∧
    posted.dev.halted = false ∧ after .tileTaskDispatch { posted with dev := { posted.dev with halted := true } } =
      { posted with dev := { posted.dev with halted := true } } := by decide +kernel
/-- A write of another device, which a release of it and a fence of the domain put before the lanes' next reads. -/
theorem witness_remoteRelease : let s := { clocked (late1 false (.outside (some 7))) with env := base.env }
    let e := late1 false (.outside (some 7))
    e ∈ s.late ∧ e.uo = false ∧ e.id < s.writes ∧ (∀ m ∈ e.marks, m.time ≤ s.writes) ∧ s.sp.active ≠ 0 ∧
    ((fenceMem (acquire s [remoteRelease s 7]) 1 1 4).late.all (fun f => f.mustSee (laneReader s))) = true ∧
    ((fenceMem (acquire s [remoteRelease s 7]) 1 1 3).late.all (fun f => f.mustSee (laneReader s))) = false ∧
    ((fenceMem (acquire s [remoteRelease s 8]) 1 1 4).late.all (fun f => f.mustSee (laneReader s))) = false := by decide +kernel
/-- What an acquire has read, an earlier release's write with it, its lanes read from then on; so does a plain read of the split. -/
theorem witness_readBack : let e := { laneLate false with by_ := .lane (.warp 9) 1 1 9 1 }
    let s := clocked e
    e.by_ ≠ .hardware ∧ (e.id, 0x20010) ∈ [(0, 0x20010)] ∧ (e.oldAt 0x20010).isSome = true ∧
    ((acquireReads s [(0, 0x20010)]).late.all (fun f => f.mustSee (laneReader s))) = true ∧
    ((rememberReads s [(0, 0x20010)]).late.all (fun f => f.readBy (laneReader s) 0x20010)) = true ∧
    (s.late.all (fun f => f.mustSee (laneReader s) || f.readBy (laneReader s) 0x20010)) = false := by decide +kernel
end Sys2Proof.Tests
end

section
/-! SUPPORT. The state after device reset (R34, R177, R392). -/

namespace Sys2Proof.Machine

/-- The context in focus at reset is blank, and a blank context has no image. -/
theorem image_reset {c : Ctx} (hc : c ∈ State.reset.ctx :: State.reset.ctxs) : c.image = none := by
  simp only [State.reset, List.mem_cons, List.not_mem_nil, or_false] at hc
  rw [hc]; rfl

theorem windowsOk_reset : WindowsOk State.reset := by
  refine ⟨fun h => absurd h (by decide), by simp [State.reset], ?_⟩
  rintro w ⟨c, hc, i, hi, -⟩
  simp [image_reset hc] at hi

/-- An unbound ring's counts are all 0. -/
theorem ordered_blank : Ring.blank.ordered :=
  ⟨le_rfl, le_rfl, Nat.zero_le _, fun _ => le_rfl⟩

theorem ringsOk_reset : RingsOk State.reset := by
  refine ⟨fun c hc x hx => ?_, fun c hc i hi => by simp [image_reset hc] at hi⟩
  simp only [State.reset, List.mem_cons, List.not_mem_nil, or_false] at hc
  have hb : x = Ring.blank := List.eq_of_mem_replicate (hc ▸ hx : x ∈ Crew.blank.rings)
  exact hb ▸ ordered_blank

theorem memoryOk_reset : MemoryOk State.reset :=
  ⟨rfl, fun c hc i hi => by simp [image_reset hc] at hi⟩

/-- A uniform register of a warp slot that nothing is bound to reads 0: k0 by its rule, the others as unlisted. -/
theorem kget_reset (n : Nat) : kget State.reset n = 0 := by
  by_cases h : n = 0 <;> simp [kget, h, State.reset, Warp.blank, sget]

/-- Settles O59: each field of `State.reset` reads as stated, and the invariants hold of lists that are empty. -/
theorem resetState : Obligations.ResetState := by
  refine ⟨rfl, rfl, rfl, rfl, rfl, rfl, rfl, rfl, rfl, rfl, rfl, fun _ _ => rfl, rfl, fun _ => rfl, kget_reset,
    windowsOk_reset, ringsOk_reset, memoryOk_reset⟩

end Sys2Proof.Machine
end

section
/-! SUPPORT. The window invariant is not kept where a free entry holds stale fields (R17, R266). -/

namespace Sys2Proof.Machine

/-- A free entry of a split table that still holds the fields of the split that left it: a lane in ACTIVE, the MLD that
the split waited in, and a WBASE that is no multiple of 4. It is not alive, so R17 asks nothing of its window. -/
def staleSplit : Split := { Split.blank with active := 1, wbase := 1, wait := some (.mld 0 0 0) }

/-- A machine with one warp, whose only entry is the stale one, in a context whose pre-emption deadline has come. -/
def staleMachine : State := { State.reset with
  warps := [{ Warp.blank with id := 2, live := true, ctx := 1, splits := [staleSplit] }]
  ctxs := [{ Ctx.blank with id := 1, live := true, preempt := some 0 }] }

/-- Some saved context keeps a live split whose WBASE is no multiple of 4. -/
def State.savesMisaligned (s : State) : Bool := (s.ctx :: s.ctxs).any (fun c =>
  match c.image with
  | none => false
  | some i => i.warps.any (fun w => w.splits.any (fun p => p.alive && p.wbase % 4 != 0)))

theorem not_savesMisaligned {s : State} (h : WindowsOk s) : s.savesMisaligned = false := by
  obtain ⟨-, -, hsaved⟩ := h
  refine List.any_eq_false.mpr fun c hc => ?_
  split
  · simp
  next i hi =>
    simp only [List.any_eq_true, Bool.and_eq_true, bne_iff_ne, not_exists, not_and, not_not]
    intro w hw p hp halive
    obtain ⟨-, hsplits⟩ := hsaved w ⟨c, hc, i, hi, hw⟩
    obtain ⟨-, -, hbase, -, -⟩ := hsplits p (List.mem_append_left _ hp) halive
    exact hbase

theorem windowsOk_staleMachine : WindowsOk staleMachine := by
  refine ⟨fun h => absurd h (by decide), fun w hw => ?_, ?_⟩
  · have hw : w = { Warp.blank with id := 2, live := true, ctx := 1, splits := [staleSplit] } := by
      simpa [staleMachine] using hw
    subst hw
    refine ⟨by decide, fun p hp halive => ?_⟩
    have hp : p = staleSplit := by simpa [Warp.blank] using hp
    subst hp
    exact absurd halive (by decide)
  · rintro w ⟨c, hc, i, hi, -⟩
    have himage : c.image = none := by
      simp only [staleMachine, State.reset, List.mem_cons, List.not_mem_nil, or_false] at hc
      rcases hc with rfl | rfl <;> rfl
    simp [himage] at hi

/-- The save completes the MLD that the free entry names (R266), whether or not the entry is live, and so makes the entry
ready: its stale lane and window are live in the image. -/
theorem step_staleMachine : (match step staleMachine with | .next t => t.savesMisaligned | _ => false) = true := by
  decide +kernel

/-- Refutes O6: `WindowsOk` asks nothing of a free entry, but a save goes on with the majority instruction that a free
entry still names, and the entry becomes ready with its stale lanes and its stale window. -/
theorem not_windowInvariant : ¬ Obligations.WindowInvariant := by
  intro h
  have hrun := step_staleMachine
  split at hrun
  next t ht => simp [not_savesMisaligned (h _ t windowsOk_staleMachine ht)] at hrun
  · exact Bool.noConfusion hrun

end Sys2Proof.Machine
end

section
/-! SUPPORT. What a stranding changes and what it logs (R31, R257 to R259). -/

namespace Sys2Proof.Machine

/-- A root of 0 logs nothing (R257). -/
theorem logRecord_zero (s : State) (w : Warp) (loss : Bool) (record : List Byte) :
    logRecord s 0 w loss record = s := by simp [logRecord]

theorem logEvent_of_flog_zero {s : State} (h : s.crew.flog = 0) (w : Warp) (e : LogEvent) : logEvent s w e = s := by
  rw [logEvent, h, logRecord_zero]

theorem logLoss_of_flog_zero {s : State} (h : s.crew.flog = 0) (kind lane addr : Nat) : logLoss s kind lane addr = s := by
  rw [logLoss, h, logRecord_zero]

theorem foldl_logLoss_of_flog_zero {s : State} (h : s.crew.flog = 0) (kind : Nat) (addr : Nat → Nat) (ls : List Nat) :
    ls.foldl (fun v l => logLoss v kind l (addr l)) s = s := by
  induction ls with
  | nil => rfl
  | cons l ls ih => rw [List.foldl_cons, logLoss_of_flog_zero h, ih]

/-- The focused warp with some lanes stranded and counted, before anything is logged (R31, R263, R386). -/
def markStranded (s : State) (m : Mask) (kind : Nat) : State :=
  let t := { s with
    w := { s.w with
      strand := s.w.strand ||| m, splits := s.w.splits.map (fun p => p.without m)
      overflow := s.w.overflow.map (fun p => p.without m)
      stranded := if kind = 2 || s.crew.handler = 0 then s.w.stranded else s.w.stranded ||| m
      notes := if kind = 2 || s.crew.handler = 0 || s.w.notes.contains none then s.w.notes else s.w.notes ++ [none] }
    sp := s.sp.without m }
  raiseCount t t.w.clus nStranding (laneCount m)

/-- The event that a stranding logs (R258). -/
def strandEvent (s : State) (m : Mask) (pc : DWord) : LogEvent :=
  { cause := cStrand, where_ := whereOldest s.wholeWarp, flags := 0, pc := pc, trapv := m.setWidth 64 }

/-- A stranding marks the lanes, then logs the event, then a loss record for each lane. -/
theorem strandCore_eq {s : State} (h : s.w.live = true) (m : Mask) (kind : Nat) (pc : DWord) (addr : Nat → Nat) :
    strandCore s m kind pc addr = (lanesOf m).foldl (fun v l => logLoss v kind l (addr l))
      (logEvent (markStranded s m kind) (markStranded s m kind).wholeWarp (strandEvent (markStranded s m kind) m pc)) := by
  simp [strandCore, h, markStranded, strandEvent]

/-- Without a root a stranding only marks the lanes. -/
theorem strandCore_of_flog_zero {s : State} (h : s.w.live = true) (hf : s.crew.flog = 0) (m : Mask) (kind : Nat)
    (pc : DWord) (addr : Nat → Nat) : strandCore s m kind pc addr = markStranded s m kind := by
  have hf' : (markStranded s m kind).crew.flog = 0 := hf
  rw [strandCore_eq h, logEvent_of_flog_zero hf', foldl_logLoss_of_flog_zero hf']

/-- Lanes that are stranded already are left as they are (R31). -/
theorem strandLanes_stranded (s : State) (m : Mask) (kind : Nat) (pc : DWord) (addr : Nat → Nat) :
    strandLanes s (m &&& s.w.strand) kind pc addr = s := by
  have h : m &&& s.w.strand &&& ~~~s.w.strand = 0 := by rw [BitVec.and_assoc]; simp
  simp [strandLanes, h]

/-- The bytes of a stranding's entry (R258). -/
theorem logBytes_strandEvent (s : State) (m : Mask) (pc : DWord) :
    logBytes s s.crew.number s.wholeWarp (strandEvent s m pc) 0 = natLE s.cycle.toNat 4 ++
      [cStrand, BitVec.ofNat 8 s.w.index, BitVec.ofNat 8 (whereOldest s.wholeWarp), 0] ++ natLE 1 4 ++ natLE s.crew.number.toNat 4 ++ natLE (pc.toNat % 2 ^ 56) 8 ++ natLE m.toNat 8 := by
  have hm : (m.setWidth 64).toNat = m.toNat := by
    rw [BitVec.toNat_setWidth]; exact Nat.mod_eq_of_lt (by have := m.isLt; omega)
  simp [logBytes, strandEvent, hm, State.wholeWarp, packSplit]

/-- An update that nothing holds back is made at once (R257). -/
theorem logRecord_eq_writeJob {s : State} {flog : DWord} {w : Warp} {loss : Bool} {record : List Byte} {key : Nat}
    (hkey : checkCell s needAtomic flog.toNat = .ok key) (hroot : flog ≠ 0)
    (hbusy : quadBusy s (warpWid w) (cellOf key) = false)
    (hlogs : ∀ j ∈ s.logs, ¬ (j.wid = warpWid w ∧ j.cell = cellOf key)) :
    logRecord s flog w loss record = writeJob s { ctx := s.ctx.id, addr := flog.toNat, clus := w.clus, wid := warpWid w
                                                  cell := cellOf key, loss := loss, record := record } := by
  have hw : s.logs.any (fun x => x.wid == warpWid w && x.cell == cellOf key) = false := by
    simpa [List.any_eq_false] using hlogs
  rw [logRecord, if_neg hroot, hkey]
  simp [jobWaits, hbusy, hw]

/-- A root without capacity takes no record (log 22); else the record stands at the place of the index claimed (R257). -/
theorem writeJob_done {s t : State} {j : LogJob} {b : Bool} {root : Payload} (hload : majLoad s j.cell = .done b root t) :
    let lo := if j.loss then 32 else 0
    let h := bitsOf root.toNat lo 32
    let cap := if j.loss then bitsOf root.toNat 160 32 else bitsOf root.toNat 128 32
    let base := if j.loss then bitsOf root.toNat 192 64 else bitsOf root.toNat 64 64
    (cap = 0 → writeJob s j = t) ∧ ∀ v u r, cap ≠ 0 →
      majCas t j.cell j.wid (root.extractLsb' 0 64)
        (BitVec.ofNat 256 (root.toNat - h * 2 ^ lo + (h + 1) % 2 ^ 32 * 2 ^ lo)) = .done true v u →
      writeRun u needW (base + h % cap * (if j.loss then 16 else 32)) (j.bytes h) = .ok r → writeJob s j = r := by
  refine ⟨fun hcap => ?_, fun v u r hcap hcas hrun => ?_⟩
  · simp only [writeJob, claim, hload]
    rw [if_pos hcap]
  · simp only [writeJob, claim, hload]
    rw [if_neg hcap, hcas]
    simp only
    rw [hrun]

/-- Settles O16: a stranding is its marking, which touches the masks alone, and then one record after another; each record
is a claim of the root's index. -/
theorem stranding : Obligations.Stranding := by
  refine ⟨fun s m kind pc addr hlive hflog => ⟨strandLanes_stranded s m kind pc addr, ?_⟩,
    fun s m kind pc addr hlive => ⟨?_, ?_⟩⟩
  · rw [strandCore_of_flog_zero hlive hflog]
    exact ⟨rfl, rfl, rfl, rfl, rfl, rfl, rfl, rfl, rfl, rfl, rfl, rfl, rfl, rfl⟩
  · have hnone : strandCore { s with crew := { s.crew with flog := 0 } } m kind pc addr =
        markStranded { s with crew := { s.crew with flog := 0 } } m kind :=
      strandCore_of_flog_zero (s := { s with crew := { s.crew with flog := 0 } }) hlive rfl m kind pc addr
    rw [strandCore_eq hlive, logEvent, logBytes_strandEvent, hnone]
    rfl
  · intro w loss record key b root v t u r cell lo h cap base size hkey hroot hbusy hlogs hload
    rw [logRecord_eq_writeJob hkey hroot hbusy hlogs]
    obtain ⟨hzero, hclaim⟩ := writeJob_done
      (j := ⟨s.ctx.id, s.crew.flog.toNat, w.clus, warpWid w, cell, loss, record⟩) hload
    exact ⟨hzero, hclaim v u r⟩

end Sys2Proof.Machine
end

section
/-! SUPPORT. Special registers, the overflow table and MODE: one lemma per register (R33, R35, R40, R87, R155). -/

namespace Sys2Proof.Machine

/-- An issued instruction's body that leaves the split, and the warp's other splits, as the issue left them retires. -/
theorem finish_ok_of_splits {i j : Instr} {s u : State} (h : Issues i s) (hsp : u.sp = (issued i s).sp)
    (hs : u.w.splits = s.w.splits) (ho : u.w.overflow = s.w.overflow) : finish j false (.ok u) = retired u :=
  finish_ok (by rw [hsp]; exact issued_stopDue h.whole.1 h.whole.2.1) (by rw [hs, ho]; exact h.whole.2.2)

/-- The same of a body that changes other registers of the warp. -/
theorem finish_ok_warp {i j : Instr} {s : State} (h : Issues i s) (f : Warp → Warp)
    (hs : (f s.w).splits = s.w.splits) (ho : (f s.w).overflow = s.w.overflow) :
    finish j false (.ok { issued i s with w := f s.w }) = retired { issued i s with w := f s.w } :=
  finish_ok_of_splits h rfl hs ho

theorem kset_sameSplits (s : State) (n : Nat) (v : DWord) :
    (kset s n v).w.splits = s.w.splits ∧ (kset s n v).w.overflow = s.w.overflow := by
  rw [kset_eq]; exact ⟨rfl, rfl⟩

/-- An instruction that acts once and writes a uniform register. -/
theorem once_result_kset {i : Instr} {s : State} {n : Nat} {body : State → Res} (v : DWord)
    (he : exec i s = run i (fun s => once s body) s) (hb : body (issued i s) = .ok (kset (issued i s) n v)) :
    OnceResult i s (fun u => kset u n v) := by
  intro h
  have hends := once_ends (ends := fun u => retired (kset u n v)) he (fun h _ => by
    rw [hb]
    exact finish_ok_of_splits h (kset_sp _ n v) (kset_sameSplits _ n v).1 (kset_sameSplits _ n v).2) h
  rw [hends]
  split <;> rfl

/-- The special registers in the order of their numbers (R33). -/
def specials (s : State) (l : Nat) : List DWord :=
  [s.w.mode.setWidth 64, s.w.fflags.setWidth 64, s.sp.active.setWidth 64, s.sp.entry.setWidth 64, s.sp.sig.setWidth 64,
    s.w.strand.setWidth 64, BitVec.ofNat 64 s.sp.wbase, BitVec.ofNat 64 s.sp.sfloor, s.w.spillb, BitVec.ofNat 64 s.sp.depth,
    s.cycle, BitVec.ofNat 64 l, BitVec.ofNat 64 s.w.index, BitVec.ofNat 64 s.crew.nwarp, s.crew.number.setWidth 64,
    BitVec.ofNat 64 s.w.core, BitVec.ofNat 64 s.w.clus, BitVec.ofNat 64 (s.w.clus / 4), BitVec.ofNat 64 s.crew.cmbase,
    BitVec.ofNat 64 s.crew.cmsize, s.w.trapc.setWidth 64, s.w.trapv, s.w.trappc, s.ctx.ovt.setWidth 64,
    BitVec.ofNat 64 s.w.allot, BitVec.ofNat 64 s.w.prio, s.w.rlabel, s.crew.budget.getD 0xFFFFFFFFFFFFFFFF,
    BitVec.ofNat 64 s.sp.level, BitVec.ofNat 64 s.w.quad, BitVec.ofNat 64 s.sp.slot, s.ctx.ctxid.setWidth 64]

theorem readSpecial_eq (s : State) {n : Nat} (l : Nat) (hn : n < 32) : readSpecial s n l = (specials s l).getD n 0 := by
  interval_cases n <;> rfl

theorem specials_issued (i : Instr) (s : State) (l : Nat) : specials (issued i s) l =
    [s.w.mode.setWidth 64, s.w.fflags.setWidth 64, s.sp.active.setWidth 64, s.sp.entry.setWidth 64,
      (issued i s).sp.sig.setWidth 64, s.w.strand.setWidth 64, BitVec.ofNat 64 s.sp.wbase, BitVec.ofNat 64 s.sp.sfloor,
      s.w.spillb, BitVec.ofNat 64 s.sp.depth, s.cycle, BitVec.ofNat 64 l, BitVec.ofNat 64 s.w.index,
      BitVec.ofNat 64 s.crew.nwarp, s.crew.number.setWidth 64, BitVec.ofNat 64 s.w.core, BitVec.ofNat 64 s.w.clus,
      BitVec.ofNat 64 (s.w.clus / 4), BitVec.ofNat 64 s.crew.cmbase, BitVec.ofNat 64 s.crew.cmsize,
      s.w.trapc.setWidth 64, s.w.trapv, s.w.trappc, s.ctx.ovt.setWidth 64, BitVec.ofNat 64 s.w.allot,
      BitVec.ofNat 64 s.w.prio, s.w.rlabel, s.crew.budget.getD 0xFFFFFFFFFFFFFFFF, BitVec.ofNat 64 s.sp.level,
      BitVec.ofNat 64 s.w.quad, BitVec.ofNat 64 s.sp.slot, s.ctx.ctxid.setWidth 64] := rfl

theorem low32_eq_ofNat (v : DWord) : v.extractLsb' 0 32 = BitVec.ofNat 32 (v.toNat % 2 ^ 32) := by
  apply BitVec.eq_of_toNat_eq; simp

/-- One 32-bit result in each participating lane of an issued instruction. -/
theorem lanes32_issued (i : Instr) (s : State) (d : Nat) {f : Nat → Word} {v : Nat → Nat}
    (h : ∀ l, f l = BitVec.ofNat 32 (v l)) : lanes32 d f (issued i s) = .ok (laneResults i s 0 d v) := by
  obtain rfl : f = fun l => BitVec.ofNat 32 (v l) := funext h
  rfl

theorem exec_srd_lane (s : State) (d i : BitVec 6) : exec (.srd d 0 i) s =
    run (.srd d 0 i) (fun s => lanes32 d.toNat (fun l => (readSpecial s i.toNat l).extractLsb' 0 32) s) s := rfl

theorem exec_srd_once (s : State) (d i : BitVec 6) : exec (.srd d 1 i) s = run (.srd d 1 i) (fun s => once s (fun s =>
    if i.toNat = 0x20 then .ok (kset s d.toNat (sget 0 s.ctx.shapes ((kget s d.toNat).toNat % 16)))
    else .ok (kset s d.toNat (readSpecial s i.toNat 0)))) s := rfl

theorem laneResult_srd (s : State) (d i : BitVec 6) : LaneResult (.srd d 0 i) 0 d s (fun l =>
    (readSpecial (issued (.srd d 0 i) s) i.toNat l).toNat % 2 ^ 32) := by
  refine lane_result (exec_srd_lane s d i) (lanes32_issued _ s _ fun l => low32_eq_ofNat _)
    (fun _ h => absurd h (by decide)) (fun _ l _ => ?_)
  rw [if_neg (by decide)]
  exact Nat.mod_lt _ (by decide)

theorem onceResult_srd (s : State) (d i : BitVec 6) (h : i.toNat ≠ 0x20) : OnceResult (.srd d 1 i) s (fun u =>
    kset u d.toNat (readSpecial (issued (.srd d 1 i) s) i.toNat 0)) :=
  once_result_kset _ (exec_srd_once s d i) (if_neg h)

theorem onceResult_srdShape (s : State) (d : BitVec 6) : OnceResult (.srd d 1 0x20) s (fun u =>
    kset u d.toNat (sget 0 s.ctx.shapes ((kget s d.toNat).toNat % 16))) :=
  once_result_kset _ (exec_srd_once s d 0x20) (by rw [if_pos (by decide), kget_issued, issued_ctx])

/-- A MODE whose guard no lane could pass has GUARD 0 in the sense 0 (R87). -/
theorem deadGuard_iff (m : BitVec 18) : deadGuard m = true ↔ m.extractLsb' 0 4 = 0 := by
  have hsense : modeSense m = decide (m.toNat / 8 % 2 = 1) := by
    rw [Bool.eq_iff_iff]
    simp [modeSense, BitVec.getLsbD, Nat.testBit, Nat.shiftRight_eq_div_pow, Nat.one_and_eq_mod_two]
  rw [← BitVec.toNat_inj]
  simp [deadGuard, hsense, modeGuard, bitsOf]
  omega

theorem deadGuard_withGuard (m : BitVec 18) (q : BitVec 1) (g : BitVec 3) :
    deadGuard (withGuard m q g) = true ↔ q = 0 ∧ g = 0 := by
  have hlow : (withGuard m q g).extractLsb' 0 4 = q ++ g := by
    apply BitVec.eq_of_getLsbD_eq
    intro i hi
    have h4 : i < 4 := hi
    simp only [withGuard, BitVec.getLsbD_extractLsb', BitVec.getLsbD_append, h4]
    by_cases h3 : i < 3
    · simp [h3]
    · have : i - 3 < 1 := by omega
      simp [h3, this]
  rw [deadGuard_iff, hlow]
  clear hlow
  revert q g
  decide

/-- A value that an overflow table takes (R40). -/
theorem ovtRefused_iff (v : DWord) : ovtRefused v = false ↔ v.toNat < 4096 ∧ ∀ i < 6, v.toNat / 2 ^ (2 * i) % 4 ≠ 3 := by
  simp [ovtRefused, ovtBad, bitsOf]

/-- Nothing of the warp lies in its spill area (R164). -/
theorem spillQuiet_iff (s : State) : spillQuiet s = true ↔ s.sp.depth = 1 ∧ s.w.tdepth = 1 ∧ s.sp.sfloor = 0 ∧
    (∀ p ∈ s.w.splits, p.alive → p.depth = 0) ∧ ∀ p ∈ s.w.overflow, ¬ p.alive := by
  simp [spillQuiet, and_assoc, or_iff_not_imp_left]

theorem spillQuiet_issued (i : Instr) (s : State) : spillQuiet (issued i s) = spillQuiet s := rfl

/-- An SWR acts once on its source value (R35). -/
theorem swr_ends {i : Instr} {s : State} {a : BitVec 6} {k : BitVec 1} {f : DWord → State → Res} {ends : State → State}
    (he : exec i s = run i (swr a k f) s)
    (hb : Issues i s → finish i false (f (swrValue s a k) (issued i s)) = ends (issued i s)) : OnceEnds i s ends :=
  once_ends he (fun h _ => hb h)

/-- An SWR whose value its register takes. -/
theorem swr_writes {i : Instr} {s : State} {a : BitVec 6} {k : BitVec 1} {f : DWord → State → Res} (g : Warp → Warp)
    (he : exec i s = run i (swr a k f) s)
    (hf : f (swrValue s a k) (issued i s) = .ok { issued i s with w := g s.w })
    (hs : (g s.w).splits = s.w.splits) (ho : (g s.w).overflow = s.w.overflow) :
    OnceEnds i s (fun u => retired { u with w := g u.w }) :=
  swr_ends he (fun h => by rw [hf, finish_ok_warp h g hs ho]; rfl)

/-- An SWR whose value its register refuses. -/
theorem swr_fails {i : Instr} {s : State} {a : BitVec 6} {k : BitVec 1} {f : DWord → State → Res} {c : Byte} {v : DWord}
    (he : exec i s = run i (swr a k f) s) (hf : f (swrValue s a k) (issued i s) = swrFail c v (issued i s)) :
    OnceEnds i s (fun u => trapped u c v s.sp.pc) :=
  swr_ends he (fun _ => by rw [hf]; rfl)

theorem onceEnds_swrMode (s : State) (a : BitVec 6) (k : BitVec 1) : OnceEnds (.swrMode a k) s (fun u =>
    if s.sp.level = 0 ∧ (swrValue s a k).extractLsb' 13 5 ≠ 0 then trapped u cPriv (swrValue s a k) s.sp.pc
    else if (swrValue s a k).extractLsb' 0 4 = 0 then trapped u cOperand (swrValue s a k) s.sp.pc
    else retired { u with w := { u.w with mode := (swrValue s a k).extractLsb' 0 18 } }) := by
  have hhigh : (s.sp.level = 0 && ((swrValue s a k).extractLsb' 0 18).extractLsb' 13 5 != 0) = true ↔
      s.sp.level = 0 ∧ (swrValue s a k).extractLsb' 13 5 ≠ 0 := by
    have h : ((swrValue s a k).extractLsb' 0 18).extractLsb' 13 5 = (swrValue s a k).extractLsb' 13 5 := by
      apply BitVec.eq_of_toNat_eq; simp
    simp [h]
  have hlow : deadGuard ((swrValue s a k).extractLsb' 0 18) = true ↔ (swrValue s a k).extractLsb' 0 4 = 0 := by
    have h : ((swrValue s a k).extractLsb' 0 18).extractLsb' 0 4 = (swrValue s a k).extractLsb' 0 4 := by
      apply BitVec.eq_of_toNat_eq; simp
    rw [deadGuard_iff, h]
  by_cases hpriv : s.sp.level = 0 ∧ (swrValue s a k).extractLsb' 13 5 ≠ 0
  · simp only [if_pos hpriv]
    exact swr_fails rfl (if_pos (hhigh.mpr hpriv))
  by_cases hguard : (swrValue s a k).extractLsb' 0 4 = 0
  · simp only [if_neg hpriv, if_pos hguard]
    exact swr_fails rfl ((if_neg (mt hhigh.mp hpriv)).trans (if_pos (hlow.mpr hguard)))
  · simp only [if_neg hpriv, if_neg hguard]
    exact swr_writes (fun w => { w with mode := (swrValue s a k).extractLsb' 0 18 }) rfl
      ((if_neg (mt hhigh.mp hpriv)).trans (if_neg (mt hlow.mp hguard))) rfl rfl

theorem onceEnds_swrFflags (s : State) (a : BitVec 6) (k : BitVec 1) : OnceEnds (.swrFflags a k) s
    (fun u => retired { u with w := { u.w with fflags := (swrValue s a k).extractLsb' 0 5 } }) :=
  swr_writes (fun w => { w with fflags := (swrValue s a k).extractLsb' 0 5 }) rfl rfl rfl rfl

theorem onceEnds_swrTrapc (s : State) (a : BitVec 6) (k : BitVec 1) : OnceEnds (.swrTrapc a k) s
    (fun u => retired { u with w := { u.w with trapc := (swrValue s a k).extractLsb' 0 8 } }) :=
  swr_writes (fun w => { w with trapc := (swrValue s a k).extractLsb' 0 8 }) rfl rfl rfl rfl

theorem onceEnds_swrTrapv (s : State) (a : BitVec 6) (k : BitVec 1) : OnceEnds (.swrTrapv a k) s
    (fun u => retired { u with w := { u.w with trapv := swrValue s a k } }) :=
  swr_writes (fun w => { w with trapv := swrValue s a k }) rfl rfl rfl rfl

theorem onceEnds_swrTrappc (s : State) (a : BitVec 6) (k : BitVec 1) : OnceEnds (.swrTrappc a k) s (fun u =>
    if 2 ^ 56 ≤ (swrValue s a k).toNat ∨ (swrValue s a k).toNat % 4 ≠ 0 then trapped u cOperand (swrValue s a k) s.sp.pc
    else retired { u with w := { u.w with trappc := swrValue s a k } }) := by
  have hbad : (!canonical (swrValue s a k) || misaligned (swrValue s a k)) = true ↔
      2 ^ 56 ≤ (swrValue s a k).toNat ∨ (swrValue s a k).toNat % 4 ≠ 0 := by simp [canonical, misaligned]
  by_cases h : 2 ^ 56 ≤ (swrValue s a k).toNat ∨ (swrValue s a k).toNat % 4 ≠ 0
  · simp only [if_pos h]
    exact swr_fails rfl (if_pos (hbad.mpr h))
  · simp only [if_neg h]
    exact swr_writes (fun w => { w with trappc := swrValue s a k }) rfl (if_neg (mt hbad.mp h)) rfl rfl

theorem onceEnds_swrOvt_refused {s : State} {a : BitVec 6} {k : BitVec 1} (h : ovtRefused (swrValue s a k) = true) :
    OnceEnds (.swrOvt a k) s (fun u => trapped u cOperand (swrValue s a k) s.sp.pc) :=
  swr_fails rfl (if_pos h)

theorem onceEnds_swrOvt {s : State} {a : BitVec 6} {k : BitVec 1} (h : ovtRefused (swrValue s a k) = false) :
    OnceEnds (.swrOvt a k) s (fun u => retired (setOvt u (swrValue s a k))) :=
  swr_ends rfl (fun hi => (congrArg _ (if_neg (Bool.not_eq_true _ ▸ h))).trans (finish_ok_of_splits hi rfl rfl rfl))

section
variable {s : State} {a : BitVec 6} {k : BitVec 1}

theorem canonical_swrValue (h : (swrValue s a k).toNat < 2 ^ 56) : ¬ (!canonical (swrValue s a k)) = true := by
  simpa [canonical] using h

theorem onceEnds_swrSpillb_far (h : 2 ^ 56 ≤ (swrValue s a k).toNat) :
    OnceEnds (.swrSpillb a k) s (fun u => trapped u cOperand (swrValue s a k) s.sp.pc) :=
  swr_fails rfl (if_pos (by simpa [canonical] using h))

theorem onceEnds_swrSpillb_unaligned (h : (swrValue s a k).toNat < 2 ^ 56) (ha : (swrValue s a k).toNat % 4096 ≠ 0) :
    OnceEnds (.swrSpillb a k) s (fun u => trapped u cAlign (swrValue s a k) s.sp.pc) :=
  swr_fails rfl ((if_neg (canonical_swrValue h)).trans (if_pos ha))

theorem onceEnds_swrSpillb_inUse (h : (swrValue s a k).toNat < 2 ^ 56) (ha : (swrValue s a k).toNat % 4096 = 0)
    (hq : spillQuiet s = false) : OnceEnds (.swrSpillb a k) s (fun u => trapped u cOperand 1 s.sp.pc) :=
  swr_fails rfl ((if_neg (canonical_swrValue h)).trans ((if_neg (not_not.mpr ha)).trans
    (if_pos (by simpa [spillQuiet_issued] using hq))))

theorem onceEnds_swrSpillb (h : (swrValue s a k).toNat < 2 ^ 56) (ha : (swrValue s a k).toNat % 4096 = 0)
    (hq : spillQuiet s = true) : OnceEnds (.swrSpillb a k) s
      (fun u => retired { u with w := { u.w with spillb := swrValue s a k } }) :=
  swr_writes (fun w => { w with spillb := swrValue s a k }) rfl
    ((if_neg (canonical_swrValue h)).trans ((if_neg (not_not.mpr ha)).trans
      (if_neg (by simpa [spillQuiet_issued] using hq)))) rfl rfl

end

theorem onceEnds_swrStrand (s : State) (a : BitVec 6) (k : BitVec 1) : OnceEnds (.swrStrand a k) s (fun u =>
    stopSteps (retired (strandLanes u ((swrValue s a k).extractLsb' 0 32) 2 s.sp.pc (fun _ => 0)))) :=
  swr_ends rfl (fun _ => rfl)

/-- An instruction that acts once and raises OPERAND with its word. -/
theorem once_word {i : Instr} {s : State} {body : State → Res} (he : exec i s = run i (fun s => once s body) s)
    (hb : body (issued i s) = trapWord (issued i s) i) :
    OnceEnds i s (fun u => trapped u cOperand ((encode i).setWidth 64) s.sp.pc) :=
  once_ends he (fun _ _ => by rw [hb]; rfl)

/-- An instruction that acts once and leaves every split as it was. -/
theorem once_ok {i : Instr} {s : State} (f : State → State) {body : State → Res}
    (he : exec i s = run i (fun s => once s body) s) (hb : body (issued i s) = .ok (f (issued i s)))
    (hf : (f (issued i s)).sp = (issued i s).sp ∧ (f (issued i s)).w.splits = s.w.splits ∧
      (f (issued i s)).w.overflow = s.w.overflow) : OnceEnds i s (fun u => retired (f u)) := by
  obtain ⟨hsp, hs, ho⟩ := hf
  exact once_ends he (fun hi _ => by rw [hb]; exact finish_ok_of_splits hi hsp hs ho)

theorem onceEnds_ovtld_refused {s : State} {a : BitVec 6} (h : ovtRefused (kget s a.toNat) = true) :
    OnceEnds (.ovtld a) s (fun u => trapped u cOperand ((encode (.ovtld a)).setWidth 64) s.sp.pc) :=
  once_word rfl (if_pos h)

theorem onceEnds_ovtld {s : State} {a : BitVec 6} (h : ovtRefused (kget s a.toNat) = false) :
    OnceEnds (.ovtld a) s (fun u => retired (setOvt u (kget s a.toNat))) :=
  once_ok (fun u => setOvt u (kget s a.toNat)) rfl (if_neg (Bool.not_eq_true _ ▸ h)) ⟨rfl, rfl, rfl⟩

theorem onceEnds_setm_refused {s : State} {m : BitVec 18} (h : m.extractLsb' 0 4 = 0) :
    OnceEnds (.setm m) s (fun u => trapped u cOperand ((encode (.setm m)).setWidth 64) s.sp.pc) :=
  once_word rfl (if_pos ((deadGuard_iff m).mpr h))

theorem onceEnds_setm {s : State} {m : BitVec 18} (h : m.extractLsb' 0 4 ≠ 0) :
    OnceEnds (.setm m) s (fun u => retired (setMode u m)) :=
  once_ok (fun u => setMode u m) rfl (if_neg (mt (deadGuard_iff m).mp h)) ⟨rfl, rfl, rfl⟩

theorem onceEnds_setg_refused {s : State} {q : BitVec 1} {g : BitVec 3} (h : q = 0 ∧ g = 0) :
    OnceEnds (.setg q g) s (fun u => trapped u cOperand ((encode (.setg q g)).setWidth 64) s.sp.pc) :=
  once_word rfl (if_pos ((deadGuard_withGuard s.w.mode q g).mpr h))

theorem onceEnds_setg {s : State} {q : BitVec 1} {g : BitVec 3} (h : ¬ (q = 0 ∧ g = 0)) :
    OnceEnds (.setg q g) s (fun u => retired (setMode u (withGuard s.w.mode q g))) :=
  once_ok (fun u => setMode u (withGuard s.w.mode q g)) rfl (if_neg (mt (deadGuard_withGuard s.w.mode q g).mp h))
    ⟨rfl, rfl, rfl⟩

/-- Settles O14: one lemma for each register and instruction, their checks put in the statement's terms. -/
theorem specialRegisters : Obligations.SpecialRegisters := by
  refine ⟨fun s d i => ?_, fun s a k => ?_, fun s m q g => ⟨?_, ?_⟩⟩
  · intro value
    have hvalue (k : BitVec 1) (l : Nat) (hi : i.toNat < 32) :
        readSpecial (issued (.srd d k i) s) i.toNat l = (value k l).getD i.toNat 0 :=
      (readSpecial_eq _ l hi).trans (by rw [specials_issued])
    refine ⟨fun hi => ?_, fun hi => ?_, onceResult_srdShape s d⟩
    · simpa only [hvalue 0 _ hi] using laneResult_srd s d i
    · rw [← hvalue 1 0 hi]
      exact onceResult_srd s d i (by omega)
  · intro v fails writes table loads quiet
    have htable (x : DWord) : table x ↔ ovtRefused x = false := (ovtRefused_iff x).symm
    have hquiet : quiet ↔ spillQuiet s = true := (spillQuiet_iff s).symm
    exact ⟨onceEnds_swrMode s a k, onceEnds_swrFflags s a k, onceEnds_swrTrapc s a k, onceEnds_swrTrapv s a k,
      onceEnds_swrTrappc s a k, fun h => onceEnds_swrOvt_refused (Bool.not_eq_false _ ▸ mt (htable v).mpr h),
      fun h => onceEnds_swrOvt ((htable v).mp h), onceEnds_swrSpillb_far, onceEnds_swrSpillb_unaligned,
      fun h ha hq => onceEnds_swrSpillb h ha (hquiet.mp hq),
      fun h ha hq => onceEnds_swrSpillb_inUse h ha (by simpa [hquiet] using hq), onceEnds_swrStrand s a k,
      fun h => onceEnds_ovtld_refused (Bool.not_eq_false _ ▸ mt (htable _).mpr h), fun h => onceEnds_ovtld ((htable _).mp h)⟩
  · split
    next h => exact onceEnds_setm_refused h
    next h => exact onceEnds_setm h
  · split
    next h => exact onceEnds_setg_refused h
    next h => exact onceEnds_setg h

end Sys2Proof.Machine
end

section
/-! SUPPORT. A return clears everything that its split kept of an earlier wait (R149). -/

namespace Sys2Proof.Machine

/-- A split about to return from depth 1 to an address of 0, one lane of it live, for which MAJFAIL is still marked as
pending from an earlier majority instruction. -/
def returnsDoomed : State := { State.reset with
  w := { Warp.blank with live := true }
  sp := { Split.blank with state := .ready, active := 1, entry := 1, wbase := 16, depth := 1, doomed := true } }

theorem xget_returnsDoomed (l r : Nat) : xget returnsDoomed l r = 0 := rfl

theorem issues_returnsDoomed : Issues .ret returnsDoomed where
  ready := rfl
  fresh := rfl
  checks := by decide
  clean := rfl
  whole := ⟨rfl, rfl, rfl⟩

/-- A RET that completes drops what the split kept of an earlier wait, the mark of a pending MAJFAIL with it. -/
theorem exec_ret_returnsDoomed :
    (match exec .ret returnsDoomed with | .next t => t.sp.doomed | _ => true) = false := by decide +kernel

/-- Refutes O19: its last clause, of lanes that all return together, has the RET drop the split's kept operands alone,
where the end of an instruction (`dropArgs`) also clears the kept store phase, slice and pending MAJFAIL. In a split with
MAJFAIL marked the two differ. -/
theorem not_callsAndReturns : ¬ Obligations.CallsAndReturns := by
  rintro ⟨-, hret⟩
  obtain ⟨-, -, -, -, -, -, htogether⟩ := hret returnsDoomed issues_returnsDoomed
  have hnext := htogether rfl (.inl rfl) (by decide) (by decide) (by decide) (by decide) 0 ⟨0, by decide, by decide⟩
    (fun _ _ => by simp [xget_returnsDoomed])
  have hdrops := exec_ret_returnsDoomed
  rw [hnext] at hdrops
  exact Bool.noConfusion hdrops

end Sys2Proof.Machine
end

section
/-! SUPPORT. What takes the copy-queue entries that discarded work frees (R189, R256). -/

namespace Sys2Proof.Machine

/-- A complete collective copy of slot 0 that has no entry in the copy queue yet. -/
def unqueuedCollective : Collective :=
  { slot := 0, mask := none, slices := [], receivers := [], opened := 0, complete := true, queued := false }

/-- A machine that keeps, beside the crew in focus, another crew of the same id in the same cluster, with a collective
of ring 0 that waits for an entry of the copy queue. -/
def twinCrews : State := { State.reset with
  crew := { Crew.blank with id := 1, live := true }
  crews := [{ Crew.blank with id := 1, live := true, rings := [{ Ring.blank with collectives := [unqueuedCollective] }] }] }

/-- Discarding the focused crew's rings frees entries of the copy queue, and the twin's collective takes one. -/
theorem discardWork_twinCrews :
    (discardWork twinCrews).clus.copies.any (fun c => c.crew == twinCrews.crew.id && c.ring == 0) = true := by
  decide +kernel

/-- Refutes O52: its clause on discarded work holds of every machine, also of one in which another crew has the focused
crew's id. The entries that `discardWork` frees are then taken by collectives of that crew, and the copy queue holds a
command of the id on a ring below 8. -/
theorem not_contextEvents : ¬ Obligations.ContextEvents := by
  intro h
  obtain ⟨-, -, -, -, hdiscard, -⟩ := h State.reset 0
  obtain ⟨-, hcopies⟩ := hdiscard twinCrews
  obtain ⟨c, hc, hmatch⟩ := List.any_eq_true.mp discardWork_twinCrews
  simp only [Bool.and_eq_true, beq_iff_eq] at hmatch
  have hring := hcopies c hc hmatch.1
  omega

end Sys2Proof.Machine
end

section
/-! SUPPORT. A function that may fail, on the elements of a list; bits and bytes of a record. -/

namespace Sys2Proof.Machine

/-- A list is done element by element where every element is. -/
theorem forall₂_of_mapE {α β ε : Type} {f : α → Except ε β} {as : List α} {bs : List β} (h : mapE f as = .ok bs) :
    List.Forall₂ (fun a b => f a = .ok b) as bs := by
  induction as generalizing bs with
  | nil => cases h; exact .nil
  | cons a as ih =>
    unfold mapE at h
    split at h
    · cases h
    next b hb =>
      split at h
      · cases h
      next bs' hbs => cases h; exact .cons hb (ih hbs)

/-- One element that fails makes the list fail. -/
theorem mapE_error {α β ε : Type} {f : α → Except ε β} {as : List α} {a : α} {e : ε} (ha : a ∈ as) (h : f a = .error e) :
    ∃ e', mapE f as = .error e' := by
  induction as with
  | nil => cases ha
  | cons b as ih =>
    rcases List.mem_cons.mp ha with rfl | ha
    · exact ⟨e, by rw [mapE, h]⟩
    · obtain ⟨e', he⟩ := ih ha
      cases hb : f b with
      | error eb => exact ⟨eb, by rw [mapE, hb]⟩
      | ok c => exact ⟨e', by rw [mapE, hb, he]⟩

/-- Bit i of the number that little-endian bytes hold is bit i % 8 of byte i / 8 (R169). -/
theorem testBit_leNat (bs : List Byte) (i : Nat) : (leNat bs).testBit i = (bs.getD (i / 8) 0).toNat.testBit (i % 8) := by
  induction bs generalizing i with
  | nil => simp [leNat]
  | cons b bs ih =>
    rw [leNat, Nat.add_comm, show 256 = 2 ^ 8 from rfl, Nat.testBit_two_pow_mul_add _ b.isLt]
    by_cases h : i < 8
    · simp [h, Nat.div_eq_of_lt h, Nat.mod_eq_of_lt h]
    · obtain ⟨j, rfl⟩ : ∃ j, i = j + 8 := ⟨i - 8, by omega⟩
      simp [h, ih]

/-- The number of n bytes is below 256^n. -/
theorem leNat_lt (bs : List Byte) : leNat bs < 256 ^ bs.length := by
  induction bs with
  | nil => simp [leNat]
  | cons b bs ih =>
    have hb := b.isLt
    rw [leNat, List.length_cons, Nat.pow_succ]
    omega

theorem recByte_eq (bs : List Byte) (off : Nat) : recByte bs off = (bs.getD off 0).toNat := by
  unfold recByte recNat
  by_cases h : off < bs.length
  · rw [List.drop_eq_getElem_cons h, List.getD_eq_getElem _ _ h]
    rfl
  · simp [List.drop_eq_nil_of_le (Nat.le_of_not_lt h), leNat, Nat.le_of_not_lt h]

theorem bitsOf_one (v i : Nat) : (bitsOf v i 1 == 1) = v.testBit i := by
  rw [Nat.testBit_eq_decide_div_mod_eq, bitsOf, Nat.pow_one]
  rfl

/-- A block's bit of a BMMA table's bit map lies after the header of 16 bytes (R215). -/
theorem bitsOf_recByte_map (tab : List Byte) (i : Nat) :
    (bitsOf (recByte tab (16 + i / 8)) (i % 8) 1 == 1) = (leNat (tab.drop 16)).testBit i := by
  rw [bitsOf_one, recByte_eq, testBit_leNat]
  simp [List.getD_eq_getElem?_getD]

end Sys2Proof.Machine
end

section
/-! SUPPORT. The matrix engines' events: what each makes of the task it names (R218, R222, R351, R395). -/

namespace Sys2Proof.Machine

theorem event_some {f : Option State} {s t : State} (h : f = some t) : event f s = .next t := by rw [h]; rfl
theorem event_none {f : Option State} {s : State} (h : f = none) : event f s = .next s := by rw [h]; rfl

theorem tileTaskDispatchEvent_halted {s : State} (h : s.dev.halted = true) : tileTaskDispatchEvent s = none := if_pos h

theorem tileTaskDispatchEvent_encoder {s t : State} (h : s.dev.halted = false) (he : nextEncoder s = some t) :
    tileTaskDispatchEvent s = some t := by
  simp [tileTaskDispatchEvent, h, he]

theorem tileTaskDispatchEvent_task {s : State} (h : s.dev.halted = false) (he : nextEncoder s = none) :
    tileTaskDispatchEvent s = (pack s).cluss.findSome? (fun k => startTask s k.id) := by
  simp [tileTaskDispatchEvent, h, he]

theorem startTask_eq {s u : State} {k e : Nat} {t : Task} (he : freeEngine s k = some e)
    (hf : focusTask s k canStart = some (u, t)) :
    ∃ tab, startTask s k = some (onTask (startMem u u.ctx.id t.at_ (t.waits.map (fun w => countKey k w.1))) t
      { t with state := .running, engine := e, table := tab }) := by
  simp only [startTask, he, hf]
  exact ⟨_, rfl⟩

theorem rowGroupWrittenEvent_halted {s : State} (cl e : Nat) (h : s.dev.halted = true) :
    rowGroupWrittenEvent cl e s = none := if_pos h

section
variable {s u : State} {cl e : Nat} {t : Task}

theorem rowGroupWrittenEvent_work {t1 : Task} {ks : List (Nat × TileOut)} (h : s.dev.halted = false)
    (hf : focusTask s cl (runningOn e) = some (u, t)) (hrow : t.row < t.mt) (hw : groupWork u t = .ok (t1, ks)) :
    rowGroupWrittenEvent cl e s = some (onTask (writeOutputs u t1 ks) t
      { t1 with row := min t.mt (t.row + 16), flags := orFlagsOf (ks.map (fun x => x.2)) t.flags }) := by
  simp [rowGroupWrittenEvent, h, hf, Nat.not_le.mpr hrow, hw]

theorem rowGroupWrittenEvent_completes (h : s.dev.halted = false) (hf : focusTask s cl (runningOn e) = some (u, t))
    (hrow : t.mt ≤ t.row) : rowGroupWrittenEvent cl e s = some (completeTask u t t) := by
  simp [rowGroupWrittenEvent, h, hf, hrow]

theorem taskFaultEvent_page {a : Nat} (he : e < 4) (hf : focusTask s cl (runningOn e) = some (u, t))
    (hw : groupWork u t = .error (cPage, a)) : taskFaultEvent cl e s = some (onTask u t { t with
      state := .suspended
      fault := some { cause := cPage, addr := BitVec.ofNat 64 a, slot := 0, delivered := false } }) := by
  simp [taskFaultEvent, Nat.not_le.mpr he, hf, hw]

theorem taskFaultEvent_fails {c : Byte} {a : Nat} (he : e < 4) (hf : focusTask s cl (runningOn e) = some (u, t))
    (hc : c ≠ cPage) (hw : groupWork u t = .error (c, a)) : taskFaultEvent cl e s = some (failTask u t t c) := by
  simp [taskFaultEvent, Nat.not_le.mpr he, hf, hw, hc]

theorem taskFaultEvent_dependent (he : 4 ≤ e) (hf : focusTask s cl dependsOnFailure = some (u, t)) :
    taskFaultEvent cl e s = some (failTask u t t cTaskflt) := by
  simp [taskFaultEvent, he, hf]

end

/-! A task's end: its status word, the queue, and its barrier's count or mark (R218, R222). -/

theorem writeStatus_of_jobRun {s u : State} {t : Task} {state cause : Nat}
    (h : jobRun s (t.job s) none 0 needW (t.addr.toNat + 8) (natLE (statusWord state t cause) 8) = .ok u) :
    writeStatus s t state cause = u := by
  unfold writeStatus
  rw [h]

theorem completeTask_mem (s : State) (old t : Task) :
    (completeTask s old t).mem = (writeStatus (dropTask s old) t 5 0).mem := by
  unfold completeTask
  dsimp only
  split
  · rfl
  · rw [countMem_eq]

/-- A task that completes leaves the queue. -/
theorem completeTask_tasks (s : State) (old t : Task) :
    (completeTask s old t).clus.tasks = s.clus.tasks.filter (fun x => x != old) := by
  unfold completeTask
  dsimp only
  split
  · simp [dropTask]
  · rw [countMem_eq]; simp [dropTask]

theorem completeTask_counts {s : State} {t : Task} {n : Nat} (old : Task) (h : t.cbar = some n) :
    (completeTask s old t).ctx.counts =
      sset 0 s.ctx.counts (countKey s.clus.id n) (sget 0 s.ctx.counts (countKey s.clus.id n) + 1) := by
  simp only [completeTask, h]
  rw [countMem_eq, writeStatus_ctx]
  rfl

theorem failTask_mem (s : State) (old t : Task) (c : Byte) :
    (failTask s old t c).mem = (writeStatus (dropTask s old) t 6 c.toNat).mem := by
  unfold failTask
  dsimp only
  split <;> rfl

theorem failTask_failed {s : State} {t : Task} {n : Nat} (old : Task) (c : Byte) (h : t.cbar = some n) :
    (failTask s old t c).ctx.failed =
      sset [] s.ctx.failed (countKey s.clus.id n) (sget [] s.ctx.failed (countKey s.clus.id n) ++ [t.addr]) := by
  simp only [failTask, h]
  rw [writeStatus_ctx]
  rfl

/-- A status word that its page admits stands in the record of a task that completes, which leaves the queue. -/
theorem completeTask_of_jobRun {s u : State} {t : Task} (h : jobRun (dropTask s t) (t.job s) none 0 needW (t.addr.toNat + 8)
    (natLE (statusWord 5 t 0) 8) = .ok u) : (completeTask s t t).mem = u.mem ∧ t ∉ (completeTask s t t).clus.tasks := by
  rw [completeTask_mem, completeTask_tasks, writeStatus_of_jobRun h]
  simp

/-- The same of a task that fails, with the cause in its status word. -/
theorem failTask_of_jobRun {s u : State} {t : Task} {c : Byte} (h : jobRun (dropTask s t) (t.job s) none 0 needW
    (t.addr.toNat + 8) (natLE (statusWord 6 t c.toNat) 8) = .ok u) :
    (failTask s t t c).mem = u.mem ∧ t ∉ (failTask s t t c).clus.tasks := by
  rw [failTask_mem, failTask_tasks, writeStatus_of_jobRun h]
  simp

theorem sget_completeTask_counts {s : State} {t : Task} {n : Nat} (old : Task) (h : t.cbar = some n) :
    sget 0 (completeTask s old t).ctx.counts (countKey s.clus.id n) = sget 0 s.ctx.counts (countKey s.clus.id n) + 1 := by
  rw [completeTask_counts old h, sget_sset_same]

theorem sget_failTask_failed {s : State} {t : Task} {n : Nat} (old : Task) (c : Byte) (h : t.cbar = some n)
    (hnone : s.ctx.failed = []) : sget [] (failTask s old t c).ctx.failed (countKey s.clus.id n) = [t.addr] := by
  rw [failTask_failed old c h, sget_sset_same, hnone]
  rfl

end Sys2Proof.Machine
end

section
/-! SUPPORT. The products of a tile task: masks, metadata and block tables (R62, R212, R214, R215). -/

namespace Sys2Proof.Machine

theorem blocked_iff (t : Task) (on r c : Nat) : t.blocked on r c = true ↔
    t.kind = 3 ∧ ∃ tab, t.table = some tab ∧ recByte tab 5 = on ∧ blockPresent tab r c = false := by
  unfold Task.blocked
  cases t.table <;> simp [and_assoc]

/-- The masks of a product's two elements, as the block table gives them (R215). -/
theorem masked_iff (t : Task) (ra ca rb cb : Nat) :
    (t.kind = 3 ∧ ∃ tab, t.table = some tab ∧
      ((recByte tab 5 = 1 ∧ blockPresent tab ra ca = false) ∨ (recByte tab 5 = 2 ∧ blockPresent tab rb cb = false))) ↔
    (t.blocked 1 ra ca = true ∨ t.blocked 2 rb cb = true) := by
  simp only [blocked_iff, and_or_left, exists_or]

theorem blockPresent_iff (tab : List Byte) (r c : Nat) : blockPresent tab r c = true ↔
    r < recNat tab 0 2 ∧ c < recNat tab 2 2 ∧
      ((recByte tab 4 = 0 ∧ (leNat (tab.drop 16)).testBit (r * recNat tab 2 2 + c) = true) ∨
       (recByte tab 4 ≠ 0 ∧ ∃ e < recNat tab 8 4, recNat tab (16 + 4 * e) 2 = r ∧ recNat tab (18 + 4 * e) 2 = c)) := by
  simp only [blockPresent, bitsOf_recByte_map, Bool.and_eq_true, decide_eq_true_eq, and_assoc]
  by_cases h : recByte tab 4 = 0 <;> simp [h]

theorem element_outside (r : Reader) (s : State) {x : Tensor} {ix : List Int} (h : x.inside ix = false) :
    element r s x ix = .ok none := by simp [element, h]

theorem element_inside {r : Reader} {s : State} {x : Tensor} {ix : List Int} {v : Nat} (h : x.inside ix = true)
    (hr : x.readBits r s ix = .ok v) : element r s x ix = .ok (some (elemValue x.fmt v)) := by simp [element, h, hr]

section
variable {s : State} {t : Task} {m n : Nat} {k : Int}

/-- A task without metadata masks A by its block table alone. -/
theorem elemA_unpruned (hk : t.kind ≠ 2) : elemA s t m k =
    if t.blocked 1 (m / 16) ((k - t.k0).toNat / 16) then .ok none
    else element (tileReader s t) s t.ta (t.ix t.ta k (t.m0 + m)) := if_neg hk

theorem productAt_of_blocked_B (h : t.blocked 2 ((k - t.k0).toNat / 16) (n / 16) = true) :
    productAt s t m n k = .ok none := by simp [productAt, h]

theorem productAt_of_outside_B (h : t.tb.inside (t.ix t.tb k (t.n0 + n)) = false) : productAt s t m n k = .ok none := by
  simp [productAt, h]

theorem productAt_of_elemA_none (h : elemA s t m k = .ok none) : productAt s t m n k = .ok none := by
  simp [productAt, h]

theorem productAt_of_blocked_A (hk : t.kind ≠ 2) (h : t.blocked 1 (m / 16) ((k - t.k0).toNat / 16) = true) :
    productAt s t m n k = .ok none :=
  productAt_of_elemA_none ((elemA_unpruned hk).trans (if_pos h))

theorem productAt_of_outside_A (hk : t.kind ≠ 2) (h : t.ta.inside (t.ix t.ta k (t.m0 + m)) = false) :
    productAt s t m n k = .ok none := by
  refine productAt_of_elemA_none ((elemA_unpruned hk).trans ?_)
  rw [element_outside _ _ h, ite_self]

/-- A product exists where both elements do and neither is masked (R212). -/
theorem productAt_of_read {a b : Nat} (hk : t.kind ≠ 2)
    (hmask : ¬ (t.blocked 1 (m / 16) ((k - t.k0).toNat / 16) = true ∨ t.blocked 2 ((k - t.k0).toNat / 16) (n / 16) = true))
    (hA : t.ta.inside (t.ix t.ta k (t.m0 + m)) = true) (hB : t.tb.inside (t.ix t.tb k (t.n0 + n)) = true)
    (ha : t.ta.readBits (tileReader s t) s (t.ix t.ta k (t.m0 + m)) = .ok a)
    (hb : t.tb.readBits (tileReader s t) s (t.ix t.tb k (t.n0 + n)) = .ok b) :
    productAt s t m n k = .ok (some (fvMul (elemValue t.ta.fmt a) (elemValue t.tb.fmt b)).1) := by
  obtain ⟨hmaskA, hmaskB⟩ := not_or.mp hmask
  have hl : elemA s t m k = .ok (some (elemValue t.ta.fmt a)) :=
    (elemA_unpruned hk).trans ((if_neg hmaskA).trans (element_inside hA ha))
  have hr : elemB s t k n = .ok (some (elemValue t.tb.fmt b)) := (if_neg hmaskB).trans (element_inside hB hb)
  simp [productAt, hB, hmaskB, hl, hr]

theorem elemA_pruned {is : List Nat} (hk : t.kind = 2)
    (hmeta : metaOf s t m (k.fdiv (pruning (t.kbyte 0)).1) = .ok (some is))
    (h : (k.emod (pruning (t.kbyte 0)).1).toNat ∉ is) : elemA s t m k = .ok none := by
  have hfind : is.findIdx? (fun i => i == (k.emod (pruning (t.kbyte 0)).1).toNat) = none := by
    simp only [List.findIdx?_eq_none_iff, beq_eq_false_iff_ne]
    exact fun i hi he => h (he ▸ hi)
  simp only [elemA, hk, if_true, hmeta, hfind]

/-- A kept value is the stored one of the slot that its metadata names (R214). -/
theorem elemA_kept {is : List Nat} {j : Nat} (hk : t.kind = 2)
    (hmeta : metaOf s t m (k.fdiv (pruning (t.kbyte 0)).1) = .ok (some is))
    (hfind : is.findIdx? (fun i => i == (k.emod (pruning (t.kbyte 0)).1).toNat) = some j) :
    elemA s t m k = element (tileReader s t) s t.ta
      (t.ix t.ta (k.fdiv (pruning (t.kbyte 0)).1 * (pruning (t.kbyte 0)).2.1 + j) (t.m0 + m)) := by
  simp only [elemA, hk, if_true, hmeta, hfind]

/-- A group of the K range that is not well formed ends the row (R214). -/
theorem rowOutputs_bad_group {g : Int} {e : Byte × Nat} (hk : t.kind = 2) (hg : g ∈ t.groups)
    (h : metaOf s t m g = .error e) : ∃ e', rowOutputs s t m = .error e' := by
  obtain ⟨e', he⟩ := mapE_error hg h
  exact ⟨e', by simp only [rowOutputs, checkMeta, hk, if_true, he]⟩

end

end Sys2Proof.Machine
end

section
/-! SUPPORT. Sums, conversions and outputs of a tile task (R60, R61, R212, R216). -/

namespace Sys2Proof.Machine

/-- The places along K of block j that lie in a task's K range (R61). -/
def Task.blockRange (t : Task) (j : Int) : List Int :=
  ((List.range 32).map (fun (i : Nat) => 32 * j + (i : Int))).filter (fun k => decide (t.k0 ≤ k) && decide (k < t.k0 + t.klen))

section
variable {s : State} {t : Task} {m n : Nat}

/-- A block along K is summed exactly, scaled and rounded, then added and rounded; one without products adds nothing (R61). -/
theorem blockStep_ok {acc acc' : FV} {sc sc' : Bool} {j : Int} (h : blockStep s t m n (acc, sc) j = .ok (acc', sc')) :
    ∃ ps sa sb, mapE (productAt s t m n) (t.blockRange j) = .ok ps ∧
      scaleAt (tileReader s t) s t.ta t.extentA (t.ix t.ta 0 (t.m0 + m)) j = .ok sa ∧
      scaleAt (tileReader s t) s t.tb (t.tb.dim 0) (t.ix t.tb 0 (t.n0 + n)) j = .ok sb ∧
      (ps.filterMap id = [] → acc' = acc) ∧
      (ps.filterMap id ≠ [] → acc' = round32 (fvAdd 0 acc (round32 (fvMul (fvMul (sumExact (ps.filterMap id))
        (sa.getD (.fin false 1 0))).1 (sb.getD (.fin false 1 0))).1)).1) := by
  unfold blockStep at h
  dsimp only at h
  split at h
  · cases h
  next ps hps =>
    split at h
    · cases h
    next sa hsa =>
      split at h
      · cases h
      next sb hsb =>
        refine ⟨ps, sa, sb, hps, hsa, hsb, fun hempty => ?_, fun hsome => ?_⟩
        · rw [hempty] at h
          cases h
          rfl
        · rw [if_neg (by simpa using hsome)] at h
          cases h
          rfl

theorem mmaElement_ok {o : TileOut} (h : mmaElement s t m n = .ok (some o)) :
    o.ix = t.ix t.td (t.n0 + n) (t.m0 + m) ∧ t.td.inside (t.ix t.td (t.n0 + n) (t.m0 + m)) = true ∧
      t.blocked 0 (m / 16) (n / 16) = false ∧
      ∃ a acc sc, initialAcc s t m n = .ok a ∧ blockSteps s t m n (a, false) t.blocks = .ok (acc, sc) ∧
        o.code = (convert (ovtNat s) false t.td.fmt 0 acc).1 := by
  unfold mmaElement at h
  dsimp only at h
  split at h
  · cases h
  next hwritten =>
    obtain ⟨hin, hblocked⟩ := by simpa using hwritten
    split at h
    · cases h
    next a ha =>
      split at h
      · cases h
      next acc sc hsteps =>
        cases h
        exact ⟨rfl, hin, hblocked, a, acc, sc, ha, hsteps, rfl⟩

theorem mmaElement_outside (h : t.td.inside (t.ix t.td (t.n0 + n) (t.m0 + m)) = false) :
    mmaElement s t m n = .ok none := by simp [mmaElement, h]

/-- Where a TCVT task writes what it converts, transposed or not (R216). -/
def Task.target (t : Task) (m n : Nat) : List Int :=
  if t.kbyte 2 = 1 then t.ix t.td (t.m0 + m) (t.n0 + n) else t.ix t.td (t.n0 + n) (t.m0 + m)

theorem cvtElement_outside (h : t.ta.inside (t.ix t.ta (t.n0 + n) (t.m0 + m)) = false ∨ t.td.inside (t.target m n) = false) :
    cvtElement s t m n = .ok none :=
  if_pos (by simpa [Task.target] using h)

theorem cvtElement_plain {a : Nat} (hin : t.ta.inside (t.ix t.ta (t.n0 + n) (t.m0 + m)) = true)
    (hout : t.td.inside (t.target m n) = true)
    (ha : t.ta.readBits (tileReader s t) s (t.ix t.ta (t.n0 + n) (t.m0 + m)) = .ok a) (hmode : t.kbyte 0 = 0) :
    cvtElement s t m n = .ok (some (tileOut s t.td.fmt (t.kbyte 1) (t.target m n) (elemValue t.ta.fmt a) false)) := by
  unfold Task.target at hout
  simp only [cvtElement, hin, hout, element_inside hin ha, hmode, Task.target, Bool.not_true, Bool.or_self, Bool.false_eq_true,
    if_false, if_true]

/-- The places of a group's outputs are the keys of their elements' addresses, checked for a write (R222). -/
theorem outputKeys_ok {outs : List TileOut} {ks : List (Nat × TileOut)} (h : outputKeys s t outs = .ok ks) :
    outs = ks.map (fun x => x.2) ∧ ∀ x ∈ ks, checkAccess s needW (t.td.addr x.2.ix) (elemSize t.td.fmt) = .ok x.1 := by
  have hall := forall₂_of_mapE h
  clear h
  induction hall with
  | nil => simp
  | cons hx _ ih =>
    obtain ⟨houts, hkeys⟩ := ih
    split at hx
    · cases hx
    next key hkey => cases hx; exact ⟨by rw [List.map_cons, ← houts], List.forall_mem_cons.mpr ⟨hkey, hkeys⟩⟩

theorem groupWork_ok {u : Task} {ks : List (Nat × TileOut)} (h : groupWork s t = .ok (u, ks)) :
    u = { t with table := u.table } ∧ groupOutputs s u = .ok (ks.map (fun x => x.2)) ∧
      ∀ x ∈ ks, checkAccess s needW (t.td.addr x.2.ix) (elemSize t.td.fmt) = .ok x.1 := by
  unfold groupWork at h
  dsimp only at h
  split at h
  · cases h
  next tab htab =>
    split at h
    · cases h
    next outs houts =>
      split at h
      · cases h
      next ks' hks =>
        cases h
        obtain ⟨hmap, hkeys⟩ := outputKeys_ok hks
        exact ⟨rfl, hmap ▸ houts, hkeys⟩

end

end Sys2Proof.Machine
end

section
/-! SUPPORT. A group's outputs in memory (R209, R213, R218). -/

namespace Sys2Proof.Machine

/-- Codes of some bytes each, put into memory one after another. -/
def putCodes (size : Nat) (m : Memory) (xs : List (Nat × TileOut)) : Memory :=
  xs.foldl (fun m x => putBytes m x.1 (natLE x.2.code size)) m

theorem putCodes_cons (size : Nat) (m : Memory) (x : Nat × TileOut) (xs : List (Nat × TileOut)) :
    putCodes size m (x :: xs) = putCodes size (putBytes m x.1 (natLE x.2.code size)) xs := rfl

/-- Elements of some bytes at two keys share no byte. -/
def Apart (size a b : Nat) : Prop := a + size ≤ b ∨ b + size ≤ a

theorem bytesAt_congr {m m' : Memory} {key n : Nat} (h : ∀ a, key ≤ a → a < key + n → byteAt m a = byteAt m' a) :
    bytesAt m key n = bytesAt m' key n := by
  induction n generalizing key with
  | zero => rfl
  | succ n ih =>
    rw [bytesAt, bytesAt, h key le_rfl (by omega), ih (fun a h1 h2 => h a (by omega) (by omega))]

@[simp] theorem bytesAt_length (m : Memory) (key n : Nat) : (bytesAt m key n).length = n := by
  induction n generalizing key with
  | zero => rfl
  | succ n ih => rw [bytesAt, List.length_cons, ih]

/-- A byte that no code covers stays as it was. -/
theorem byteAt_putCodes {size : Nat} {m : Memory} {xs : List (Nat × TileOut)} {a : Nat}
    (h : ∀ x ∈ xs, ¬ (x.1 ≤ a ∧ a < x.1 + size)) : byteAt (putCodes size m xs) a = byteAt m a := by
  induction xs generalizing m with
  | nil => rfl
  | cons x xs ih =>
    obtain ⟨hx, hxs⟩ := List.forall_mem_cons.mp h
    rw [putCodes_cons, ih hxs, byteAt_putBytes_out _ _ (by rw [natLE_length]; omega)]

/-- Codes put apart from each other read back. -/
theorem bytesAt_putCodes {size : Nat} {xs : List (Nat × TileOut)} {x : Nat × TileOut} (m : Memory)
    (hapart : (xs.map Prod.fst).Pairwise (Apart size)) (hx : x ∈ xs) :
    bytesAt (putCodes size m xs) x.1 size = natLE x.2.code size := by
  induction xs generalizing m with
  | nil => cases hx
  | cons y ys ih =>
    rw [List.map_cons, List.pairwise_cons] at hapart
    obtain ⟨hfirst, hrest⟩ := hapart
    rw [putCodes_cons]
    rcases List.mem_cons.mp hx with rfl | hx
    · have hlater : bytesAt (putCodes size (putBytes m x.1 (natLE x.2.code size)) ys) x.1 size =
          bytesAt (putBytes m x.1 (natLE x.2.code size)) x.1 size := by
        refine bytesAt_congr fun a hlo hhi => byteAt_putCodes fun y hy hin => ?_
        have hxy : x.1 + size ≤ y.1 ∨ y.1 + size ≤ x.1 := hfirst y.1 (List.mem_map_of_mem hy)
        omega
      rw [hlater]
      simpa using bytesAt_putBytes (natLE x.2.code size) m x.1
    · exact ih _ hrest hx

theorem typeWidth_eq {fmt : Nat} (h : fmt < 0xE) : typeWidth fmt = 8 * elemSize fmt := by
  interval_cases fmt <;> rfl

theorem elemBit_eq_zero {fmt : Nat} (h : fmt < 0xE) (i : Nat) : elemBit fmt i = 0 := by
  rw [elemBit, if_neg (by omega), if_neg (by omega)]

/-- An element of whole bytes is put as the bytes of its code (R209). -/
theorem putElem_mem {fmt : Nat} (h : fmt < 0xE) (s : State) (e : Late) (key i v : Nat) :
    (putElem s e fmt key (elemBit fmt i) v false).mem = putBytes s.mem key (natLE v (elemSize fmt)) := by
  have hold : readKey s key (elemSize fmt) < 2 ^ (8 * elemSize fmt) := by
    rw [Nat.pow_mul]
    simpa [readKey] using leNat_lt (bytesAt s.mem key (elemSize fmt))
  have hfmt : fmt ≠ 0xE := by omega
  simp only [putElem, elemBit_eq_zero h, typeWidth_eq h, hfmt, Bool.false_eq_true, if_false, bitsOf, Nat.pow_zero, Nat.div_one,
    Nat.mul_one, Nat.mod_eq_of_lt hold, Nat.sub_self, Nat.zero_add]
  rw [storeKey_eq]

/-- Elements of whole bytes put one after another are their codes put. -/
theorem foldl_putElem_mem {fmt : Nat} (h : fmt < 0xE) (e : TileOut → Late) (i : TileOut → Nat) (xs : List (Nat × TileOut))
    (s : State) : (xs.foldl (fun u x => putElem u (e x.2) fmt x.1 (elemBit fmt (i x.2)) x.2.code false) s).mem =
      putCodes (elemSize fmt) s.mem xs := by
  induction xs generalizing s with
  | nil => rfl
  | cons x xs ih => rw [List.foldl_cons, ih, putElem_mem h, putCodes_cons]

section
variable {t : Task}

theorem writeOutputs_mem (h : t.td.fmt < 0xE) (s : State) (ks : List (Nat × TileOut)) :
    (writeOutputs s t ks).mem = putCodes (elemSize t.td.fmt) s.mem (groupCodes s t ks) :=
  foldl_putElem_mem h (fun o => jobWrite (t.job s) (uoAt s (t.td.addr o.ix)) none 0) (fun o => at_ o.ix 0) _ _

/-- What a group writes stands at the keys of its outputs. -/
theorem groupCodes_keys (s : State) (t : Task) (ks : List (Nat × TileOut)) :
    (groupCodes s t ks).map Prod.fst = ks.map Prod.fst := by
  calc (groupCodes s t ks).map Prod.fst = (ks.zipIdx.map Prod.fst).map Prod.fst := by
        simp only [groupCodes, List.map_map]; rfl
    _ = ks.map Prod.fst := by rw [List.zipIdx_map_fst]

/-- An output that does not clash keeps its code (R213). -/
theorem mem_groupCodes {s : State} {ks : List (Nat × TileOut)} {x : Nat × TileOut} (hx : x ∈ ks)
    (hclash : t.clashes x.2 = false) : x ∈ groupCodes s t ks := by
  obtain ⟨i, hi, rfl⟩ := List.mem_iff_getElem.mp hx
  refine List.mem_map.mpr ⟨(ks[i], i), List.mk_mem_zipIdx_iff_getElem?.mpr (List.getElem?_eq_getElem hi), ?_⟩
  simp [hclash]

theorem leNat_writeOutputs {s : State} {ks : List (Nat × TileOut)} {x : Nat × TileOut} (h : t.td.fmt < 0xE)
    (hapart : ks.Pairwise (fun x y => Apart (elemSize t.td.fmt) x.1 y.1)) (hx : x ∈ ks) (hclash : t.clashes x.2 = false)
    (hcode : x.2.code < 2 ^ typeWidth t.td.fmt) :
    leNat (bytesAt (writeOutputs s t ks).mem x.1 (elemSize t.td.fmt)) = x.2.code := by
  have hkeys : ((groupCodes s t ks).map Prod.fst).Pairwise (Apart (elemSize t.td.fmt)) := by
    rw [groupCodes_keys, List.pairwise_map]
    exact hapart
  rw [typeWidth_eq h, Nat.pow_mul] at hcode
  rw [writeOutputs_mem h, bytesAt_putCodes _ hkeys (mem_groupCodes hx hclash), leNat_natLE]
  exact Nat.mod_eq_of_lt hcode

theorem keptOutside_writeOutputs {s : State} {ks : List (Nat × TileOut)} (h : t.td.fmt < 0xE) :
    KeptOutside s (writeOutputs s t ks) (fun a => ∃ x ∈ ks, x.1 ≤ a ∧ a < x.1 + elemSize t.td.fmt) := by
  intro a ha
  rw [writeOutputs_mem h]
  refine byteAt_putCodes fun x hx hin => ha ?_
  have hkey : x.1 ∈ ks.map Prod.fst := groupCodes_keys s t ks ▸ List.mem_map_of_mem hx
  obtain ⟨y, hy, hxy⟩ := List.mem_map.mp hkey
  exact ⟨y, hy, hxy ▸ hin⟩

end

end Sys2Proof.Machine
end

section
/-! SUPPORT. The tile engines settled. -/

namespace Sys2Proof.Machine

/-- Settles O44: the events of the matrix engines case by case, then the values of a row group from its products to its
bytes in memory. -/
theorem tileEngine : Obligations.TileEngine := by
  refine ⟨fun s => ⟨?_, ?_, ?_, ?_, ?_, ?_, ?_, ?_, ?_⟩, fun s t m n k => ?_⟩
  · exact fun h => ⟨event_none (tileTaskDispatchEvent_halted h),
      fun cl e => event_none (rowGroupWrittenEvent_halted cl e h)⟩
  · exact fun h t he => event_some (tileTaskDispatchEvent_encoder h he)
  · exact fun h he t ht => event_some ((tileTaskDispatchEvent_task h he).trans ht)
  · exact fun k u t e he hf => startTask_eq he hf
  · exact fun cl e u t hf => ⟨
      fun h t1 ks hrow hw => event_some (rowGroupWrittenEvent_work h hf hrow hw),
      fun h hrow => event_some (rowGroupWrittenEvent_completes h hf hrow),
      fun a he hw => event_some (taskFaultEvent_page he hf hw),
      fun c a he hc hw => event_some (taskFaultEvent_fails he hf hc hw)⟩
  · exact fun cl e u t he hf => event_some (taskFaultEvent_dependent he hf)
  · exact fun t c u v => ⟨completeTask_of_jobRun, failTask_of_jobRun⟩
  · exact fun t n hn hnone => ⟨sget_completeTask_counts t hn, sget_failTask_failed t cProt hn hnone⟩
  · exact fun _ _ => rfl
  intro bt ixA ixB ixD masked
  have hmasked : masked ↔ t.blocked 1 (m / 16) ((k - t.k0).toNat / 16) = true ∨
      t.blocked 2 ((k - t.k0).toNat / 16) (n / 16) = true := masked_iff t _ _ _ _
  refine ⟨fun hkind => ?_, ?_, ?_, blockPresent_iff, ?_, fun o => mmaElement_ok, mmaElement_outside, ?_,
    fun u ks => groupWork_ok, ?_⟩
  · have hk : t.kind ≠ 2 := by omega
    refine ⟨?_, fun hmask hA hB a b ha hb => productAt_of_read hk (mt hmasked.mpr hmask) hA hB ha hb⟩
    rintro (hmask | hA | hB)
    · rcases hmasked.mp hmask with hblocked | hblocked
      · exact productAt_of_blocked_A hk hblocked
      · exact productAt_of_blocked_B hblocked
    · exact productAt_of_outside_A hk hA
    · exact productAt_of_outside_B hB
  · exact fun hk is hmeta => ⟨elemA_pruned hk hmeta, fun j hj => elemA_kept hk hmeta hj⟩
  · exact fun hk g hg e he => rowOutputs_bad_group hk hg he
  · exact fun acc acc' sc sc' j h => blockStep_ok h
  · exact ⟨cvtElement_outside, fun hin hout a ha hmode => ⟨_, cvtElement_plain hin hout ha hmode, rfl, rfl⟩⟩
  · exact fun ks h hapart => ⟨fun x hx hclash hcode => leNat_writeOutputs h hapart hx hclash hcode,
      keptOutside_writeOutputs h⟩

end Sys2Proof.Machine
end

section
/-! SUPPORT. Encoding what a word decodes to gives the word back, class by class (03 R76 to R84). -/

namespace Sys2Proof.Laws.Encoding

/-- Every instruction that a row of the decoder gives for a word has that word. -/
def Answers (w : Nat) (row : Option Instr) : Prop := ∀ i, row = some i → encodeNat i = w

@[simp] theorem answers_none (w : Nat) : Answers w none ↔ True := by simp [Answers]

@[simp] theorem answers_some {w : Nat} {i : Instr} : Answers w (some i) ↔ encodeNat i = w := by simp [Answers]

/-- Of two rows told apart by fixed bits, the first answers under those bits and the second without them. -/
@[simp] theorem answers_ite {w : Nat} {c : Prop} [Decidable c] {a b : Option Instr} :
    Answers w (if c then a else b) ↔ (c → Answers w a) ∧ (¬ c → Answers w b) := by
  split <;> simp [*]

/-- A field is the number of its bits. -/
@[simp] theorem toNat_fld (w lo n : Nat) : (fld w lo n).toNat = bits w lo n := by simp [fld, bits]

/-- Two fields of a word side by side are one. -/
@[simp] theorem bits_join {w hi lo m n p q : Nat} (x : Nat) (hhi : hi = lo + m) (hp : p = 2 ^ hi) (hq : q = 2 ^ lo) :
    x + bits w hi n * p + bits w lo m * q = x + bits w lo (m + n) * q := by
  subst hhi hp hq
  rw [bits, bits, bits, Nat.pow_add 2 m n, Nat.mod_mul, Nat.div_div_eq_div_mul, ← Nat.pow_add]
  ring

/-- The same of a field at bit 0, whose place value is not written. -/
@[simp] theorem bits_join_zero {w hi n p : Nat} (x : Nat) (hp : p = 2 ^ hi) :
    x + bits w hi n * p + bits w 0 hi = x + bits w 0 (hi + n) := by
  simpa using bits_join (w := w) (n := n) (q := 1) x (Nat.zero_add hi).symm hp rfl

/-! Each row of a class: its adjacent fields join, and what is left of the word is its opcode and its fixed bits. -/

theorem answers_decodeClass0 {w : Nat} (hc : w / 0x10000000 = 0) : Answers w (decodeClass0 w) := by
  unfold decodeClass0
  split <;> simp [encodeNat] <;> simp only [bits] <;> omega

theorem answers_decodeClass1 {w : Nat} (hc : w / 0x10000000 = 1) : Answers w (decodeClass1 w) := by
  unfold decodeClass1
  split <;> simp [encodeNat] <;> simp only [bits] <;> omega

theorem answers_decodeClass2 {w : Nat} (hc : w / 0x10000000 = 2) : Answers w (decodeClass2 w) := by
  unfold decodeClass2
  split <;> simp [encodeNat] <;> simp only [bits] <;> omega

theorem answers_decodeClass3 {w : Nat} (hc : w / 0x10000000 = 3) : Answers w (decodeClass3 w) := by
  unfold decodeClass3
  split <;> simp [encodeNat] <;> simp only [bits] <;> omega

theorem answers_decodeClass4 {w : Nat} (hc : w / 0x10000000 = 4) : Answers w (decodeClass4 w) := by
  unfold decodeClass4
  split <;> simp [encodeNat] <;> simp only [bits] <;> omega

theorem answers_decodeClass5 {w : Nat} (hc : w / 0x10000000 = 5) : Answers w (decodeClass5 w) := by
  unfold decodeClass5
  split <;> simp [encodeNat] <;> simp only [bits] <;> omega

theorem answers_decodeClass6 {w : Nat} (hc : w / 0x10000000 = 6) : Answers w (decodeClass6 w) := by
  unfold decodeClass6
  split <;> simp [encodeNat] <;> simp only [bits] <;> omega

theorem answers_decodeClass7 {w : Nat} (hc : w / 0x10000000 = 7) : Answers w (decodeClass7 w) := by
  unfold decodeClass7
  split <;> simp [encodeNat] <;> simp only [bits] <;> omega

theorem answers_decodeClass8 {w : Nat} (hc : w / 0x10000000 = 8) : Answers w (decodeClass8 w) := by
  unfold decodeClass8
  split <;> simp [encodeNat] <;> simp only [bits] <;> omega

theorem answers_decodeClass9 {w : Nat} (hc : w / 0x10000000 = 9) : Answers w (decodeClass9 w) := by
  unfold decodeClass9
  split <;> simp [encodeNat] <;> simp only [bits] <;> omega

theorem answers_decodeClassA {w : Nat} (hc : w / 0x10000000 = 10) : Answers w (decodeClassA w) := by
  unfold decodeClassA
  split <;> simp [encodeNat] <;> simp only [bits] <;> omega

theorem answers_decodeClassB {w : Nat} (hc : w / 0x10000000 = 11) : Answers w (decodeClassB w) := by
  unfold decodeClassB
  split <;> simp [encodeNat] <;> simp only [bits] <;> omega

theorem answers_decodeClassC {w : Nat} (hc : w / 0x10000000 = 12) : Answers w (decodeClassC w) := by
  unfold decodeClassC
  split <;> simp [encodeNat] <;> simp only [bits] <;> omega

theorem answers_decodeClassD {w : Nat} (hc : w / 0x10000000 = 13) : Answers w (decodeClassD w) := by
  unfold decodeClassD
  split <;> simp [encodeNat] <;> simp only [bits] <;> omega

/-- Decoding never answers a row whose instruction has another word (R76 to R84). -/
theorem answers_decodeNat (w : Nat) : Answers w (decodeNat w) := by
  unfold decodeNat
  split
  next hc => exact answers_decodeClass0 hc
  next hc => exact answers_decodeClass1 hc
  next hc => exact answers_decodeClass2 hc
  next hc => exact answers_decodeClass3 hc
  next hc => exact answers_decodeClass4 hc
  next hc => exact answers_decodeClass5 hc
  next hc => exact answers_decodeClass6 hc
  next hc => exact answers_decodeClass7 hc
  next hc => exact answers_decodeClass8 hc
  next hc => exact answers_decodeClass9 hc
  next hc => exact answers_decodeClassA hc
  next hc => exact answers_decodeClassB hc
  next hc => exact answers_decodeClassC hc
  next hc => exact answers_decodeClassD hc
  · exact (answers_none w).mpr trivial

/-- An event has no word: its number is 0. -/
theorem encodeNat_of_isEvent {i : Instr} : i.isEvent = true → encodeNat i = 0 := by
  cases i <;> simp [Instr.isEvent, encodeNat]

/-- A word that decodes is the word of the instruction it decodes to, which is no event: 0 is no row's word. -/
theorem encode_of_decode {w : Word} {i : Instr} (h : decode w = .ok i) : encode i = w ∧ i.isEvent = false := by
  have hrow : decodeNat w.toNat = some i := by
    unfold decode at h
    split at h
    next j hj => cases h; exact hj
    · cases h
  have hword : encodeNat i = w.toNat := answers_decodeNat w.toNat i hrow
  refine ⟨by rw [encode, hword, BitVec.ofNat_toNat, BitVec.setWidth_eq], Bool.eq_false_iff.mpr fun hevent => ?_⟩
  rw [← hword, encodeNat_of_isEvent hevent] at hrow
  cases hrow

/-- Decoding the word of a well-formed instruction gives it back: one lemma for each row of the opcode table, and events
are not well-formed. -/
theorem decode_encode (i : Instr) : Statement i := by
  cases i with
  | nop => exact nop | bra => exact bra _ _ _ | jmpk => exact jmpk _ | call => exact call _ _
  | callk => exact callk _ _ | ret => exact ret | srcv => exact srcv _ | rcv => exact rcv | exit => exact exit
  | yield => exact yield | yieldp => exact yieldp | sleep => exact sleep _ | setm => exact setm _
  | setg => exact setg _ _ | sigchk => exact sigchk _ | trap => exact trap _ _ | tret => exact tret
  | role => exact role _ | dispq => exact dispq _ | qend => exact qend | cjoin => exact cjoin _ _
  | cleave => exact cleave _ | bara => exact bara _ _ | barw => exact barw _ _ | bars => exact bars _ _
  | setrl => exact setrl _ | srd => exact srd _ _ _ | swrMode => exact swrMode _ _ | swrFflags => exact swrFflags _ _
  | swrStrand => exact swrStrand _ _ | swrSpillb => exact swrSpillb _ _ | swrTrapc => exact swrTrapc _ _
  | swrTrapv => exact swrTrapv _ _ | swrTrappc => exact swrTrappc _ _ | swrOvt => exact swrOvt _ _
  | bkpt => exact bkpt _ | ovtld => exact ovtld _ | add => exact add _ _ _ _ | sub => exact sub _ _ _ _
  | mul => exact mul _ _ _ _ | mulh => exact mulh _ _ _ _ | min => exact min _ _ _ _ | max => exact max _ _ _ _
  | abs => exact abs _ _ | neg => exact neg _ _ | and => exact and _ _ _ _ | or => exact or _ _ _ _
  | xor => exact xor _ _ _ _ | andn => exact andn _ _ _ _ | shl => exact shl _ _ _ _ | shr => exact shr _ _ _ _
  | sar => exact sar _ _ _ _ | rol => exact rol _ _ _ _ | mad => exact mad _ _ _ _ | sel => exact sel _ _ _ _ _
  | cmp => exact cmp _ _ _ _ _ | cmpi => exact cmpi _ _ _ _ | popc => exact popc _ _ | clz => exact clz _ _
  | brev => exact brev _ _ | perm => exact perm _ _ _ _ | bfx => exact bfx _ _ _ _ | bfi => exact bfi _ _ _ _
  | movx => exact movx _ _ | movxK => exact movxK _ _ | movi => exact movi _ _ | movh => exact movh _ _
  | pmov => exact pmov _ _ | pset => exact pset _ _ | plog => exact plog _ _ _ _ | addi => exact addi _ _ _
  | andi => exact andi _ _ _ | ori => exact ori _ _ _ | xori => exact xori _ _ _ | shli => exact shli _ _ _
  | shri => exact shri _ _ _ | sari => exact sari _ _ _ | muli => exact muli _ _ _ | mini => exact mini _ _ _
  | maxi => exact maxi _ _ _ | fadd => exact fadd _ _ _ _ | fsub => exact fsub _ _ _ _ | fmul => exact fmul _ _ _ _
  | fma => exact fma _ _ _ _ | fmin => exact fmin _ _ _ _ | fmax => exact fmax _ _ _ _ | fabs => exact fabs _ _
  | fneg => exact fneg _ _ | fcmp => exact fcmp _ _ _ _ _ | cvt => exact cvt _ _ _ | cvtz => exact cvtz _ _ _
  | frnd => exact frnd _ _ | fcls => exact fcls _ _ | pack => exact pack _ _ _ _ | unpk => exact unpk _ _ _ _
  | rcp => exact rcp _ _ _ | rsq => exact rsq _ _ _ | lg2 => exact lg2 _ _ _ | ex2 => exact ex2 _ _ _
  | sin => exact sin _ _ _ | cos => exact cos _ _ _ | tanh => exact tanh _ _ _ | ppe => exact ppe _ _ _ _
  | ppld => exact ppld _ _ _ _ | shflFrom => exact shflFrom _ _ _ _ | shflRot => exact shflRot _ _ _ _
  | shflRotn => exact shflRotn _ _ _ _ | shflXor => exact shflXor _ _ _ _ | voteQuorum => exact voteQuorum _ _ _ _
  | voteUnan => exact voteUnan _ _ _ | voteMask => exact voteMask _ _ _ | voteCount => exact voteCount _ _ _
  | redxAdd => exact redxAdd _ _ _ | redxMin => exact redxMin _ _ _ | redxMax => exact redxMax _ _ _
  | argmxMax => exact argmxMax _ _ _ | argmxMin => exact argmxMin _ _ _ | scanAddIncl => exact scanAddIncl _ _ _
  | scanAddExcl => exact scanAddExcl _ _ _ | scanMax => exact scanMax _ _ _ | scanMin => exact scanMin _ _ _
  | matchLanes => exact matchLanes _ _ _ | x2k => exact x2k _ _ _ _ | kadd => exact kadd _ _ _
  | ksub => exact ksub _ _ _ | kmul => exact kmul _ _ _ | kand => exact kand _ _ _ | kor => exact kor _ _ _
  | kxor => exact kxor _ _ _ | kshl => exact kshl _ _ _ | kshr => exact kshr _ _ _ | kaddi => exact kaddi _ _ _
  | kmovi => exact kmovi _ _ | kcat => exact kcat _ _ | kcmp => exact kcmp _ _ _ _ | ksel => exact ksel _ _ _ _
  | kmin => exact kmin _ _ _ | kminU => exact kminU _ _ _ | kmax => exact kmax _ _ _ | kmaxU => exact kmaxU _ _ _
  | ldb => exact ldb _ _ _ _ _ _ | ldbs => exact ldbs _ _ _ _ _ _ | ldh => exact ldh _ _ _ _ _ _
  | ldhs => exact ldhs _ _ _ _ _ _ | ldw => exact ldw _ _ _ _ _ _ | ldd => exact ldd _ _ _ _ _ _
  | ldq => exact ldq _ _ _ _ _ _ | lda => exact lda _ _ _ _ _ _ | stb => exact stb _ _ _ _ _ _
  | sth => exact sth _ _ _ _ _ _ | stw => exact stw _ _ _ _ _ _ | std => exact std _ _ _ _ _ _
  | stq => exact stq _ _ _ _ _ _ | stl => exact stl _ _ _ _ _ _ | kld => exact kld _ _ _ | kst => exact kst _ _ _
  | atadd => exact atadd _ _ _ _ _ _ | atmin => exact atmin _ _ _ _ _ _ | atmax => exact atmax _ _ _ _ _ _
  | atand => exact atand _ _ _ _ _ _ | ator => exact ator _ _ _ _ _ _ | atxor => exact atxor _ _ _ _ _ _
  | atxch => exact atxch _ _ _ _ _ _ | atcas => exact atcas _ _ _ _ _ _ | reda => exact reda _ _ _ _ _ _
  | redaf => exact redaf _ _ _ _ _ _ | mld => exact mld _ _ _ | mst => exact mst _ _ _ _
  | mcas => exact mcas _ _ _ _ _ | fence => exact fence _ _ _ | cinvL1 => exact cinvL1 _ _
  | cinvDie => exact cinvDie _ _ | finv => exact finv _ | rngdef => exact rngdef _ _ | cpy => exact cpy _ _ _
  | cpym => exact cpym _ _ _ _ | awaitf => exact awaitf _ | awaitfC => exact awaitfC _ _ | rels => exact rels _
  | rngst => exact rngst _ _ | fetch => exact fetch _ _ _ _ | mpath => exact mpath _ _ _ _ | tdef => exact tdef _ _
  | tqput => exact tqput _ | twait => exact twait _ _ | tpoll => exact tpoll _ _ _ | tstat => exact tstat _ _
  | nlbin => exact nlbin _ | nlpair => exact nlpair _ _ | nlstat => exact nlstat _ _ | tap => exact tap _
  | tapw => exact tapw _ _ | taprd => exact taprd _ | taped => exact taped _ | tapresCont => exact tapresCont
  | tapresEdit => exact tapresEdit | tapresAbort => exact tapresAbort | frule => exact frule _ _
  | launch => exact launch _ _ | trsig => exact trsig _ _ | trwait => exact trwait _ _ | shape => exact shape _ _
  | accup => exact accup _ _
  | _ => exact fun h => nomatch h

end Sys2Proof.Laws.Encoding

namespace Sys2Proof.Machine

open Laws.Encoding

/-- Settles O56: one way row by row, the other by joining the fields that the decoder cuts. -/
theorem decodeEncode : Obligations.DecodeEncode := ⟨decode_encode, fun _ _ => encode_of_decode⟩

/-- Settles O57: each word is that of its instruction, which is well-formed; the last two have no opcode of a row. -/
theorem decodeWords : Obligations.DecodeWords :=
  ⟨decode_encode (.tdef 4 5) rfl, decode_encode (.fence 2 16 2) rfl, decode_encode .exit rfl, decode_encode .tret rfl,
    decode_encode (.setm 0x79) rfl, decode_encode (.add 4 5 6 0) rfl, decode_encode (.movi 2 7) rfl,
    decode_encode (.addi 2 2 1) rfl, decode_encode (.srd 28 1 0x14) rfl, decode_encode (.trwait 12 13) rfl,
    decode_encode (.cpy 1 5 0) rfl, rfl, rfl⟩

end Sys2Proof.Machine
end

section
/-! SUPPORT. Events of the issue hardware and of a debugger: what each leaves of the split or the warp it names (R88, R89,
R131, R144, R154, R249, R260, R261, R313, R383). -/

namespace Sys2Proof.Machine

theorem oldestSplit_cons_ne_none (p : Split) (t : List Split) : oldestSplit (p :: t) ≠ none := by
  unfold oldestSplit
  split
  · exact Option.some_ne_none p
  · split <;> exact Option.some_ne_none _

/-- What is oldest of a list of splits is one of them, and no other is older (R338). -/
theorem oldestSplit_spec {ps : List Split} {p : Split} (h : oldestSplit ps = some p) :
    p ∈ ps ∧ ∀ q ∈ ps, p.age ≤ q.age := by
  induction ps generalizing p with
  | nil => cases h
  | cons x t ih =>
    unfold oldestSplit at h
    split at h
    next hnone =>
      cases h
      cases t with
      | nil => simp
      | cons y t => exact absurd hnone (oldestSplit_cons_ne_none y t)
    next q hq =>
      obtain ⟨hmem, hle⟩ := ih hq
      split at h
      next hage =>
        cases h
        exact ⟨List.mem_cons_self, List.forall_mem_cons.mpr ⟨le_rfl, fun r hr => hage.trans (hle r hr)⟩⟩
      next hage =>
        cases h
        exact ⟨List.mem_cons_of_mem _ hmem, List.forall_mem_cons.mpr ⟨by omega, hle⟩⟩

/-- What a notification traps: the oldest of a warp's ready splits that nothing holds, wherever it is kept (R249). -/
theorem oldestReady_spec {w : Warp} {p : Split} (h : oldestReady w = some p) :
    p ∈ w.splits ++ w.overflow ∧ p.state = .ready ∧
      ∀ q ∈ w.splits ++ w.overflow, q.alive = true → q.state = .ready → q.held = false → p.age ≤ q.age := by
  obtain ⟨hmem, hle⟩ := oldestSplit_spec h
  simp only [List.mem_filter, Bool.and_eq_true, beq_iff_eq, Bool.not_eq_true'] at hmem hle
  obtain ⟨hin, ⟨-, hready⟩, -⟩ := hmem
  exact ⟨hin, hready, fun q hq halive hr hheld => hle q ⟨hq, ⟨halive, hr⟩, hheld⟩⟩

/-- What has gone longest without issuing is one of the list (R15). -/
theorem longestIdle_mem {ps : List Split} {p : Split} (h : longestIdle ps = some p) : p ∈ ps := by
  induction ps generalizing p with
  | nil => cases h
  | cons x t ih =>
    unfold longestIdle at h
    split at h
    · cases h; exact List.mem_cons_self
    next q hq =>
      split at h
      · cases h; exact List.mem_cons_self
      · cases h; exact List.mem_cons_of_mem _ (ih hq)

/-- The overflow block's bytes are written beside the warp, not into it (R15). -/
@[simp] theorem storeOverflow_w (s : State) : (storeOverflow s).w = s.w := by
  unfold storeOverflow
  split
  next t ht => rw [writeRun_eq ht]
  · rfl

/-- An eviction takes away only the entries of one slot, which holds a split that it may move (R15, R144). -/
theorem mem_splits_evict {s : State} {may : Split → Bool} {q : Split} (hq : q ∈ s.w.splits) (hmay : may q = false) :
    q ∈ (evict s may).w.splits ∨ ∃ r ∈ s.w.splits, r ≠ q ∧ r.slot = q.slot := by
  unfold evict
  split
  · exact .inl hq
  next p hp =>
    have hmem := longestIdle_mem hp
    simp only [List.mem_filter, Bool.and_eq_true] at hmem
    obtain ⟨hin, -, hp⟩ := hmem
    by_cases hslot : q.slot = p.slot
    · exact .inr ⟨p, hin, fun heq => by simp [heq, hmay] at hp, hslot.symm⟩
    · exact .inl (by simp [hq, hslot])

/-- A split kept in the table, and one kept in the overflow block, as the issuing one (R249). -/
theorem atSplit_of_lt {s : State} {id : Nat} {p : Split} {f : State → State} (h : p.slot < 16) :
    atSplit s id p f = f (focusSplit s id p.slot) := if_pos h

theorem atSplit_of_le {s : State} {id : Nat} {p : Split} {f : State → State} (h : 16 ≤ p.slot) :
    atSplit s id p f = onOverflow (focusWarp s id) ((focusWarp s id).w.overflow.findIdx (fun q => q == p)) f :=
  if_neg (Nat.not_lt.mpr h)

theorem overdue_iff (p : Split) (cycle : Nat) : p.overdue cycle = true ↔ p.state ≠ .stopped ∧ p.lastIssue + 512 ≤ cycle := by
  rw [Split.overdue, Split.movable, Bool.and_eq_true, bne_iff_ne, decide_eq_true_eq]
  rfl

/-- A stop leaves the split at its resume address, and keeps the state it interrupts (R260). -/
theorem stopSplit_sp (s : State) (c : Byte) (v pc : DWord) : (stopSplit s c v pc).sp =
    { s.sp with state := .stopped, stoppedIn := s.sp.state, stepping := 0, freeze := none, pc := pc } := by
  simp only [stopSplit]
  split <;> rfl

/-- A freeze stops a ready split where it stands (R260). -/
theorem freezeSplit_of_ready {s : State} (h : s.sp.state = .ready) :
    (freezeSplit s).sp.state = .stopped ∧ (freezeSplit s).sp.stoppedIn = .ready ∧ (freezeSplit s).sp.pc = s.sp.pc := by
  simp [freezeSplit, h, stopSplit_sp]

/-- A freeze of a split that is between instruction boundaries waits for the next one (R260). -/
theorem freezeSplit_of_busy {s : State} (hr : s.sp.state ≠ .ready) (hs : s.sp.state ≠ .stopped) :
    (freezeSplit s).sp.state = s.sp.state ∧ (freezeSplit s).sp.freeze.isSome = true := by
  simp [freezeSplit, hr, hs]

/-- What a debugger does with a stopped split of the table (R260, R261). -/
theorem onStopped_focusSplit {s : State} {warp slot : Nat} {f : State → State} (hslot : slot < 16)
    (hlive : (focusSplit s warp slot).w.live = true) (halive : (focusSplit s warp slot).sp.alive = true)
    (hstop : (focusSplit s warp slot).sp.state = .stopped) : onStopped s warp slot f = some (f (focusSplit s warp slot)) := by
  simp [onStopped, hslot, hlive, halive, hstop]

theorem breakAt_iff (s : State) : breakAt s = true ↔ s.sp.stepping ≠ 1 ∧ s.sp.pass ≠ some s.sp.pc ∧
    ∃ b ∈ s.ctx.breaks, b.addr = s.sp.pc ∧ (b.member = none ∨ b.member = some s.w.index) := by
  simp [breakAt, and_assoc]

/-- A breakpoint stops a ready split at its address, once (R313). -/
theorem stopAtBreak_of_ready {s : State} (h : s.sp.state = .ready) :
    (stopAtBreak s).sp.state = .stopped ∧ (stopAtBreak s).sp.stoppedIn = .ready ∧ (stopAtBreak s).sp.pc = s.sp.pc ∧
      (stopAtBreak s).sp.pass = some s.sp.pc := by
  obtain ⟨hstate, hin, hpc⟩ := freezeSplit_of_ready h
  exact ⟨hstate, hin, hpc, rfl⟩

/-- A count raised reads as its old value and what was added (R386). -/
theorem countOf_raiseCount (s : State) (clus kind n : Nat) :
    countOf (raiseCount s clus kind n) clus kind = countOf s clus kind + n := by
  simp [countOf, raiseCount]

theorem mem_ninsert (a : Nat) (ns : List Nat) : a ∈ ninsert a ns := by
  induction ns with
  | nil => simp [ninsert]
  | cons b t ih =>
    unfold ninsert
    split
    · simp
    · split <;> simp [*]

/-- A mismatch counts its squash, marks a quadrant whose sixteenth in a row it is, and changes nothing else (R383). -/
theorem exec_scoreboardMismatch (s : State) {q : Nat} (hq : q < 1024) :
    ∃ t, exec (.scoreboardMismatch q) s = .next t ∧ t = { s with dev := t.dev } ∧
      countOf t (q / 32) nSquash = countOf s (q / 32) nSquash + 1 ∧
      (15 ≤ sget 0 s.dev.squashRun q → q ∈ t.dev.failing) := by
  refine ⟨_, event_some (if_neg (Nat.not_le.mpr hq)), rfl, countOf_raiseCount s (q / 32) nSquash 1, fun h => ?_⟩
  have hrun : 16 ≤ sget 0 s.dev.squashRun q + 1 := Nat.succ_le_succ h
  simp only [hrun, if_true]
  exact mem_ninsert q _

/-- Settles O53: each event is the change it makes where it finds something to do; the choice of a split and its stop are
the lemmas above. -/
theorem issueEvents : Obligations.IssueEvents := by
  refine fun s => ⟨fun o rest hout => event_some (by simp [longLatencyCompleteEvent, hout]),
    fun w p hw hp => event_some (by simp [splitOverflowExchangeEvent, hw, hp]), overdue_iff,
    fun w p v rest hw hp hn => event_some (by simp [notificationDeliveryEvent, hw, hp, hn]),
    fun w p rest hw hp hn => event_some (by simp [notificationDeliveryEvent, hw, hp, hn]),
    fun id p f => ⟨atSplit_of_lt, atSplit_of_le⟩, fun w p => oldestReady_spec,
    fun u q hq hstop => mem_splits_evict hq (by simp [Split.movable, hstop]),
    fun w p hw hp => event_some (by simp [sleepWakeEvent, hw, hp]),
    fun word hword => event_some (by simp [refusedWordEvent, hword]),
    fun word hword => event_some (by simp [refusedWordEvent, hword]),
    fun c hc => event_some (by simp [instructionFetchFaultEvent, hc]),
    fun scope target hne => event_some ?_,
    fun u => ⟨freezeSplit_of_ready, freezeSplit_of_busy⟩,
    fun warp slot hslot hlive halive hstop => ⟨event_some (onStopped_focusSplit hslot hlive halive hstop),
      event_some (onStopped_focusSplit hslot hlive halive hstop)⟩,
    fun ctx addr member t ht => event_some (by simp [debugBreakpointHitEvent, ht]),
    fun warp slot hlive halive hready hbreak =>
      ⟨stopAtBreak (focusSplit s warp slot), event_some ?_, stopAtBreak_of_ready hready⟩,
    breakAt_iff, fun q hq => exec_scoreboardMismatch s hq⟩
  · unfold debugFreezeEvent
    split
    next hnil => exact absurd hnil hne
    · rfl
  · simp only [debugBreakpointHitEvent]
    exact if_pos (by simp [hlive, halive, hready, hbreak])

end Sys2Proof.Machine
end

section
/-! SUPPORT. What a lane instruction needs of its issue, and its results sub-element by sub-element, with flags, and in
predicates (R24, R88, R90, R92, R94, R102). -/

namespace Sys2Proof.Machine

/-- An issued instruction has passed the checks of its types and pairs (R88). -/
theorem Issues.r88_passed {i : Instr} {s : State} (h : Issues i s) :
    acceptsType (modeType s.w.mode) i = true ∧ pairsOk (modeType s.w.mode) i = true := by
  have hc := h.checks
  simp only [r88, Bool.or_eq_true, Bool.not_eq_true'] at hc
  split at hc
  · cases hc
  split at hc
  · cases hc
  next hops =>
  split at hc
  · cases hc
  split at hc
  · cases hc
  next hty => exact ⟨by simpa using fun h => hty (.inl h), by simpa using fun h => hops (.inr h)⟩

theorem Issues.accepts {i : Instr} {s : State} (h : Issues i s) : acceptsType (modeType s.w.mode) i = true :=
  h.r88_passed.1

/-- The check of pairs is the same under s64 and n64. -/
theorem pairsOk_of_type64 {t : Nat} {i : Instr} (ht : type64 t = true) (h : pairsOk t i = true) :
    pairsOk 0xC i = true := by
  have h64 : type64 t = type64 0xC := ht
  unfold pairsOk at h ⊢
  split <;> simpa [h64] using h

/-- The destination of an instruction is even wherever its pairs are checked (R24). -/
def EvenDest (i : Instr) (d : BitVec 6) : Prop := pairsOk 0xC i = true → d.toNat % 2 = 0

theorem EvenDest.even {i : Instr} {d : BitVec 6} {s : State} (hd : EvenDest i d) (h : Issues i s)
    (ht : type64 (modeType s.w.mode) = true) : d.toNat % 2 = 0 := hd (pairsOk_of_type64 ht h.r88_passed.2)

/-- The first of the facts a check decides: of most instructions' check of pairs, that the destination is even. -/
theorem left_of_decide {p q : Prop} [Decidable (p ∧ q)] (h : decide (p ∧ q) = true) : p := (of_decide_eq_true h).1

theorem modeType_lt (m : BitVec 18) : modeType m < 16 := Nat.mod_lt _ (by decide)

/-- The sub-elements of a type fill no more than its register or pair (R27). -/
theorem typeBits_le {t : Nat} (h : t < 16) : typeWidth t * typeCount t ≤ if type64 t then 64 else 32 := by
  revert t; decide

theorem typeWidth_pos (t : Nat) : 0 < typeWidth t := by unfold typeWidth; split <;> decide

theorem subElem_lt (v w i : Nat) : subElem v w i < 2 ^ w := Nat.mod_lt _ (Nat.two_pow_pos w)

theorem packElems_lt (w : Nat) (f : Nat → Nat) (n : Nat) : packElems w f n < 2 ^ (w * n) := by
  induction n with
  | zero => simp [packElems]
  | succ n ih =>
    have hlt : f n % 2 ^ w < 2 ^ w := Nat.mod_lt _ (Nat.two_pow_pos w)
    calc packElems w f n + f n % 2 ^ w * 2 ^ (w * n)
        < 2 ^ (w * n) + f n % 2 ^ w * 2 ^ (w * n) := by omega
      _ = (f n % 2 ^ w + 1) * 2 ^ (w * n) := by ring
      _ ≤ 2 ^ w * 2 ^ (w * n) := Nat.mul_le_mul_right _ hlt
      _ = 2 ^ (w * (n + 1)) := by rw [← pow_add]; ring_nf

/-- Sub-elements put together under a type fit in its register or pair. -/
theorem packElems_type_lt (m : BitVec 18) (f : Nat → Nat) :
    packElems (typeWidth (modeType m)) f (typeCount (modeType m)) < 2 ^ (if type64 (modeType m) then 64 else 32) :=
  (packElems_lt _ f _).trans_le (Nat.pow_le_pow_right (by decide) (typeBits_le (modeType_lt m)))

/-- A lane instruction whose body writes each sub-element of a typed result in each participating lane (R90, R92). -/
theorem elem_result {i : Instr} {s : State} {d : BitVec 6} {u v : Nat → Nat → Nat} {body : State → Res}
    (hx : exec i s = run i body s)
    (hb : body (issued i s) = .ok (laneResults i s (modeType s.w.mode) d.toNat fun l =>
      packElems (typeWidth (modeType s.w.mode)) (u l) (typeCount (modeType s.w.mode))))
    (he : EvenDest i d)
    (hv : Issues i s → ∀ l, ∀ k < typeCount (modeType s.w.mode),
      u l k % 2 ^ typeWidth (modeType s.w.mode) = v l k) : ElemResult i d s v := by
  intro h
  obtain ⟨t, ht, hw, hf, hr⟩ := lane_result hx hb he.even (fun _ _ _ => packElems_type_lt _ _) h
  refine ⟨t, ht, hw, hf, fun l hl k hk => ?_⟩
  rw [hr l hl, subElem_packElems _ _ hk, hv h l k hk]

/-- A sub-element of a lane's x operand under MODE.TYPE (R92). -/
def laneElem (a : BitVec 6) (s : State) (l k : Nat) : Nat :=
  subElem (xread s (modeType s.w.mode) l a.toNat) (typeWidth (modeType s.w.mode)) k

/-- A sub-element of a lane's b operand under MODE.TYPE (R92). -/
def laneElemB (b : BitVec 6) (u : BitVec 1) (s : State) (l k : Nat) : Nat :=
  subElem (bread s (modeType s.w.mode) u l b.toNat) (typeWidth (modeType s.w.mode)) k

/-- A lane instruction that computes each sub-element from those of two operands (R92). -/
theorem elemwise_result {i : Instr} {s : State} {d : BitVec 6} {v : Nat → Nat → Nat} {body : State → Res}
    {a b : State → Nat → Nat} {g : Nat → Nat → Nat → Nat} (hx : exec i s = run i body s)
    (hb : body (issued i s) = lanes2 d.toNat a b (fun t => elemwise2 t (g t)) (issued i s)) (he : EvenDest i d)
    (hv : Issues i s → ∀ l, ∀ k < typeCount (modeType s.w.mode),
      g (modeType s.w.mode) (subElem (a (issued i s) l) (typeWidth (modeType s.w.mode)) k)
        (subElem (b (issued i s) l) (typeWidth (modeType s.w.mode)) k) % 2 ^ typeWidth (modeType s.w.mode) = v l k) :
    ElemResult i d s v :=
  elem_result hx hb he hv

/-- A lane instruction that writes a 32-bit result in each participating lane, formed from what no issue changes. (The
issue is that of any instruction `j`: a word whose fields are known would have the kernel compute SIG.) -/
theorem lane32_result {i : Instr} {s : State} {d : BitVec 6} {v : Nat → Nat} {f : State → Nat → Word}
    (hx : exec i s = run i (fun s => lanes32 d.toNat (f s) s) s) (hf : ∀ j, f (issued j s) = f s)
    (hv : ∀ l, (f s l).toNat = v l) : LaneResult i 0 d s v := by
  obtain rfl : v = fun l => (f s l).toNat := funext fun l => (hv l).symm
  exact lane_result hx (lanes32_issued i s _ fun l => by simp [hf]) (fun _ h => absurd h (by decide))
    (fun _ l _ => (f s l).isLt)

/-- A body that leaves the split, and the warp's other splits, as the issue left them retires. -/
theorem run_ok_of_splits {i : Instr} {s u : State} {body : State → Res} (h : Issues i s)
    (hb : body (issued i s) = .ok u) (hsp : u.sp = (issued i s).sp) (hs : u.w.splits = s.w.splits)
    (ho : u.w.overflow = s.w.overflow) : run i body s = .next (retired u) := by
  rw [run_eq h, hb, finish_ok_of_splits h hsp hs ho]

/-- Flags ORed into FFLAGS beside lane results (R94). -/
theorem writesLanes_orFlags {i : Instr} {ds : List Nat} {s u : State} (f : BitVec 5)
    (h : WritesLanes i ds s (retired u)) : WritesLanes i ds s (retired (orFlags u f)) where
  frame := congrArg (orFlags · f) h.frame
  others := h.others
  flags := by
    have hkept : u.w.fflags &&& s.w.fflags = s.w.fflags := h.flags
    show (u.w.fflags ||| f) &&& s.w.fflags = s.w.fflags
    rw [BitVec.and_comm, BitVec.and_or_distrib_left, BitVec.and_comm, hkept]
    ext j hj
    simp +contextual

/-- Sub-elements, without their flags, in every participating lane of an issued instruction. -/
def codeResults (i : Instr) (s : State) (d : Nat) (v : Nat → Nat → Nat × BitVec 5) : State :=
  laneResults i s (modeType s.w.mode) d fun l => (packF (modeType s.w.mode) (v l)).1

/-- A destination of sub-elements holds each of them (R92). -/
theorem subElem_codeResults {i : Instr} {s : State} {d : BitVec 6} (v : Nat → Nat → Nat × BitVec 5) {l k : Nat}
    (h : Issues i s) (he : EvenDest i d) (hl : takesPart s l) (hk : k < typeCount (modeType s.w.mode)) :
    subElem (xread (codeResults i s d.toNat v) (modeType s.w.mode) l d.toNat) (typeWidth (modeType s.w.mode)) k =
      (v l k).1 % 2 ^ typeWidth (modeType s.w.mode) := by
  have hread := xread_foldl_xwrite (lanesOf (partMask s)) (issued i s) (fun l => (packF (modeType s.w.mode) (v l)).1)
    d.isLt (he.even h) (takesPart_iff.mp hl)
  rw [codeResults, laneResults, hread, packF, Nat.mod_eq_of_lt (packElems_type_lt _ _), subElem_packElems _ _ hk]

/-- A lane instruction whose body writes sub-elements with flags in each participating lane (R90, R94). -/
theorem float_result {i : Instr} {s : State} {d : BitVec 6} {v : Nat → Nat → Nat × BitVec 5} {body : State → Res}
    (hx : exec i s = run i body s)
    (hb : body (issued i s) =
      lanesF (modeType s.w.mode) d.toNat (fun l => packF (modeType s.w.mode) (v l)) (issued i s))
    (he : EvenDest i d) : FloatResult i d s v := by
  intro h
  have hlanes : LanesOnly (issued i s) (codeResults i s d.toNat v) := laneResults_only ..
  have hb' : body (issued i s) = .ok (orFlags (codeResults i s d.toNat v) ((lanesOf (partMask s)).foldl
    (fun acc l => acc ||| flagsOf (v l) (typeCount (modeType s.w.mode))) 0)) := hb
  refine ⟨_, hx.trans (run_ok_of_splits h hb' hlanes.sp ?_ ?_), writesLanes_orFlags _ (writes_laneResults ..), ?_,
    fun l hl k hk => subElem_codeResults v h he hl hk⟩
  · exact congrArg (·.w.splits) hlanes
  · exact congrArg (·.w.overflow) hlanes
  · exact congrArg (· ||| _) (flags_laneResults i s ..)

/-- A power of two added where its bit is 0 sets that bit alone. -/
theorem testBit_add_two_pow {x p : Nat} (h : x.testBit p = false) (k : Nat) :
    (x + 2 ^ p).testBit k = (x.testBit k || p == k) := by
  have heven : x / 2 ^ p % 2 = 0 := by simpa [Nat.testBit_eq_decide_div_mod_eq] using h
  obtain ⟨q, hq⟩ : ∃ q, x / 2 ^ p = 2 * q := ⟨x / 2 ^ p / 2, by omega⟩
  have hr : x % 2 ^ p < 2 ^ p := Nat.mod_lt _ (Nat.two_pow_pos p)
  obtain ⟨r, hr', hx⟩ : ∃ r < 2 ^ p, x = 2 ^ p * (2 * q) + r := ⟨_, hr, by rw [← hq, Nat.div_add_mod]⟩
  rw [show x + 2 ^ p = 2 ^ p * (2 * q + 1) + r by rw [hx]; ring, hx, Nat.testBit_two_pow_mul_add _ hr',
    Nat.testBit_two_pow_mul_add _ hr']
  rcases lt_trichotomy k p with hk | rfl | hk
  · simp [hk, (Nat.ne_of_lt hk).symm]
  · simp
  · obtain ⟨j, hj⟩ : ∃ j, k - p = j + 1 := ⟨k - p - 1, by omega⟩
    simp [Nat.not_lt_of_gt hk, hj, Nat.testBit_add_one, Nat.ne_of_lt hk, Nat.mul_add_div]

/-- Powers of two added where a test holds, each at a place of its own: the bits of the sum. -/
theorem testBit_foldl_two_pow (f : Nat → Bool) (g : Nat → Nat) {L : List Nat} (hL : (L.map g).Nodup) {acc : Nat}
    (hacc : ∀ l ∈ L, acc.testBit (g l) = false) (k : Nat) :
    (L.foldl (fun n l => if f l then n + 2 ^ g l else n) acc).testBit k =
      (acc.testBit k || L.any (fun l => f l && g l == k)) := by
  induction L generalizing acc with
  | nil => simp
  | cons x L ih =>
    obtain ⟨hx, hL⟩ := List.nodup_cons.mp hL
    have hbit (j : Nat) : (if f x then acc + 2 ^ g x else acc).testBit j = (acc.testBit j || f x && g x == j) := by
      by_cases hf : f x = true
      · simp [hf, testBit_add_two_pow (hacc x (by simp))]
      · simp [hf]
    rw [List.foldl_cons, ih hL]
    · simp only [hbit, List.any_cons, Bool.or_assoc]
    · intro l hl
      rw [hbit, hacc l (by simp [hl])]
      have : g x ≠ g l := fun h => hx (h ▸ List.mem_map_of_mem hl)
      simp [this]

/-- The mask of the lanes that satisfy a test. -/
theorem getLsbD_maskOf (f : Nat → Bool) {l : Nat} (hl : l < 32) : (maskOf f).getLsbD l = f l := by
  have h := testBit_foldl_two_pow f id (L := lanes) (by simpa [lanes] using List.nodup_range) (acc := 0) (by simp) l
  have hany : lanes.any (fun m => f m && id m == l) = f l := by
    rw [Bool.eq_iff_iff]
    simp [lanes, hl]
  simp only [maskOf, BitVec.getLsbD_ofNat, hl, decide_true, Bool.true_and]
  exact h.trans (by simpa using hany)

/-- Bits of a mask replaced where another mask has them. -/
theorem getLsbD_replace (x v m : Mask) {l : Nat} (hl : l < 32) :
    (x &&& ~~~m ||| v &&& m).getLsbD l = if m.getLsbD l then v.getLsbD l else x.getLsbD l := by
  simp only [BitVec.getLsbD_or, BitVec.getLsbD_and, BitVec.getLsbD_not, hl, decide_true, Bool.true_and]
  cases m.getLsbD l <;> simp

/-- A predicate other than p0 that is set takes the new bits in the lanes that take part (R102). -/
theorem getLsbD_pset {s : State} {n l : Nat} (v : Mask) (hn : n ≠ 0) (hl : takesPart s l) :
    (predMask (pset s n v).w n).getLsbD l = v.getLsbD l := by
  rw [pset, predMask_setPred, if_neg (by simpa using hn), getLsbD_replace _ _ _ hl.1, if_pos hl.2]

/-- In the other lanes a predicate keeps its bits. -/
theorem getLsbD_pset_other {s : State} {l : Nat} (n : Nat) (v : Mask) (hl : ¬ takesPart s l) :
    (predMask (pset s n v).w n).getLsbD l = (predMask s.w n).getLsbD l := by
  by_cases hlt : l < 32
  · rw [pset, predMask_setPred]
    split
    · rfl
    · rw [getLsbD_replace _ _ _ hlt, if_neg fun h => hl ⟨hlt, h⟩]
  · rw [BitVec.getLsbD_of_ge _ _ (not_lt.mp hlt), BitVec.getLsbD_of_ge _ _ (not_lt.mp hlt)]

/-- p0 is true in every lane (R23). -/
theorem getLsbD_predMask_zero (w : Warp) {l : Nat} (hl : l < 32) : (predMask w 0).getLsbD l = true := by
  have h : predMask w 0 = BitVec.allOnes 32 := rfl
  rw [h, BitVec.getLsbD_allOnes, decide_eq_true hl]

theorem pset_eq (s : State) (n : Nat) (v : Mask) :
    pset s n v = { s with w := { s.w with preds := (pset s n v).w.preds } } := by
  unfold pset setPred; split <;> rfl

/-- An instruction that sets a predicate in each participating lane (R102). -/
theorem pred_result {i : Instr} {s : State} {n : Nat} {v : Nat → Bool} {m : Mask} {body : State → Res}
    (hx : exec i s = run i body s) (hb : body (issued i s) = .ok (pset (issued i s) n m))
    (hm : ∀ l, takesPart s l → m.getLsbD l = v l) : PredResult i n s v := by
  intro h
  have hp := pset_eq (issued i s) n m
  refine ⟨_, hx.trans (run_ok_of_splits h hb rfl ?_ ?_), ⟨?_, fun q hq => ?_, fun l hl => ?_, ?_⟩, ?_,
    fun l hl => ?_⟩
  · rw [hp]; rfl
  · rw [hp]; rfl
  · rw [hp]; rfl
  · exact (predMask_setPred ..).trans (if_pos (.inr hq))
  · exact getLsbD_pset_other n m hl
  · rw [hp]; exact BitVec.and_self
  · rw [hp]; rfl
  · split
    next hn => subst hn; exact getLsbD_predMask_zero _ hl.1
    next hn => exact (getLsbD_pset m hn hl).trans (hm l hl)

/-- An instruction that tests each participating lane (R102). -/
theorem lanesP_result {i : Instr} {s : State} {n : Nat} {f v : Nat → Bool} {body : State → Res}
    (hx : exec i s = run i body s) (hb : body (issued i s) = lanesP n f (issued i s))
    (hv : Issues i s → ∀ l, takesPart s l → f l = v l) : PredResult i n s v :=
  fun h => pred_result hx hb (fun l hl => (getLsbD_maskOf f hl.1).trans (hv h l hl)) h

end Sys2Proof.Machine
end

section
/-! SUPPORT. Patterns and the integers they stand for: wrapping, fitting, shifting and comparing (R45, R46, R93, R99,
R102). -/

namespace Sys2Proof.Machine

theorem wrapInt_lt (w : Nat) (v : Int) : wrapInt w v < 2 ^ w := by
  have hpos : (0 : Int) < 2 ^ w := by positivity
  refine (Int.toNat_lt (Int.emod_nonneg v hpos.ne')).mpr ?_
  exact_mod_cast Int.emod_lt_of_pos v hpos

theorem fit_lt (sat sg : Bool) (w : Nat) (v : Int) : fit sat sg w v < 2 ^ w := by
  unfold fit; split <;> exact wrapInt_lt _ _

theorem fit_mod (sat sg : Bool) (w : Nat) (v : Int) : fit sat sg w v % 2 ^ w = fit sat sg w v :=
  Nat.mod_eq_of_lt (fit_lt sat sg w v)

theorem wrapInt_mod (w : Nat) (v : Int) : wrapInt w v % 2 ^ w = wrapInt w v := Nat.mod_eq_of_lt (wrapInt_lt w v)

/-- A pattern is what its number wraps to (R45). -/
theorem wrapInt_signedOf (sg : Bool) {w x : Nat} (hx : x < 2 ^ w) : wrapInt w (signedOf sg w x) = x := by
  have hmod : (x : Int).emod (2 ^ w) = x := Int.emod_eq_of_lt (by positivity) (by exact_mod_cast hx)
  unfold signedOf wrapInt
  split
  · show (((x : Int) - 2 ^ w) % 2 ^ w).toNat = x
    rw [Int.sub_emod_right, show (x : Int) % 2 ^ w = x from hmod, Int.toNat_natCast]
  · rw [hmod, Int.toNat_natCast]

theorem signedOf_inj {sg : Bool} {w x y : Nat} (hx : x < 2 ^ w) (hy : y < 2 ^ w) :
    signedOf sg w x = signedOf sg w y ↔ x = y :=
  ⟨fun h => by rw [← wrapInt_signedOf sg hx, h, wrapInt_signedOf sg hy], fun h => h ▸ rfl⟩

/-- The numbers of a type (R45). -/
theorem signedOf_bounds (sg : Bool) {w x : Nat} (hw : 0 < w) (hx : x < 2 ^ w) :
    intMin sg w ≤ signedOf sg w x ∧ signedOf sg w x ≤ intMax sg w := by
  obtain ⟨n, rfl⟩ : ∃ n, w = n + 1 := ⟨w - 1, by omega⟩
  have hx' : (x : Int) < 2 ^ (n + 1) := by exact_mod_cast hx
  have hcast : ((2 ^ n : Nat) : Int) = 2 ^ n := by push_cast; rfl
  rw [pow_succ] at hx'
  unfold signedOf intMin intMax
  cases sg
  · simp only [Bool.false_and, Bool.false_eq_true, if_false, pow_succ]; omega
  · simp only [Bool.true_and, decide_eq_true_eq, if_true, Nat.add_sub_cancel, pow_succ]
    split <;> omega

/-- The lesser of two patterns by their numbers. -/
theorem opMin_eq (sat sg : Bool) {w x y : Nat} (hx : x < 2 ^ w) (hy : y < 2 ^ w) :
    opMin sat sg w x y % 2 ^ w = wrapInt w (min (signedOf sg w x) (signedOf sg w y)) := by
  unfold opMin
  split
  next h => rw [min_eq_left h, wrapInt_signedOf sg hx, Nat.mod_eq_of_lt hx]
  next h => rw [min_eq_right (le_of_not_ge h), wrapInt_signedOf sg hy, Nat.mod_eq_of_lt hy]

theorem opMax_eq (sat sg : Bool) {w x y : Nat} (hx : x < 2 ^ w) (hy : y < 2 ^ w) :
    opMax sat sg w x y % 2 ^ w = wrapInt w (max (signedOf sg w x) (signedOf sg w y)) := by
  unfold opMax
  split
  next h => rw [max_eq_right h, wrapInt_signedOf sg hy, Nat.mod_eq_of_lt hy]
  next h => rw [max_eq_left (le_of_not_ge h), wrapInt_signedOf sg hx, Nat.mod_eq_of_lt hx]

theorem opAbs_eq (sat sg : Bool) (w x y : Nat) : opAbs sat sg w x y % 2 ^ w = fit sat sg w |signedOf sg w x| := by
  rw [opAbs, fit_mod, Int.natCast_natAbs]

/-- A multiple of 2^w wraps to 0. -/
theorem wrapInt_mul_two_pow (v : Int) {w b : Nat} (h : w ≤ b) : wrapInt w (v * 2 ^ b) = 0 := by
  have hdvd : (2 : Int) ^ w ∣ v * 2 ^ b := (pow_dvd_pow 2 h).mul_left v
  show (v * 2 ^ b % 2 ^ w).toNat = 0
  rw [Int.emod_eq_zero_of_dvd hdvd]; rfl

/-- The range of a type holds 0 and lies within w bits of it (R45). -/
theorem intRange (sg : Bool) {w : Nat} (hw : 0 < w) :
    -2 ^ w < intMin sg w ∧ intMin sg w ≤ 0 ∧ 0 ≤ intMax sg w ∧ intMax sg w < 2 ^ w := by
  obtain ⟨n, rfl⟩ : ∃ n, w = n + 1 := ⟨w - 1, by omega⟩
  have hpos : (0 : Int) < 2 ^ n := by positivity
  cases sg <;> simp [intMin, intMax, pow_succ] <;> omega

/-- Shifted by w bits or more, a number of the type is 0 or outside the type, on its own side. -/
theorem clampInt_mul_two_pow (sg : Bool) {w b : Nat} (v : Int) (hw : 0 < w) (hb : w ≤ b) :
    clampInt (intMin sg w) (intMax sg w) (v * 2 ^ b) =
      if v < 0 then intMin sg w else if v = 0 then 0 else intMax sg w := by
  obtain ⟨hlo, hlo0, hhi0, hhi⟩ := intRange sg hw
  have hpow : (2 : Int) ^ w ≤ 2 ^ b := pow_le_pow_right₀ (by decide) hb
  unfold clampInt
  rcases lt_trichotomy v 0 with h | rfl | h
  · have : v * 2 ^ b < intMin sg w := by nlinarith
    rw [if_pos this, if_pos h]
  · simp [hlo0.not_gt, hhi0.not_gt]
  · have : intMax sg w < v * 2 ^ b := by nlinarith
    rw [if_neg (by omega), if_pos this, if_neg h.not_gt, if_neg h.ne']

/-- Counts of w or more shift as w does (R99). -/
theorem opShl_eq (sat sg : Bool) {w : Nat} (x y : Nat) (hw : 0 < w) :
    opShl sat sg w x y % 2 ^ w = fit sat sg w (signedOf sg w x * 2 ^ y) := by
  rw [opShl, fit_mod]
  rcases Nat.le_total y w with h | h
  · rw [min_eq_left h]
  · rw [min_eq_right h]
    cases sat
    · simp only [fit, Bool.false_eq_true, if_false, wrapInt_mul_two_pow _ h, wrapInt_mul_two_pow _ le_rfl]
    · simp only [fit, if_true, clampInt_mul_two_pow _ _ hw h, clampInt_mul_two_pow _ _ hw le_rfl]

theorem opShr_eq (sat sg : Bool) {w x : Nat} (y : Nat) (hx : x < 2 ^ w) : opShr sat sg w x y % 2 ^ w = x / 2 ^ y := by
  have hle (n : Nat) : x / 2 ^ n % 2 ^ w = x / 2 ^ n := Nat.mod_eq_of_lt ((Nat.div_le_self _ _).trans_lt hx)
  rw [opShr, hle]
  rcases Nat.le_total y w with h | h
  · rw [min_eq_left h]
  · rw [min_eq_right h, Nat.div_eq_of_lt hx, Nat.div_eq_of_lt (hx.trans_le (Nat.pow_le_pow_right (by decide) h))]

/-- A number of w bits shifted right by w or more is 0 or -1. -/
theorem fdiv_two_pow {w b : Nat} {v : Int} (hlo : -2 ^ w ≤ v) (hhi : v < 2 ^ w) (hb : w ≤ b) :
    v.fdiv (2 ^ b) = if v < 0 then -1 else 0 := by
  have hpow : (2 : Int) ^ w ≤ 2 ^ b := pow_le_pow_right₀ (by decide) hb
  have hpos : (0 : Int) < 2 ^ b := by positivity
  rw [Int.fdiv_eq_ediv_of_nonneg v hpos.le]
  split
  · exact (Int.ediv_eq_iff_of_pos hpos).mpr ⟨by omega, by omega⟩
  · exact Int.ediv_eq_zero_of_lt (by omega) (by omega)

theorem opSar_eq (sat sg : Bool) {w x : Nat} (y : Nat) (hw : 0 < w) (hx : x < 2 ^ w) :
    opSar sat sg w x y % 2 ^ w = wrapInt w ((signedOf true w x).fdiv (2 ^ y)) := by
  rw [opSar, wrapInt_mod]
  obtain ⟨hlo, hhi⟩ := signedOf_bounds true hw hx
  obtain ⟨hmin, -, -, hmax⟩ := intRange true hw
  have hlo' : -2 ^ w ≤ signedOf true w x := by omega
  have hhi' : signedOf true w x < 2 ^ w := by omega
  rcases Nat.le_total y w with h | h
  · rw [min_eq_left h]
  · rw [min_eq_right h, fdiv_two_pow hlo' hhi' le_rfl, fdiv_two_pow hlo' hhi' h]

end Sys2Proof.Machine
end

section
/-! SUPPORT. The words of instructions as their fields side by side, and the types instructions accept (R70, R91). -/

namespace Sys2Proof.Machine

/-- Two fields side by side as a number. -/
theorem toNat_append_add {m n : Nat} (x : BitVec m) (y : BitVec n) :
    (x ++ y).toNat = x.toNat * 2 ^ n + y.toNat := by
  rw [BitVec.toNat_append, ← Nat.shiftLeft_add_eq_or_of_lt y.isLt, Nat.shiftLeft_eq]

/-- An instruction's word is its fields side by side where the encoder adds them each at its place. -/
theorem encode_append {i : Instr} {m n : Nat} {x : BitVec m} {y : BitVec n} (hn : m + n = 32)
    (h : encodeNat i = x.toNat * 2 ^ n + y.toNat) : encode i = (x ++ y).cast hn :=
  BitVec.eq_of_toNat_eq (by
    rw [encode, h, ← toNat_append_add, BitVec.toNat_ofNat, BitVec.toNat_cast,
      Nat.mod_eq_of_lt (hn ▸ (x ++ y).isLt)])

theorem r88_illegal (mode : BitVec 18) (level : Nat) {i : Instr} (h : i.legal = false) :
    r88 mode level i = some cIllegal := by simp [r88, h]

/-- The integer types (R27). -/
theorem intType_iff (t : Nat) :
    decide (t ≤ 0x5 ∨ t = 0xC ∨ t = 0xD) = true ↔ t ∈ [0x0, 0x1, 0x2, 0x3, 0x4, 0x5, 0xC, 0xD] := by
  simp; omega

/-- The integer types of one number to a register or pair. -/
theorem wholeType_iff (t : Nat) :
    decide (t = 0x0 ∨ t = 0x1 ∨ t = 0xC ∨ t = 0xD) = true ↔ t ∈ [0x0, 0x1, 0xC, 0xD] := by
  simp

/-- The signed integer types. -/
theorem signedType_iff (t : Nat) :
    decide (t = 0x0 ∨ t = 0x2 ∨ t = 0x4 ∨ t = 0xC) = true ↔ t ∈ [0x0, 0x2, 0x4, 0xC] := by
  simp

theorem typeCount_of_whole {t : Nat} (h : t ∈ [0x0, 0x1, 0xC, 0xD]) : typeCount t = 1 := by
  revert t; decide

end Sys2Proof.Machine
end

section
/-! SUPPORT. Integer arithmetic and compares settled (R93, R96, R97, R100, R102, R103). -/

namespace Sys2Proof.Machine

/-- What an integer operation leaves in a sub-element under the issuing MODE (R92, R93). -/
def opUnder (f : IntOp) (s : State) (x y : Nat) : Nat :=
  f (modeSat s.w.mode) (typeSigned (modeType s.w.mode)) (typeWidth (modeType s.w.mode)) x y %
    2 ^ typeWidth (modeType s.w.mode)

section
variable {i : Instr} {s : State} {d a b : BitVec 6} {u : BitVec 1} {v : Nat → Nat → Nat} {f : IntOp}

theorem intBinary_result (hx : exec i s = run i (intBinary f d a b u) s) (he : EvenDest i d)
    (hv : ∀ l k, opUnder f s (laneElem a s l k) (laneElemB b u s l k) = v l k) : ElemResult i d s v :=
  elemwise_result hx rfl he fun _ l k _ => hv l k

theorem intUnary_result (hx : exec i s = run i (intUnary f d a) s) (he : EvenDest i d)
    (hv : ∀ l k y, opUnder f s (laneElem a s l k) y = v l k) : ElemResult i d s v :=
  elemwise_result hx rfl he fun _ l k _ => hv l k _

/-- MAD (R100). -/
theorem mad_result {c : BitVec 6} (hx : exec i s = run i (fun s => .ok (perLane s (fun l r =>
      xwrite r (modeType s.w.mode) l d.toNat (madElems (modeSat s.w.mode) (modeType s.w.mode) (srcX a s l) (srcX b s l)
        (srcX c s l))))) s) (he : EvenDest i d) :
    ElemResult i d s (fun l k =>
      let E : BitVec 6 → Int := fun r =>
        signedOf (typeSigned (modeType s.w.mode)) (typeWidth (modeType s.w.mode)) (laneElem r s l k)
      fit (modeSat s.w.mode) (typeSigned (modeType s.w.mode)) (typeWidth (modeType s.w.mode)) (E a * E b + E c)) :=
  elem_result hx rfl he fun _ _ _ _ => fit_mod ..

end

/-- The conditions of CMP and CMPI by number, on patterns of a width and the numbers they stand for (R85). -/
def condHolds (sg : Bool) (w c x y : Nat) : Bool :=
  match c with
  | 0 => x == y
  | 1 => x != y
  | 2 => decide (signedOf sg w x < signedOf sg w y)
  | 3 => decide (signedOf sg w x ≤ signedOf sg w y)
  | 4 => decide (signedOf sg w y < signedOf sg w x)
  | 5 => decide (signedOf sg w y ≤ signedOf sg w x)
  | 6 => x &&& y != 0
  | _ => x &&& y == 0

theorem intCond_signedOf (c : Nat) (sg : Bool) {w x y : Nat} (hx : x < 2 ^ w) (hy : y < 2 ^ w) :
    intCond c x y (signedOf sg w x) (signedOf sg w y) = condHolds sg w c x y := by
  have heq : (signedOf sg w x == signedOf sg w y) = (x == y) := by
    rw [Bool.eq_iff_iff, beq_iff_eq, beq_iff_eq, signedOf_inj hx hy]
  match c with
  | 0 => exact heq
  | 1 => exact congrArg (!·) heq
  | 2 | 3 | 4 | 5 | 6 | 7 => rfl
  | _ + 8 => rfl

theorem cmpElems_eq (c t a b : Nat) : cmpElems c t a b = (List.range (typeCount t)).all (fun k =>
    condHolds (typeSigned t) (typeWidth t) c (subElem a (typeWidth t) k) (subElem b (typeWidth t) k)) := by
  simp only [cmpElems, intCond_signedOf _ _ (subElem_lt ..) (subElem_lt ..)]

/-- A type of one number to a register compares with an immediate as a pattern of its width. -/
theorem cmpElems_whole (c : Nat) {t b : Nat} (a : Nat) (ht : typeCount t = 1) (hb : b < 2 ^ typeWidth t) :
    cmpElems c t a b = (List.range (typeCount t)).all (fun k =>
      condHolds (typeSigned t) (typeWidth t) c (subElem a (typeWidth t) k) b) := by
  have h0 : subElem b (typeWidth t) 0 = b := by simp [subElem, bitsOf, Nat.mod_eq_of_lt hb]
  rw [cmpElems_eq, ht]
  simp [h0]

/-- A compare of two lane operands (R102). -/
theorem cmp_result {i : Instr} {s : State} {p c : Nat} {a b : BitVec 6} {u : BitVec 1}
    (hx : exec i s = run i (fun s =>
      lanesP p (fun l => cmpElems c (modeType s.w.mode) (srcX a s l) (srcB b u s l)) s) s) :
    PredResult i p s (fun l => (List.range (typeCount (modeType s.w.mode))).all (fun k =>
      condHolds (typeSigned (modeType s.w.mode)) (typeWidth (modeType s.w.mode)) c (laneElem a s l k)
        (laneElemB b u s l k))) :=
  lanesP_result hx rfl fun _ _ _ => cmpElems_eq ..

/-- A compare with an immediate (R103). -/
theorem cmpImm_result {i : Instr} {s : State} {p c : Nat} {a : BitVec 6} {m : Int}
    (hx : exec i s = run i (fun s => lanesP p (fun l =>
      cmpElems c (modeType s.w.mode) (srcX a s l) (wrapInt (typeWidth (modeType s.w.mode)) m)) s) s)
    (ht : Issues i s → typeCount (modeType s.w.mode) = 1) :
    PredResult i p s (fun l => (List.range (typeCount (modeType s.w.mode))).all (fun k =>
      condHolds (typeSigned (modeType s.w.mode)) (typeWidth (modeType s.w.mode)) c
        (laneElem a s l k) (wrapInt (typeWidth (modeType s.w.mode)) m))) :=
  lanesP_result hx rfl fun h _ _ => cmpElems_whole _ _ (ht h) (wrapInt_lt ..)

/-- Settles O1: each instruction's sub-elements by its operation's law, and each compare by that of the conditions. -/
theorem integerArithmetic : Obligations.IntegerArithmetic := by
  refine ⟨fun s d a b u => ?_, fun s d a b c => ?_, fun d a b c u t => ?_, fun s d a b u c p c3 m => ?_,
    fun a b d u c p c3 m t => ?_⟩
  · intro ty w sg sat A B
    exact ⟨intBinary_result rfl left_of_decide fun _ _ => fit_mod ..,
      intBinary_result rfl left_of_decide fun _ _ => fit_mod ..,
      intBinary_result rfl left_of_decide fun _ _ => fit_mod ..,
      intBinary_result rfl left_of_decide fun _ _ => wrapInt_mod ..,
      intBinary_result rfl left_of_decide fun _ _ => opMin_eq _ _ (subElem_lt ..) (subElem_lt ..),
      intBinary_result rfl left_of_decide fun _ _ => opMax_eq _ _ (subElem_lt ..) (subElem_lt ..)⟩
  · intro ty w sg sat E
    exact ⟨intUnary_result rfl left_of_decide fun _ _ _ => opAbs_eq ..,
      intUnary_result rfl left_of_decide fun _ _ _ => fit_mod ..,
      mad_result rfl left_of_decide⟩
  · refine ⟨?_, ?_, ?_, ?_, ?_, ?_, ?_, ?_, ?_, ?intTypes, ?signedTypes⟩
    case intTypes => intro i hi; fin_cases hi <;> exact intType_iff t
    case signedTypes => intro i hi; fin_cases hi <;> exact signedType_iff t
    all_goals
      refine encode_append rfl ?_
      simp only [encodeNat, toNat_append_add, -Nat.reduceAdd, BitVec.toNat_ofNat]
      omega
  · exact ⟨cmp_result rfl, cmpImm_result rfl fun h => typeCount_of_whole ((wholeType_iff _).mp h.accepts)⟩
  · refine ⟨?_, ?_, fun mode level hc => r88_illegal mode level (decide_eq_false (by omega)), intType_iff t,
      wholeType_iff t⟩
    all_goals
      refine encode_append rfl ?_
      simp only [encodeNat, toNat_append_add, -Nat.reduceAdd, BitVec.toNat_ofNat]
      omega

end Sys2Proof.Machine
end

section
/-! SUPPORT. Shifts and integer immediates settled (R93, R99, R101). -/

namespace Sys2Proof.Machine

theorem opRol_eq (sat sg : Bool) (w x y : Nat) :
    opRol sat sg w x y % 2 ^ w = (x * 2 ^ (y % w) + x / 2 ^ (w - y % w)) % 2 ^ w := Nat.mod_mod ..

/-- An integer instruction with an immediate pattern in every sub-element (R101). -/
theorem intImm_result {i : Instr} {s : State} {d a : BitVec 6} {v : Nat → Nat → Nat} {f : IntOp} {m : Int}
    (hx : exec i s = run i (intImm f d a m) s) (he : EvenDest i d)
    (hv : ∀ l k, opUnder f s (laneElem a s l k) (wrapInt (typeWidth (modeType s.w.mode)) m) = v l k) :
    ElemResult i d s v := by
  have hb : intImm f d a m (issued i s) = lanes2 d.toNat (srcX a) (fun _ _ => packElems (typeWidth (modeType s.w.mode))
      (fun _ => wrapInt (typeWidth (modeType s.w.mode)) m) (typeCount (modeType s.w.mode)))
      (intElems f (modeSat s.w.mode)) (issued i s) := rfl
  refine elemwise_result (g := fun t => f (modeSat s.w.mode) (typeSigned t) (typeWidth t)) hx hb he fun _ l k hk => ?_
  rw [subElem_packElems _ _ hk, wrapInt_mod]
  exact hv l k

/-- Settles O2: each shift by its law, the counts of immediates among them, and each immediate by its operation's. -/
theorem shiftsAndImmediates : Obligations.ShiftsAndImmediates := by
  refine ⟨fun s d a b n u => ?_, fun s d a m => ?_, fun d a b u t => ?_, fun d a n m t => ?_⟩
  · intro ty w sg sat U N
    have hw : 0 < w := typeWidth_pos ty
    exact ⟨intBinary_result rfl left_of_decide fun _ _ => opShl_eq _ _ _ _ hw,
      intBinary_result rfl left_of_decide fun _ _ => opShr_eq _ _ _ (subElem_lt ..),
      intBinary_result rfl left_of_decide fun _ _ => opSar_eq _ _ _ hw (subElem_lt ..),
      intBinary_result rfl left_of_decide fun _ _ => opRol_eq ..,
      intUnary_result rfl left_of_decide fun _ _ _ => opShl_eq _ _ _ _ hw,
      intUnary_result rfl left_of_decide fun _ _ _ => opShr_eq _ _ _ (subElem_lt ..),
      intUnary_result rfl left_of_decide fun _ _ _ => opSar_eq _ _ _ hw (subElem_lt ..)⟩
  · intro ty w sg sat A I
    exact ⟨intUnary_result rfl left_of_decide fun _ _ _ => fit_mod ..,
      intUnary_result rfl left_of_decide fun _ _ _ => fit_mod ..,
      intImm_result rfl left_of_decide fun _ _ => opMin_eq _ _ (subElem_lt ..) (wrapInt_lt ..),
      intImm_result rfl left_of_decide fun _ _ => opMax_eq _ _ (subElem_lt ..) (wrapInt_lt ..)⟩
  · refine ⟨?_, ?_, ?_, ?_, ?intTypes⟩
    case intTypes => intro i hi; fin_cases hi <;> exact intType_iff t
    all_goals
      refine encode_append rfl ?_
      simp only [encodeNat, toNat_append_add, -Nat.reduceAdd, BitVec.toNat_ofNat]
      omega
  · refine ⟨?_, ?_, ?_, ?_, ?_, ?_, ?_, ?intTypes, ?wholeTypes⟩
    case intTypes => intro i hi; fin_cases hi <;> exact intType_iff t
    case wholeTypes => intro i hi; fin_cases hi <;> exact wholeType_iff t
    all_goals
      refine encode_append rfl ?_
      simp only [encodeNat, toNat_append_add, -Nat.reduceAdd, BitVec.toNat_ofNat]
      omega

end Sys2Proof.Machine
end

section
/-! SUPPORT. Bitwise logic, SEL and the bit counts settled (R98, R101, R104, R105). -/

namespace Sys2Proof.Machine

section
variable {i : Instr} {s : State} {d : BitVec 6} {v : Nat → Nat}

/-- A lane instruction that computes a typed result from two operands, which no issue changes (R92). -/
theorem lanes2_result {body : State → Res} {a b : State → Nat → Nat} {f : Nat → Nat → Nat → Nat}
    (hx : exec i s = run i body s) (hbody : body (issued i s) = lanes2 d.toNat a b f (issued i s)) (he : EvenDest i d)
    (ha : ∀ j, a (issued j s) = a s) (hb : ∀ j, b (issued j s) = b s)
    (hv : ∀ l, f (modeType s.w.mode) (a s l) (b s l) = v l)
    (hlt : ∀ l, v l < 2 ^ (if type64 (modeType s.w.mode) then 64 else 32)) :
    LaneResult i (modeType s.w.mode) d s v := by
  obtain rfl : v = fun l => f (modeType s.w.mode) (a s l) (b s l) := funext fun l => (hv l).symm
  have hres : lanes2 d.toNat a b f (issued i s) = .ok (laneResults i s (modeType s.w.mode) d.toNat
      fun l => f (modeType s.w.mode) (a (issued i s) l) (b (issued i s) l)) := rfl
  rw [ha, hb] at hres
  exact lane_result hx (hbody.trans hres) he.even fun _ l _ => hlt l

/-- A bitwise instruction (R98). -/
theorem bitwise_result {a b : State → Nat → Nat} {f : Nat → Nat → Nat}
    (hx : exec i s = run i (bitwise f d a b) s)
    (he : EvenDest i d) (ha : ∀ j, a (issued j s) = a s) (hb : ∀ j, b (issued j s) = b s)
    (hv : ∀ l, f (a s l) (b s l) = v l) (hlt : ∀ l, v l < 2 ^ (if type64 (modeType s.w.mode) then 64 else 32)) :
    LaneResult i (modeType s.w.mode) d s v := lanes2_result hx rfl he ha hb hv hlt

end

theorem xread_lt (s : State) (t l r : Nat) : xread s t l r < 2 ^ (if type64 t then 64 else 32) := by
  unfold xread
  split <;> exact BitVec.isLt _

/-- A uniform b operand is 32 bits, or those bits with their sign under s64 (R92). -/
theorem bread_lt (s : State) (t : Nat) (u : BitVec 1) (l r : Nat) :
    bread s t u l r < 2 ^ (if type64 t then 64 else 32) := by
  have hlow : bitsOf (kget s r).toNat 0 32 < 2 ^ 32 := Nat.mod_lt _ (by decide)
  unfold bread
  split
  · exact xread_lt ..
  by_cases ht : type64 t = true
  · rw [if_pos ht]; dsimp only; split <;> omega
  · rw [if_neg ht]
    have h0 : (t == 0xC) = false := by
      by_contra hc
      exact ht (by simp [type64, Bool.eq_true_of_not_eq_false hc])
    simpa [h0] using hlow

theorem toNat_ofNat_of_lt {w n : Nat} (h : n < 2 ^ w) : (BitVec.ofNat w n).toNat = n := by
  rw [BitVec.toNat_ofNat, Nat.mod_eq_of_lt h]

/-- The bits of A without those of B are A less the bits of both (R98). -/
theorem andNot_eq {a b : Nat} (ha : a < 2 ^ 64) (hb : b < 2 ^ 64) : andNot a b = a - (a &&& b) := by
  have hsplit (x y : DWord) : x &&& ~~~y = x - (x &&& y) := by
    have hdisjoint : (x &&& ~~~y) &&& (x &&& y) = 0#64 := by
      ext j hj
      cases hy : y[j] <;> simp [hy]
    have hsum : (x &&& ~~~y) ||| (x &&& y) = x := by
      ext j hj
      cases hy : y[j] <;> simp [hy]
    rw [eq_sub_iff_add_eq, BitVec.add_eq_or_of_and_eq_zero _ _ hdisjoint, hsum]
  have hbits := congrArg BitVec.toNat (hsplit (BitVec.ofNat 64 a) (BitVec.ofNat 64 b))
  rw [BitVec.toNat_sub_of_le (by simpa [BitVec.le_def] using Nat.and_le_left), ← BitVec.xor_allOnes] at hbits
  simpa only [andNot, BitVec.toNat_and, BitVec.toNat_xor, BitVec.toNat_allOnes, toNat_ofNat_of_lt ha,
    toNat_ofNat_of_lt hb] using hbits

theorem typeBound_le (t : Nat) : 2 ^ (if type64 t then 64 else 32) ≤ 2 ^ 64 :=
  Nat.pow_le_pow_right (by decide) (by split <;> decide)

theorem imm_lt (t : Nat) (m : BitVec 12) : m.toNat < 2 ^ (if type64 t then 64 else 32) :=
  m.isLt.trans_le (Nat.pow_le_pow_right (by decide) (by split <;> decide))

/-- The reversed bits of a number (R105). -/
theorem testBit_revBits (n v k : Nat) : (revBits n v).testBit k = (decide (k < n) && v.testBit (n - 1 - k)) := by
  have hterm (acc j : Nat) :
      acc + v / 2 ^ j % 2 * 2 ^ (n - 1 - j) = if v.testBit j then acc + 2 ^ (n - 1 - j) else acc := by
    rw [Nat.testBit_eq_decide_div_mod_eq]
    rcases Nat.mod_two_eq_zero_or_one (v / 2 ^ j) with h | h <;> simp [h]
  have hnodup : ((List.range n).map (n - 1 - ·)).Nodup := by
    refine List.Nodup.map_on (fun x hx y hy h => ?_) List.nodup_range
    rw [List.mem_range] at hx hy
    omega
  unfold revBits
  simp only [hterm]
  rw [testBit_foldl_two_pow (fun j => v.testBit j) (fun j => n - 1 - j) hnodup (by simp), Nat.zero_testBit,
    Bool.false_or, Bool.eq_iff_iff]
  simp only [List.any_eq_true, List.mem_range, Bool.and_eq_true, beq_iff_eq, decide_eq_true_eq]
  constructor
  · rintro ⟨j, hj, hv, rfl⟩
    exact ⟨by omega, by rwa [show n - 1 - (n - 1 - j) = j by omega]⟩
  · rintro ⟨hk, hv⟩
    exact ⟨n - 1 - k, by omega, hv, by omega⟩

theorem revBits_lt (n v : Nat) : revBits n v < 2 ^ n :=
  Nat.lt_pow_two_of_testBit _ fun k hk => by simp [testBit_revBits, hk.not_gt]

theorem revBits_toNat (x : Word) : revBits 32 x.toNat = x.reverse.toNat := by
  apply Nat.eq_of_testBit_eq
  intro k
  rw [testBit_revBits, BitVec.testBit_toNat, BitVec.testBit_toNat, BitVec.getLsbD_reverse, BitVec.getMsbD_eq_getLsbD]

theorem popCount_le (x : Word) : popCount x ≤ 32 := List.length_filter_le ..

theorem leadingZeros_le (x : Word) : leadingZeros x ≤ 32 := by
  unfold leadingZeros; split <;> omega

/-- Settles O3: bitwise logic by the laws of numbers' bits, SEL and the counts as 32-bit results. -/
theorem bitwiseSelectAndCount : Obligations.BitwiseSelectAndCount := by
  refine ⟨fun s d a b u m => ?_, fun s d a b u n => ?_, fun d a b u n t => ?_⟩
  · intro ty A B
    have hA (l : Nat) : A l < 2 ^ 64 := (xread_lt ..).trans_le (typeBound_le ty)
    have hB (l : Nat) : B l < 2 ^ 64 := (bread_lt ..).trans_le (typeBound_le ty)
    exact ⟨bitwise_result rfl left_of_decide (fun _ => rfl) (fun _ => rfl) (fun _ => rfl) fun _ =>
        Nat.and_lt_two_pow _ (bread_lt ..),
      bitwise_result rfl left_of_decide (fun _ => rfl) (fun _ => rfl) (fun _ => rfl) fun _ =>
        Nat.or_lt_two_pow (xread_lt ..) (bread_lt ..),
      bitwise_result rfl left_of_decide (fun _ => rfl) (fun _ => rfl) (fun _ => rfl) fun _ =>
        Nat.xor_lt_two_pow (xread_lt ..) (bread_lt ..),
      bitwise_result rfl left_of_decide (fun _ => rfl) (fun _ => rfl) (fun l => andNot_eq (hA l) (hB l)) fun _ =>
        (Nat.sub_le ..).trans_lt (xread_lt ..),
      bitwise_result rfl left_of_decide (fun _ => rfl) (fun _ => rfl) (fun _ => rfl) fun _ =>
        Nat.and_lt_two_pow _ (imm_lt ..),
      bitwise_result rfl left_of_decide (fun _ => rfl) (fun _ => rfl) (fun _ => rfl) fun _ =>
        Nat.or_lt_two_pow (xread_lt ..) (imm_lt ..),
      bitwise_result rfl left_of_decide (fun _ => rfl) (fun _ => rfl) (fun _ => rfl) fun _ =>
        Nat.xor_lt_two_pow (xread_lt ..) (imm_lt ..)⟩
  · intro A
    have hcount {n : Nat} (h : n ≤ 32) : (BitVec.ofNat 32 n).toNat = n := toNat_ofNat_of_lt (by omega)
    exact ⟨lane32_result rfl (fun _ => rfl) fun _ => apply_ite ..,
      lane32_result rfl (fun _ => rfl) fun _ => hcount (popCount_le _),
      lane32_result rfl (fun _ => rfl) fun _ => hcount (leadingZeros_le _),
      lane32_result rfl (fun _ => rfl) fun _ => (toNat_ofNat_of_lt (revBits_lt 32 _)).trans (revBits_toNat _)⟩
  · refine ⟨?_, ?_, ?_, ?_, ?_, ?_, ?_, ?_, ?laneTypes, ?bitTypes⟩
    case laneTypes => intro i hi; fin_cases hi <;> rfl
    case bitTypes => intro i hi; fin_cases hi <;> rfl
    all_goals
      refine encode_append rfl ?_
      simp only [encodeNat, toNat_append_add, -Nat.reduceAdd, BitVec.toNat_ofNat]
      omega

end Sys2Proof.Machine
end

section
/-! SUPPORT. Bit fields settled (R106). -/

namespace Sys2Proof.Machine

/-- A field lies in the sub-element (R106). -/
theorem fieldOk_iff (t n p : Nat) : fieldOk t n p = true ↔ 0 < n ∧ n + p ≤ typeWidth t := by
  simp [fieldOk, Nat.pos_iff_ne_zero]

/-- The destination outside the field keeps its bits; in it stand the source's lowest (R106). -/
theorem testBit_bfiValue (n p old v j : Nat) : (bfiValue n p old v).testBit j =
    if p ≤ j ∧ j < p + n then v.testBit (j - p) else old.testBit j := by
  have hlow : old % 2 ^ p < 2 ^ p := Nat.mod_lt _ (Nat.two_pow_pos p)
  have hold : old = 2 ^ p * (2 ^ n * (old / 2 ^ p / 2 ^ n) + bitsOf old p n) + old % 2 ^ p := by
    rw [bitsOf, Nat.div_add_mod, Nat.div_add_mod]
  have hfield : bitsOf old p n < 2 ^ n := Nat.mod_lt _ (Nat.two_pow_pos n)
  have hnew : bfiValue n p old v = 2 ^ p * (2 ^ n * (old / 2 ^ p / 2 ^ n) + v % 2 ^ n) + old % 2 ^ p := by
    have hle : bitsOf old p n * 2 ^ p ≤ old :=
      (Nat.mul_le_mul_right _ (Nat.mod_le ..)).trans (Nat.div_mul_le_self ..)
    unfold bfiValue
    zify [hle]
    have hold' := congrArg (Nat.cast (R := Int)) hold
    push_cast at hold'
    linear_combination hold'
  rw [hnew]
  conv_rhs => rw [hold]
  rw [Nat.testBit_two_pow_mul_add _ hlow, Nat.testBit_two_pow_mul_add _ hlow,
    Nat.testBit_two_pow_mul_add _ (Nat.mod_lt _ (Nat.two_pow_pos n)), Nat.testBit_two_pow_mul_add _ hfield]
  by_cases hp : j < p
  · rw [if_pos hp, if_neg (by omega), if_pos hp]
  · by_cases hn : j - p < n
    · rw [if_neg hp, if_pos hn, if_pos (by omega), Nat.testBit_mod_two_pow, decide_eq_true hn, Bool.true_and]
    · rw [if_neg hp, if_neg hn, if_neg (by omega), if_neg hp, if_neg hn]

theorem bfiValue_lt {n p old w : Nat} (v : Nat) (hold : old < 2 ^ w) (hw : n + p ≤ w) : bfiValue n p old v < 2 ^ w :=
  Nat.lt_pow_two_of_testBit _ fun j hj => by
    rw [testBit_bfiValue, if_neg (by omega)]
    exact Nat.testBit_lt_two_pow (hold.trans_le (Nat.pow_le_pow_right (by decide) hj))

theorem typeWidth_le {t : Nat} (h : t < 16) : typeWidth t ≤ if type64 t then 64 else 32 := by
  revert t; decide

section
variable {i : Instr} {s : State} {d n p : BitVec 6} {v : Nat → Nat} {a b : State → Nat → Nat}
  {f : Nat → Nat → Nat → Nat}

/-- A bit-field instruction whose field lies in the sub-element. -/
theorem field_result (hx : exec i s = run i (fun s =>
      if !fieldOk (modeType s.w.mode) n.toNat p.toNat then (if anyLane s then trapWord s i else .ok s)
      else lanes2 d.toNat a b f s) s)
    (hok : fieldOk (modeType s.w.mode) n.toNat p.toNat = true) (he : EvenDest i d) (ha : ∀ j, a (issued j s) = a s)
    (hb : ∀ j, b (issued j s) = b s) (hv : ∀ l, f (modeType s.w.mode) (a s l) (b s l) = v l)
    (hlt : ∀ l, v l < 2 ^ (if type64 (modeType s.w.mode) then 64 else 32)) : LaneResult i (modeType s.w.mode) d s v :=
  lanes2_result hx (if_neg (by simpa using hok)) he ha hb hv hlt

/-- A bit-field instruction whose field does not (log 14). -/
theorem field_trap (hx : exec i s = run i (fun s =>
      if !fieldOk (modeType s.w.mode) n.toNat p.toNat then (if anyLane s then trapWord s i else .ok s)
      else lanes2 d.toNat a b f s) s)
    (hok : ¬ fieldOk (modeType s.w.mode) n.toNat p.toNat = true) (hany : anyLane s = true) (h : Issues i s) :
    exec i s = .next (trapped (issued i s) cOperand ((encode i).setWidth 64) s.sp.pc) := by
  rw [hx]
  refine run_trap h ((if_pos (by simpa using hok)).trans (if_pos ?_))
  rwa [anyLane_issued]

end

/-- Settles O4: a field in the sub-element by the laws of its two values, and any other by its trap. -/
theorem bitFields : Obligations.BitFields := by
  refine ⟨fun s d a n p => ?_, fun s d a n p i hi hbad hany h => ?_⟩
  · intro ty w hn hw
    have hle : w ≤ if type64 ty then 64 else 32 := typeWidth_le (modeType_lt _)
    have hok : fieldOk ty n.toNat p.toNat = true := (fieldOk_iff ..).mpr ⟨hn, hw⟩
    refine ⟨field_result rfl hok left_of_decide (fun _ => rfl) (fun _ => rfl) (fun _ => rfl) fun l =>
      (wrapInt_lt ..).trans_le (Nat.pow_le_pow_right (by decide) hle), fun h => ?_⟩
    obtain ⟨t, ht, hwrites, -, hread⟩ := field_result (i := .bfi d a n p) rfl hok left_of_decide
      (fun _ => rfl) (fun _ => rfl) (fun _ => rfl) (fun l => bfiValue_lt _ (xread_lt ..) (hw.trans hle)) h
    refine ⟨t, ht, hwrites, fun l hl j _ => ?_⟩
    rw [hread l hl]
    exact testBit_bfiValue ..
  · have hok : ¬ fieldOk (modeType s.w.mode) n.toNat p.toNat = true := by rw [fieldOk_iff]; omega
    rcases hi with rfl | rfl
    · exact field_trap rfl hok hany h
    · exact field_trap rfl hok hany h

end Sys2Proof.Machine
end

section
/-! SUPPORT. Moves between lanes, predicates and uniform registers, and PERM, settled (R107, R108, R141). -/

namespace Sys2Proof.Machine

section
variable {i : Instr} {s : State}

/-- An instruction that writes a uniform register once, from what no issue changes (R95). -/
theorem uniform_result {d : BitVec 6} {f : State → DWord} {v : DWord} (hx : exec i s = run i (uniform d f) s)
    (hf : ∀ j, f (issued j s) = f s) (hv : f s = v) : OnceResult i s (fun t => kset t d.toNat v) :=
  once_result_kset v hx (by rw [hf, hv])

/-- An instruction that sets a predicate from what no issue changes (R108, R141). -/
theorem predOf_result {n : Nat} {f : State → Mask} {v : Nat → Bool}
    (hx : exec i s = run i (fun s => .ok (pset s n (f s))) s) (hf : ∀ j, f (issued j s) = f s)
    (hv : ∀ l < 32, (f s).getLsbD l = v l) : PredResult i n s v :=
  pred_result hx (m := f s) (by rw [hf]) fun l hl => hv l hl.1

end

theorem permByte_lt (v8 sel : Nat) : permByte v8 sel < 2 ^ 8 := by
  have hinv (u : Nat) (hu : u < 2 ^ 8) : (if bitsOf sel 5 1 = 1 then 255 - u else u) < 2 ^ 8 := by split <;> omega
  refine hinv _ ?_
  split
  · exact Nat.mod_lt _ (by decide)
  · decide
  · split <;> decide
  · exact revBits_lt 8 _

/-- PERM moves nibbles under type 0xF (R107). -/
theorem subElem_permWord_nibbles (a b c : Word) {k : Nat} (hk : k < 8) : subElem (permWord 0xF a b c).toNat 4 k =
    bitsOf (a.toNat + b.toNat * 2 ^ 32) (4 * bitsOf c.toNat (4 * k) 4) 4 := by
  rw [permWord, if_pos rfl, toNat_ofNat_of_lt (packElems_lt 4 _ 8), subElem_packElems 4 _ hk]
  exact Nat.mod_mod ..

/-- PERM moves bytes under every other type (R107). -/
theorem subElem_permWord_bytes {t : Nat} (ht : t ≠ 0xF) (a b c : Word) {k : Nat} (hk : k < 4) :
    subElem (permWord t a b c).toNat 8 k = permByte (a.toNat + b.toNat * 2 ^ 32) (bitsOf c.toNat (6 * k) 6) := by
  rw [permWord, if_neg ht, toNat_ofNat_of_lt (packElems_lt 8 _ 4), subElem_packElems 8 _ hk,
    Nat.mod_eq_of_lt (permByte_lt ..)]

/-- Settles O5: each move by the shape of its destination, PERM by what it puts in each byte or nibble. -/
theorem movesAndPermute : Obligations.MovesAndPermute := by
  refine ⟨fun s d a b m tt => ?_, fun s d a b c => ?_, fun d a b m p q r tt t => ?_⟩
  · exact ⟨lane32_result rfl (fun _ => rfl) fun _ => rfl, lane32_result rfl (fun _ => rfl) fun _ => by simp,
      lane32_result rfl (fun _ => rfl) fun _ => rfl,
      lane32_result rfl (fun _ => rfl) fun _ => (toNat_append_add ..).trans (by simp),
      uniform_result rfl (fun _ => rfl) rfl,
      predOf_result rfl (fun _ => rfl) fun l hl => by simp [hl],
      predOf_result rfl (fun _ => rfl) fun l hl => getLsbD_maskOf _ hl⟩
  · intro v sel h
    obtain ⟨t, ht, hwrites, hflags, hread⟩ :=
      lane32_result (i := .perm d a b c) (d := d) rfl (fun _ => rfl) (fun _ => rfl) h
    refine ⟨t, ht, hwrites, hflags, fun l hl => ?_⟩
    rw [show (xget t l d.toNat).toNat = _ from hread l hl]
    split
    next hn => rw [hn]; exact fun k hk => subElem_permWord_nibbles _ _ _ hk
    next hn => exact fun k hk => subElem_permWord_bytes hn _ _ _ hk
  · refine ⟨?_, ?_, ?_, ?_, ?_, ?_, ?_, ?fixed⟩
    case fixed => intro i hi; fin_cases hi <;> exact ⟨rfl, rfl⟩
    all_goals
      refine encode_append rfl ?_
      simp only [encodeNat, toNat_append_add, -Nat.reduceAdd, BitVec.toNat_ofNat]
      omega

end Sys2Proof.Machine
end

section
/-! SUPPORT. Floating-point arithmetic settled (R94, R109, R110). -/

namespace Sys2Proof.Machine

/-- The value of a sub-element, flushed (R56, R109). -/
def flushed (s : State) (c : Nat) : FV := decodeFlush (modeFlush s.w.mode) (fmtOfType (modeType s.w.mode)) c

/-- An exact value rounded once under MODE, its flags with those of its operation (R52, R94). -/
def roundUnder (s : State) (v : FV × BitVec 5) : Nat × BitVec 5 :=
  let r := roundTo (ovtNat s) (modeFlush s.w.mode) (fmtOfType (modeType s.w.mode)) (modeRnd s.w.mode) v.1
  (r.1, r.2 ||| v.2)

section
variable {i : Instr} {s : State} {d a b : BitVec 6}

/-- A floating-point instruction that forms its sub-elements from what no issue changes. -/
theorem floatOf_result (f : State → Nat → Nat → Nat × BitVec 5)
    (hx : exec i s = run i (fun s =>
      lanesF (modeType s.w.mode) d.toNat (fun l => packF (modeType s.w.mode) (f s l)) s) s)
    (hf : ∀ j, f (issued j s) = f s) (he : EvenDest i d) : FloatResult i d s (f s) :=
  float_result hx (by rw [hf]; rfl) he

theorem floatBinary_result {u : BitVec 1} (f : Nat → FV → FV → FV × BitVec 5)
    (hx : exec i s = run i (floatBinary f d a b u) s) (he : EvenDest i d) : FloatResult i d s (fun l k =>
      roundUnder s (f (modeRnd s.w.mode) (flushed s (laneElem a s l k)) (flushed s (laneElemB b u s l k)))) :=
  float_result hx rfl he

end

/-- FMA on the operands of a lane (R110). -/
def fmaOf (a b c : BitVec 6) (s : State) (l k : Nat) : Nat × BitVec 5 :=
  roundUnder s (fvFma (modeRnd s.w.mode) (flushed s (laneElem a s l k)) (flushed s (laneElem b s l k))
    (flushed s (laneElem c s l k)))

/-- Settles O7: each sub-element is formed as stated, from operands that no issue changes. -/
theorem floatArithmetic : Obligations.FloatArithmetic := by
  intro s d a b c u ty w fm fl rnd X Y round
  exact ⟨floatBinary_result fvAdd rfl left_of_decide,
    floatBinary_result (fun m x y => fvAdd m x y.neg) rfl left_of_decide,
    floatBinary_result (fun _ x y => fvMul x y) rfl left_of_decide,
    floatOf_result (fmaOf a b c) rfl (fun _ => rfl) left_of_decide⟩

end Sys2Proof.Machine
end

section
/-! SUPPORT. Extremes, signs, compares, rounding to an integer and classes settled (R111 to R115). -/

namespace Sys2Proof.Machine

/-- A floating-point type is as wide as its format's codes (R27). -/
theorem fmtWidth_eq {t : Nat} (h : decide (0x6 ≤ t ∧ t ≤ 0xB) = true) : (fmtOfType t).width = typeWidth t := by
  obtain ⟨h1, h2⟩ := of_decide_eq_true h
  interval_cases t <;> rfl

theorem typeCount_le (t : Nat) : typeCount t ≤ 8 := by unfold typeCount; split <;> decide

section
variable {i : Instr} {s : State} {d a b : BitVec 6} {v : Nat → Nat → Nat}

theorem fminmax_result {isMax : Bool} {u : BitVec 1} (hx : exec i s = run i (fminmaxBody isMax d a b u) s)
    (he : EvenDest i d) : ElemResult i d s (fun l k =>
      fminmax isMax (modeFlush s.w.mode) (fmtOfType (modeType s.w.mode)) (laneElem a s l k) (laneElemB b u s l k) %
      2 ^ typeWidth (modeType s.w.mode)) :=
  elemwise_result hx rfl he fun _ _ _ _ => rfl

theorem sign_result {f : Fmt → Nat → Nat} (hx : exec i s = run i (signBody f d a) s) (he : EvenDest i d)
    (hv : Issues i s → ∀ l k,
      f (fmtOfType (modeType s.w.mode)) (laneElem a s l k) % 2 ^ typeWidth (modeType s.w.mode) = v l k) :
    ElemResult i d s v :=
  elemwise_result hx rfl he fun h l k _ => hv h l k

theorem fcmp_result {p c : Nat} {u : BitVec 1} (hx : exec i s = run i (fun s => lanesP p (fun l =>
      fcmpElems (modeFlush s.w.mode) c (modeType s.w.mode) (srcX a s l) (srcB b u s l)) s) s) :
    PredResult i p s (fun l => (List.range (typeCount (modeType s.w.mode))).all (fun k =>
      fCond c (flushed s (laneElem a s l k)) (flushed s (laneElemB b u s l k)))) :=
  lanesP_result hx rfl fun _ _ _ => rfl

end

/-- The class codes of a lane operand's sub-elements, four bits each (R115). -/
def classCodes (a : BitVec 6) (s : State) (l : Nat) : Nat :=
  packElems 4 (fun k => classCode (fmtOfType (modeType s.w.mode)) (laneElem a s l k)) (typeCount (modeType s.w.mode))

theorem classCodes_lt (a : BitVec 6) (s : State) (l : Nat) : classCodes a s l < 2 ^ 32 :=
  (packElems_lt ..).trans_le (Nat.pow_le_pow_right (by decide) (Nat.mul_le_mul_left 4 (typeCount_le _)))

/-- FRND of a lane operand's sub-elements (R114). -/
def frndOf (a : BitVec 6) (s : State) (l k : Nat) : Nat × BitVec 5 :=
  frndCode (modeFlush s.w.mode) (modeRnd s.w.mode) (fmtOfType (modeType s.w.mode)) (laneElem a s l k)

/-- FABS clears the sign bit, but not of the tapered codes without a sign (R112). -/
theorem fabsCode_mod {f : Fmt} {w c : Nat} (hw : f.width = w) (hc : c < 2 ^ w) : fabsCode f c % 2 ^ w =
    if f.tapered && c % 2 ^ (w - 1) == 0 then c else c % 2 ^ (w - 1) := by
  subst hw
  have hle : fabsCode f c ≤ c := by
    unfold fabsCode; split
    · exact le_rfl
    · exact Nat.mod_le ..
  rw [Nat.mod_eq_of_lt (hle.trans_lt hc)]; rfl

/-- FNEG inverts it (R112). -/
theorem fnegCode_mod {f : Fmt} {w c : Nat} (hw : f.width = w) (hpos : 0 < w) (hc : c < 2 ^ w) : fnegCode f c % 2 ^ w =
    if f.tapered && c % 2 ^ (w - 1) == 0 then c else (c + 2 ^ (w - 1)) % 2 ^ w := by
  subst hw
  unfold fnegCode
  split
  · exact Nat.mod_eq_of_lt hc
  · obtain ⟨n, hn⟩ : ∃ n, f.width = n + 1 := ⟨f.width - 1, by omega⟩
    rw [hn, pow_succ] at hc
    rw [hn, Nat.add_sub_cancel, bitsOf, pow_one, pow_succ]
    have hdm := Nat.div_add_mod c (2 ^ n)
    have hlt := Nat.mod_lt c (Nat.two_pow_pos n)
    have hq : c / 2 ^ n = 0 ∨ c / 2 ^ n = 1 :=
      Nat.le_one_iff_eq_zero_or_eq_one.mp (Nat.lt_succ_iff.mp (Nat.div_lt_of_lt_mul hc))
    rcases hq with hq | hq
    · have hc' : c = c % 2 ^ n := by rw [hq] at hdm; omega
      rw [hq, ← hc']; simp
    · have hc' : c + 2 ^ n = 2 ^ n * 2 + c % 2 ^ n := by rw [hq] at hdm; omega
      rw [hq, hc', Nat.add_mod_left]; simp

/-- Settles O8: the extremes and signs by their codes, the compare and the class by the shape of their destinations. -/
theorem floatSelectAndClass : Obligations.FloatSelectAndClass := by
  intro s d a b u c ty w fm fl X Y kept
  exact ⟨fminmax_result rfl left_of_decide, fminmax_result rfl left_of_decide,
    sign_result rfl left_of_decide fun h _ _ => fabsCode_mod (fmtWidth_eq h.accepts) (subElem_lt ..),
    sign_result rfl left_of_decide fun h _ _ => fnegCode_mod (fmtWidth_eq h.accepts) (typeWidth_pos _) (subElem_lt ..),
    fcmp_result rfl, floatOf_result (frndOf a) rfl (fun _ => rfl) left_of_decide,
    lane32_result (f := fun s l => BitVec.ofNat 32 (classCodes a s l)) rfl (fun _ => rfl) fun _ =>
      toNat_ofNat_of_lt (classCodes_lt ..)⟩

end Sys2Proof.Machine
end

section
/-! SUPPORT. Conversions settled (R116 to R121). -/

namespace Sys2Proof.Machine

/-- The destination of CVT and CVTZ is even wherever it is a pair, whatever the source is (R118). -/
theorem left_of_pairs {n : Nat} {q : Bool} (h : ((!type64 0xC || n % 2 == 0) && q) = true) : n % 2 = 0 :=
  beq_iff_eq.mp (Bool.and_eq_true_iff.mp h).1

section
variable (s : State) (a b : BitVec 6) (st l k : Nat)

/-- A sub-element converted by CVT or CVTZ, 0 where it has no source (R118). -/
def cvtOf (mode : State → Nat) : Nat × BitVec 5 :=
  if modeType s.w.mode = 0xE && k = 4 then (0, 0) else conv s st (mode s) (xread s st l a.toNat) k

/-- A sub-element of PACK: from x[a] while its sources last, then from x[b] (R119, R121). -/
def packOf : Nat × BitVec 5 :=
  let n := if modeType s.w.mode = 0xE then 4 else typeCount st
  if k < n then conv s st (modeRnd s.w.mode) (xget s l a.toNat).toNat k
  else conv s st (modeRnd s.w.mode) (xget s l b.toNat).toNat (k - n)

/-- A sub-element of UNPK: from one half of x[a], 0 where it has no source (R120, R121). -/
def unpkOf (h : BitVec 1) : Nat × BitVec 5 :=
  if st = 0xE && decide (5 ≤ h.toNat * typeCount (modeType s.w.mode) + k) then (0, 0)
  else conv s st 0 (xget s l a.toNat).toNat (h.toNat * typeCount (modeType s.w.mode) + k)

end

/-- Settles O9: each conversion is formed as stated, from a source that no issue changes. -/
theorem conversions : Obligations.Conversions := by
  intro s d a b h f ty rnd n
  exact ⟨
    floatOf_result (fun s l k => cvtOf s a f.toNat l k fun s => modeRnd s.w.mode) rfl (fun _ => rfl) left_of_pairs,
    floatOf_result (fun s l k => cvtOf s a f.toNat l k fun _ => 1) rfl (fun _ => rfl) left_of_pairs,
    floatOf_result (fun s l k => packOf s a b f.toNat l k) rfl (fun _ => rfl) left_of_decide,
    floatOf_result (fun s l k => unpkOf s a f.toNat l k h) rfl (fun _ => rfl) left_of_decide⟩

end Sys2Proof.Machine
end

section
/-! SUPPORT. Special functions, PPE and PPLD settled (R122 to R124). -/

namespace Sys2Proof.Machine

/-- A special function on a lane operand's sub-elements (R122). -/
def specialOf (f : State → FV → FV × BitVec 5) (closes : Bool) (a : BitVec 6) (s : State) (l k : Nat) :
    Nat × BitVec 5 :=
  specialCode (f s) closes (modeFlush s.w.mode) (ovtNat s) (fmtOfType (modeType s.w.mode)) (laneElem a s l k)

section
variable (i : Instr) (s : State)

/-- An issue changes nothing that a page walk reads (R369). -/
theorem walk_issued (va : Nat) (lvs : List WalkLevel) (table : Nat) :
    walk (issued i s) va lvs table = walk s va lvs table := by
  induction lvs generalizing table with
  | nil => rfl
  | cons lv rest ih =>
    simp only [walk, ih]
    rfl

theorem translate_issued (va : Nat) : translate (issued i s) va = translate s va := by
  simp only [translate, walk_issued]
  rfl

theorem checkAccess_issued (n : Need) (va size : Nat) :
    checkAccess (issued i s) n va size = checkAccess s n va size := by
  simp only [checkAccess, translate_issued]

/-- An issue changes nothing that the lanes of its split read (R299). -/
theorem readAs_issued (key n : Nat) :
    readAs (laneReader (issued i s)) (issued i s) key n = readAs (laneReader s) s key n := rfl

theorem ppldWords_issued (base n : Nat) : ppldWords (issued i s) base n = ppldWords s base n := by
  induction n with
  | zero => rfl
  | succ n ih => simp only [ppldWords, ih, checkAccess_issued, readAs_issued]

theorem firstPoison_issued (a n : Nat) : firstPoison (issued i s) a n = firstPoison s a n := by
  simp only [firstPoison, checkAccess_issued]
  rfl

end

/-- PPLD where its operands and its words pass every check (R124). -/
theorem exec_ppld {s : State} {a b : BitVec 6} {la : BitVec 4} {q : BitVec 2} {ws : List Word} {n base : Nat}
    (hn : (kget s b.toNat).toNat = n) (hbase : (kget s a.toNat).toNat = base) (h1 : 1 ≤ n) (h64 : n ≤ 64)
    (halign : base % 4 = 0) (hws : ppldWords s base (5 * n) = .ok ws) (hpoison : firstPoison s base (20 * n) = none)
    (hany : anyLane s = true) (h : Issues (.ppld a b la q) s) :
    exec (.ppld a b la q) s = .next (retired { issued (.ppld a b la q) s with ctx := { s.ctx with
      ppu := s.ctx.ppu.set q.toNat (loadSlot (s.ctx.ppu.getD q.toNat PpuSlot.blank) n ws) } }) := by
  refine run_ok_of_splits h ?_ rfl rfl rfl
  have hrange : (n < 1 || decide (64 < n)) = false := by simp; omega
  simp only [once, anyLane_issued, hany, if_true, kget_issued, hn, hbase, hrange, Bool.false_eq_true, if_false,
    halign, ne_eq, not_true_eq_false, ppldWords_issued, hws, firstPoison_issued, hpoison, issued_ctx]

/-- Settles O10: each function on its operand's sub-elements, and PPLD past its checks. -/
theorem specialFunctions : Obligations.SpecialFunctions := by
  refine ⟨fun s d a la q => ?_, fun s a b la q ws => exec_ppld rfl rfl⟩
  intro ty code
  exact ⟨floatOf_result (specialOf (fun _ => rcpFn) true a) rfl (fun _ => rfl) left_of_decide,
    floatOf_result (specialOf (fun _ => rsqFn) true a) rfl (fun _ => rfl) left_of_decide,
    floatOf_result (specialOf (fun _ => lg2Fn) false a) rfl (fun _ => rfl) left_of_decide,
    floatOf_result (specialOf (fun _ => ex2Fn) true a) rfl (fun _ => rfl) left_of_decide,
    floatOf_result (specialOf (fun _ => sinCosFn true) false a) rfl (fun _ => rfl) left_of_decide,
    floatOf_result (specialOf (fun _ => sinCosFn false) false a) rfl (fun _ => rfl) left_of_decide,
    floatOf_result (specialOf (fun _ => tanhFn) false a) rfl (fun _ => rfl) left_of_decide,
    floatOf_result (specialOf (fun s => ppeFn (s.ctx.ppu.getD q.toNat PpuSlot.blank)) true a) rfl (fun _ => rfl)
      left_of_decide⟩

end Sys2Proof.Machine
end

section
/-! SUPPORT. Uniform instructions settled (R22, R95, R126 to R130). -/

namespace Sys2Proof.Machine

/-- A product with 2^n, n at least 64, is 0 in 64 bits (R126). -/
theorem kShl_eq (a b : DWord) : kShl a b = BitVec.ofNat 64 (a.toNat * 2 ^ b.toNat) := by
  apply BitVec.eq_of_toNat_eq
  unfold kShl
  split
  next h => rw [BitVec.toNat_shiftLeft, Nat.shiftLeft_eq, BitVec.toNat_ofNat]
  next h =>
    have hdvd : 2 ^ 64 ∣ a.toNat * 2 ^ b.toNat := (pow_dvd_pow 2 (not_lt.mp h)).mul_left _
    rw [BitVec.toNat_ofNat, Nat.mod_eq_zero_of_dvd hdvd]
    rfl

theorem kShr_eq (a b : DWord) : kShr a b = BitVec.ofNat 64 (a.toNat / 2 ^ b.toNat) := by
  apply BitVec.eq_of_toNat_eq
  have hlt : a.toNat / 2 ^ b.toNat < 2 ^ 64 := (Nat.div_le_self ..).trans_lt a.isLt
  rw [toNat_ofNat_of_lt hlt]
  unfold kShr
  split
  next h => rw [BitVec.toNat_ushiftRight, Nat.shiftRight_eq_div_pow]
  next h =>
    rw [Nat.div_eq_of_lt (a.isLt.trans_le (Nat.pow_le_pow_right (by decide) (not_lt.mp h)))]
    rfl

/-- KCAT's immediate fills the bits that the shift has cleared (R127). -/
theorem kcat_eq (a : DWord) (m : BitVec 18) :
    a <<< 18 ||| m.setWidth 64 = BitVec.ofNat 64 (a.toNat * 2 ^ 18 + m.toNat) := by
  have hdisjoint : a <<< 18 &&& m.setWidth 64 = 0#64 := by
    ext j hj
    by_cases h : j < 18
    · simp [h]
    · simp [h, BitVec.getLsbD_of_ge m j (by omega)]
  rw [← BitVec.add_eq_or_of_and_eq_zero _ _ hdisjoint]
  apply BitVec.eq_of_toNat_eq
  have hm : m.toNat < 2 ^ 64 := m.isLt.trans (by decide)
  rw [BitVec.toNat_add, BitVec.toNat_shiftLeft, Nat.shiftLeft_eq, BitVec.toNat_setWidth, Nat.mod_eq_of_lt hm,
    Nat.mod_add_mod, BitVec.toNat_ofNat]

/-- Settles O13: each uniform instruction by what it writes, once; k0 by the rules of reading after writing. -/
theorem uniformArithmetic : Obligations.UniformArithmetic := by
  refine ⟨fun s d a b f c m12 m18 => ?_, fun s n m v => ?_, fun d a b f c m12 m18 t => ?_⟩
  · intro A B writes
    exact ⟨uniform_result rfl (fun _ => rfl) rfl, uniform_result rfl (fun _ => rfl) rfl,
      uniform_result rfl (fun _ => rfl) rfl, uniform_result rfl (fun _ => rfl) rfl,
      uniform_result rfl (fun _ => rfl) rfl, uniform_result rfl (fun _ => rfl) rfl,
      uniform_result rfl (fun _ => rfl) (kShl_eq ..), uniform_result rfl (fun _ => rfl) (kShr_eq ..),
      uniform_result rfl (fun _ => rfl) rfl, uniform_result rfl (fun _ => rfl) rfl,
      uniform_result rfl (fun _ => rfl) (kcat_eq ..), uniform_result rfl (fun _ => rfl) rfl,
      uniform_result rfl (fun _ => rfl) rfl, uniform_result rfl (fun _ => rfl) rfl,
      uniform_result rfl (fun _ => rfl) rfl, uniform_result rfl (fun _ => rfl) rfl,
      uniform_result rfl (fun _ => rfl) rfl⟩
  · refine ⟨kget_zero s, rfl, fun hn => ?_, fun hm => ?_⟩
    · rw [kget_kset s n v hn, if_pos rfl]
    · by_cases hn : n = 0
      · rw [hn]; rfl
      · rw [kget_kset s m v hn, if_neg hm]
  · refine ⟨?_, ?_, ?_, ?_, ?_, ?_, ?_, ?_, ?_, ?_, ?_, ?_, ?_, ?_, ?_, ?_, ?_, ?types,
      fun mode level hc => r88_illegal mode level (decide_eq_false ?illegal)⟩
    case types => intro i hi; fin_cases hi <;> exact ⟨rfl, rfl⟩
    case illegal =>
      rcases hc with rfl | rfl | hc
      · decide
      · decide
      · omega
    all_goals
      refine encode_append rfl ?_
      simp only [encodeNat, toNat_append_add, -Nat.reduceAdd, BitVec.toNat_ofNat]
      omega

end Sys2Proof.Machine
end

section
/-! SUPPORT. Lanes that read one another settled: shuffles, votes, MATCH and X2K (R136, R137, R140). -/

namespace Sys2Proof.Machine

/-- A value put in lane l's register d, or 0 there and the lane made to fail a guard where there is none (R136). -/
def shuffled (d g : Nat) (b : Bool) (v : Nat → Option Word) (s : State) (l : Nat) : State :=
  match v l with
  | some x => xset s l d x
  | none => psetLane (xset s l d 0) g l b

/-- Nothing but lane registers, with their marks, and predicates differs. -/
def LanesPredsOnly (s t : State) : Prop :=
  t = { s with w := { s.w with phys := t.w.phys, marks := t.w.marks, wild := t.w.wild, preds := t.w.preds } }

theorem LanesPredsOnly.trans {s t u : State} (h1 : LanesPredsOnly s t) (h2 : LanesPredsOnly t u) :
    LanesPredsOnly s u := by
  unfold LanesPredsOnly at *
  rw [h1] at h2
  exact h2

theorem getLsbD_laneBit (l : Nat) {k : Nat} (hk : k < 32) : (laneBit l).getLsbD k = decide (k = l) := by
  rw [laneBit, BitVec.getLsbD_ofNat, Nat.testBit_two_pow]
  simp [hk, eq_comm]

theorem predMask_psetLane (s : State) (n m l : Nat) (b : Bool) {k : Nat} (hk : k < 32) :
    (predMask (psetLane s n l b).w m).getLsbD k =
      if n ≠ 0 ∧ m = n ∧ k = l then b else (predMask s.w m).getLsbD k := by
  rw [psetLane, predMask_setPred]
  by_cases h : n = 0 ∨ m ≠ n
  · rw [if_pos h, if_neg (by tauto)]
  · rw [if_neg h, getLsbD_replace _ _ _ hk, getLsbD_laneBit l hk]
    obtain ⟨hn, hm⟩ : n ≠ 0 ∧ m = n := by tauto
    cases b <;> simp [hn, hm, getLsbD_laneBit l hk]

section
variable {d g : Nat} {b : Bool} {v : Nat → Option Word}

theorem shuffled_only (s : State) (l : Nat) : LanesPredsOnly s (shuffled d g b v s l) := by
  unfold shuffled psetLane setPred
  split
  · rfl
  · split <;> rfl

theorem shuffled_xget (s : State) {l m j : Nat} (hd : d < 64) (hj : j < 64) :
    xget (shuffled d g b v s l) m j = if m = l ∧ j = d then (v l).getD 0 else xget s m j := by
  unfold shuffled
  split
  next x hv => rw [xget_xset s x hd hj, hv]; rfl
  next hv =>
    have hkeep : xget (psetLane (xset s l d 0) g l b) m j = xget (xset s l d 0) m j := by
      unfold psetLane setPred; split <;> rfl
    rw [hkeep, xget_xset s 0 hd hj, hv]; rfl

theorem shuffled_predMask (s : State) (l p : Nat) {k : Nat} (hk : k < 32) :
    (predMask (shuffled d g b v s l).w p).getLsbD k =
      if g ≠ 0 ∧ p = g ∧ k = l ∧ v l = none then b else (predMask s.w p).getLsbD k := by
  unfold shuffled
  split
  next x hv => rw [hv, if_neg (by simp)]; rfl
  next hv => rw [predMask_psetLane _ _ _ _ _ hk, hv]; simp only [and_true]; rfl

theorem shuffled_physGet (s : State) {l key : Nat} (h : key ≠ physKey s.w l (s.sp.wbase + d)) :
    physGet (shuffled d g b v s l).w key = physGet s.w key := by
  have hx (x : Word) : physGet (xset s l d x).w key = physGet s.w key := (physGet_physSet ..).trans (if_neg h)
  unfold shuffled
  split
  · exact hx _
  · rw [← hx 0]; unfold psetLane setPred; split <;> rfl

/-- A shuffle in some lanes changes lane registers and predicates alone. -/
theorem foldl_shuffled_only (L : List Nat) (s : State) : LanesPredsOnly s (L.foldl (shuffled d g b v) s) := by
  induction L generalizing s with
  | nil => rfl
  | cons x L ih => exact (shuffled_only s x).trans (ih _)

/-- A shuffle in some lanes: what any register then reads. -/
theorem foldl_shuffled_xget (L : List Nat) (s : State) {l j : Nat} (hd : d < 64) (hj : j < 64) :
    xget (L.foldl (shuffled d g b v) s) l j = if l ∈ L ∧ j = d then (v l).getD 0 else xget s l j := by
  induction L generalizing s with
  | nil => simp
  | cons x L ih =>
    rw [List.foldl_cons, ih, shuffled_xget s hd hj]
    by_cases hl : l = x <;> by_cases hm : l ∈ L <;> by_cases hjd : j = d <;> simp_all

/-- A shuffle in some lanes: what the predicates then are. -/
theorem foldl_shuffled_predMask (L : List Nat) (s : State) (p : Nat) {k : Nat} (hk : k < 32) :
    (predMask (L.foldl (shuffled d g b v) s).w p).getLsbD k =
      if g ≠ 0 ∧ p = g ∧ k ∈ L ∧ v k = none then b else (predMask s.w p).getLsbD k := by
  induction L generalizing s with
  | nil => simp
  | cons x L ih =>
    rw [List.foldl_cons, ih, shuffled_predMask s x p hk]
    by_cases hx : k = x <;> by_cases hm : k ∈ L <;> simp_all

theorem foldl_shuffled_physGet (L : List Nat) (s : State) {key : Nat}
    (h : ∀ l ∈ L, key ≠ physKey s.w l (s.sp.wbase + d)) :
    physGet (L.foldl (shuffled d g b v) s).w key = physGet s.w key := by
  induction L generalizing s with
  | nil => rfl
  | cons x L ih =>
    have hx : LanesPredsOnly s (shuffled d g b v s x) := shuffled_only s x
    rw [List.foldl_cons, ih, shuffled_physGet s (h x (by simp))]
    intro l hl
    rw [hx]
    exact h l (by simp [hl])

end

/-- The word that SHFL moves to lane l, none where its count is invalid or its source takes no part (R136). -/
def shflValue (op : ShflOp) (a b : BitVec 6) (s : State) (l : Nat) : Option Word :=
  ((shflSource op l (xget s l b.toNat).toNat).filter (fun k => (partMask s).getLsbD k)).map
    (fun k => xget s k a.toNat)

/-- The state SHFL leaves before it retires. -/
def shflState (op : ShflOp) (d a b : BitVec 6) (i : Instr) (s : State) : State :=
  (lanesOf (partMask s)).foldl
    (shuffled d.toNat (modeGuard s.w.mode) (!modeSense s.w.mode) (shflValue op a b s)) (issued i s)

theorem shflBody_issued (op : ShflOp) (d a b : BitVec 6) (i : Instr) (s : State) :
    shflBody op d a b (issued i s) = .ok (shflState op d a b i s) := by
  refine congrArg (fun f => Res.ok ((lanesOf (partMask s)).foldl f (issued i s))) ?_
  funext t l
  unfold shuffled shflValue
  simp only [partMask_issued, xget_issued, issued_w]
  cases (shflSource op l (xget s l b.toNat).toNat).filter (fun k => (partMask s).getLsbD k) <;> rfl

/-- A lane whose source takes part reads it, and passes the guard as before. -/
theorem shflState_moves {op : ShflOp} {d a b : BitVec 6} {i : Instr} {s : State} {l k : Nat} (hl : takesPart s l)
    (hv : shflValue op a b s l = some (xget s k a.toNat)) :
    xget (shflState op d a b i s) l d.toNat = xget s k a.toNat ∧
      (predMask (shflState op d a b i s).w (modeGuard s.w.mode)).getLsbD l =
        (predMask s.w (modeGuard s.w.mode)).getLsbD l := by
  constructor
  · rw [shflState, foldl_shuffled_xget _ _ d.isLt d.isLt, if_pos ⟨takesPart_iff.mp hl, rfl⟩, hv]; rfl
  · rw [shflState, foldl_shuffled_predMask _ _ _ hl.1, if_neg (by simp [hv])]; rfl

/-- A lane without a source reads 0, and fails the guard where there is one. -/
theorem shflState_fails {op : ShflOp} {d a b : BitVec 6} {i : Instr} {s : State} {l : Nat} (hl : takesPart s l)
    (hv : shflValue op a b s l = none) :
    xget (shflState op d a b i s) l d.toNat = 0 ∧ (modeGuard s.w.mode ≠ 0 →
      (predMask (shflState op d a b i s).w (modeGuard s.w.mode)).getLsbD l = !modeSense s.w.mode) := by
  constructor
  · rw [shflState, foldl_shuffled_xget _ _ d.isLt d.isLt, if_pos ⟨takesPart_iff.mp hl, rfl⟩, hv]; rfl
  · intro hg
    rw [shflState, foldl_shuffled_predMask _ _ _ hl.1, if_pos ⟨hg, rfl, takesPart_iff.mp hl, hv⟩]

theorem run_shflBody {op : ShflOp} {d a b : BitVec 6} {i : Instr} {s : State} (h : Issues i s) :
    run i (shflBody op d a b) s = .next (retired (shflState op d a b i s)) := by
  have honly : LanesPredsOnly (issued i s) (shflState op d a b i s) := foldl_shuffled_only ..
  refine run_ok_of_splits h (shflBody_issued ..) ?_ ?_ ?_ <;> rw [honly] <;> rfl

theorem getLsbD_allOrNone (c : Bool) {l : Nat} (hl : l < 32) :
    (if c then allLanes else (0 : Mask)).getLsbD l = c := by
  have hall : allLanes = BitVec.allOnes 32 := rfl
  cases c
  · simp
  · rw [if_pos rfl, hall, BitVec.getLsbD_allOnes, decide_eq_true hl]

theorem length_lanesOf_le (m : Mask) : (lanesOf m).length ≤ 32 := List.length_filter_le ..

/-- A group descriptor fits its register: a lane below 32 and two counts of lanes (R140). -/
theorem matchDesc_lt (s : State) (a : BitVec 6) (l : Nat) : matchDesc s a l < 2 ^ 32 := by
  let E := (lanesOf (partMask s)).filter (fun m => xget s m a.toNat == xget s l a.toNat)
  have hlead : E.headD 0 < 32 := by
    rw [List.headD_eq_head?_getD]
    cases hE : E.head? with
    | none => decide
    | some m => exact (mem_lanesOf.mp (List.mem_of_mem_filter (List.mem_of_head? hE))).1
  have hsize : E.length ≤ 32 := (List.length_filter_le ..).trans (length_lanesOf_le _)
  have hrank : (E.filter (fun m => decide (m < l))).length ≤ 32 := (List.length_filter_le ..).trans hsize
  show E.headD 0 + E.length * 2 ^ 5 + (E.filter (fun m => decide (m < l))).length * 2 ^ 11 < 2 ^ 32
  omega

/-- An instruction that writes one uniform register with a value that its issue leaves as it was. -/
theorem once_result_kset_of {i : Instr} {s : State} {n : Nat} {body : State → Res} (v : State → DWord)
    (he : exec i s = run i (fun s => once s body) s) (hb : ∀ u, body u = .ok (kset u n (v u)))
    (hv : ∀ j, v (issued j s) = v s) : OnceResult i s (fun u => kset u n (v s)) :=
  once_result_kset (v s) he (by rw [hb, hv])

/-- Settles O11: a shuffle lane by lane, a vote as the same bit in every lane, the rest by what they write. -/
theorem shufflesAndVotes : Obligations.ShufflesAndVotes := by
  refine ⟨fun s d a b la => ?_, fun s d a b la => ?_⟩
  · intro g moves
    have hmoves {i : Instr} {op : ShflOp} (src : Nat → Nat → Option Nat) (hx : exec i s = run i (shflBody op d a b) s)
        (hsrc : ∀ l v, shflSource op l v = src l v) : moves i src := by
      intro h
      have honly : LanesPredsOnly (issued i s) (shflState op d a b i s) := foldl_shuffled_only ..
      refine ⟨_, hx.trans (run_shflBody h), ?_, fun key hkey => ?_, fun p hp => ?_, fun l hl => ?_, fun l hl => ?_⟩
      · generalize shflState op d a b i s = u at honly
        unfold LanesPredsOnly at honly
        rw [honly]; rfl
      · exact foldl_shuffled_physGet _ _ fun l hl => hkey l (takesPart_iff.mpr hl)
      · exact BitVec.eq_of_getLsbD_eq fun k hk =>
          (foldl_shuffled_predMask _ _ p hk).trans (if_neg fun hc => hp hc.2.1)
      · by_cases hlt : l < 32
        · exact (foldl_shuffled_predMask _ _ g hlt).trans (if_neg fun hc => hl (takesPart_iff.mpr hc.2.2.1))
        · rw [BitVec.getLsbD_of_ge _ _ (not_lt.mp hlt), BitVec.getLsbD_of_ge _ _ (not_lt.mp hlt)]
      · split
        next k hk =>
          split
          next hpart => exact shflState_moves hl (by simp [shflValue, hsrc, hk, hpart])
          next hpart => exact shflState_fails hl (by simp [shflValue, hsrc, hk, hpart])
        next hk => exact shflState_fails hl (by simp [shflValue, hsrc, hk])
    have hcount (v w : Nat) : (if v > 31 then none else some w) = if v ≤ 31 then some w else none := by
      simp only [gt_iff_lt, ← not_le, ite_not]
    exact ⟨hmoves (op := .from_) _ rfl (fun _ v => hcount v v), hmoves (op := .rot) _ rfl (fun _ _ => rfl),
      hmoves (op := .rotn) _ rfl (fun _ _ => rfl), hmoves (op := .xor) _ rfl (fun l v => hcount v (l ^^^ v))⟩
  · intro P V same
    exact ⟨predOf_result rfl (fun _ => rfl) fun l hl => getLsbD_allOrNone _ hl,
      predOf_result rfl (fun _ => rfl) fun l hl => getLsbD_allOrNone _ hl,
      once_result_kset_of (fun u => (votes u a).setWidth 64) rfl (fun _ => rfl) fun _ => rfl,
      once_result_kset_of (fun u => BitVec.ofNat 64 (laneCount (votes u a))) rfl (fun _ => rfl) fun _ => rfl,
      lane32_result rfl (fun _ => rfl) fun l => toNat_ofNat_of_lt (matchDesc_lt s a l),
      once_result_kset_of (fun u => if (partMask u).getLsbD b.toNat then (xget u b.toNat a.toNat).setWidth 64 else 0) rfl
        (fun _ => rfl) fun _ => rfl⟩

end Sys2Proof.Machine
end

section
/-! SUPPORT. Reductions and scans over the participating lanes settled (R138, R139). -/

namespace Sys2Proof.Machine

/-- Values added one after another are their sum. -/
theorem foldl_add_eq_sum {M α : Type} [AddMonoid M] (f : α → M) (L : List α) :
    L.foldl (fun acc x => acc + f x) 0 = (L.map f).sum := by
  rw [List.sum_eq_foldl, List.foldl_map]

/-- An instruction that acts once and goes on to the next word completes with its effect (R29). -/
theorem OnceEnds.result {i : Instr} {s : State} {f : State → State} (h : OnceEnds i s (fun u => retired (f u))) :
    OnceResult i s f := by
  intro hi
  rw [h hi]
  split <;> rfl

/-- An instruction that acts once and leaves every split as it was completes with its effect. -/
theorem once_result {i : Instr} {s : State} (f : State → State) {body : State → Res}
    (he : exec i s = run i (fun s => once s body) s) (hb : body (issued i s) = .ok (f (issued i s)))
    (hf : (f (issued i s)).sp = (issued i s).sp ∧ (f (issued i s)).w.splits = s.w.splits ∧
      (f (issued i s)).w.overflow = s.w.overflow) : OnceResult i s f := (once_ok f he hb hf).result

section
variable (s : State) (d a : BitVec 6)

theorem isF32_iff : isF32 s = true ↔ modeType s.w.mode = 0x6 := beq_iff_eq

/-- The integers of a reduction are those its codes stand for. -/
theorem laneInts_eq : laneInts s a = (laneCodes s a).map (signedOf (typeSigned (modeType s.w.mode)) 32) := by
  simp [laneInts, laneCodes]

/-- REDX.ADD's sum, with its flags (R138). -/
def redxSum (u : State) : State :=
  if modeType s.w.mode = 0x6 then
    orFlags (kset u d.toNat (BitVec.ofNat 64 (sumF32 (laneCodes s a)).1)) (sumF32 (laneCodes s a)).2
  else kset u d.toNat (BitVec.ofInt 64 (laneInts s a).sum)

theorem redxSum_issued (i : Instr) : (if isF32 (issued i s) then
      Res.ok (orFlags (kset (issued i s) d.toNat (BitVec.ofNat 64 (sumF32 (laneCodes (issued i s) a)).1))
        (sumF32 (laneCodes (issued i s) a)).2)
    else Res.ok (kset (issued i s) d.toNat (k64 ((laneInts (issued i s) a).foldl (· + ·) 0)))) =
      Res.ok (redxSum s d a (issued i s)) := by
  rw [redxSum, List.sum_eq_foldl]
  simp only [← isF32_iff]
  show (if isF32 s then Res.ok _ else Res.ok _) = Res.ok (if isF32 s then _ else _)
  split <;> rfl

theorem redxSum_frame (i : Instr) : (redxSum s d a (issued i s)).sp = (issued i s).sp ∧
    (redxSum s d a (issued i s)).w.splits = s.w.splits ∧ (redxSum s d a (issued i s)).w.overflow = s.w.overflow := by
  unfold redxSum
  split <;> exact ⟨kset_sp .., kset_sameSplits ..⟩

theorem redxSum_result (la : BitVec 4) : OnceResult (.redxAdd d a la) s (redxSum s d a) := by
  exact once_result _ rfl (redxSum_issued s d a _) (redxSum_frame s d a _)

/-- The extreme of REDX.MIN and MAX as a 64-bit value (R138). -/
def redxPick (isMax : Bool) : DWord :=
  if modeType s.w.mode = 0x6 then BitVec.ofNat 64 (extremeF32 isMax (laneCodes s a))
  else BitVec.ofInt 64 (extremeInt isMax (laneInts s a))

theorem redxExtreme_result {i : Instr} {isMax : Bool} (hx : exec i s = run i (redxExtreme isMax d a) s) :
    OnceResult i s (fun t => kset t d.toNat (redxPick s a isMax)) := by
  refine once_result_kset _ hx ?_
  show (if isF32 s then _ else _) = _
  simp only [redxPick, isF32_iff]
  split <;> rfl

/-- The code of ARGMX's extreme (R138). -/
def argmxCode (isMax : Bool) : Nat :=
  if modeType s.w.mode = 0x6 then extremeF32 isMax (laneCodes s a)
  else wrapInt 32 (extremeInt isMax (laneInts s a))

/-- The lane ARGMX names: the lowest that holds the extreme, or of all where that is a NaN of f32 (R138). -/
def argmxLane (isMax : Bool) : Nat :=
  if modeType s.w.mode = 0x6 ∧ (decodeF .f32 (argmxCode s a isMax)).isNan then lowestLane (partMask s)
  else holder s a (argmxCode s a isMax)

theorem argmx_result {i : Instr} {isMax : Bool} (hx : exec i s = run i (argmx isMax d a) s) :
    OnceResult i s (fun t => kset t d.toNat
      (BitVec.ofNat 64 (argmxCode s a isMax + argmxLane s a isMax * 2 ^ 32))) := by
  refine once_result_kset _ hx ?_
  simp only [argmxLane, argmxCode, ← isF32_iff, ← Bool.and_eq_true]
  rfl

/-- The integers that a scan gathers from the participating lanes below n (R139). -/
def scanInts (n : Nat) : List Int :=
  ((lanesOf (partMask s)).filter (fun m => decide (m < n))).map
    (fun m => signedOf (typeSigned (modeType s.w.mode)) 32 (xget s m a.toNat).toNat)

/-- A scan gathers the lanes below a lane and, where it is inclusive, the lane itself. -/
theorem map_scanLanes (incl : Bool) (l : Nat) : (scanLanes s incl l).map
    (fun m => signedOf (typeSigned (modeType s.w.mode)) 32 (xget s m a.toNat).toNat) =
      scanInts s a (if incl then l + 1 else l) := by
  cases incl <;> simp [scanLanes, scanInts]

theorem scanAdd_result {i : Instr} {incl : Bool} (hx : exec i s = run i (scanAdd incl d a) s) :
    LaneResult i 0 d s (fun l => fit (modeSat s.w.mode) (typeSigned (modeType s.w.mode)) 32
      (scanInts s a (if incl then l + 1 else l)).sum) := by
  refine lane32_result hx (fun _ => rfl) fun l => ?_
  rw [foldl_add_eq_sum, map_scanLanes, BitVec.toNat_ofNat, fit_mod]

theorem scanExtreme_result {i : Instr} {isMax : Bool} (hx : exec i s = run i (scanExtreme isMax d a) s) :
    LaneResult i 0 d s (fun l => wrapInt 32 (extremeInt isMax (scanInts s a (l + 1)))) := by
  refine lane32_result hx (fun _ => rfl) fun l => ?_
  rw [map_scanLanes, BitVec.toNat_ofNat, wrapInt_mod]
  rfl

end

/-- Settles O12: a reduction by the code or integer it writes, a scan by the lanes it gathers for each lane. -/
theorem reductionsAndScans : Obligations.ReductionsAndScans := by
  refine ⟨fun s d a la => ?_, fun s d a la => ?_⟩
  · intro f32 sg codes ints extreme pick lane
    have hints : ints = laneInts s a := (laneInts_eq s a).symm
    have hpick : pick = redxPick s a := by funext isMax; simp only [pick, hints]; rfl
    have hextreme : extreme = argmxCode s a := by funext isMax; simp only [extreme, hints]; rfl
    have hlane : lane = argmxLane s a := by funext isMax; simp only [lane, hextreme]; rfl
    rw [hpick, hextreme, hlane, hints]
    exact ⟨redxSum_result s d a la, redxExtreme_result s d a rfl, redxExtreme_result s d a rfl,
      argmx_result s d a rfl, argmx_result s d a rfl⟩
  · exact ⟨scanAdd_result s d a (incl := true) rfl, scanAdd_result s d a (incl := false) rfl,
      scanExtreme_result s d a rfl, scanExtreme_result s d a rfl⟩

end Sys2Proof.Machine
end

section
/-! SUPPORT. Waits, ends and the resume label settled (R153, R154, R163). -/

namespace Sys2Proof.Machine

/-- A pre-emption is pending and the warp stands at a safe point (R44). -/
theorem yieldsAtSafePoint_iff (s : State) : (s.ctx.preempt.isSome && safePoint s) = true ↔
    s.ctx.preempt.isSome = true ∧ (∀ p ∈ s.w.splits ++ s.w.overflow, ¬ p.alive) ∧
      s.sp.active = ~~~(s.w.strand ||| s.w.exited) ∧ s.sp.depth = 0 := by
  simp only [safePoint, Bool.and_eq_true, List.all_eq_true, Bool.not_eq_true', beq_iff_eq, Bool.not_eq_true, and_assoc]

/-- SLEEP's limit is the lesser of its count and 2^32 - 1 (R154). -/
theorem sleepClocks_eq (v : DWord) : sleepClocks v = min v.toNat (2 ^ 32 - 1) := by
  unfold sleepClocks; split <;> omega

/-- A YIELD moves its split in the age order alone (R154). -/
theorem finish_youngest {i j : Instr} {s : State} (h : Issues i s) :
    finish j false (.ok (youngest (issued i s))) = retired (youngest (issued i s)) :=
  finish_ok (issued_stopDue (i := i) h.whole.1 h.whole.2.1) h.whole.2.2

/-- Settles O21: each instruction by the end its body has, YIELDP by whether the safe point holds. -/
theorem waitsAndEnds : Obligations.WaitsAndEnds := by
  intro s a d last safe
  refine ⟨fun h => run_ok_of_splits h rfl rfl rfl rfl, once_ends rfl fun h _ => finish_youngest h, fun hsafe => ?_,
    fun hsafe => ?_, fun hnone => judged_ends rfl ?_, ?_, fun hwake => judged_ends rfl ?_, once_ends rfl fun _ _ => apply_ite (finish _ _) ..,
    fun hdisp => once_ok _ rfl ?_ ⟨rfl, rfl, rfl⟩⟩
  · refine once_endsW rfl fun h _ => ?_
    have hcond := mt (yieldsAtSafePoint_iff s).mp hsafe
    exact (congrArg (finish _ _) (if_neg hcond)).trans (finish_youngest h)
  · exact once_endsW rfl fun h _ => congrArg (finish _ _) (if_pos ((yieldsAtSafePoint_iff s).mpr hsafe))
  · simp [hnone]; rfl
  · refine once_endsW rfl fun _ _ => ?_
    rw [← sleepClocks_eq]; rfl
  · simp [hwake]; rfl
  · exact if_neg (by simp [hdisp])

end Sys2Proof.Machine
end

section
/-! SUPPORT. Software traps and the return of a handler settled (R165, R166, R252, R260). -/

namespace Sys2Proof.Machine

/-- A slide back that fills nothing and refills no frame record moves WBASE, DEPTH and FRAMES alone (R19). -/
theorem slideDown_inWindow {s : State} (h0 : 0 < s.sp.depth) (h8 : s.sp.depth ≤ 8)
    (hf : s.sp.sfloor ≤ s.sp.wbase - 4 * (s.sp.frames.toNat % 16 + 1)) :
    slideDown s = .ok { s with sp := { s.sp with
      wbase := s.sp.wbase - 4 * (s.sp.frames.toNat % 16 + 1), depth := s.sp.depth - 1
      frames := BitVec.ofNat 32 (s.sp.frames.toNat / 16) } } := by
  have hplan : planDown s = some { wb := s.sp.wbase - 4 * (s.sp.frames.toNat % 16 + 1), sf := s.sp.sfloor
                                   qs := [], frame := none } := by
    have hgroups : (s.sp.sfloor - (s.sp.wbase - 4 * (s.sp.frames.toNat % 16 + 1)) + 3) / 4 = 0 := by omega
    simp [planDown, hgroups, h8, h0.ne']
  simp [slideDown, hplan, slideAddrs, checkSlide, badAddrs, leastAddr, applyDown, fillAll, refill]

theorem LanesOnly.fillWord (s : State) (q l : Nat) : LanesOnly s (fillWord s q l) := by
  unfold Machine.fillWord
  dsimp only
  split
  · rfl
  · unfold LanesOnly; split <;> rfl

theorem LanesOnly.fillAll (s : State) (m : Mask) (qs : List Nat) : LanesOnly s (fillAll s m qs) :=
  LanesOnly.foldl _ (fun t q => LanesOnly.foldl _ (fun u l => LanesOnly.fillWord u q l) _ t) _ s

/-- A slide back changes lane registers, and leaves what the handler's entry has saved (R19, R250). -/
theorem slideDown_w {s t : State} (h : slideDown s = .ok t) :
    t.w = { s.w with phys := t.w.phys, marks := t.w.marks, wild := t.w.wild } := by
  unfold slideDown at h
  split at h
  · cases h
  next p _ =>
    split at h
    · cases h
    · cases h
      exact congrArg (·.w) (LanesOnly.fillAll s s.sp.active p.qs)

/-- What TRET does where the slide back succeeds (R252). -/
theorem returnTrap_ok {s t : State} (hclosed : s.sp.depth = s.w.tdepth) (h : slideDown s = .ok t) :
    returnTrap s = .ok (release { t with
      w := { t.w with mode := s.w.savedMode }
      sp := { t.sp with sig := s.w.savedSig, level := 0, pc := s.w.trappc } }) := by
  have hw := slideDown_w h
  rw [returnTrap, if_neg (not_not.mpr hclosed), h]
  simp only
  rw [hw]

theorem returnTrap_error {s : State} {a : Nat} (hclosed : s.sp.depth = s.w.tdepth) (h : slideDown s = .error a) :
    returnTrap s = .error (cWindow, BitVec.ofNat 64 a) := by
  rw [returnTrap, if_neg (not_not.mpr hclosed), h]

/-- Settles O22: TRAP and BKPT by their bodies' ends, TRET by its check of DEPTH and its slide back. -/
theorem softwareTraps : Obligations.SoftwareTraps := by
  intro s v c n
  refine ⟨once_ends rfl fun _ _ => rfl, once_ends rfl fun _ _ => rfl, fun hopen => once_ends rfl fun _ _ => ?_,
    fun hclosed => once_ends rfl fun _ _ => ?_, slideDown_inWindow⟩
  · have hret : returnTrap (issued .tret s) = .error (cOperand, BitVec.ofNat 64 s.sp.depth) := if_pos hopen
    rw [hret]; rfl
  · cases h : slideDown (issued .tret s) with
    | error a =>
      have hret := returnTrap_error (s := issued .tret s) hclosed h
      rw [hret]; rfl
    | ok t =>
      have hret := returnTrap_ok (s := issued .tret s) hclosed h
      rw [hret]; rfl

end Sys2Proof.Machine
end

section
/-! SUPPORT. The issue settled: SIG and its check, what an issue touches, and the checks of R88 (R30, R131, R134, R156,
R157). -/

namespace Sys2Proof.Machine

open Laws.Encoding

theorem decodeNat_of_decode {w : Word} {i : Instr} (h : decode w = .ok i) : decodeNat w.toNat = some i := by
  unfold decode at h
  split at h
  next hrow => cases h; exact hrow
  · cases h

/-- The opcode 0x0F is SIGCHK's alone (R76). -/
theorem sigchk_of_opcode {w : Nat} {i : Instr} (h : decodeNat w = some i) (hop : w / 2 ^ 24 = 0x0F) :
    ∃ v, i = .sigchk v := by
  have hclass : w / 0x10000000 = 0 := by omega
  have hrow : w / 0x1000000 % 16 = 15 := by omega
  simp only [decodeNat, hclass, decodeClass0, hrow, Option.some.injEq] at h
  exact ⟨_, h.symm⟩

/-- Every issue of a well-formed instruction but SIGCHK hashes SIG (R156). -/
theorem issued_sig {s : State} {i : Instr} (hwf : i.wf = true) (hne : ∀ v, i ≠ .sigchk v) :
    (issued i s).sp.sig = s.sp.sig.rotateLeft 5 ^^^
      BitVec.ofNat 32 (((encode i).toNat / 2 ^ 24 + 1) * 0x9E3779B1) ^^^
      (if s.sp.active = s.sp.entry then 0 else 0x80000000) := by
  have hrow := decodeNat_of_decode (decode_encode i hwf)
  have hop : ¬ encodeNat i / 2 ^ 24 = 0x0F := fun h => by
    rw [answers_decodeNat _ i hrow] at h
    obtain ⟨v, hv⟩ := sigchk_of_opcode hrow h
    exact hne v hv
  rw [← answers_decodeNat _ i hrow]
  show (if encodeNat i / 2 ^ 24 = 0x0F then s.sp.sig
    else sigHash s.sp.sig (encodeNat i / 2 ^ 24) (s.sp.active != s.sp.entry)) = _
  rw [if_neg hop, sigHash]
  simp only [bne_iff_ne, ne_eq, ite_not]

/-- SIGCHK clears SIG and compares its low bits (R157). -/
theorem sigchk_ends (s : State) (c : BitVec 24) : OnceEnds (.sigchk c) s (fun u =>
    if s.sp.sig.toNat % 2 ^ 24 = c.toNat then retired { u with sp := { u.sp with sig := 0 } }
    else trapped { u with sp := { u.sp with sig := 0 } } cSigmis (s.sp.sig.setWidth 64) (s.sp.pc + 4)) := by
  refine once_ends rfl fun h _ => ?_
  have hsig : (issued (.sigchk c) s).sp.sig = s.sp.sig := if_pos (by
    have hlt := c.isLt
    simp only [encodeNat]
    omega)
  have hcode : s.sp.sig.extractLsb' 0 24 = c ↔ s.sp.sig.toNat % 2 ^ 24 = c.toNat := by
    rw [← BitVec.toNat_inj]; simp
  rw [hsig]
  simp only [hcode]
  split
  · exact finish_ok (issued_stopDue (i := .sigchk c) h.whole.1 h.whole.2.1) h.whole.2.2
  · rfl

/-- What an issue touches where no debugger steps the split: SIG, the lookahead counts, and the clock from which its
idleness is told (R131, R134, R338). -/
theorem issued_eq {s : State} (i : Instr) (h : s.sp.stepping = 0) : issued i s = { s with sp := { s.sp with
    sig := (issued i s).sp.sig, sigWas := s.sp.sig, out := (issued i s).sp.out, pass := none
    lastIssue := s.cycle.toNat, starve := 0 } } := by
  have hs : (if s.sp.stepping = 1 then 2 else s.sp.stepping) = s.sp.stepping := if_neg (by simp [h])
  show { s with sp := { (issued i s).sp with stepping := if s.sp.stepping = 1 then 2 else s.sp.stepping } } = _
  rw [hs]
  rfl

theorem issued_out_none {s : State} {i : Instr} (h : lookahead i = none) :
    (issued i s).sp.out = s.sp.out.map (fun o => { o with left := o.left - 1 }) := by
  simp [issued, noteIssue, hashSig, h]

theorem issued_out_some {s : State} {i : Instr} {n : Nat} (h : lookahead i = some n) (hp : precise i = false) :
    (issued i s).sp.out = s.sp.out.map (fun o => { o with left := o.left - 1 }) ++ [{
      left := n, dests := destsOf s i, pc := s.sp.pc
      kind := (laneAccesses s i).1, addrs := (laneAccesses s i).2, mark := s.writes }] := by
  simp only [issued, noteIssue, h, hp, Bool.false_eq_true, if_false]
  rfl

/-- Every instruction of the opcode table issues in the frame of R88: none has a meaning of its own outside it. -/
theorem exec_eq_runW {i : Instr} (h : i.isEvent = false) : ∃ body, ∀ s, exec i s = runW i body s := by
  cases i with
  | nop | bra | jmpk | call | callk | ret | srcv | rcv | exit | yield | yieldp | sleep | setm | setg | sigchk
  | trap | tret | role | dispq | qend | cjoin | cleave | bara | barw | bars | setrl | srd | swrMode | swrFflags
  | swrStrand | swrSpillb | swrTrapc | swrTrapv | swrTrappc | swrOvt | bkpt | ovtld | add | sub | mul | mulh
  | min | max | abs | neg | and | or | xor | andn | shl | shr | sar | rol | mad | sel | cmp | cmpi | popc | clz
  | brev | perm | bfx | bfi | movx | movxK | movi | movh | pmov | pset | plog | addi | andi | ori | xori | shli
  | shri | sari | muli | mini | maxi | fadd | fsub | fmul | fma | fmin | fmax | fabs | fneg | fcmp | cvt | cvtz
  | frnd | fcls | pack | unpk | rcp | rsq | lg2 | ex2 | sin | cos | tanh | ppe | ppld | shflFrom | shflRot
  | shflRotn | shflXor | voteQuorum | voteUnan | voteMask | voteCount | redxAdd | redxMin | redxMax | argmxMax
  | argmxMin | scanAddIncl | scanAddExcl | scanMax | scanMin | matchLanes | x2k | kadd | ksub | kmul | kand
  | kor | kxor | kshl | kshr | kaddi | kmovi | kcat | kcmp | ksel | kmin | kminU | kmax | kmaxU | ldb | ldbs
  | ldh | ldhs | ldw | ldd | ldq | lda | stb | sth | stw | std | stq | stl | kld | kst | atadd | atmin | atmax
  | atand | ator | atxor | atxch | atcas | reda | redaf | mld | mst | mcas | fence | cinvL1 | cinvDie | finv
  | rngdef | cpy | cpym | awaitf | awaitfC | rels | rngst | fetch | mpath | tdef | tqput | twait | tpoll
  | tstat | nlbin | nlpair | nlstat | tap | tapw | taprd | taped | tapresCont | tapresEdit | tapresAbort
  | frule | launch | trsig | trwait | shape | accup =>
    exact ⟨_, fun _ => rfl⟩
  | _ => cases h

/-- An instruction that fails a check at its issue raises that check's cause with its word, and does nothing else (R88). -/
theorem exec_of_r88 {s : State} {i : Instr} {c : Byte} (he : i.isEvent = false) (hw : s.sp.wait ≠ some i)
    (hc : r88 s.w.mode s.sp.level i = some c) :
    exec i s = .next (takeTrap s c ((encode i).setWidth 64) s.sp.pc) := by
  obtain ⟨body, hbody⟩ := exec_eq_runW he
  rw [hbody, runW, issueW, if_neg hw, hc]

/-- A word that does not decode raises the cause of R88's first or second check. -/
theorem exec_refusedWord {s : State} {word : Word} {r : Reject} (h : decode word = .error r) :
    exec (.refusedWord word) s =
      .next (takeTrap s (if r = .illegal then cIllegal else cOperand) (word.setWidth 64) s.sp.pc) := by
  show event (refusedWordEvent word s) s = _
  rw [refusedWordEvent, h]
  cases r <;> rfl

section
variable {mode : BitVec 18} {level : Nat} {i : Instr} {c : Byte}

/-- The first check of R88 that fails, with its cause. -/
theorem r88_cases (h : r88 mode level i = some c) :
    c = cIllegal ∨ c = cOperand ∨ (c = cPriv ∧ privileged i = true ∧ level = 0) := by
  unfold r88 at h
  dsimp only at h
  split at h
  · exact .inl (Option.some.inj h).symm
  split at h
  · exact .inr (.inl (Option.some.inj h).symm)
  split at h
  next hpriv =>
    simp only [Bool.and_eq_true, beq_iff_eq] at hpriv
    exact .inr (.inr ⟨(Option.some.inj h).symm, hpriv⟩)
  split at h
  · exact .inl (Option.some.inj h).symm
  · cases h

/-- A privileged instruction passes no issue at level 0 (R88). -/
theorem r88_privileged (h : privileged i = true) : r88 mode 0 i ≠ none := by
  unfold r88
  dsimp only
  split
  · exact Option.some_ne_none _
  split
  · exact Option.some_ne_none _
  rw [if_pos (by simp [h])]
  exact Option.some_ne_none _

theorem acceptsType_of_r88 (h : r88 mode level i = none) : acceptsType (modeType mode) i = true := by
  simp only [r88] at h
  split at h
  · cases h
  split at h
  · cases h
  split at h
  · cases h
  split at h
  · cases h
  next hty =>
    simp only [Bool.or_eq_true, not_or, Bool.not_eq_true', Bool.not_eq_false] at hty
    exact hty.1

end

/-- Settles O17: SIG by the opcode of the instruction's word, the issue by what it notes, the checks in the frame that
every instruction issues in. -/
theorem signaturesAndIssue : Obligations.SignaturesAndIssue := by
  refine ⟨fun s i c => ⟨issued_sig, sigchk_ends s c⟩,
    fun s i hstep => ⟨issued_eq i hstep, issued_out_none, fun n => issued_out_some⟩,
    fun s i he => ⟨fun word hword hw c hc => ?_, fun word r => exec_refusedWord, fun c => exec_of_r88 he,
      fun mode level h => ?_, fun mode => r88_privileged, fun mode level c h => ?_,
      fun mode level => acceptsType_of_r88⟩, fun c => ?_⟩
  · rw [exec_of_r88 he hw hc, (encode_of_decode hword).1]
  · rcases r88_cases h with h | h | ⟨-, h⟩
    · exact absurd h (by decide)
    · exact absurd h (by decide)
    · exact h
  · exact (r88_cases h).imp_right (.imp_right And.left)
  · refine encode_append rfl ?_
    simp only [encodeNat, BitVec.toNat_ofNat]
    omega

end Sys2Proof.Machine
end

section
/-! SUPPORT. Branches settled: how a split divides, and how the split table takes the new half (R15, R143, R145, R146). -/

namespace Sys2Proof.Machine

/-- Lanes of the issuing split with a PC, and SIG 0 (R143). -/
def parted (m : Mask) (pc : DWord) (u : State) : State :=
  { u with sp := { u.sp with active := m, entry := m, sig := 0, pc := pc } }

/-- How a branch ends that sends some lanes of a split to a target (R143). -/
def branchEnd (s : State) (m : Mask) (dest : DWord) (u : State) : State :=
  if m = 0 then retired u
  else if s.sp.active &&& ~~~m = 0 then jumped { u with sp := { u.sp with pc := dest } }
  else jumped (parted (s.sp.active &&& ~~~m) (s.sp.pc + 4) (addSplit u (parted m dest u).sp))

theorem divert_goTo (u : State) (m : Mask) (dest : DWord) : divert u m (goTo dest) =
    if m = 0 then { u with sp := { u.sp with pc := u.sp.pc + 4 } }
    else if u.sp.active &&& ~~~m = 0 then { u with sp := { u.sp with pc := dest } }
    else parted (u.sp.active &&& ~~~m) (u.sp.pc + 4) (addSplit u (parted m dest u).sp) := by
  unfold divert
  dsimp only
  split
  · rfl
  split
  · rfl
  · rfl

/-- A branch of an issued split ends by whether it sends lanes, and whether others stay. -/
theorem finish_divert {i : Instr} {s : State} (h : Issues i s) (m : Mask) (dest : DWord) :
    finish i false (.jump (divert (issued i s) m (goTo dest))) = branchEnd s m dest (issued i s) := by
  rw [divert_goTo, finish_jump, branchEnd, issued_active, issued_pc]
  split
  · exact jumped_eq (s := { issued i s with sp := { (issued i s).sp with pc := s.sp.pc + 4 } })
      (issued_stopDue (i := i) h.whole.1 h.whole.2.1) h.whole.2.2
  split
  · rfl
  · rfl

theorem braTaken_issued (i : Instr) (s : State) (p : BitVec 3) (q : BitVec 1) :
    braTaken (issued i s) p q = braTaken s p q := rfl

theorem exec_bra {s : State} {p : BitVec 3} {q : BitVec 1} {d : BitVec 20} (h : Issues (.bra p q d) s) :
    exec (.bra p q d) s = .next (branchEnd s (braTaken s p q) (target s.sp.pc d.toInt) (issued (.bra p q d) s)) := by
  have hx : exec (.bra p q d) s =
    run (.bra p q d) (fun s => .jump (divert s (braTaken s p q) (goTo (target s.sp.pc d.toInt)))) s := rfl
  rw [hx, run_eq h, ← finish_divert h]
  rw [braTaken_issued, issued_pc]

theorem exec_jmpk {s : State} {a : BitVec 6} (h : Issues (.jmpk a) s) : exec (.jmpk a) s = .next
    (if anyLane s ∧ (kget s a.toNat).toNat % 4 ≠ 0 then
      trapped (issued (.jmpk a) s) cAlign (kget s a.toNat) s.sp.pc
    else branchEnd s (partMask s) (kget s a.toNat) (issued (.jmpk a) s)) := by
  have hx : exec (.jmpk a) s = run (.jmpk a) (fun s => if anyLane s && misaligned (kget s a.toNat)
    then .trap cAlign (kget s a.toNat) s.sp.pc s
    else .jump (divert s (partMask s) (goTo (kget s a.toNat)))) s := rfl
  have hcond : anyLane s ∧ (kget s a.toNat).toNat % 4 ≠ 0 ↔ (anyLane s && misaligned (kget s a.toNat)) = true := by
    simp [misaligned]
  rw [hx, run_eq h, ← finish_divert h]
  generalize Instr.jmpk a = i
  simp only [hcond]
  exact congrArg _ (apply_ite (finish i false) ..)

/-- The lowest free slot of the table (R15, R143; log 100). -/
theorem freeSlot_spec {s : State} {n : Nat} (h : freeSlot s = some n) :
    n < 16 ∧ (∀ m < n, m ∈ usedSlots s) ∧ n ∉ usedSlots s := by
  obtain ⟨hfree, hlt, hused⟩ := List.find?_range_eq_some.mp h
  exact ⟨List.mem_range.mp hlt, by simpa using hused, by simpa using hfree⟩

/-- A new split where the table has room. -/
theorem addSplit_free {s : State} {n : Nat} (p : Split) (h : freeSlot s = some n) : addSplit s p = { s with
    w := { s.w with splits := insertSplit { p with slot := n, age := s.nextAge, starve := 0,
                                                   lastIssue := s.cycle.toNat } s.w.splits }
    nextAge := s.nextAge + 1 } := by
  simp [addSplit, h]

/-- A new split where the table is full takes a place that an eviction frees. -/
theorem addSplit_full {s : State} (p : Split) (h : freeSlot s = none) :
    addSplit s p = (let t := evict s (fun _ => true); { t with
      w := { t.w with splits := insertSplit { p with slot := (freeSlot t).getD 0, age := t.nextAge, starve := 0
                                                     lastIssue := t.cycle.toNat } t.w.splits }
      nextAge := t.nextAge + 1 }) := by
  simp [addSplit, h]

/-- The entry that leaves a full table is the one that has gone longest without issuing (R15). -/
theorem evict_w {s : State} {may : Split → Bool} {x : Split}
    (h : longestIdle (s.w.splits.filter (fun r => r.alive && may r)) = some x) : (evict s may).w = { s.w with
      splits := s.w.splits.filter (fun r => r.slot != x.slot)
      overflow := s.w.overflow ++ [{ x with slot := 16, lastIssue := s.cycle.toNat }] } := by
  rw [evict, h]
  simp only [storeOverflow_w]

/-- Settles O18: BRA and JMPK by how their lanes divide, a new split by the slot it takes. -/
theorem branchesAndSplits : Obligations.BranchesAndSplits := by
  refine ⟨fun s p q d a => ?_, fun s p => ⟨fun n hn => ⟨addSplit_free p hn, freeSlot_spec hn⟩, fun may x hx => ?_, ?_⟩⟩
  · intro part splits P
    exact ⟨exec_bra, exec_jmpk⟩
  · exact ⟨congrArg (·.overflow) (evict_w hx), congrArg (·.splits) (evict_w hx)⟩
  · rintro hn t rfl
    exact addSplit_full p hn

end Sys2Proof.Machine
end

section
/-! SUPPORT. Named barriers settled: arrivals, waits and the end of a phase (R160 to R162). -/

namespace Sys2Proof.Machine

/-- The test of an arrival: a lane arrives twice, or the count is not the phase's (R160). -/
theorem arrivalClash_iff {s : State} {n e : Nat} {m : Mask} :
    (pendingAt s n &&& m ≠ 0 || ((barAt s n).expect.map (fun v => v != e)).getD false) = true ↔
      pendingAt s n &&& m ≠ 0 ∨ ∃ v, (barAt s n).expect = some v ∧ v ≠ e := by
  cases (barAt s n).expect <;> simp

section
variable {s : State} {i : Instr} {a b : BitVec 6} {f : State → Res} (hd : s.crew.dispatch = false)
include hd

theorem arriveThen_far (h : 1024 < (kget s b.toNat).toNat) : arriveThen i a b f s = trapWord s i := by
  simp [arriveThen, hd, h]

theorem arriveThen_clash (h : (kget s b.toNat).toNat ≤ 1024) (hc : pendingAt s a.toNat &&& partMask s ≠ 0 ∨
    ∃ v, (barAt s a.toNat).expect = some v ∧ v ≠ (kget s b.toNat).toNat) :
    arriveThen i a b f s = trapHere s cOperand a.toNat := by
  rw [arriveThen]
  rw [if_neg (by simp [hd]), if_neg (by omega), if_pos (arrivalClash_iff.mpr hc)]

theorem arriveThen_comes (h : (kget s b.toNat).toNat ≤ 1024) (hc : ¬ (pendingAt s a.toNat &&& partMask s ≠ 0 ∨
    ∃ v, (barAt s a.toNat).expect = some v ∧ v ≠ (kget s b.toNat).toNat)) :
    arriveThen i a b f s = f (arrive (keepArgs s []) a.toNat (kget s b.toNat).toNat (partMask s)) := by
  rw [arriveThen]
  rw [if_neg (by simp [hd]), if_neg (by omega), if_neg (mt arrivalClash_iff.mp hc)]

end

/-- The lanes that a split has kept of its issue are those that took part, as far as they are still in ACTIVE. -/
theorem argLanes_keepArgs (s : State) (vs : List DWord) : argLanes (keepArgs s vs) = partMask s &&& s.sp.active := by
  show ((partMask s).setWidth 64).setWidth 32 &&& s.sp.active = _
  rw [BitVec.setWidth_setWidth_of_le _ (by decide), BitVec.setWidth_eq]

/-- The past of the phases that some lanes have completed last. -/
theorem after_eq (x : Barrier) (w : Nat) (m : Mask) : x.after w m =
    (x.done.filter (fun d => decide (d.warp = w ∧ d.lanes &&& m ≠ 0))).flatMap (fun d => d.pasts) := by
  simp only [Barrier.after, bne, beq_eq_decide, Bool.decide_and, decide_not, ne_eq]

/-- The wait of BARW and BARS at their issue: over at once, with what their lanes have waited for acquired, or not
(R161, R162). -/
theorem finish_barWait {i j : Instr} {s t : State} (n : Nat) (h : Issues i s) (hsp : t.sp = (keepArgs (issued i s) []).sp)
    (hw : t.w = s.w) : finish j false (barWait n t) =
      if pendingAt t n &&& (partMask s &&& s.sp.active) = 0 then
        retired (acquire t (((barAt t n).done.filter (fun d =>
          decide (d.warp = s.w.id ∧ d.lanes &&& (partMask s &&& s.sp.active) ≠ 0))).flatMap (fun d => d.pasts)))
      else waits j t := by
  have hargs : argLanes t = partMask s &&& s.sp.active := by
    rw [argLanes, hsp]; exact argLanes_keepArgs (issued i s) []
  rw [barWait, hargs, after_eq, hw]
  split
  next hp => rfl
  next hp =>
    rw [if_pos (not_not.mp hp)]
    refine finish_ok ?_ ?_
    · rw [acquire_eq, hsp]; exact issued_stopDue (i := i) h.whole.1 h.whole.2.1
    · rw [acquire_eq, hw]; exact h.whole.2.2

/-- The wait judged again once no lane that took part is pending (R161). -/
theorem judged_barWait {n : Nat} {s : State} (h : pendingAt s n &&& argLanes s = 0) :
    finish i true (barWait n s) = goesOn (acquire s (((barAt s n).done.filter (fun d =>
      decide (d.warp = s.w.id ∧ d.lanes &&& argLanes s ≠ 0))).flatMap (fun d => d.pasts))) := by
  rw [barWait, if_neg (not_not.mpr h), after_eq]; rfl

theorem mapIdx_eq_set {α : Type} (f : α → α) {L : List α} {n : Nat} {y : α} (h : L[n]? = some y) :
    L.mapIdx (fun i b => if i = n then f b else b) = L.set n (f y) := by
  refine List.ext_getElem? fun k => ?_
  rw [List.getElem?_mapIdx, List.getElem?_set]
  by_cases hk : n = k
  · obtain ⟨hlt, rfl⟩ := List.getElem?_eq_some_iff.mp h
    simp [← hk, hlt]
  · simp [hk, Ne.symm hk]

/-- The end of a phase (R160). -/
theorem barrierDone_iff (s : State) (b : Barrier) : barrierDone s b = true ↔ b.arrived ≠ [] ∧ ∃ e, b.expect = some e ∧
    (0 < e → e ≤ (b.arrived.map (fun x => laneCount x.2)).sum) ∧
    (e = 0 → ∀ w ∈ s.allWarps, w.crew = s.crew.id → sget 0 b.arrived w.id ||| w.strand ||| w.exited = 0xFFFFFFFF) := by
  have hcount : b.arrivals = (b.arrived.map (fun x => laneCount x.2)).sum := by
    rw [Barrier.arrivals, List.sum_eq_foldl, List.foldl_map]
  unfold barrierDone
  cases b.expect with
  | none => simp
  | some e =>
    rw [← hcount]
    by_cases he : e = 0
    · simp [he, members, State.warpsOf, allLanes, imp_iff_not_or]
    · simp [he, Nat.pos_of_ne_zero he]

theorem getElem?_judgeBarriers (s : State) {n : Nat} {b : Barrier} (h : s.crew.bars[n]? = some b) :
    (judgeBarriers s).crew.bars[n]? = some (if barrierDone s b then b.flip (barrierPasts s b) else b) := by
  simp [judgeBarriers, h]

/-- Settles O25: an arrival by its checks, a wait by what is pending at its issue and at each judgement, a phase by whether it
is complete. -/
theorem barriers : Obligations.Barriers := by
  refine ⟨fun s a b hd => ?_, fun s => ?_⟩
  · intro e x pending clash comes back refuses
    refine ⟨fun hfar => ⟨?_, ?_⟩, fun hle hclash => ⟨?_, ?_⟩, fun hle hclash => ⟨?_, ?_⟩, ?_, fun hnone => ⟨?_, ?_⟩,
      fun n e m y hy => ?_⟩
    · exact once_ends rfl fun _ _ => by rw [arriveThen_far (s := issued _ s) hd hfar]; rfl
    · exact once_endsW rfl fun _ _ => by rw [arriveThen_far (s := issued _ s) hd hfar]; rfl
    · exact once_ends rfl fun _ _ => by rw [arriveThen_clash (s := issued _ s) hd hle hclash]; rfl
    · exact once_endsW rfl fun _ _ => by rw [arriveThen_clash (s := issued _ s) hd hle hclash]; rfl
    · exact once_ends rfl fun h _ => by
        rw [arriveThen_comes (s := issued _ s) hd hle hclash]
        exact finish_ok (issued_stopDue (i := .bara a b) h.whole.1 h.whole.2.1) h.whole.2.2
    · refine once_endsW rfl fun h _ => ?_
      rw [arriveThen_comes (s := issued _ s) hd hle hclash, BitVec.and_assoc]
      exact finish_barWait a.toNat h rfl rfl
    · refine once_endsW rfl fun h _ => ?_
      rw [if_neg (by simp [hd])]
      exact finish_barWait a.toNat h rfl rfl
    · exact judged_ends rfl (judged_barWait hnone)
    · exact judged_ends rfl (judged_barWait hnone)
    · rw [arrive, mapIdx_eq_set _ hy]; rfl
  · intro count complete
    refine ⟨by simp [judgeBarriers], fun n _ b hb => ⟨fun hc => ?_, fun hc => ?_⟩⟩
    · rw [getElem?_judgeBarriers s hb, if_pos ((barrierDone_iff s b).mpr hc)]; rfl
    · rw [getElem?_judgeBarriers s hb, if_neg (mt (barrierDone_iff s b).mp hc)]

end Sys2Proof.Machine
end

section
/-! SUPPORT. An issue changes nothing that the records of an instruction are read through (R167, R299, R398). -/

namespace Sys2Proof.Machine

section
variable (i : Instr) (s : State)

theorem checkRunFrom_issued (n : Need) (prev : Option Nat) (va k : Nat) :
    checkRunFrom (issued i s) n prev va k = checkRunFrom s n prev va k := by
  induction k generalizing prev va with
  | zero => rfl
  | succ k ih => simp only [checkRunFrom, ih, checkAccess_issued]

theorem readRecordBy_issued (r : Reader) (n : Need) (align va size : Nat) :
    readRecordBy r (issued i s) n align va size = readRecordBy r s n align va size := by
  simp only [readRecordBy, readRunBy, checkRun, checkRunFrom_issued, translate_issued]
  rfl

theorem readRecord_issued (n : Need) (align va size : Nat) :
    readRecord (issued i s) n align va size = readRecord s n align va size := readRecordBy_issued ..

theorem dispqCheck_issued (a l : Nat) : dispqCheck (issued i s) a l = dispqCheck s a l := by
  simp only [dispqCheck, calleeEntry, readRecordBy_issued]
  rfl

end

end Sys2Proof.Machine
end

section
/-! SUPPORT. Dispatch items settled: how DISPQ queues them, and how QEND returns their results (R150, R152). -/

namespace Sys2Proof.Machine

theorem partMask_and_active (s : State) : partMask s &&& s.sp.active = partMask s := by
  rw [partMask, BitVec.and_comm, ← BitVec.and_assoc, BitVec.and_self]

theorem exists_lane_of_ne_zero {m : Mask} (h : m ≠ 0) : ∃ l, l ∈ lanesOf m := by
  by_contra hnone
  refine h (BitVec.eq_of_getLsbD_eq fun l hl => ?_)
  have hoff := fun hon => hnone ⟨l, mem_lanesOf.mpr ⟨hl, hon⟩⟩
  rw [Bool.eq_false_iff.mpr hoff]
  exact BitVec.getLsbD_zero.symm

theorem lanesOf_laneBit {l : Nat} (hl : l < 32) : lanesOf (laneBit l) = [l] := by
  revert l; decide

/-- The item that a lane of DISPQ queues (R150). -/
def dispqItem (a : Nat) (s : State) (l : Nat) : Item :=
  { ctx := s.ctx.id, launch := s.w.launch, callee := (xget s l a).toNat, regs := (List.range 8).map (xget s l)
    handle := { warp := s.w.id, lane := l } }

/-- The queue that a lane of DISPQ names (R150; log 50). -/
def laneQueue (a : Nat) (s : State) (l : Nat) : List Item := queueOf s s.ctx.id s.w.launch (xget s l a).toNat

/-- A machine with items added to the focused cluster. -/
def withItems (s : State) (items : List Item) : State := { s with clus := { s.clus with items := s.clus.items ++ items } }

theorem withItems_withItems (s : State) (xs ys : List Item) : withItems (withItems s xs) ys = withItems s (xs ++ ys) := by
  simp [withItems]

/-- A queue grows by no more than the items added. -/
theorem laneQueue_withItems_le (a : Nat) (s : State) (items : List Item) (l : Nat) :
    (laneQueue a (withItems s items) l).length ≤ (laneQueue a s l).length + items.length := by
  have h : laneQueue a (withItems s items) l = laneQueue a s l ++
      items.filter (fun i => i.ctx == s.ctx.id && i.launch == s.w.launch && i.callee == (xget s l a).toNat) :=
    List.filter_append ..
  rw [h, List.length_append]
  exact Nat.add_le_add_left (List.length_filter_le ..) _

theorem enqueueLane_full {a : Nat} {s : State} {l : Nat} (m : Mask) (h : 512 ≤ (laneQueue a s l).length) :
    enqueueLane a (s, m) l = (s, m) := if_pos h

theorem enqueueLane_room {a : Nat} {s : State} {l : Nat} (m : Mask) (h : (laneQueue a s l).length < 512) :
    enqueueLane a (s, m) l = (withItems s [dispqItem a s l], m &&& ~~~laneBit l) := if_neg (Nat.not_le.mpr h)

/-- Where every queue has room for all the lanes, all of them queue their items, in order. -/
theorem foldl_enqueueLane (a : Nat) (L : List Nat) (s : State) (m : Mask)
    (h : ∀ l ∈ L, (laneQueue a s l).length + L.length ≤ 512) :
    L.foldl (enqueueLane a) (s, m) = (withItems s (L.map (dispqItem a s)), L.foldl (fun m l => m &&& ~~~laneBit l) m) := by
  induction L generalizing s m with
  | nil => simp [withItems]
  | cons x L ih =>
    have hx := h x List.mem_cons_self
    rw [List.length_cons] at hx
    rw [List.foldl_cons, enqueueLane_room m (by omega), ih]
    · rw [withItems_withItems]; rfl
    · intro l hl
      have hgrown := laneQueue_withItems_le a s [dispqItem a s x] l
      have hroom := h l (List.mem_cons_of_mem _ hl)
      simp only [List.length_cons, List.length_nil] at hgrown hroom
      omega

theorem getLsbD_foldl_clear (L : List Nat) (m : Mask) {k : Nat} (hk : k < 32) :
    (L.foldl (fun m l => m &&& ~~~laneBit l) m).getLsbD k = (m.getLsbD k && decide (k ∉ L)) := by
  induction L generalizing m with
  | nil => simp
  | cons x L ih =>
    rw [List.foldl_cons, ih, BitVec.getLsbD_and, BitVec.getLsbD_not, getLsbD_laneBit x hk]
    by_cases hx : k = x <;> simp [hx, hk]

/-- A mask without its lanes is empty. -/
theorem foldl_clear_lanesOf (m : Mask) : (lanesOf m).foldl (fun m l => m &&& ~~~laneBit l) m = 0 := by
  refine BitVec.eq_of_getLsbD_eq fun k hk => ?_
  rw [getLsbD_foldl_clear _ _ hk]
  cases hm : m.getLsbD k
  · exact BitVec.getLsbD_zero.symm
  · simp [mem_lanesOf.mpr ⟨hk, hm⟩]

/-- A lane whose item stands in the focused cluster waits for it. -/
theorem itemOpen_of_mem {s : State} {l : Nat} {x : Item} (hx : x ∈ s.clus.items)
    (hh : x.handle = { warp := s.w.id, lane := l }) : itemOpen s l = true := by
  simp only [itemOpen, Bool.or_eq_true, List.any_eq_true, beq_iff_eq]
  exact .inl ⟨x, hx, hh⟩

/-- A split with other kept operands. -/
def withArgs (s : State) (vs : List DWord) : State := { s with sp := { s.sp with args := vs } }

theorem argLanes_withArgs (s : State) (v : DWord) : argLanes (withArgs s [s.sp.args.headD 0, v]) = argLanes s := rfl

theorem itemOpen_withArgs (s : State) (vs : List DWord) (l : Nat) : itemOpen (withArgs s vs) l = itemOpen s l := by
  unfold itemOpen State.allWarps
  cases h : s.w.live <;> simp [withArgs, h, State.wholeWarp, packSplit]

section
variable {a : Nat} {s t : State} {todo rest : Mask} (htodo : (argN s 0).setWidth 32 &&& s.sp.active = todo)
  (hfold : (lanesOf todo).foldl (enqueueLane a) (s, todo) = (t, rest))
include htodo hfold

/-- A judgement of DISPQ that leaves lanes still to be queued, or an item that has not ended, waits (R150). -/
theorem dispqTry_waits (hopen : rest = 0 → ∃ l ∈ lanesOf (argLanes t), itemOpen t l = true) :
    dispqTry a s = .wait (withArgs t [t.sp.args.headD 0, rest.setWidth 64]) := by
  subst htodo
  rw [dispqTry, hfold]
  refine if_neg ?_
  simp only [Bool.and_eq_true, decide_eq_true_eq, List.all_eq_true, Bool.not_eq_true']
  rintro ⟨hrest, hall⟩
  obtain ⟨l, hl, hitem⟩ := hopen hrest
  have hclosed := hall l hl
  rw [← withArgs, itemOpen_withArgs, hitem] at hclosed
  cases hclosed

/-- A judgement of DISPQ with every lane queued and every item ended is the last (R150). -/
theorem dispqTry_over (hrest : rest = 0) (hclosed : ∀ l ∈ lanesOf (argLanes t), itemOpen t l = false) :
    dispqTry a s = .ok (withArgs t [t.sp.args.headD 0, rest.setWidth 64]) := by
  subst htodo
  rw [dispqTry, hfold]
  refine if_pos ?_
  simp only [Bool.and_eq_true, decide_eq_true_eq, List.all_eq_true, Bool.not_eq_true']
  refine ⟨hrest, fun l hl => ?_⟩
  rw [← withArgs, itemOpen_withArgs, hclosed l hl]

end

theorem dispqItem_issued (i : Instr) (a : Nat) (s : State) : dispqItem a (issued i s) = dispqItem a s := rfl

theorem laneQueue_issued (i : Instr) (a : Nat) (s : State) : laneQueue a (issued i s) = laneQueue a s := rfl

/-- What DISPQ keeps for its judgements: the lanes that take part, all of them still to be queued (R150). -/
def dispqKept (s : State) : State := keepArgs s [(partMask s).setWidth 64]

theorem todo_dispqKept (s : State) :
    (argN (dispqKept s) 0).setWidth 32 &&& (dispqKept s).sp.active = partMask s := by
  show ((partMask s).setWidth 64).setWidth 32 &&& s.sp.active = _
  rw [BitVec.setWidth_setWidth_of_le _ (by decide), BitVec.setWidth_eq, partMask_and_active]

/-- DISPQ queues every lane where the queues have room for them, and waits (R150). -/
theorem dispqTry_queues {a : Nat} {s : State} (hany : anyLane s = true)
    (hroom : ∀ l ∈ lanesOf (partMask s), (laneQueue a s l).length + 32 ≤ 512) :
    dispqTry a (dispqKept s) = .wait (withArgs (withItems (dispqKept s) ((lanesOf (partMask s)).map (dispqItem a s)))
      [(partMask s).setWidth 64, 0]) := by
  have hfold := foldl_enqueueLane a (lanesOf (partMask s)) (dispqKept s) (partMask s)
    (fun l hl => (Nat.add_le_add_left (length_lanesOf_le _) _).trans (hroom l hl))
  rw [foldl_clear_lanesOf] at hfold
  refine dispqTry_waits (todo_dispqKept s) hfold fun _ => ?_
  obtain ⟨l, hl⟩ := exists_lane_of_ne_zero (bne_iff_ne.mp hany)
  refine ⟨l, ?_, itemOpen_of_mem (List.mem_append_right _ (List.mem_map_of_mem hl)) rfl⟩
  have hargs := argLanes_keepArgs s [(partMask s).setWidth 64]
  rw [partMask_and_active] at hargs
  exact hargs ▸ hl

/-- A lone lane whose queue is full keeps its item (R150). -/
theorem dispqTry_full {a l : Nat} {s : State} (hl : l < 32) (hpart : partMask s = laneBit l)
    (hfull : 512 ≤ (laneQueue a s l).length) : dispqTry a (dispqKept s) =
      .wait (withArgs (dispqKept s) [(laneBit l).setWidth 64, (s.sp.active &&& laneBit l).setWidth 64]) := by
  have htodo := todo_dispqKept s
  rw [hpart] at htodo
  have hne : laneBit l ≠ 0 := fun h => by
    have hbit := getLsbD_laneBit l hl
    rw [h] at hbit
    simp at hbit
  have hfold : (lanesOf (laneBit l)).foldl (enqueueLane a) (dispqKept s, laneBit l) = (dispqKept s, laneBit l) := by
    rw [lanesOf_laneBit hl]
    exact enqueueLane_full _ hfull
  have hactive : s.sp.active &&& laneBit l = laneBit l := by
    rw [← hpart, BitVec.and_comm, partMask_and_active]
  rw [dispqTry_waits htodo hfold (fun h => absurd h hne), hactive, ← hpart]
  rfl

/-- A lane kept waiting queues its item once its queue has room (R150). -/
theorem dispqTry_queues_later {a l : Nat} {s : State} (hl : l < 32) (harg : argN s 0 = (laneBit l).setWidth 64)
    (hlane : (argLanes s).getLsbD l = true) (hroom : (laneQueue a s l).length < 512) :
    dispqTry a s = .wait (withArgs (withItems s [dispqItem a s l]) [s.sp.args.headD 0, 0]) := by
  have hactive : s.sp.active.getLsbD l = true := by
    rw [argLanes, BitVec.getLsbD_and, Bool.and_eq_true] at hlane
    exact hlane.2
  have htodo : (argN s 0).setWidth 32 &&& s.sp.active = laneBit l := by
    rw [harg, BitVec.setWidth_setWidth_of_le _ (by decide), BitVec.setWidth_eq]
    refine BitVec.eq_of_getLsbD_eq fun k hk => ?_
    rw [BitVec.getLsbD_and, getLsbD_laneBit l hk]
    by_cases h : k = l
    · simp [h, hactive]
    · simp [h]
  have hfold : (lanesOf (laneBit l)).foldl (enqueueLane a) (s, laneBit l) = (withItems s [dispqItem a s l], 0) := by
    rw [lanesOf_laneBit hl, ← BitVec.and_not_self (laneBit l)]
    exact enqueueLane_room _ hroom
  exact dispqTry_waits htodo hfold fun _ =>
    ⟨l, mem_lanesOf.mpr ⟨hl, hlane⟩, itemOpen_of_mem (List.mem_append_right _ List.mem_cons_self) rfl⟩

/-- With no lane to be queued and every item ended, DISPQ's wait is over (R150). -/
theorem dispqTry_done {a : Nat} {s : State} (harg : argN s 0 = 0)
    (hclosed : ∀ l ∈ lanesOf (argLanes s), itemOpen s l = false) :
    dispqTry a s = .ok (withArgs s [s.sp.args.headD 0, 0]) := by
  have htodo : (argN s 0).setWidth 32 &&& s.sp.active = 0 := by rw [harg]; exact BitVec.zero_and
  exact dispqTry_over htodo (rest := 0) rfl rfl hclosed

/-- One of a lane's registers written with a value, in a window. -/
def writeReg (lane base : Nat) (w : Warp) (x : Word × Nat) : Warp := physSet w (physKey w lane (base + x.2)) x.1

/-- A register that the values of a list do not name is left alone. -/
theorem physGet_foldl_writeReg_other {lane base j : Nat} (xs : List (Word × Nat)) (w : Warp) (hj : j < 64)
    (hlt : ∀ x ∈ xs, x.2 < 64) (hne : ∀ x ∈ xs, x.2 ≠ j) :
    physGet (xs.foldl (writeReg lane base) w) (physKey w lane (base + j)) = physGet w (physKey w lane (base + j)) := by
  induction xs generalizing w with
  | nil => rfl
  | cons x xs ih =>
    have hkey : physKey w lane (base + j) ≠ physKey w lane (base + x.2) := fun h =>
      hne x (by simp) (mod_inj (regs_ge w) (hlt x (by simp)) hj (physKey_inj w |>.mp h).2.symm)
    exact (ih (writeReg lane base w x) (fun y hy => hlt y (by simp [hy])) (fun y hy => hne y (by simp [hy]))).trans
      ((physGet_physSet ..).trans (if_neg hkey))

/-- A register that one of the values names reads as that value. -/
theorem physGet_foldl_writeReg {lane base : Nat} {xs : List (Word × Nat)} (w : Warp) (hlt : ∀ x ∈ xs, x.2 < 64)
    (hnodup : (xs.map Prod.snd).Nodup) {x : Word × Nat} (hx : x ∈ xs) :
    physGet (xs.foldl (writeReg lane base) w) (physKey w lane (base + x.2)) = x.1 := by
  induction xs generalizing w with
  | nil => cases hx
  | cons y ys ih =>
    obtain ⟨hy, hys⟩ := List.nodup_cons.mp hnodup
    rcases List.mem_cons.mp hx with rfl | hx
    · exact (physGet_foldl_writeReg_other ys (writeReg lane base w x) (hlt x (by simp)) (fun z hz => hlt z (by simp [hz]))
        (fun z hz h => hy (h ▸ List.mem_map_of_mem hz))).trans ((physGet_physSet ..).trans (if_pos rfl))
    · exact ih (writeReg lane base w y) (fun z hz => hlt z (by simp [hz])) hys hx

/-- A lane's results delivered: each of x0 to x7 in the window of the split that holds it reads its value (R150). -/
theorem physGet_deliver {w : Warp} {vals : List Word} {lane : Nat} {p : Split} (hlen : vals.length = 8)
    (hp : (w.splits ++ w.overflow).find? (fun p => p.active.getLsbD lane) = some p) {j : Nat} (hj : j < 8) :
    physGet (w.deliver lane vals) (physKey w lane (p.wbase + j)) = vals.getD j 0 := by
  have hlt : ∀ x ∈ vals.zipIdx, x.2 < 64 := fun x hx => by
    have := List.snd_lt_of_mem_zipIdx hx
    omega
  have hmem : (vals.getD j 0, j) ∈ vals.zipIdx := by
    rw [List.mk_mem_zipIdx_iff_getElem?, List.getD_eq_getElem?_getD, List.getElem?_eq_getElem (by omega)]; rfl
  rw [Warp.deliver, hp]
  exact physGet_foldl_writeReg w hlt (by rw [List.zipIdx_map_snd]; exact List.nodup_range') hmem

/-- Settles O26: DISPQ by its checks and by what its judgement queues, QEND by the lanes it ends. -/
theorem dispatchItems : Obligations.DispatchItems := by
  refine ⟨fun s a => ?_, fun s => ?_⟩
  · intro L item room
    have hitem : item = dispqItem a.toNat s := rfl
    refine ⟨fun hd => once_endsW rfl fun _ _ => ?_, fun hd c v hc => once_endsW rfl fun _ _ => ?_,
      fun hd hc hroom => once_endsW rfl fun _ hany => ?_, fun harg hclosed => judged_ends rfl ?_,
      fun hd hc l hpart hl hfull => once_endsW rfl fun _ _ => ?_, fun l hl harg hlane hroom => judged_ends rfl ?_,
      fun l hl => if_pos hl⟩
    · rw [if_pos (by exact hd)]; rfl
    · rw [if_neg (by simp [hd]), funext (dispqCheck_issued _ s a.toNat), partMask_issued, hc]; rfl
    · rw [if_neg (by simp [hd]), funext (dispqCheck_issued _ s a.toNat), partMask_issued, hc]
      have hqueues := dispqTry_queues (s := issued (.dispq a) s) hany (by rw [laneQueue_issued]; exact hroom)
      rw [dispqItem_issued] at hqueues
      exact (congrArg (finish _ false) hqueues).trans rfl
    · rw [if_pos rfl, dispqTry_done harg hclosed]; rfl
    · rw [if_neg (by simp [hd]), funext (dispqCheck_issued _ s a.toNat), partMask_issued, hc]
      have hwaits := dispqTry_full (a := a.toNat) (s := issued (.dispq a) s) hl hpart (by rw [laneQueue_issued]; exact hfull)
      exact (congrArg (finish _ false) hwaits).trans rfl
    · rw [if_pos rfl, dispqTry_queues_later hl harg hlane hroom]; rfl
  · refine ⟨fun hd => once_ends rfl fun _ _ => ?_, fun hd => once_ends rfl fun _ _ => ?_, fun l h hh => ?_,
      fun w vals lane p hlen _ hp j hj => physGet_deliver hlen hp hj⟩
    · rw [if_pos (by simp [hd])]; rfl
    · rw [if_neg (by simp [hd])]; rfl
    · rw [endItem, hh]

end Sys2Proof.Machine
end

section
/-! SUPPORT. What a step does settled: the world's next event, or the issue of the split that is chosen (R131, R338; logs
1, 61). -/

namespace Sys2Proof.Machine

/-- An event that the world sends comes first. -/
theorem move_event {s : State} {i : Instr} {rest : List Instr} (hi : (settle (pack s)).env.inbox = i :: rest)
    (ha : arrives (settle (pack s)) i = true) : move s =
      exec i { settle (pack s) with env := { (settle (pack s)).env with inbox := rest } } := by
  simp only [move, hi, ha, if_true]

/-- With nothing sent, nothing due and no wait over, an engine or an issue acts. -/
theorem move_act {s : State} (hi : (settle (pack s)).env.inbox = []) (hd : firstNext (settle (pack s)) dueEvents = none)
    (hr : resumeFirst (settle (pack s)) (stalled (settle (pack s))) = none) : move s = act (settle (pack s)) := by
  simp only [move, hi, hd, hr]

/-- The issue acts where its turn is first, or where the engines and the completions have nothing to do. -/
theorem act_issues {p : State} {o : Host.Outcome State Fault Refusal} (ho : issueStep (takeTurn p) = some o)
    (h : p.env.turns.head? = some false ∨ (p.env.turns.head? ≠ some false ∧ firstNext p (engineEvents p) = none ∧
      completeStep (takeTurn p) = none)) : act p = o := by
  rcases h with h | ⟨h, he, hc⟩
  · simp [act, issueFirst, h, ho]
  · simp [act, issueFirst, h, he, hc, ho]

theorem issueStep_choose {q : State} {c : Candidate} (hb : q.dev.boot = .running) (hh : q.dev.halted = false)
    (hc : choose q (freeCands q (candidates q)) = some c) :
    issueStep q = some (issueCand q (freeCands q (candidates q)) c) := by
  simp [issueStep, hb, hh, hc]

/-- A candidate that has reached a breakpoint stops there (R313; log 61). -/
theorem issueCand_break {q : State} {us : List Candidate} {c : Candidate} (h : breakAt (focusCand (countStarve q us c) c) = true) :
    issueCand q us c = .next (stopAtBreak (focusCand q c)) := if_pos h

/-- What stands at the issuing split's PC is the instruction that the word there decodes to. -/
theorem fetchedInstr_decoded {t : State} {key : Nat} {i : Instr} (hk : fetchKey t t.sp.pc.toNat = .ok key)
    (hi : decode (wordOfBytes (bytesAt t.mem key 4)) = .ok i) : fetchedInstr t = i := by
  simp only [fetchedInstr, fetchWord, hk, hi]

/-- A candidate at no breakpoint runs the instruction decoded at its PC. -/
theorem issueCand_exec {q t : State} {us : List Candidate} {c : Candidate} {key : Nat} {i : Instr}
    (ht : focusCand (countStarve q us c) c = t) (hb : breakAt t = false) (ha : armedAt t = false)
    (hk : fetchKey t t.sp.pc.toNat = .ok key) (hi : decode (wordOfBytes (bytesAt t.mem key 4)) = .ok i) :
    issueCand q us c = exec i t := by
  simp [issueCand, ht, hb, ha, fetchedInstr_decoded hk hi]

/-- The clock moves on by the step's pace, at least 1, and nothing of the focus changes with it but its crew's budget. -/
theorem tick_frame (s t : State) : (tick s t).cycle = t.cycle + BitVec.ofNat 64 (max 1 (s.env.pace.headD 1)) ∧
    (tick s t).w = t.w ∧ (tick s t).sp = t.sp ∧ (tick s t).mem = t.mem := by
  unfold tick judgePower
  dsimp only
  split <;> exact ⟨rfl, rfl, rfl, rfl⟩

/-- Settles O58: a step's move by what comes first in it, the issue by the candidate that is chosen. -/
theorem stepRunsDecoded : Obligations.StepRunsDecoded := by
  intro s i after p q us
  have hstep {o : Host.Outcome State Fault Refusal} (h : move s = o) : step s = after o :=
    (rfl : step s = after (move s)).trans (congrArg after h)
  refine ⟨fun hin hdue hres hboot hhalt hturn c hc => ?_, fun rest hin harr => hstep (move_event hin harr),
    fun c hc => ?_, tick_frame s⟩
  · have hact : move s = issueCand q us c :=
      (move_act hin hdue hres).trans (act_issues (issueStep_choose hboot hhalt hc) hturn)
    exact ⟨fun hb => hstep (hact.trans (issueCand_break hb)),
      fun hb ha key hk hi => hstep (hact.trans (issueCand_exec rfl hb ha hk hi))⟩
  · exact Bool.not_eq_true' _ |>.mp (List.mem_filter.mp hc).2

end Sys2Proof.Machine
end

section
/-! SUPPORT. A dispatch warp belongs to no crew: the instructions on the crew, its barriers and its rings raise PROT there
(R151). -/

namespace Sys2Proof.Machine

/-- A trap whose TRAPV the manual does not state, at the instruction itself (log 43). -/
def trappedOpen (s : State) (c : Byte) : State :=
  trapped { s with env := { s.env with free := s.env.free + 1 } } c (Config.freeDWord s.env.free) s.sp.pc

/-- PROT with a free TRAPV, as an instruction on the crew raises it in a dispatch warp. -/
def RefusedInDispatch (i : Instr) (s : State) : Prop := OnceEnds i s fun u =>
  trapped { u with env := { u.env with free := u.env.free + 1 } } cProt (Config.freeDWord s.env.free) s.sp.pc

theorem finish_trapOpen (i : Instr) (s : State) (c : Byte) : finish i false (trapOpen s c) = trappedOpen s c := rfl

section
variable {i : Instr} {s : State} {body : State → Res} (hb : ∀ u, u.crew.dispatch = true → body u = trapOpen u cProt)
  (hd : s.crew.dispatch = true)
include hb hd

theorem finish_refused (j : Instr) : finish j false (body (issued j s)) =
    trapped { issued j s with env := { (issued j s).env with free := (issued j s).env.free + 1 } } cProt
      (Config.freeDWord s.env.free) s.sp.pc := by
  rw [hb (issued j s) hd, finish_trapOpen]
  rfl

theorem refusedInDispatch (he : exec i s = run i (fun s => once s body) s) : RefusedInDispatch i s :=
  once_ends he fun _ _ => finish_refused hb hd i

theorem refusedInDispatchW {more : State → Res}
    (he : exec i s = runW i (fun again s => if again then more s else once s body) s) : RefusedInDispatch i s :=
  once_endsW he fun _ _ => finish_refused hb hd i

end

section
variable {s : State} (hd : s.crew.dispatch = true) (a b d r : BitVec 6) (q : BitVec 2)
include hd

theorem role_in_dispatch : RefusedInDispatch (.role a) s := refusedInDispatchW (fun _ h => if_pos h) hd rfl
theorem cjoin_in_dispatch : RefusedInDispatch (.cjoin d a) s := refusedInDispatch (fun _ h => if_pos h) hd rfl
theorem cleave_in_dispatch : RefusedInDispatch (.cleave d) s := refusedInDispatch (fun _ h => if_pos h) hd rfl
theorem bara_in_dispatch : RefusedInDispatch (.bara a b) s := refusedInDispatch (fun _ h => if_pos h) hd rfl
theorem barw_in_dispatch : RefusedInDispatch (.barw a b) s := refusedInDispatchW (fun _ h => if_pos h) hd rfl
theorem bars_in_dispatch : RefusedInDispatch (.bars a b) s := refusedInDispatchW (fun _ h => if_pos h) hd rfl
theorem rngdef_in_dispatch : RefusedInDispatch (.rngdef r b) s := refusedInDispatch (fun _ h => if_pos h) hd rfl
theorem cpy_in_dispatch : RefusedInDispatch (.cpy r b q) s := refusedInDispatchW (fun _ h => if_pos h) hd rfl
theorem cpym_in_dispatch : RefusedInDispatch (.cpym a r b q) s := refusedInDispatchW (fun _ h => if_pos h) hd rfl
theorem awaitf_in_dispatch : RefusedInDispatch (.awaitf r) s := refusedInDispatchW (fun _ h => if_pos h) hd rfl
theorem awaitfC_in_dispatch : RefusedInDispatch (.awaitfC r b) s := refusedInDispatchW (fun _ h => if_pos h) hd rfl
theorem rels_in_dispatch : RefusedInDispatch (.rels r) s := refusedInDispatch (fun _ h => if_pos h) hd rfl
theorem rngst_in_dispatch : RefusedInDispatch (.rngst d r) s := refusedInDispatch (fun _ h => if_pos h) hd rfl
theorem setrl_in_dispatch (n : BitVec 24) : RefusedInDispatch (.setrl n) s := refusedInDispatch (fun _ h => if_pos h) hd rfl

end

end Sys2Proof.Machine
end

section
/-! SUPPORT. ROLE settled: its checks in their order, and the exchange of the record and the warp's role (R158; log
39). -/

namespace Sys2Proof.Machine

theorem length_checkRunFrom {s : State} {n : Need} {prev : Option Nat} {va k : Nat} {ks : List Nat}
    (h : checkRunFrom s n prev va k = .ok ks) : ks.length = k := by
  induction k generalizing prev va ks with
  | zero => cases h; rfl
  | succ k ih =>
    rw [checkRunFrom.eq_def] at h
    dsimp only at h
    split at h
    · cases h
    split at h
    · cases h
    next hrest => cases h; rw [List.length_cons, ih hrest]

theorem length_readRecord {s : State} {n : Need} {align va size : Nat} {bs : List Byte}
    (h : readRecord s n align va size = .ok bs) : bs.length = size := by
  rw [readRecord, readRecordBy, readRunBy] at h
  split at h
  · cases h
  split at h
  · cases h
  next hrun =>
  split at h
  · cases h
  cases h
  split at hrun
  · cases hrun
  next hks =>
  cases hrun
  rw [gatherBy, List.length_map]
  exact length_checkRunFrom hks

theorem leNat_append (xs ys : List Byte) : leNat (xs ++ ys) = leNat xs + 256 ^ xs.length * leNat ys := by
  induction xs with
  | nil => simp [leNat]
  | cons x xs ih => simp only [List.cons_append, leNat, ih, List.length_cons]; ring

/-- A record of 16 bytes is kept in two operands. -/
theorem leNat_halves {bs : List Byte} (h : bs.length = 16) :
    (BitVec.ofNat 64 (recNat bs 0 8)).toNat + (BitVec.ofNat 64 (recNat bs 8 8)).toNat * 2 ^ 64 = leNat bs := by
  have hlow : recNat bs 0 8 < 2 ^ 64 := by simpa [recNat, h] using leNat_lt (bs.take 8)
  have hhigh : recNat bs 8 8 < 2 ^ 64 := by simpa [recNat, h] using leNat_lt ((bs.drop 8).take 8)
  have hsplit : leNat bs = recNat bs 0 8 + 2 ^ 64 * recNat bs 8 8 := by
    have := leNat_append (bs.take 8) (bs.drop 8)
    have hall : (bs.drop 8).take 8 = bs.drop 8 := List.take_of_length_le (by simp [h])
    rw [List.take_append_drop] at this
    simpa [recNat, h, hall] using this
  rw [BitVec.toNat_ofNat, BitVec.toNat_ofNat, Nat.mod_eq_of_lt hlow, Nat.mod_eq_of_lt hhigh, hsplit, Nat.mul_comm (2 ^ 64)]

/-- What ROLE keeps: the record's address and value. -/
def roleKept (va : DWord) (bs : List Byte) (s : State) : State :=
  keepArgs s [va, BitVec.ofNat 64 (recNat bs 0 8), BitVec.ofNat 64 (recNat bs 8 8)]

/-- The warp with the role of a record's value, at its entry (R158). -/
def roleTaken (v : Nat) (t : State) : State :=
  let u := { t with
    w := { t.w with allot := bitsOf v 64 9, prio := bitsOf v 73 3 }
    sp := { t.sp with sig := 0, wbase := 0, sfloor := 0, pc := BitVec.ofNat 64 (bitsOf v 0 56) } }
  wildRegs u u.sp.active ((List.range (bitsOf v 64 9 - 64)).map (fun j => 64 + j))

/-- The exchange of ROLE for a record's value (R158). -/
def roleExchange (s : State) (v : Nat) : Res :=
  if roleBad v then trapHere s cOperand 3
  else if !onlySplit s || decide (1024 < quadUsed s s.w.clus s.w.core s.w.quad s.w.id + bitsOf v 64 9) then .wait s
  else match writeRun s needRole (argN s 0).toNat (natLE (roleValue (s.sp.pc + 4) s.w.allot s.w.prio) 16) with
    | .error (c, n) => trapHere s c n
    | .ok t => .jump (roleTaken v t)

theorem roleTry_eq (s : State) : roleTry s = roleExchange s ((argN s 1).toNat + (argN s 2).toNat * 2 ^ 64) := rfl

/-- The record's fields are good (R158). -/
theorem roleBad_iff (v : Nat) : roleBad v = false ↔ bitsOf v 56 8 = 0 ∧ v < 2 ^ 76 ∧ 64 ≤ bitsOf v 64 9 ∧
    bitsOf v 64 9 ≤ 256 ∧ bitsOf v 64 9 % 16 = 0 ∧ bitsOf v 0 56 % 4 = 0 := by
  simp only [roleBad, allotOk, Bool.or_eq_false_iff, bne_eq_false_iff_eq, decide_eq_false_iff_not, Nat.not_le,
    Bool.not_eq_false', Bool.and_eq_true, decide_eq_true_eq, beq_iff_eq, and_assoc]

/-- Allotments are counted whatever split issues. -/
theorem quadUsed_of_sp (s : State) (sp : Split) (clus core quad without : Nat) :
    quadUsed { s with sp := sp } clus core quad without = quadUsed s clus core quad without := by
  unfold quadUsed State.allWarps
  cases h : s.w.live
  · simp [State.allCtxs]
  · simp only [h, State.wholeWarp, packSplit, State.allCtxs, List.filter_append, if_true, List.filter_singleton]
    cases s.w.clus == clus && s.w.core == core && s.w.quad == quad && s.w.id != without <;> rfl

theorem onlySplit_iff (s : State) : onlySplit s = true ↔ ∀ p ∈ s.w.splits ++ s.w.overflow, ¬ p.alive := by
  simp [onlySplit, or_imp, forall_and]

theorem soleSplit_iff (s : State) : soleSplit s = true ↔
    (∀ p ∈ s.w.splits ++ s.w.overflow, ¬ p.alive) ∧ s.sp.active = ~~~(s.w.strand ||| s.w.exited) := by
  rw [soleSplit, Bool.and_eq_true, onlySplit_iff, beq_iff_eq]

section
variable (u : State) (va : DWord) {bs : List Byte} (hlen : bs.length = 16)
include hlen

theorem roleTry_kept : roleTry (roleKept va bs u) = roleExchange (roleKept va bs u) (leNat bs) := by
  have hlow : argN (roleKept va bs u) 1 = BitVec.ofNat 64 (recNat bs 0 8) := rfl
  have hhigh : argN (roleKept va bs u) 2 = BitVec.ofNat 64 (recNat bs 8 8) := rfl
  rw [roleTry_eq, hlow, hhigh, leNat_halves hlen]

/-- A record with a bad field is refused (R158). -/
theorem roleTry_bad (hbad : roleBad (leNat bs) = true) :
    roleTry (roleKept va bs u) = trapHere (roleKept va bs u) cOperand 3 := by
  rw [roleTry_kept u va hlen, roleExchange, if_pos hbad]

variable (hgood : roleBad (leNat bs) = false) (hsole : onlySplit u = true)
  (hroom : quadUsed u u.w.clus u.w.core u.w.quad u.w.id + bitsOf (leNat bs) 64 9 ≤ 1024)
include hgood hsole hroom

/-- The exchange: the record is written first, and where that fails nothing else is done (R158; log 39). -/
theorem roleTry_good : roleTry (roleKept va bs u) =
    match writeRun (roleKept va bs u) needRole va.toNat (natLE (roleValue (u.sp.pc + 4) u.w.allot u.w.prio) 16) with
    | .error (c, n) => trapHere (roleKept va bs u) c n
    | .ok t => .jump (roleTaken (leNat bs) t) := by
  have hwait : ¬ (!onlySplit (roleKept va bs u) || decide (1024 < quadUsed (roleKept va bs u) (roleKept va bs u).w.clus
      (roleKept va bs u).w.core (roleKept va bs u).w.quad (roleKept va bs u).w.id + bitsOf (leNat bs) 64 9)) = true := by
    rw [Bool.or_eq_true, not_or, Bool.not_eq_true', Bool.not_eq_false, decide_eq_true_eq, Nat.not_lt]
    exact ⟨hsole, (quadUsed_of_sp u _ ..).symm ▸ hroom⟩
  rw [roleTry_kept u va hlen, roleExchange, if_neg (Bool.eq_false_iff.mp hgood), if_neg hwait]
  rfl

end

/-- What ROLE does at its issue (R158). -/
def roleBody (a : BitVec 6) (s : State) : Res :=
  if s.crew.dispatch then trapOpen s cProt
  else if s.sp.depth ≠ 0 then trapHere s cOperand 1
  else if !soleSplit s then trapHere s cOperand 2
  else match readRecord s needRole 16 (kget s a.toNat).toNat 16 with
    | .error (c, v) => trapHere s c v
    | .ok bs => roleTry (roleKept (kget s a.toNat) bs s)

theorem exec_role (a : BitVec 6) (s : State) :
    exec (.role a) s = runW (.role a) (fun again s => if again then roleTry s else once s (roleBody a)) s := rfl

section
variable {a : BitVec 6} {s : State} (hd : s.crew.dispatch = false)
include hd

theorem roleBody_deep (h : s.sp.depth ≠ 0) : roleBody a s = trapHere s cOperand 1 := by
  rw [roleBody, if_neg (by simp [hd]), if_pos h]

variable (h0 : s.sp.depth = 0)
include h0

theorem roleBody_shared (h : soleSplit s = false) : roleBody a s = trapHere s cOperand 2 := by
  rw [roleBody, if_neg (by simp [hd]), if_neg (not_not_intro h0), if_pos (by simp [h])]

variable (hsole : soleSplit s = true)
include hsole

theorem roleBody_sole : roleBody a s = match readRecord s needRole 16 (kget s a.toNat).toNat 16 with
    | .error (c, v) => trapHere s c v
    | .ok bs => roleTry (roleKept (kget s a.toNat) bs s) := by
  rw [roleBody, if_neg (by simp [hd]), if_neg (not_not_intro h0), if_neg (by simp [hsole])]

theorem roleBody_unread {c : Byte} {n : Nat} (h : readRecord s needRole 16 (kget s a.toNat).toNat 16 = .error (c, n)) :
    roleBody a s = trapHere s c n := by
  rw [roleBody_sole hd h0 hsole, h]

theorem roleBody_read {bs : List Byte} (h : readRecord s needRole 16 (kget s a.toNat).toNat 16 = .ok bs) :
    roleBody a s = roleTry (roleKept (kget s a.toNat) bs s) := by
  rw [roleBody_sole hd h0 hsole, h]

end

section
variable {a : BitVec 6} {s : State} (hd : s.crew.dispatch = false) (i : Instr)
include hd

theorem roleBody_issued_deep (h : s.sp.depth ≠ 0) : roleBody a (issued i s) = trapHere (issued i s) cOperand 1 :=
  roleBody_deep hd h

variable (h0 : s.sp.depth = 0)
include h0

theorem roleBody_issued_shared (h : soleSplit s = false) :
    roleBody a (issued i s) = trapHere (issued i s) cOperand 2 := roleBody_shared hd h0 h

variable (hsole : soleSplit s = true)
include hsole

theorem roleBody_issued_unread {c : Byte} {n : Nat}
    (h : readRecord s needRole 16 (kget s a.toNat).toNat 16 = .error (c, n)) :
    roleBody a (issued i s) = trapHere (issued i s) c n :=
  roleBody_unread (s := issued i s) hd h0 hsole (by rw [readRecord_issued, kget_issued, h])

variable {bs : List Byte} (h : readRecord s needRole 16 (kget s a.toNat).toNat 16 = .ok bs)
include h

theorem roleBody_issued_read : roleBody a (issued i s) = roleTry (roleKept (kget s a.toNat) bs (issued i s)) :=
  roleBody_read (s := issued i s) hd h0 hsole (by rw [readRecord_issued, kget_issued, h])

theorem roleBody_issued_bad (hbad : roleBad (leNat bs) = true) :
    roleBody a (issued i s) = trapHere (roleKept (kget s a.toNat) bs (issued i s)) cOperand 3 := by
  rw [roleBody_issued_read hd i h0 hsole h, roleTry_bad _ _ (length_readRecord h) hbad]

theorem finish_roleBody_good (hgood : roleBad (leNat bs) = false)
    (hroom : quadUsed s s.w.clus s.w.core s.w.quad s.w.id + bitsOf (leNat bs) 64 9 ≤ 1024) :
    finish i false (roleBody a (issued i s)) =
      match writeRun (roleKept (kget s a.toNat) bs (issued i s)) needRole (kget s a.toNat).toNat
          (natLE (roleValue (s.sp.pc + 4) s.w.allot s.w.prio) 16) with
      | .error (c, n) => trapped (roleKept (kget s a.toNat) bs (issued i s)) c (BitVec.ofNat 64 n) s.sp.pc
      | .ok t => jumped (roleTaken (leNat bs) t) := by
  have hissued : quadUsed (issued i s) s.w.clus s.w.core s.w.quad s.w.id + bitsOf (leNat bs) 64 9 ≤ 1024 :=
    (quadUsed_of_sp s _ ..).symm ▸ hroom
  have honly : onlySplit s = true := ((Bool.and_eq_true ..).mp hsole).1
  rw [roleBody_issued_read hd i h0 hsole h,
    roleTry_good (issued i s) (kget s a.toNat) (length_readRecord h) hgood honly hissued]
  show finish i false (match writeRun (roleKept (kget s a.toNat) bs (issued i s)) needRole (kget s a.toNat).toNat
    (natLE (roleValue (s.sp.pc + 4) s.w.allot s.w.prio) 16) with
    | .error (c, n) => trapHere (roleKept (kget s a.toNat) bs (issued i s)) c n
    | .ok t => .jump (roleTaken (leNat bs) t)) = _
  cases writeRun (roleKept (kget s a.toNat) bs (issued i s)) needRole (kget s a.toNat).toNat
      (natLE (roleValue (s.sp.pc + 4) s.w.allot s.w.prio) 16) <;> rfl

end

/-- Where ROLE's body traps, the instruction does. -/
theorem onceEnds_role_trap {a : BitVec 6} {s : State} {c : Byte} {n : Nat}
    (hb : roleBody a (issued (.role a) s) = trapHere (issued (.role a) s) c n) :
    OnceEnds (.role a) s (fun u => trapped u c (BitVec.ofNat 64 n) s.sp.pc) :=
  once_endsW (exec_role a s) fun _ _ => by
    rw [hb]
    generalize Instr.role a = i
    rfl

section
variable {a : BitVec 6} {s : State} (hd : s.crew.dispatch = false)
include hd

theorem onceEnds_role_deep (h : s.sp.depth ≠ 0) :
    OnceEnds (.role a) s (fun u => trapped u cOperand 1 s.sp.pc) := onceEnds_role_trap (roleBody_issued_deep hd _ h)

variable (h0 : s.sp.depth = 0)
include h0

theorem onceEnds_role_shared (h : soleSplit s = false) :
    OnceEnds (.role a) s (fun u => trapped u cOperand 2 s.sp.pc) :=
  onceEnds_role_trap (roleBody_issued_shared hd _ h0 h)

variable (hsole : soleSplit s = true)
include hsole

theorem onceEnds_role_unread {c : Byte} {n : Nat}
    (h : readRecord s needRole 16 (kget s a.toNat).toNat 16 = .error (c, n)) :
    OnceEnds (.role a) s (fun u => trapped u c (BitVec.ofNat 64 n) s.sp.pc) :=
  onceEnds_role_trap (roleBody_issued_unread hd _ h0 hsole h)

variable {bs : List Byte} (h : readRecord s needRole 16 (kget s a.toNat).toNat 16 = .ok bs)
include h

theorem onceEnds_role_bad (hbad : roleBad (leNat bs) = true) :
    OnceEnds (.role a) s (fun u => trapped u cOperand 3 s.sp.pc) :=
  once_endsW (exec_role a s) fun _ _ => by
    rw [roleBody_issued_bad hd _ h0 hsole h hbad]
    generalize Instr.role a = i
    rfl

/-- What an exchange does at the issue: the record written, the role taken, or the write's fault (R158). -/
theorem onceEnds_role_good (hgood : roleBad (leNat bs) = false)
    (hroom : quadUsed s s.w.clus s.w.core s.w.quad s.w.id + bitsOf (leNat bs) 64 9 ≤ 1024) :
    OnceEnds (.role a) s (fun u =>
      match writeRun (roleKept (kget s a.toNat) bs u) needRole (kget s a.toNat).toNat
          (natLE (roleValue (s.sp.pc + 4) s.w.allot s.w.prio) 16) with
      | .error (c, n) => trapped (roleKept (kget s a.toNat) bs u) c (BitVec.ofNat 64 n) s.sp.pc
      | .ok t => jumped (roleTaken (leNat bs) t)) :=
  once_endsW (exec_role a s) fun _ _ => by
    rw [finish_roleBody_good hd _ h0 hsole h hgood hroom]

end

end Sys2Proof.Machine
end

section
/-! SUPPORT. What a change of a crew's members leaves as it was: collectives may complete and take copy queue entries, and
nothing else changes but the barriers (R160, R189). -/

namespace Sys2Proof.Machine

/-- A ring without its collectives. -/
def Ring.bare (x : Ring) : Ring := { x with collectives := [] }

/-- A crew without the collectives of its rings. -/
def Crew.bare (c : Crew) : Crew := { c with rings := c.rings.map Ring.bare }

/-- A field of a crew that is not its rings. -/
theorem field_of_bare {α : Type} {c d : Crew} (f : Crew → α) (hf : ∀ x, f (Crew.bare x) = f x) (h : c.bare = d.bare) :
    f c = f d := by
  rw [← hf c, h, hf]

/-- Only collectives and the copy queue have changed. -/
structure Requeued (s t : State) : Prop where
  frame : t = { s with crew := t.crew, crews := t.crews, clus := { s.clus with copies := t.clus.copies } }
  crew : t.crew.bare = s.crew.bare
  crews : t.crews.map Crew.bare = s.crews.map Crew.bare

theorem Requeued.refl (s : State) : Requeued s s := ⟨rfl, rfl, rfl⟩

theorem Requeued.trans {s t u : State} (h : Requeued s t) (h' : Requeued t u) : Requeued s u :=
  ⟨by rw [h'.frame, h.frame], h'.crew.trans h.crew, h'.crews.trans h.crews⟩

section
variable {s t : State} (h : Requeued s t)
include h

theorem Requeued.w : t.w = s.w := by rw [h.frame]
theorem Requeued.warps : t.warps = s.warps := by rw [h.frame]
theorem Requeued.sp : t.sp = s.sp := by rw [h.frame]
theorem Requeued.mem : t.mem = s.mem := by rw [h.frame]

/-- A crew of the machine before is there after, but for its collectives. -/
theorem Requeued.exists_crew {c : Crew} (hc : c ∈ s.crews) : ∃ o ∈ t.crews, o.bare = c.bare := by
  have hmem : c.bare ∈ t.crews.map Crew.bare := h.crews ▸ List.mem_map_of_mem hc
  exact List.mem_map.mp hmem

theorem Requeued.crew_of_mem {c : Crew} (hc : c ∈ t.crews) : ∃ o ∈ s.crews, o.bare = c.bare := by
  have hmem : c.bare ∈ s.crews.map Crew.bare := h.crews ▸ List.mem_map_of_mem hc
  exact List.mem_map.mp hmem

end

/-- A change of one ring's collectives changes no crew otherwise. -/
theorem bare_withRing (c : Crew) (r : Nat) {f : Ring → Ring} (hf : ∀ x, (f x).bare = x.bare) :
    (c.withRing r f).bare = c.bare := by
  have hrings : (c.rings.mapIdx (fun i x => if i = r then f x else x)).map Ring.bare = c.rings.map Ring.bare := by
    refine List.ext_getElem? fun n => ?_
    simp only [List.getElem?_map, List.getElem?_mapIdx, Option.map_map]
    cases c.rings[n]? with
    | none => rfl
    | some x =>
      simp only [Option.map_some, Function.comp_apply]
      split
      · rw [hf]
      · rfl
  simp only [Crew.bare, Crew.withRing, hrings]

theorem requeued_onCrew (s : State) (id : Nat) {f : Crew → Crew} (hf : ∀ c, (f c).bare = c.bare) :
    Requeued s (onCrew s id f) := by
  unfold onCrew
  split
  · exact ⟨rfl, hf _, rfl⟩
  · refine ⟨rfl, rfl, ?_⟩
    simp only [List.map_map]
    refine List.map_congr_left fun c _ => ?_
    simp only [Function.comp_apply]
    split
    · exact hf c
    · rfl

theorem requeued_copies (s : State) (cs : List Command) : Requeued s { s with clus := { s.clus with copies := cs } } :=
  ⟨rfl, rfl, rfl⟩

theorem requeued_enqueueCopies (s : State) (n : Nat) : Requeued s (enqueueCopies s n) := by
  induction n generalizing s with
  | zero => exact .refl s
  | succ n ih =>
    rw [enqueueCopies]
    split
    · exact .refl s
    split
    · exact .refl s
    · refine .trans (.trans ?_ (requeued_copies ..)) (ih _)
      exact requeued_onCrew s _ fun c => bare_withRing c _ fun _ => rfl

theorem requeued_judgeCollectives (s : State) : Requeued s (judgeCollectives s) := by
  refine ⟨rfl, ?_, rfl⟩
  simp only [judgeCollectives, Crew.bare, List.map_map]
  rfl

theorem requeued_settleCopies (s : State) : Requeued s (settleCopies s) :=
  (requeued_judgeCollectives s).trans (requeued_enqueueCopies ..)

/-- A change of membership changes barriers, collectives and the copy queue alone (R160, R189). -/
theorem requeued_membershipChanged (s : State) : Requeued (judgeBarriers s) (membershipChanged s) := requeued_settleCopies _

theorem mem_insertCrew_self (x : Crew) (cs : List Crew) : x ∈ insertCrew x cs := by
  induction cs with
  | nil => exact List.mem_singleton_self x
  | cons y t ih =>
    rw [insertCrew]
    split
    · exact List.mem_cons_self
    · exact List.mem_cons_of_mem _ ih

end Sys2Proof.Machine
end

section
/-! SUPPORT. A warp's move to another crew: what it leaves and what it takes there (R159). -/

namespace Sys2Proof.Machine

/-- The machine with the warp out of its crew, and that crew judged again. -/
def leftCrew (s : State) (c : Crew) : State :=
  membershipChanged { leaveCrew s with w := { s.w with crew := c.id } }

/-- The crew joined, as it stands when the warp has left its own. -/
def joinedCrew (s : State) (c : Crew) : Crew := ((leftCrew s c).crews.find? (fun x => x.id == c.id)).getD c

/-- A crew with one more warp, whose cursors stand at the oldest slot of each bound ring (R198). -/
def Crew.grown (c : Crew) (id : Nat) : Crew :=
  { c with
    nwarp := c.nwarp + 1
    rings := c.rings.map (fun r => if r.bound then { r with cursors := sset 0 r.cursors id r.rel } else r) }

/-- The machine with the warp in its new crew, that crew not judged yet. -/
def movedCrew (s : State) (c : Crew) : State :=
  { leftCrew s c with
    crews := insertCrew (leftCrew s c).crew ((leftCrew s c).crews.filter (fun x => x.id != (joinedCrew s c).id))
    crew := (joinedCrew s c).grown s.w.id
    w := { (leftCrew s c).w with index := (joinedCrew s c).nwarp } }

theorem joinCrew_eq (s : State) (c : Crew) : joinCrew s c = membershipChanged (movedCrew s c) := rfl

theorem requeued_leftCrew (s : State) (c : Crew) :
    Requeued (judgeBarriers { leaveCrew s with w := { s.w with crew := c.id } }) (leftCrew s c) :=
  requeued_membershipChanged _

theorem requeued_joinCrew (s : State) (c : Crew) : Requeued (judgeBarriers (movedCrew s c)) (joinCrew s c) :=
  requeued_membershipChanged _

/-- A barrier judged is as it was, or has its masks cleared (R160). -/
theorem arrived_judgeBarriers {s : State} {b : Barrier} (hb : b ∈ (judgeBarriers s).crew.bars) :
    b.arrived = [] ∨ b ∈ s.crew.bars := by
  obtain ⟨b', hb', hjudged⟩ := List.mem_map.mp hb
  split at hjudged <;> subst hjudged
  · exact .inl rfl
  · exact .inr hb'

/-- Bars of a crew without a warp's arrivals hold none of it, judged or not (R159; log 23). -/
theorem arrived_leftCrew (s : State) (c : Crew) (b : Barrier) (hb : b ∈ (leftCrew s c).crew.bars) :
    sget 0 b.arrived s.w.id = 0 := by
  have hbars := field_of_bare Crew.bars (fun _ => rfl) (requeued_leftCrew s c).crew
  rw [hbars] at hb
  rcases arrived_judgeBarriers hb with hnone | hkept
  · rw [hnone]; rfl
  · obtain ⟨b', _, rfl⟩ := List.mem_map.mp hkept
    exact sget_serase_same ..

/-- The crew joined is the one named, but for its collectives, where no other crew has its id. -/
theorem bare_joinedCrew {s : State} {c : Crew} (h : ∀ x ∈ s.crews, x.id = c.id → x = c) : (joinedCrew s c).bare = c.bare := by
  unfold joinedCrew
  cases hf : (leftCrew s c).crews.find? (fun x => x.id == c.id) with
  | none => rfl
  | some y =>
    obtain ⟨x, hx, hbare⟩ := (requeued_leftCrew s c).crew_of_mem (List.mem_of_find?_eq_some hf)
    have hid : y.id = c.id := by simpa using List.find?_some hf
    have hxid : x.id = c.id := (congrArg Crew.id hbare).trans hid
    rw [← h x hx hxid]
    exact hbare.symm

/-- The new crew of the warp is the one joined, grown, but for its barriers and collectives. -/
theorem bare_joinCrew (s : State) (c : Crew) : (joinCrew s c).crew.bare =
    { ((joinedCrew s c).grown s.w.id).bare with bars := (joinCrew s c).crew.bars } := by
  have h := (requeued_joinCrew s c).crew
  have hbars := field_of_bare Crew.bars (fun _ => rfl) h
  rw [hbars, h]
  rfl

section
variable {s : State} {c : Crew} (h : ∀ x ∈ s.crews, x.id = c.id → x = c)
include h

theorem joinCrew_w : (joinCrew s c).w = { s.w with crew := c.id, index := c.nwarp } := by
  have hn := field_of_bare Crew.nwarp (fun _ => rfl) (bare_joinedCrew h)
  rw [(requeued_joinCrew s c).w]
  show { (leftCrew s c).w with index := (joinedCrew s c).nwarp } = _
  rw [hn, (requeued_leftCrew s c).w]
  rfl

/-- The fields of the new crew that no ring, barrier or count of warps is. -/
theorem joinCrew_crew_field {α : Type} (f : Crew → α)
    (hf : ∀ (c : Crew) rings bars n, f { c with rings := rings, bars := bars, nwarp := n } = f c) :
    f (joinCrew s c).crew = f c := by
  have hbare : ∀ x : Crew, f x.bare = f x := fun x => hf x _ x.bars x.nwarp
  calc f (joinCrew s c).crew
    _ = f (joinCrew s c).crew.bare := (hbare _).symm
    _ = f (joinedCrew s c) := by rw [bare_joinCrew]; exact hf (joinedCrew s c) _ _ _
    _ = f (joinedCrew s c).bare := (hbare _).symm
    _ = f c := by rw [bare_joinedCrew h, hbare]

theorem joinCrew_nwarp : (joinCrew s c).crew.nwarp = c.nwarp + 1 := by
  have hn := field_of_bare Crew.nwarp (fun _ => rfl) (bare_joinedCrew h)
  have hj : (joinCrew s c).crew.nwarp = (joinedCrew s c).nwarp + 1 :=
    field_of_bare Crew.nwarp (fun _ => rfl) (requeued_joinCrew s c).crew
  rw [hj, hn]

end

/-- The warps of the old crew are as the warp's leaving has them. -/
theorem joinCrew_rest (s : State) (c : Crew) :
    (joinCrew s c).warps = (leaveCrew s).warps ∧ (joinCrew s c).sp = s.sp ∧ (joinCrew s c).mem = s.mem := by
  have hj := requeued_joinCrew s c
  have hl := requeued_leftCrew s c
  exact ⟨hj.warps.trans hl.warps, hj.sp.trans hl.sp, hj.mem.trans hl.mem⟩

/-- A ring as a warp's arrival leaves it (R198). -/
def Ring.entered (x : Ring) (id : Nat) : Ring :=
  if x.bound then { x with cursors := sset 0 x.cursors id x.rel } else x

theorem ringField_of_bare {α : Type} {x y : Ring} (f : Ring → α) (hf : ∀ x, f (Ring.bare x) = f x) (h : x.bare = y.bare) :
    f x = f y := by
  rw [← hf x, h, hf]

theorem bare_entered_of_bare {x y : Ring} (id : Nat) (h : x.bare = y.bare) :
    (x.entered id).bare = (y.entered id).bare := by
  obtain ⟨⟩ := x
  obtain ⟨⟩ := y
  cases h
  simp only [Ring.entered]
  split <;> rfl

/-- The rings of the new crew are those joined with the warp's cursors, but for their collectives. -/
theorem bare_rings_joinCrew {s : State} {c : Crew} (h : ∀ x ∈ s.crews, x.id = c.id → x = c) :
    (joinCrew s c).crew.rings.map Ring.bare = c.rings.map (fun x => (x.entered s.w.id).bare) := by
  have hgrown : (joinCrew s c).crew.rings.map Ring.bare =
      (joinedCrew s c).rings.map (fun x => (x.entered s.w.id).bare) := by
    have hb : (joinCrew s c).crew.bare.rings = _ := congrArg Crew.rings (bare_joinCrew s c)
    exact hb.trans (List.map_map ..)
  have hjoined : (joinedCrew s c).rings.map Ring.bare = c.rings.map Ring.bare := congrArg Crew.rings (bare_joinedCrew h)
  have hbare : ∀ x : Ring, (x.entered s.w.id).bare = (x.bare.entered s.w.id).bare := fun x => bare_entered_of_bare _ rfl
  have hmap : ∀ xs : List Ring, xs.map (fun x => (x.entered s.w.id).bare) =
      (xs.map Ring.bare).map (fun x => (x.entered s.w.id).bare) := fun xs => by
    rw [List.map_map]; exact List.map_congr_left fun x _ => hbare x
  rw [hgrown, hmap, hjoined, ← hmap]

/-- The warp's cursor in a bound ring of the new crew stands at its oldest slot (R198). -/
theorem joinCrew_ring {s : State} {c : Crew} (h : ∀ x ∈ s.crews, x.id = c.id → x = c) {n : Nat} {x : Ring}
    (hx : c.rings[n]? = some x) (hbound : x.bound = true) :
    ∃ y : Ring, (joinCrew s c).crew.rings[n]? = some y ∧ y.rel = x.rel ∧ sget 0 y.cursors s.w.id = x.rel := by
  have hn := congrArg (·[n]?) (bare_rings_joinCrew h)
  simp only [List.getElem?_map, hx, Option.map_some, Option.map_eq_some_iff] at hn
  obtain ⟨y, hy, hbare⟩ := hn
  rw [Ring.entered, if_pos hbound] at hbare
  have hrel := ringField_of_bare Ring.rel (fun _ => rfl) hbare
  refine ⟨y, hy, hrel, ?_⟩
  rw [ringField_of_bare Ring.cursors (fun _ => rfl) hbare]
  exact sget_sset_same ..

/-- The crew left is among the others, one warp smaller and without the warp's arrivals (R159). -/
theorem joinCrew_old (s : State) (c : Crew) : ∃ o ∈ (joinCrew s c).crews,
    o.id = s.crew.id ∧ o.nwarp = s.crew.nwarp - 1 ∧ ∀ b ∈ o.bars, sget 0 b.arrived s.w.id = 0 := by
  obtain ⟨o, ho, hbare⟩ := (requeued_joinCrew s c).exists_crew (c := (leftCrew s c).crew) (mem_insertCrew_self ..)
  have hid := field_of_bare Crew.id (fun _ => rfl) (requeued_leftCrew s c).crew
  have hnwarp := field_of_bare Crew.nwarp (fun _ => rfl) (requeued_leftCrew s c).crew
  refine ⟨o, ho, (field_of_bare Crew.id (fun _ => rfl) hbare).trans hid,
    (field_of_bare Crew.nwarp (fun _ => rfl) hbare).trans hnwarp, ?_⟩
  rw [field_of_bare Crew.bars (fun _ => rfl) hbare]
  exact arrived_leftCrew s c

/-- The crew of a warp that cleaves, before the warp is in it (R159). -/
def cleavedCrew (s : State) (base number : Nat) : Crew := { Crew.blank with
  id := s.nextId, live := true, ctx := s.crew.ctx, clus := s.crew.clus, launch := s.crew.launch
  number := BitVec.ofNat 32 number, nwarp := 0, cmbase := base, flog := s.crew.flog, handler := s.crew.handler
  budget := s.crew.budget, state := .running }

/-- The machine as CLEAVE numbers its new crew (R159). -/
def numberedCrew (s : State) : State :=
  onLaunch { s with nextId := s.nextId + 1 } s.crew.launch (fun l => { l with nextNumber := l.nextNumber + 1 })

theorem cleaveCrew_eq {s : State} {l : Launch} (base : Nat) (h : launchAt s s.crew.launch = some l) :
    cleaveCrew s base = joinCrew (numberedCrew s) (cleavedCrew s base l.nextNumber) := by
  have hnumber : ((launchAt s s.crew.launch).map (fun l => l.nextNumber)).getD 0 = l.nextNumber := by rw [h]; rfl
  rw [← hnumber]
  rfl

theorem bound_cleavedCrew (s : State) (base number : Nat) (r : Ring) (hr : r ∈ (cleavedCrew s base number).rings) :
    r = Ring.blank := List.eq_of_mem_replicate hr

/-- No ring of the new crew is bound (R159). -/
theorem unbound_joinCrew_cleaved {s : State} {base number : Nat} {t : State}
    (h : ∀ x ∈ t.crews, x.id = (cleavedCrew s base number).id → x = cleavedCrew s base number) (r : Ring)
    (hr : r ∈ (joinCrew t (cleavedCrew s base number)).crew.rings) : r.bound = false := by
  have hmem : r.bare ∈ (joinCrew t (cleavedCrew s base number)).crew.rings.map Ring.bare := List.mem_map_of_mem hr
  rw [bare_rings_joinCrew h] at hmem
  obtain ⟨x, hx, hbare⟩ := List.mem_map.mp hmem
  have hbound := ringField_of_bare Ring.bound (fun _ => rfl) hbare
  rw [← hbound, bound_cleavedCrew s base number x hx]
  rfl

end Sys2Proof.Machine
end

section
/-! SUPPORT. CJOIN and CLEAVE settled: when they write 0, and what a change of crew does (R159; logs 23, 82, 102). -/

namespace Sys2Proof.Machine

/-- The crews that CJOIN may join (R159; log 82). -/
def Joinable (s : State) (v : DWord) (c : Crew) : Prop := c ∈ s.crews ∧ c.ctx = s.crew.ctx ∧ c.launch = s.crew.launch ∧
  c.clus = s.crew.clus ∧ c.dispatch = false ∧ (c.state = .running ∨ c.state = .parked) ∧ c.number.setWidth 64 = v

theorem joinable_of_joinTarget {s : State} {v : DWord} {c : Crew} (h : joinTarget s v = some c) : Joinable s v c := by
  have hfits := List.find?_some h
  simp only [Bool.and_eq_true, Bool.or_eq_true, beq_iff_eq, Bool.not_eq_true', and_assoc] at hfits
  exact ⟨List.mem_of_find?_eq_some h, hfits⟩

theorem joinTarget_none {s : State} {v : DWord} (h : ∀ c, ¬ Joinable s v c) : joinTarget s v = none := by
  cases hj : joinTarget s v with
  | none => rfl
  | some c => exact (h c (joinable_of_joinTarget hj)).elim

theorem joinTarget_issued (i : Instr) (s : State) (v : DWord) : joinTarget (issued i s) v = joinTarget s v := rfl

theorem placeMemory_issued (i : Instr) (s : State) (clus size : Nat) :
    placeMemory (issued i s) clus size = placeMemory s clus size := rfl

/-- Members are counted whatever split issues. -/
theorem length_members_issued (i : Instr) (s : State) : (members (issued i s)).length = (members s).length := by
  unfold members State.warpsOf State.allWarps
  show (((if s.w.live then [(issued i s).wholeWarp] else []) ++ s.warps).filter (fun x => x.crew == s.crew.id)).length = _
  cases s.w.live
  · rfl
  · simp only [if_true, List.filter_append, List.length_append, List.filter_singleton]
    show (bif s.w.crew == s.crew.id then _ else _ : List Warp).length + _ =
      (bif s.w.crew == s.crew.id then _ else _ : List Warp).length + _
    cases s.w.crew == s.crew.id <;> rfl

theorem aloneInCrew_issued (i : Instr) (s : State) : aloneInCrew (issued i s) = aloneInCrew s := by
  rw [aloneInCrew, length_members_issued, aloneInCrew]

/-- What CJOIN does at its issue (R159). -/
def cjoinBody (d a : BitVec 6) (s : State) : Res :=
  if s.crew.dispatch then trapOpen s cProt
  else match joinTarget s (kget s a.toNat) with
    | none => .ok (kset s d.toNat 0)
    | some c =>
      if 32 ≤ c.nwarp || aloneInCrew s then .ok (kset s d.toNat 0)
      else .ok (kset (joinCrew s c) d.toNat 1)

/-- What CLEAVE does at its issue (R159). -/
def cleaveBody (d : BitVec 6) (s : State) : Res :=
  if s.crew.dispatch then trapOpen s cProt
  else if aloneInCrew s then .ok (kset s d.toNat 0)
  else match placeMemory s s.crew.clus 0 with
    | none => .ok (kset s d.toNat 0)
    | some base => .ok (kset (cleaveCrew s base) d.toNat 1)

theorem exec_cjoin (d a : BitVec 6) (s : State) : exec (.cjoin d a) s = run (.cjoin d a) (fun s => once s (cjoinBody d a)) s :=
  rfl

theorem exec_cleave (d : BitVec 6) (s : State) : exec (.cleave d) s = run (.cleave d) (fun s => once s (cleaveBody d)) s :=
  rfl

section
variable {s : State} {d a : BitVec 6} (hd : s.crew.dispatch = false)
include hd

theorem cjoinBody_none (h : joinTarget s (kget s a.toNat) = none) : cjoinBody d a s = .ok (kset s d.toNat 0) := by
  rw [cjoinBody, if_neg (by simp [hd]), h]

theorem cjoinBody_some {c : Crew} (h : joinTarget s (kget s a.toNat) = some c) : cjoinBody d a s =
    if 32 ≤ c.nwarp || aloneInCrew s then .ok (kset s d.toNat 0) else .ok (kset (joinCrew s c) d.toNat 1) := by
  rw [cjoinBody, if_neg (by simp [hd]), h]

theorem cjoinBody_alone (halone : aloneInCrew s = true) : cjoinBody d a s = .ok (kset s d.toNat 0) := by
  cases h : joinTarget s (kget s a.toNat) with
  | none => exact cjoinBody_none hd h
  | some c => rw [cjoinBody_some hd h, if_pos (by simp [halone])]

theorem cleaveBody_zero (h : aloneInCrew s = true ∨ placeMemory s s.crew.clus 0 = none) :
    cleaveBody d s = .ok (kset s d.toNat 0) := by
  rw [cleaveBody, if_neg (by simp [hd])]
  split
  · rfl
  next halone =>
    rw [h.resolve_left halone]

theorem cleaveBody_some {base : Nat} (halone : aloneInCrew s = false) (h : placeMemory s s.crew.clus 0 = some base) :
    cleaveBody d s = .ok (kset (cleaveCrew s base) d.toNat 1) := by
  rw [cleaveBody, if_neg (by simp [hd]), if_neg (by simp [halone]), h]

variable (i : Instr)

theorem cjoinBody_issued_none (h : joinTarget s (kget s a.toNat) = none) :
    cjoinBody d a (issued i s) = .ok (kset (issued i s) d.toNat 0) :=
  cjoinBody_none (s := issued i s) hd h

theorem cjoinBody_issued_alone (h : aloneInCrew s = true) : cjoinBody d a (issued i s) = .ok (kset (issued i s) d.toNat 0) :=
  cjoinBody_alone (s := issued i s) hd ((aloneInCrew_issued i s).trans h)

theorem cjoinBody_issued_full {c : Crew} (h : joinTarget s (kget s a.toNat) = some c) (hfull : 32 ≤ c.nwarp) :
    cjoinBody d a (issued i s) = .ok (kset (issued i s) d.toNat 0) := by
  have hsome := cjoinBody_some (s := issued i s) (d := d) (a := a) hd h
  rw [hsome, if_pos (by simp [hfull])]

theorem cjoinBody_issued_joins {c : Crew} (h : joinTarget s (kget s a.toNat) = some c) (hroom : c.nwarp < 32)
    (halone : aloneInCrew s = false) : cjoinBody d a (issued i s) = .ok (kset (joinCrew (issued i s) c) d.toNat 1) := by
  have hsome := cjoinBody_some (s := issued i s) (d := d) (a := a) hd h
  rw [hsome, if_neg (by simp [hroom, aloneInCrew_issued, halone])]

theorem cleaveBody_issued_zero (h : aloneInCrew s = true ∨ placeMemory s s.crew.clus 0 = none) :
    cleaveBody d (issued i s) = .ok (kset (issued i s) d.toNat 0) :=
  cleaveBody_zero (s := issued i s) hd (h.imp_left (aloneInCrew_issued i s).trans)

theorem cleaveBody_issued_some {base : Nat} (halone : aloneInCrew s = false)
    (h : placeMemory s s.crew.clus 0 = some base) :
    cleaveBody d (issued i s) = .ok (kset (cleaveCrew (issued i s) base) d.toNat 1) :=
  cleaveBody_some (s := issued i s) hd ((aloneInCrew_issued i s).trans halone) h

end

theorem aloneInCrew_iff (s : State) : aloneInCrew s = true ↔ (members s).length ≤ 1 := decide_eq_true_iff

theorem aloneInCrew_false {s : State} (h : ¬ (members s).length ≤ 1) : aloneInCrew s = false := decide_eq_false h

theorem leaveCrew_eq (s : State) : leaveCrew s = { s with
    warps := s.warps.map (fun w => if w.crew = s.crew.id ∧ s.w.index < w.index then { w with index := w.index - 1 } else w)
    crew := { s.crew with
      nwarp := s.crew.nwarp - 1
      bars := s.crew.bars.map (fun b => { b with arrived := serase b.arrived s.w.id })
      rings := s.crew.rings.map (fun r => { r with cursors := serase r.cursors s.w.id }) } } := by
  simp only [leaveCrew, Bool.and_eq_true, decide_eq_true_eq]

section
variable {s : State} {d a : BitVec 6} (hd : s.crew.dispatch = false)
include hd

theorem onceResult_cjoin_none (h : ∀ c, ¬ Joinable s (kget s a.toNat) c) :
    OnceResult (.cjoin d a) s (fun u => kset u d.toNat 0) :=
  once_result_kset 0 (exec_cjoin d a s) (cjoinBody_issued_none hd _ (joinTarget_none h))

theorem onceResult_cjoin_alone (h : (members s).length ≤ 1) : OnceResult (.cjoin d a) s (fun u => kset u d.toNat 0) :=
  once_result_kset 0 (exec_cjoin d a s) (cjoinBody_issued_alone hd _ ((aloneInCrew_iff s).mpr h))

theorem onceResult_cjoin_full {c : Crew} (h : joinTarget s (kget s a.toNat) = some c) (hfull : 32 ≤ c.nwarp) :
    OnceResult (.cjoin d a) s (fun u => kset u d.toNat 0) :=
  once_result_kset 0 (exec_cjoin d a s) (cjoinBody_issued_full hd _ h hfull)

theorem onceEnds_cjoin_joins {c : Crew} (h : joinTarget s (kget s a.toNat) = some c) (hroom : c.nwarp < 32)
    (halone : ¬ (members s).length ≤ 1) :
    OnceEnds (.cjoin d a) s (fun u => stopSteps (retired (kset (joinCrew u c) d.toNat 1))) :=
  once_ends (exec_cjoin d a s) fun _ _ => congrArg _ (cjoinBody_issued_joins hd _ h hroom (aloneInCrew_false halone))

theorem onceResult_cleave_zero (h : (members s).length ≤ 1 ∨ placeMemory s s.crew.clus 0 = none) :
    OnceResult (.cleave d) s (fun u => kset u d.toNat 0) :=
  once_result_kset 0 (exec_cleave d s) (cleaveBody_issued_zero hd _ (h.imp_left (aloneInCrew_iff s).mpr))

theorem onceEnds_cleave {base : Nat} (halone : ¬ (members s).length ≤ 1) (h : placeMemory s s.crew.clus 0 = some base) :
    OnceEnds (.cleave d) s (fun u => stopSteps (retired (kset (cleaveCrew u base) d.toNat 1))) :=
  once_ends (exec_cleave d s) fun _ _ => congrArg _ (cleaveBody_issued_some hd _ (aloneInCrew_false halone) h)

end

/-- What a change of crew does: the warp is the last of its new crew, and its old crew has it no longer (R159). -/
theorem joinCrew_spec {s : State} {c : Crew} (h : ∀ x ∈ s.crews, x.id = c.id → x = c) :
    let t := joinCrew s c
    t.w = { s.w with crew := c.id, index := c.nwarp } ∧ t.warps = (leaveCrew s).warps ∧ t.sp = s.sp ∧ t.mem = s.mem ∧
    t.crew.id = c.id ∧ t.crew.nwarp = c.nwarp + 1 ∧ t.crew.cmbase = c.cmbase ∧ t.crew.cmsize = c.cmsize ∧
    (∀ (n : Nat) (x : Ring), c.rings[n]? = some x → x.bound = true → ∃ y : Ring, t.crew.rings[n]? = some y ∧ y.rel = x.rel ∧
      sget 0 y.cursors s.w.id = x.rel) ∧
    ∃ o ∈ t.crews, o.id = s.crew.id ∧ o.nwarp = s.crew.nwarp - 1 ∧ ∀ b ∈ o.bars, sget 0 b.arrived s.w.id = 0 := by
  obtain ⟨hwarps, hsp, hmem⟩ := joinCrew_rest s c
  exact ⟨joinCrew_w h, hwarps, hsp, hmem, joinCrew_crew_field h Crew.id fun _ _ _ _ => rfl, joinCrew_nwarp h,
    joinCrew_crew_field h Crew.cmbase fun _ _ _ _ => rfl, joinCrew_crew_field h Crew.cmsize fun _ _ _ _ => rfl,
    fun _ _ hx hbound => joinCrew_ring h hx hbound, joinCrew_old s c⟩

/-- What CLEAVE does: the warp is the first of a new crew with no memory and the old crew's handler, log root and budget
(R159). -/
theorem cleaveCrew_spec {s : State} {base : Nat} {l : Launch} (hl : launchAt s s.crew.launch = some l)
    (hfresh : ∀ x ∈ s.crews, x.id ≠ s.nextId) :
    let t := cleaveCrew s base
    t.w = { s.w with crew := s.nextId, index := 0 } ∧ t.warps = (leaveCrew s).warps ∧ t.sp = s.sp ∧ t.mem = s.mem ∧
    t.crew.id = s.nextId ∧ t.crew.nwarp = 1 ∧ t.crew.number = BitVec.ofNat 32 l.nextNumber ∧
    t.crew.cmbase = base ∧ t.crew.cmsize = 0 ∧ t.crew.mcast = 0 ∧ (∀ r ∈ t.crew.rings, r.bound = false) ∧
    t.crew.handler = s.crew.handler ∧ t.crew.flog = s.crew.flog ∧ t.crew.budget = s.crew.budget ∧
    ∃ o ∈ t.crews, o.id = s.crew.id ∧ o.nwarp = s.crew.nwarp - 1 := by
  have h : ∀ x ∈ (numberedCrew s).crews, x.id = (cleavedCrew s base l.nextNumber).id → x = cleavedCrew s base l.nextNumber :=
    fun x hx hid => (hfresh x hx hid).elim
  obtain ⟨hwarps, hsp, hmem⟩ := joinCrew_rest (numberedCrew s) (cleavedCrew s base l.nextNumber)
  obtain ⟨o, ho, hid, hn, _⟩ := joinCrew_old (numberedCrew s) (cleavedCrew s base l.nextNumber)
  rw [cleaveCrew_eq base hl]
  exact ⟨joinCrew_w h, hwarps, hsp, hmem, joinCrew_crew_field h Crew.id fun _ _ _ _ => rfl, joinCrew_nwarp h,
    joinCrew_crew_field h Crew.number fun _ _ _ _ => rfl, joinCrew_crew_field h Crew.cmbase fun _ _ _ _ => rfl,
    joinCrew_crew_field h Crew.cmsize fun _ _ _ _ => rfl, joinCrew_crew_field h Crew.mcast fun _ _ _ _ => rfl,
    unbound_joinCrew_cleaved h, joinCrew_crew_field h Crew.handler fun _ _ _ _ => rfl,
    joinCrew_crew_field h Crew.flog fun _ _ _ _ => rfl, joinCrew_crew_field h Crew.budget fun _ _ _ _ => rfl, o, ho, hid, hn⟩

/-- Settles O24: ROLE by its checks in their order, CJOIN and CLEAVE by what a change of membership leaves as it was. -/
theorem rolesAndCrewChanges : Obligations.RolesAndCrewChanges := by
  unfold Obligations.RolesAndCrewChanges
  refine ⟨fun s a hd => ?_, fun s d a hd => ?_, fun s a b d r q n => ?_⟩
  · dsimp only
    refine ⟨onceEnds_role_deep hd, fun h0 hshared => ?_, fun h0 hsole c n hread => ?_, fun h0 hsole bs hread => ⟨?_, ?_⟩⟩
    · exact onceEnds_role_shared hd h0 (Bool.eq_false_iff.mpr fun h => hshared ((soleSplit_iff s).mp h))
    · exact onceEnds_role_unread hd h0 ((soleSplit_iff s).mpr hsole) hread
    · intro hbad
      exact onceEnds_role_bad hd h0 ((soleSplit_iff s).mpr hsole) hread
        (Bool.not_eq_false _ ▸ fun h => hbad ((roleBad_iff _).mp h))
    · intro hgood hroom
      exact onceEnds_role_good hd h0 ((soleSplit_iff s).mpr hsole) hread ((roleBad_iff _).mpr hgood) hroom
  · dsimp only
    exact ⟨onceResult_cjoin_none hd, onceResult_cjoin_alone hd, fun c => joinable_of_joinTarget,
      fun c => onceResult_cjoin_full hd, fun c => onceEnds_cjoin_joins hd, onceResult_cleave_zero hd,
      fun base => onceEnds_cleave hd, fun c _ huniq _ => joinCrew_spec huniq,
      fun base l hl hfresh _ => cleaveCrew_spec hl hfresh, leaveCrew_eq s⟩
  · dsimp only
    intro i hi hd
    fin_cases hi
    · exact role_in_dispatch hd a
    · exact cjoin_in_dispatch hd a d
    · exact cleave_in_dispatch hd d
    · exact bara_in_dispatch hd a b
    · exact barw_in_dispatch hd a b
    · exact bars_in_dispatch hd a b
    · exact rngdef_in_dispatch hd b r
    · exact cpy_in_dispatch hd b r q
    · exact cpym_in_dispatch hd a b r q
    · exact awaitf_in_dispatch hd r
    · exact awaitfC_in_dispatch hd b r
    · exact rels_in_dispatch hd r
    · exact rngst_in_dispatch hd d r
    · exact setrl_in_dispatch hd n

end Sys2Proof.Machine
end

section
/-! SUPPORT. Reconvergence settled: SRCV and RCV, the complete groups of a warp, their merge, and what is judged again
(R15, R147; logs 1, 82). -/

namespace Sys2Proof.Machine

/-- The splits of a warp apart from the issuing one: its table's and its overflow block's. -/
def heldSplits (s : State) : List Split := s.w.splits ++ s.w.overflow

section
variable {s : State} {arriving : Option Nat}

/-- Some split waits at a reconvergence point (R147). -/
def SomeWaitsRcv (s : State) : Prop := (∃ p ∈ heldSplits s, p.state = .waitRcv) ∨ s.sp.state = .waitRcv

theorem mergeAll_of_waiting (h : SomeWaitsRcv s) :
    mergeAll s arriving = retake s (returnOverflow (mergeLoop (packSplit s) arriving 33) 16) := by
  refine if_pos ?_
  simpa [SomeWaitsRcv, heldSplits, or_and_right, exists_or] using h

/-- Where no split waits at a point, nothing merges. -/
theorem mergeAll_of_none (h : ¬ SomeWaitsRcv s) : mergeAll s arriving = s := by
  refine if_neg fun hany => h ?_
  simpa [SomeWaitsRcv, heldSplits, or_and_right, exists_or] using hany

end

section
variable (s : State) (d : BitVec 24)

/-- A split with its pending point noted, and the lanes that are to meet there (R147). -/
def withPoint (s : State) (d : BitVec 24) : State :=
  { s with sp := { s.sp with rpc := target s.sp.pc d.toInt, rmask := s.sp.active } }

theorem exec_srcv : exec (.srcv d) s =
    run (.srcv d) (fun s => once s (fun s => .ok (mergeAll (withPoint s d) none))) s := rfl

theorem onceEnds_srcv : OnceEnds (.srcv d) s (fun u => stopSteps (retired (mergeAll (withPoint u d) none))) :=
  once_ends (exec_srcv s d) fun _ _ => rfl

/-- Where no split waits at a point, SRCV notes its own and nothing else happens (R147). -/
theorem onceEnds_srcv_alone (h : ¬ SomeWaitsRcv s) : OnceEnds (.srcv d) s (fun u => retired (withPoint u d)) :=
  once_ends (exec_srcv s d) fun hi _ => by
    have halone : ∀ i, ¬ SomeWaitsRcv (withPoint (issued i s) d) := fun _ => h
    rw [mergeAll_of_none (halone _)]
    have hdue : ∀ i, (withPoint (issued i s) d).sp.stopDue = (issued i s).sp.stopDue := fun _ => rfl
    exact finish_ok ((hdue _).trans (issued_stopDue hi.whole.1 hi.whole.2.1)) hi.whole.2.2

/-- What RCV does at its issue (R147). -/
def rcvBody (s : State) : Res :=
  if s.sp.rpc ≠ s.sp.pc then .trap cRcverr s.sp.rpc s.sp.pc s
  else .jump (rejudge { s with sp := { s.sp with state := .waitRcv } } (some s.sp.slot))

theorem rcvBody_met {s : State} (h : s.sp.rpc = s.sp.pc) :
    rcvBody s = .jump (rejudge { s with sp := { s.sp with state := .waitRcv } } (some s.sp.slot)) :=
  if_neg (not_not_intro h)

theorem rcvBody_astray {s : State} (h : s.sp.rpc ≠ s.sp.pc) : rcvBody s = .trap cRcverr s.sp.rpc s.sp.pc s := if_pos h

theorem finish_rcvBody (i : Instr) : finish i false (rcvBody (issued i s)) =
    if s.sp.rpc ≠ s.sp.pc then trapped (issued i s) cRcverr s.sp.rpc s.sp.pc
    else jumped (rejudge { issued i s with sp := { (issued i s).sp with state := .waitRcv } } (some s.sp.slot)) := by
  by_cases h : s.sp.rpc = s.sp.pc
  · rw [if_neg (not_not_intro h), rcvBody_met (s := issued i s) h]; rfl
  · rw [if_pos h, rcvBody_astray (s := issued i s) h]; rfl

theorem onceEnds_rcv : OnceEnds .rcv s (fun u =>
    if s.sp.rpc ≠ s.sp.pc then trapped u cRcverr s.sp.rpc s.sp.pc
    else jumped (rejudge { u with sp := { u.sp with state := .waitRcv } } (some s.sp.slot))) :=
  once_ends (body := rcvBody) rfl fun _ _ => finish_rcvBody s _

end

section
variable {s : State} {a : DWord}

theorem mem_groupAt {x : Split} : x ∈ groupAt s a ↔ x ∈ heldSplits s ∧ x.alive = true ∧ x.rpc = a := by
  simp [groupAt, heldSplits, or_and_right]

/-- The splits of a group all wait, and none of them is held (R147; log 1). -/
def GroupComplete (s : State) (a : DWord) : Prop := ∀ q ∈ groupAt s a, q.state = .waitRcv ∧ q.held = false

/-- A split that starts a merge: it waits at a point whose group is complete. -/
theorem completes_iff (p : Split) :
    (p.alive && p.state == .waitRcv && (groupAt s p.rpc).all (fun q => q.state == .waitRcv && !q.held)) = true ↔
      p.alive = true ∧ p.state = .waitRcv ∧ GroupComplete s p.rpc := by
  simp [GroupComplete, and_assoc]

/-- A complete point is one at which a split waits and where all of its group wait unheld (R147). -/
theorem completePoint_some (h : completePoint s = some a) :
    (∃ x ∈ heldSplits s, x.alive = true ∧ x.state = .waitRcv ∧ x.rpc = a) ∧
    ∀ x ∈ heldSplits s, x.alive = true → x.rpc = a → x.state = .waitRcv ∧ x.held = false := by
  obtain ⟨p, hp, rfl⟩ := Option.map_eq_some_iff.mp h
  have hsat := List.find?_some hp
  obtain ⟨halive, hwaits, hgroup⟩ := (completes_iff p).mp hsat
  exact ⟨⟨p, List.mem_of_find?_eq_some hp, halive, hwaits, rfl⟩,
    fun x hx hxa hrpc => hgroup x (mem_groupAt.mpr ⟨hx, hxa, hrpc⟩)⟩

/-- Where no point is complete, each waiting split's group has one that does not wait, or is held (R147). -/
theorem completePoint_none (h : completePoint s = none) (x : Split) (hx : x ∈ heldSplits s) (halive : x.alive = true)
    (hwaits : x.state = .waitRcv) :
    ∃ y ∈ heldSplits s, y.alive = true ∧ y.rpc = x.rpc ∧ (y.state ≠ .waitRcv ∨ y.held = true) := by
  have hnot := List.find?_eq_none.mp (Option.map_eq_none_iff.mp h) x hx
  have hgroup : ¬ GroupComplete s x.rpc := fun hg => hnot ((completes_iff x).mpr ⟨halive, hwaits, hg⟩)
  simp only [GroupComplete, not_forall] at hgroup
  obtain ⟨y, hy, hbad⟩ := hgroup
  obtain ⟨hmem, hya, hrpc⟩ := mem_groupAt.mp hy
  refine ⟨y, hmem, hya, hrpc, ?_⟩
  rw [not_and_or, Bool.not_eq_false] at hbad
  exact hbad

variable (arriving : Option Nat) (n : Nat)

theorem mergeLoop_done (h : completePoint s = none) : mergeLoop s arriving n = s := by
  cases n with
  | zero => rfl
  | succ n =>
    rw [mergeLoop]
    split
    · rfl
    · rw [h]

theorem mergeLoop_step (hrun : s.crew.state = .running) (hfree : heldByCrew s = false) (h : completePoint s = some a) :
    mergeLoop s arriving (n + 1) = mergeLoop (mergeGroup s (groupAt s a) a arriving) none n := by
  rw [mergeLoop, if_neg (by simp [hrun, hfree]), h]

end

section
variable (s : State) (g : List Split) (kept : Split) (a : DWord) (arriving : Option Nat)

/-- The lanes of a group. -/
def groupLanes (g : List Split) : Mask := orMasks g (fun p => p.active)

/-- The lanes that were to meet in a group (R147). -/
def expectedLanes (s : State) (g : List Split) : Mask :=
  orMasks g (fun p => p.rmask) &&& ~~~s.w.strand &&& ~~~s.w.exited

/-- The splits of a group stand in one window (R147). -/
def SameWindow (g : List Split) (kept : Split) : Prop :=
  ∀ p ∈ g, p.wbase = kept.wbase ∧ p.depth = kept.depth ∧ p.frames = kept.frames

/-- The highest spill floor of a group (R147). -/
def groupFloor (g : List Split) : Nat := g.foldl (fun n p => max n p.sfloor) 0

/-- The split that a group merges into, at a spill floor (R147; log 1). -/
def mergedSplit (s : State) (g : List Split) (kept : Split) (a : DWord) (arriving : Option Nat) (f : Nat) : Split :=
  { kept with
    state := .ready, wait := none, active := groupLanes g, entry := groupLanes g, sig := 0, rpc := 0, rmask := 0
    pc := a + 4, sfloor := f
    age := if some kept.slot = arriving then kept.age else s.nextAge
    stepping := g.foldl (fun n p => max n p.stepping) 0
    freeze := (g.find? (fun p => p.freeze.isSome)).bind (fun p => p.freeze) }

/-- A group's splits replaced by a merged one, which issues. -/
def replaced (t : State) (g : List Split) (p : Split) : State :=
  { t with w := dropSplits t.w g, sp := p, nextAge := t.nextAge + 1 }

/-- RCVERR of a merge; at level 1 it is a double trap at A (R147, R250). -/
def rcvFails (s : State) (g : List Split) (kept : Split) (a : DWord) (u : State) : State :=
  takeTrap (if kept.level ≠ 0 ∧ s.crew.state = .running then { u with sp := { u.sp with pc := a } } else u) cRcverr
    (BitVec.ofNat 64 ((expectedLanes s g).toNat * 2 ^ 32 + (groupLanes g).toNat)) (a + 4)

/-- A WINDOW of the spills, raised at the arriving split, whose RCV is undone, or at the oldest (log 82). -/
def windowFails (s : State) (who : Split) (x : Nat) (a : DWord) : State :=
  putBack (takeTrap { s with w := dropSplits s.w [who], sp := { who.cleared with sig := who.sigWas } } cWindow
    (BitVec.ofNat 64 x) a) (s.w.splits.contains who)

/-- The model's test for one window. -/
def sameWindow (g : List Split) (kept : Split) : Bool :=
  g.all (fun p => p.wbase == kept.wbase && p.depth == kept.depth && p.frames == kept.frames)

theorem sameWindow_iff : sameWindow g kept = true ↔ SameWindow g kept := by
  simp [sameWindow, SameWindow, and_assoc]

/-- The end of a merge whose spills raise nothing: the merged split, with its RCVERR where it has one. -/
def mergeEnds (s : State) (g : List Split) (kept : Split) (a : DWord) (arriving : Option Nat) (same : Bool) : State :=
  let t := if same then levelGroup s g (groupFloor g) else s
  let u := replaced t g (mergedSplit s g kept a arriving (if same then groupFloor g else kept.sfloor))
  putBack (if groupLanes g ≠ expectedLanes s g || !same then rcvFails s g kept a u else u) (s.w.splits.contains kept)

variable {s g kept a arriving}

theorem mergeGroup_eq (hkept : oldestSplit g = some kept) : mergeGroup s g a arriving =
    match (if sameWindow g kept then checkSlide s needSpillW (levelAddrs s g (groupFloor g)) else none) with
    | some x => windowFails s ((g.find? (fun p => some p.slot == arriving)).getD kept) x a
    | none => mergeEnds s g kept a arriving (sameWindow g kept) := by
  rw [mergeGroup, hkept]
  simp only [mergeEnds, rcvFails]
  simp only [Bool.and_eq_true, bne_iff_ne, beq_iff_eq]
  rfl

section
variable (hkept : oldestSplit g = some kept)
include hkept

/-- A group whose windows differ merges where its oldest split stands, and raises RCVERR (R147). -/
theorem mergeGroup_apart (hsame : ¬ SameWindow g kept) : mergeGroup s g a arriving =
    putBack (rcvFails s g kept a (replaced s g (mergedSplit s g kept a arriving kept.sfloor)))
      (s.w.splits.contains kept) := by
  have h : sameWindow g kept = false := Bool.eq_false_iff.mpr fun h => hsame ((sameWindow_iff g kept).mp h)
  rw [mergeGroup_eq hkept, h]
  exact congrArg (putBack · _) (if_pos (by simp))

variable (hsame : SameWindow g kept)
include hsame

/-- A WINDOW of the spills: nothing merges (R147; log 82). -/
theorem mergeGroup_window {x : Nat} (h : checkSlide s needSpillW (levelAddrs s g (groupFloor g)) = some x) :
    mergeGroup s g a arriving = windowFails s ((g.find? (fun p => some p.slot == arriving)).getD kept) x a := by
  rw [mergeGroup_eq hkept, if_pos ((sameWindow_iff g kept).mpr hsame), h]

variable (h : checkSlide s needSpillW (levelAddrs s g (groupFloor g)) = none)
include h

theorem mergeGroup_level : mergeGroup s g a arriving = mergeEnds s g kept a arriving true := by
  rw [mergeGroup_eq hkept, (sameWindow_iff g kept).mpr hsame, if_pos rfl, h]

/-- A group of the lanes that were to meet merges (R147). -/
theorem mergeGroup_met (hlanes : groupLanes g = expectedLanes s g) : mergeGroup s g a arriving =
    putBack (replaced (levelGroup s g (groupFloor g)) g (mergedSplit s g kept a arriving (groupFloor g)))
      (s.w.splits.contains kept) := by
  rw [mergeGroup_level hkept hsame h]
  exact congrArg (putBack · _) (if_neg (by simp [hlanes]))

/-- A group of other lanes merges all the same, and raises RCVERR (R147). -/
theorem mergeGroup_unmet (hlanes : groupLanes g ≠ expectedLanes s g) : mergeGroup s g a arriving =
    putBack (rcvFails s g kept a
      (replaced (levelGroup s g (groupFloor g)) g (mergedSplit s g kept a arriving (groupFloor g))))
      (s.w.splits.contains kept) := by
  rw [mergeGroup_level hkept hsame h]
  exact congrArg (putBack · _) (if_pos (by simp [hlanes]))

end

end

section
variable {s : State} (arriving : Option Nat)

/-- Entries without lanes are free (R153). -/
def withoutEmpty (s : State) : State :=
  { s with w := { s.w with splits := s.w.splits.filter Split.alive, overflow := s.w.overflow.filter Split.alive } }

/-- What is judged again once the barriers are: the holds of a vanished handler, complete groups, freed entries (R147). -/
def regrouped (s : State) (arriving : Option Nat) : State :=
  returnOverflow (mergeAll (handlerGone (withoutEmpty s)) arriving) 16

theorem rejudge_eq (s : State) : rejudge s arriving =
    if warpOver (regrouped (judgeBarriers s) arriving) then endWarp (regrouped (judgeBarriers s) arriving)
    else regrouped (judgeBarriers s) arriving := rfl

theorem judgeBarriers_none (h : ∀ b ∈ s.crew.bars, barrierDone s b = false) : judgeBarriers s = s := by
  have hbars : s.crew.bars.map (fun b => if barrierDone s b then b.flip (barrierPasts s b) else b) = s.crew.bars :=
    (List.map_congr_left fun b hb => if_neg (Bool.eq_false_iff.mp (h b hb))).trans (List.map_id' _)
  rw [judgeBarriers, hbars]

theorem warpOver_iff (t : State) : warpOver t = true ↔ t.w.live = true ∧ ∀ p ∈ allSplits t, p.alive = false := by
  simp [warpOver]

section
variable (h : ∀ b ∈ s.crew.bars, barrierDone s b = false)
include h

theorem rejudge_goes_on (hsome : ∃ p ∈ allSplits (regrouped s arriving), p.alive = true) :
    rejudge s arriving = regrouped s arriving := by
  obtain ⟨p, hp, halive⟩ := hsome
  rw [rejudge_eq, judgeBarriers_none h]
  refine if_neg fun hover => ?_
  have hdead := ((warpOver_iff _).mp hover).2 p hp
  rw [halive] at hdead
  cases hdead

theorem rejudge_ends (hlive : (regrouped s arriving).w.live = true)
    (hnone : ∀ p ∈ allSplits (regrouped s arriving), p.alive = false) :
    rejudge s arriving = endWarp (regrouped s arriving) := by
  rw [rejudge_eq, judgeBarriers_none h]
  exact if_pos ((warpOver_iff _).mpr ⟨hlive, hnone⟩)

end

theorem handlerBusy_of_level {s : State} (h : ∀ p ∈ heldSplits s, p.level = 0) : handlerBusy s = false := by
  refine Bool.eq_false_iff.mpr fun hbusy => ?_
  obtain ⟨p, hp, hlevel⟩ := List.any_eq_true.mp hbusy
  simp [h p hp] at hlevel

/-- Without a handler or a hold nothing is let go (R252). -/
theorem handlerGone_none (hfree : ∀ p ∈ heldSplits s, p.held = false) (hholder : s.crew.holder ≠ some s.w.id) :
    handlerGone s = s := by
  have hheld : (s.w.splits ++ s.w.overflow).any (fun p => p.held) = false := by
    simpa [heldSplits, or_imp, forall_and] using hfree
  have hnothing : ¬ (decide (s.crew.holder = some s.w.id) || (s.w.splits ++ s.w.overflow).any (fun p => p.held)) = true := by
    rw [hheld, Bool.or_false, decide_eq_true_iff]
    exact hholder
  rw [handlerGone, if_neg hnothing, ite_self]

/-- The holds of a handler that is gone end (R252). -/
theorem handlerGone_holder (hlevel : ∀ p ∈ heldSplits s, p.level = 0) (hsp : s.sp.level = 0)
    (hholder : s.crew.holder = some s.w.id) : handlerGone s = release s := by
  rw [handlerGone, if_neg (by simp [hsp, handlerBusy_of_level hlevel]), if_pos (by simp [hholder])]

end

/-- Settles O20: each operation of the reconvergence rules by an equation of its own. -/
theorem reconvergence : Obligations.Reconvergence := by
  unfold Obligations.Reconvergence
  refine ⟨fun s d => ?_, fun s arriving n g kept a => ?_, fun s arriving hbars => ?_⟩
  · refine ⟨onceEnds_srcv s d, fun hnone hsp => onceEnds_srcv_alone s d ?_, onceEnds_rcv s⟩
    rintro (⟨p, hp, hwaits⟩ | hwaits)
    · exact hnone p hp hwaits
    · exact hsp hwaits
  · refine ⟨fun p => completePoint_some, completePoint_none, fun hrun hfree => ⟨mergeLoop_done arriving n, ?_⟩,
      mergeAll_of_waiting, fun hkept => ⟨?_, ?_, ?_, ?_⟩⟩
    · exact mergeLoop_step arriving n hrun hfree
    · exact fun hsame h hlanes => mergeGroup_met hkept hsame h hlanes
    · exact fun hsame h hlanes => mergeGroup_unmet hkept hsame h hlanes
    · exact fun hsame => mergeGroup_apart hkept hsame
    · exact fun x hsame h => mergeGroup_window hkept hsame h
  · exact ⟨rejudge_goes_on arriving hbars, rejudge_ends arriving hbars,
      fun _ hsplits hholder => handlerGone_none (s := withoutEmpty s) (fun p hp => (hsplits p hp).2) hholder,
      fun hsplits hsp hholder => handlerGone_holder (s := withoutEmpty s) hsplits hsp hholder⟩

end Sys2Proof.Machine
end

section
/-! SUPPORT. Properties of memories and of rings that every operation on them keeps, and the machine they hold of: what the
canonical form of memory (R169) and the order of a ring's counts (R186) share. -/

namespace Sys2Proof.Machine
/-- A property of memories and one of rings that the operations on them keep: what is asked of memories (R169) holds of the
empty one and stays when a byte is set or bytes are dropped; what is asked of rings (R186) looks at their counts and cursors
alone, holds of unbound and of newly bound rings, and stays when a slot is reserved, filled or freed and when a cursor moves. -/
structure StorageLaw where
  mem : Memory → Prop
  ring : Ring → Prop
  mem_nil : mem []
  mem_sset : ∀ {m} (k : Nat) (b : Byte), mem m → mem (sset 0 m k b)
  mem_filter : ∀ {m} (p : Nat × Byte → Bool), mem m → mem (m.filter p)
  ring_congr : ∀ {x y : Ring}, x.depth = y.depth → x.res = y.res → x.fil = y.fil → x.rel = y.rel → x.cursors = y.cursors →
    ring x → ring y
  ring_blank : ring Ring.blank
  ring_bound : ∀ desc v, ring (ringOf desc v)
  ring_reserve : ∀ {x}, ring x → x.hasRoom = true → ring { x with res := x.res + 1 }
  ring_fill : ∀ {x}, ring x → x.fil < x.res → ring { x with fil := x.fil + 1 }
  ring_free : ∀ {x}, ring x → x.rel < x.fil → ring { x with rel := x.rel + 1 }
  ring_cursor : ∀ {x} (w : Nat), ring x → x.cursor w < x.fil → ring { x with cursors := sset 0 x.cursors w (x.cursor w + 1) }
  ring_join : ∀ {x} (w : Nat), ring x → ring { x with cursors := sset 0 x.cursors w x.rel }
  ring_leave : ∀ {x} (w : Nat), ring x → ring { x with cursors := serase x.cursors w }

namespace StorageLaw
variable (P : StorageLaw)

/-- A law holds of every ring of a crew. -/
def rings (l : List Ring) : Prop := ∀ x ∈ l, P.ring x
def crew (c : Crew) : Prop := P.rings c.rings
/-- A law holds of what a save has kept. -/
def image (i : Image) : Prop := P.mem i.mem ∧ ∀ k ∈ i.crews, P.crew k
/-- A law holds of a context's image, if it has one. -/
def ctx (c : Ctx) : Prop := ∀ i, c.image = some i → P.image i
def crews (l : List Crew) : Prop := ∀ c ∈ l, P.crew c
def ctxs (l : List Ctx) : Prop := ∀ c ∈ l, P.ctx c

/-- A law holds of the whole machine. -/
def Holds (s : State) : Prop := P.mem s.mem ∧ P.crew s.crew ∧ P.crews s.crews ∧ P.ctx s.ctx ∧ P.ctxs s.ctxs

/-- A law holds of the machine in what a body, a meaning or an event answers. -/
def res : Res → Prop
  | .ok s | .jump s | .trap _ _ _ s | .wait s => P.Holds s
def out : Out → Prop
  | .next s => P.Holds s
  | _ => True
def opt (o : Option State) : Prop := ∀ t, o = some t → P.Holds t
def exc {ε : Type} (x : Except ε State) : Prop := ∀ t, x = .ok t → P.Holds t
def maj : MajRes → Prop
  | .done _ _ s => P.Holds s
  | _ => True

def fst {α : Type} (x : State × α) : Prop := P.Holds x.1
def snd {α : Type} (x : α × State) : Prop := P.Holds x.2
def optFst {α : Type} (o : Option (State × α)) : Prop := ∀ x, o = some x → P.Holds x.1
def optSnd {α : Type} (o : Option (α × State)) : Prop := ∀ x, o = some x → P.Holds x.2
def excFst {ε α : Type} (o : Except ε (State × α)) : Prop := ∀ x, o = .ok x → P.Holds x.1
def excSnd {ε α : Type} (o : Except ε (α × State)) : Prop := ∀ x, o = .ok x → P.Holds x.2

end StorageLaw

variable {P : StorageLaw} {s : State}

theorem StorageLaw.Holds.mem (h : P.Holds s) : P.mem s.mem := h.1
theorem StorageLaw.Holds.crew (h : P.Holds s) : P.crew s.crew := h.2.1
theorem StorageLaw.Holds.crews (h : P.Holds s) : P.crews s.crews := h.2.2.1
theorem StorageLaw.Holds.ctx (h : P.Holds s) : P.ctx s.ctx := h.2.2.2.1
theorem StorageLaw.Holds.ctxs (h : P.Holds s) : P.ctxs s.ctxs := h.2.2.2.2

end Sys2Proof.Machine
end

section
/-! SUPPORT. Rules of the storage laws: results, lists, rings, crews, contexts and memory. -/

namespace Sys2Proof.Machine.Storage
variable {P : StorageLaw} {s t : State}

theorem opt_none : P.opt none := fun _ he => (Option.some_ne_none _ he.symm).elim
theorem opt_some (h : P.Holds s) : P.opt (some s) := fun _ he => Option.some.inj he ▸ h
theorem exc_error {ε : Type} {e : ε} : P.exc (.error e) := fun _ he => by simp at he
theorem exc_ok {ε : Type} (h : P.Holds s) : P.exc (.ok s : Except ε State) := fun _ he => Except.ok.inj he ▸ h

theorem maj_done {r : MajRes} {b : Bool} {v : Payload} (he : r = .done b v t) (hr : P.maj r) : P.Holds t := by
  subst he; exact hr
theorem res_ok {r : Res} (he : r = .ok t) (hr : P.res r) : P.Holds t := by subst he; exact hr
theorem out_next {o : Out} (he : o = .next t) (ho : P.out o) : P.Holds t := by subst he; exact ho
theorem of_ok {ε : Type} {x : Except ε State} (he : x = .ok t) (hx : P.exc x) : P.Holds t := hx t he
theorem of_some {o : Option State} (he : o = some t) (ho : P.opt o) : P.Holds t := ho t he
theorem of_someFst {α : Type} {o : Option (State × α)} {a : α} (he : o = some (t, a)) (ho : P.optFst o) : P.Holds t :=
  ho _ he
theorem of_someSnd {α : Type} {o : Option (α × State)} {a : α} (he : o = some (a, t)) (ho : P.optSnd o) : P.Holds t :=
  ho _ he
theorem of_okFst {ε α : Type} {x : Except ε (State × α)} {a : α} (he : x = .ok (t, a)) (hx : P.excFst x) : P.Holds t :=
  hx _ he
theorem of_okSnd {ε α : Type} {x : Except ε (α × State)} {a : α} (he : x = .ok (a, t)) (hx : P.excSnd x) : P.Holds t :=
  hx _ he
theorem fst_eq {α : Type} {x : State × α} {a : α} (he : x = (t, a)) (hx : P.fst x) : P.Holds t := by
  subst he; exact hx
theorem snd_eq {α : Type} {x : α × State} {a : α} (he : x = (a, t)) (hx : P.snd x) : P.Holds t := by
  subst he; exact hx

theorem holds_ite {c : Prop} [Decidable c] (hs : P.Holds s) (ht : P.Holds t) : P.Holds (if c then s else t) := by
  split
  · exact hs
  · exact ht

theorem holds_getD {o : Option State} (ho : P.opt o) (h : P.Holds s) : P.Holds (o.getD s) := by
  cases o with
  | none => exact h
  | some t => exact ho t rfl

theorem opt_map {α : Type} {o : Option α} {f : α → State} (hf : ∀ a, P.Holds (f a)) : P.opt (o.map f) := by
  cases o with
  | none => exact opt_none
  | some a => exact opt_some (hf a)

theorem opt_findSome {α : Type} {f : α → Option State} {l : List α} (hf : ∀ a, P.opt (f a)) : P.opt (l.findSome? f) :=
  fun t ht => by
    obtain ⟨a, -, ha⟩ := List.exists_of_findSome?_eq_some ht
    exact hf a t ha

theorem holds_foldl {α : Type} {f : State → α → State} {xs : List α} (hf : ∀ u x, P.Holds u → P.Holds (f u x)) (h : P.Holds s) :
    P.Holds (xs.foldl f s) := by
  induction xs generalizing s with
  | nil => exact h
  | cons x xs ih => exact ih (hf s x h)

theorem fst_foldl {α β : Type} {f : State × β → α → State × β} {xs : List α} {p : State × β}
    (hf : ∀ q x, P.fst q → P.fst (f q x)) (h : P.fst p) : P.fst (xs.foldl f p) := by
  induction xs generalizing p with
  | nil => exact h
  | cons x xs ih => exact ih (hf p x h)

theorem opt_mapState {o : Option State} {f : State → State} (hf : ∀ u, P.Holds u → P.Holds (f u)) (h : P.opt o) :
    P.opt (o.map f) := by
  cases o with
  | none => exact opt_none
  | some u => exact opt_some (hf u (h u rfl))

theorem optFst_none {α : Type} : P.optFst (none : Option (State × α)) := fun _ he => (Option.some_ne_none _ he.symm).elim
theorem optFst_some {α : Type} {a : α} (h : P.Holds s) : P.optFst (some (s, a)) := by
  intro x he
  rw [← Option.some.inj he]
  exact h
theorem excFst_error {ε α : Type} {e : ε} : P.excFst (.error e : Except ε (State × α)) := fun _ he => by simp at he
theorem excFst_ok {ε α : Type} {a : α} (h : P.Holds s) : P.excFst (.ok (s, a) : Except ε (State × α)) := by
  intro x he
  rw [← Except.ok.inj he]
  exact h

theorem crews_map {l : List Crew} {f : Crew → Crew} (hf : ∀ c, P.crew c → P.crew (f c)) (h : P.crews l) :
    P.crews (l.map f) := by
  intro _ hc
  obtain ⟨c, hmem, rfl⟩ := List.mem_map.mp hc
  exact hf c (h c hmem)

theorem ctxs_map {l : List Ctx} {f : Ctx → Ctx} (hf : ∀ c, P.ctx c → P.ctx (f c)) (h : P.ctxs l) : P.ctxs (l.map f) := by
  intro _ hc
  obtain ⟨c, hmem, rfl⟩ := List.mem_map.mp hc
  exact hf c (h c hmem)

theorem crews_filter {l : List Crew} {p : Crew → Bool} (h : P.crews l) : P.crews (l.filter p) :=
  fun c hc => h c (List.mem_of_mem_filter hc)
theorem ctxs_filter {l : List Ctx} {p : Ctx → Bool} (h : P.ctxs l) : P.ctxs (l.filter p) :=
  fun c hc => h c (List.mem_of_mem_filter hc)

theorem crew_ite {c : Prop} [Decidable c] {a b : Crew} (ha : P.crew a) (hb : P.crew b) : P.crew (if c then a else b) := by
  split
  · exact ha
  · exact hb
theorem ctx_ite {c : Prop} [Decidable c] {a b : Ctx} (ha : P.ctx a) (hb : P.ctx b) : P.ctx (if c then a else b) := by
  split
  · exact ha
  · exact hb
theorem crews_ite {c : Prop} [Decidable c] {a b : List Crew} (ha : P.crews a) (hb : P.crews b) :
    P.crews (if c then a else b) := by
  split
  · exact ha
  · exact hb
theorem ctxs_ite {c : Prop} [Decidable c] {a b : List Ctx} (ha : P.ctxs a) (hb : P.ctxs b) :
    P.ctxs (if c then a else b) := by
  split
  · exact ha
  · exact hb

theorem ring_of_counts {x y : Ring} (h : P.ring x) (hdepth : y.depth = x.depth) (hres : y.res = x.res) (hfil : y.fil = x.fil)
    (hrel : y.rel = x.rel) (hcursors : y.cursors = x.cursors) : P.ring y :=
  P.ring_congr hdepth.symm hres.symm hfil.symm hrel.symm hcursors.symm h

theorem ring_ite {c : Prop} [Decidable c] {x y : Ring} (hx : P.ring x) (hy : P.ring y) : P.ring (if c then x else y) := by
  split
  · exact hx
  · exact hy

theorem rings_map {l : List Ring} {f : Ring → Ring} (hf : ∀ x, P.ring x → P.ring (f x)) (h : P.rings l) :
    P.rings (l.map f) := by
  intro _ hx
  obtain ⟨x, hmem, rfl⟩ := List.mem_map.mp hx
  exact hf x (h x hmem)

theorem rings_mapIdx {l : List Ring} {f : Nat → Ring → Ring} (hf : ∀ n x, P.ring x → P.ring (f n x)) (h : P.rings l) :
    P.rings (l.mapIdx f) := by
  intro _ hx
  obtain ⟨n, hn, rfl⟩ := List.mem_mapIdx.mp hx
  exact hf n _ (h _ (List.getElem_mem hn))

theorem rings_blank (n : Nat) : P.rings (List.replicate n Ring.blank) := fun x hx => by
  rw [List.eq_of_mem_replicate hx]; exact P.ring_blank

theorem ring_ringOf {desc : DWord} {v : Nat} : P.ring (ringOf desc v) := P.ring_bound desc v

theorem ring_reserve {x : Ring} (h : P.ring x) : P.ring x.reserve := by
  unfold Ring.reserve
  split
  next hroom => exact P.ring_reserve h hroom
  · exact h

theorem ring_fillChunk {j slot : Nat} {x : Ring} (h : P.ring x) : P.ring (fillChunk j slot x) := by
  unfold fillChunk
  split
  · exact h
  next hopen =>
    simp only [ne_eq, Bool.or_eq_true, decide_eq_true_eq, not_or, Decidable.not_not, Nat.not_le] at hopen
    dsimp only
    split
    · exact ring_of_counts (P.ring_fill h (hopen.1 ▸ hopen.2)) rfl rfl rfl rfl rfl
    · exact ring_of_counts h rfl rfl rfl rfl rfl

theorem ring_freeSlots {x : Ring} {n : Nat} (h : P.ring x) : P.ring (freeSlots x n) := by
  fun_induction freeSlots x n
  · exact h
  next hfull ih =>
    rw [Bool.and_eq_true, decide_eq_true_eq] at hfull
    exact ih (ring_of_counts (P.ring_free h hfull.1) rfl rfl rfl rfl rfl)
  · exact h

/-- A release by a warp that has a filled slot left keeps the law (R193). -/
theorem ring_releaseSlot {x : Ring} {w : Nat} {p : Past} (h : P.ring x) (hleft : x.cursor w < x.fil) :
    P.ring (releaseSlot x w p) :=
  ring_freeSlots (ring_of_counts (P.ring_cursor w h hleft) rfl rfl rfl rfl rfl)

theorem ring_ringAt {r : Nat} (h : P.Holds s) : P.ring (ringAt s r) := by
  unfold ringAt
  rw [List.getD_eq_getElem?_getD]
  cases hr : s.crew.rings[r]? with
  | none => exact P.ring_blank
  | some x => exact h.crew x (List.mem_of_getElem? hr)

theorem crew_blank : P.crew Crew.blank := rings_blank 8
theorem crews_nil : P.crews [] := fun _ h => absurd h List.not_mem_nil
theorem ctxs_nil : P.ctxs [] := fun _ h => absurd h List.not_mem_nil
theorem ctx_none {c : Ctx} (h : c.image = none) : P.ctx c := fun _ hi => absurd (hi.symm.trans h) (Option.some_ne_none _)
theorem ctx_blank : P.ctx Ctx.blank := ctx_none rfl

theorem crews_insertCrew {x : Crew} {l : List Crew} (hx : P.crew x) (h : P.crews l) : P.crews (insertCrew x l) := by
  induction l with
  | nil => exact fun c hc => by cases List.mem_singleton.mp hc; exact hx
  | cons y l ih =>
    rw [StorageLaw.crews, List.forall_mem_cons] at h
    unfold insertCrew
    split
    · exact List.forall_mem_cons.mpr ⟨hx, List.forall_mem_cons.mpr h⟩
    · exact List.forall_mem_cons.mpr ⟨h.1, ih h.2⟩

theorem ctxs_insertCtx {x : Ctx} {l : List Ctx} (hx : P.ctx x) (h : P.ctxs l) : P.ctxs (insertCtx x l) := by
  induction l with
  | nil => exact fun c hc => by cases List.mem_singleton.mp hc; exact hx
  | cons y l ih =>
    rw [StorageLaw.ctxs, List.forall_mem_cons] at h
    unfold insertCtx
    split
    · exact List.forall_mem_cons.mpr ⟨hx, List.forall_mem_cons.mpr h⟩
    · exact List.forall_mem_cons.mpr ⟨h.1, ih h.2⟩

theorem crew_findCrew {l : List Crew} {id : Nat} (h : P.crews l) : P.crew (findCrew l id) := by
  unfold findCrew
  cases hf : l.find? (fun x => x.id == id) with
  | none => exact crew_blank
  | some c => exact h c (List.mem_of_find?_eq_some hf)

theorem ctx_findCtx {l : List Ctx} {id : Nat} (h : P.ctxs l) : P.ctx (findCtx l id) := by
  unfold findCtx
  cases hf : l.find? (fun x => x.id == id) with
  | none => exact ctx_blank
  | some c => exact h c (List.mem_of_find?_eq_some hf)

theorem crew_withRing {c : Crew} {r : Nat} {f : Ring → Ring} (h : P.crew c) (hf : ∀ x, P.ring x → P.ring (f x)) :
    P.crew (c.withRing r f) := rings_mapIdx (fun _ x hx => ring_ite (hf x hx) hx) h

/-- A change of one ring that keeps the law at that ring keeps it in the crew. -/
theorem crew_ringAt {r : Nat} {f : Ring → Ring} (h : P.crew s.crew) (hf : P.ring (ringAt s r) → P.ring (f (ringAt s r))) :
    P.crew (s.crew.withRing r f) := by
  intro _ hx
  obtain ⟨n, hn, rfl⟩ := List.mem_mapIdx.mp hx
  have hring := h _ (List.getElem_mem hn)
  split
  next hr =>
    subst hr
    have hat : ringAt s n = s.crew.rings[n] := by simp [ringAt, List.getD_eq_getElem?_getD, List.getElem?_eq_getElem hn]
    rw [hat] at hf
    exact hf hring
  · exact hring

theorem mem_putBytes (bs : List Byte) {m : Memory} (key : Nat) (h : P.mem m) : P.mem (putBytes m key bs) := by
  induction bs generalizing m key with
  | nil => exact h
  | cons b t ih => exact ih _ (P.mem_sset _ _ h)

theorem mem_foldl_sset (es : List (Nat × Byte)) {m : Memory} (h : P.mem m) :
    P.mem (es.foldl (fun m e => sset 0 m e.1 e.2) m) := by
  induction es generalizing m with
  | nil => exact h
  | cons e t ih => exact ih (P.mem_sset _ _ h)

theorem snd_takePast (h : P.Holds s) : P.snd (takePast s) := h
theorem snd_stamp (h : P.Holds s) : P.snd (stamp s) := h
theorem snd_freshId (h : P.Holds s) : P.snd (freshId s) := h

theorem holds_clearPoison {key size : Nat} (h : P.Holds s) : P.Holds (clearPoison s key size) := by
  unfold clearPoison
  split <;> exact h

theorem holds_storeKey {e : Late} {key : Nat} {bs : List Byte} (h : P.Holds s) : P.Holds (storeKey e s key bs) := by
  have hk : P.Holds (clearPoison (keepWrite e s (keysFrom key bs.length)) key bs.length) := holds_clearPoison h
  exact ⟨mem_putBytes bs key h.mem, hk.crew, hk.crews, hk.ctx, hk.ctxs⟩

end Sys2Proof.Machine.Storage
end

section
/-! SUPPORT. The storage laws at the shared operations of the machine: memory, focus, ordering, cells, splits, the window, logs. -/

namespace Sys2Proof.Machine.Storage
variable {P : StorageLaw} {s t : State}

theorem holds_writeKey {key : Nat} {bs : List Byte} (h : P.Holds s) : P.Holds (writeKey s key bs) := holds_storeKey h

theorem holds_scatter {ks : List Nat} {bs : List Byte} (h : P.Holds s) : P.Holds (scatter s ks bs) := by
  fun_induction scatter s ks bs
  next ih => exact ih ⟨P.mem_sset _ _ h.mem, h.crew, h.crews, h.ctx, h.ctxs⟩
  · exact h

theorem holds_storeKeys {e : Late} {ks : List Nat} {bs : List Byte} (h : P.Holds s) : P.Holds (storeKeys e s ks bs) :=
  holds_scatter h

theorem exc_writeRun {n : Need} {va : Nat} {bs : List Byte} (h : P.Holds s) : P.exc (writeRun s n va bs) := by
  unfold writeRun
  split
  · exact exc_error
  · exact exc_ok (holds_storeKeys h)

theorem holds_pack (h : P.Holds s) : P.Holds (pack s) :=
  ⟨h.mem, crew_blank, crews_ite (crews_insertCrew h.crew h.crews) h.crews, ctx_blank, ctxs_ite
    (ctxs_insertCtx h.ctx h.ctxs) h.ctxs⟩

theorem holds_focusParts {crew ctx clus : Nat} (h : P.Holds s) : P.Holds (focusParts s crew ctx clus) :=
  ⟨h.mem, crew_findCrew h.crews, crews_filter h.crews, ctx_findCtx h.ctxs, ctxs_filter h.ctxs⟩

theorem holds_focusWarpOf {id : Nat} (h : P.Holds s) : P.Holds (focusWarpOf s id) := holds_focusParts h

theorem holds_focusWarp {id : Nat} (h : P.Holds s) : P.Holds (focusWarp s id) := holds_focusWarpOf (holds_pack h)

theorem holds_focusSplit {id slot : Nat} (h : P.Holds s) : P.Holds (focusSplit s id slot) := holds_focusWarp h

theorem holds_focusOn {crew ctx clus : Nat} (h : P.Holds s) : P.Holds (focusOn s crew ctx clus) :=
  holds_focusParts (holds_pack h)

theorem holds_focusCrew {id : Nat} (h : P.Holds s) : P.Holds (focusCrew s id) := holds_focusParts (holds_pack h)

theorem holds_retake (ht : P.Holds t) : P.Holds (retake s t) := holds_ite ht ht

theorem holds_onAll {f : State → State} (h : P.Holds s) (hf : ∀ a : State, P.Holds a → P.Holds (f a)) :
    P.Holds (onAll s f) := holds_retake (holds_focusWarpOf (hf _ (holds_pack h)))

theorem holds_inWarp {id : Nat} {f : State → State} (h : P.Holds s) (hf : ∀ a : State, P.Holds a → P.Holds (f a)) :
    P.Holds (inWarp s id f) := holds_ite (hf _ h) (holds_retake (holds_focusWarp (hf _ (holds_focusWarp h))))

theorem holds_onSplit {slot : Nat} {f : State → State} (h : P.Holds s) (hf : ∀ a : State, P.Holds a → P.Holds (f a)) :
    P.Holds (onSplit s slot f) := holds_retake (hf _ h)

theorem holds_storeParts {f : Nat → Late} {va n : Nat} {u : State} {ks : List Nat} {bs : List Byte} (h : P.Holds u) :
    P.Holds (storeParts f va n u ks bs) := by
  fun_induction storeParts f va n u ks bs
  · exact h
  next t _ =>
    have ht : P.Holds t := holds_storeKeys h
    exact ht
  next t _ ih =>
    have ht : P.Holds t := holds_storeKeys h
    exact ih ht

theorem holds_storeRun {f : Nat → Late} {va : Nat} {ks : List Nat} {bs : List Byte} (h : P.Holds s) :
    P.Holds (storeRun f s va ks bs) := holds_storeParts h

theorem exc_jobRun {j : Job} {slot : Option (Nat × Nat × Nat)} {part : Nat} {n : Need} {va : Nat} {bs : List Byte}
    (h : P.Holds s) :
    P.exc (jobRun s j slot part n va bs) := by
  unfold jobRun
  split
  · exact exc_error
  · exact exc_ok (holds_storeRun h)

theorem snd_releaseNow (h : P.Holds s) : P.snd (releaseNow s) := by
  unfold releaseNow
  split
  next t he =>
    have ht : P.Holds t := snd_eq he (snd_takePast h)
    exact ht

theorem holds_fenceMem {pred succ scope : Nat} (h : P.Holds s) : P.Holds (fenceMem s pred succ scope) := by
  unfold fenceMem
  refine holds_ite h ?_
  split
  next t he =>
    have ht : P.Holds t := snd_eq he (snd_takePast h)
    exact ht

theorem holds_performPart {j : Job} {part : Nat} (h : P.Holds s) : P.Holds (performPart s j part) := by
  unfold performPart
  split
  · exact h
  · exact h

theorem holds_kset {n : Nat} {v : DWord} (h : P.Holds s) : P.Holds (kset s n v) := holds_ite h h

theorem holds_xwrite {t l i v : Nat} (h : P.Holds s) : P.Holds (xwrite s t l i v) := holds_ite h h

theorem holds_ksetQuad {d : Nat} {v : Payload} (h : P.Holds s) : P.Holds (ksetQuad s d v) :=
  holds_kset (holds_kset (holds_kset (holds_kset h)))

theorem holds_onCrew {id : Nat} {f : Crew → Crew} (h : P.Holds s) (hf : ∀ a : Crew, P.crew a → P.crew (f a)) :
    P.Holds (onCrew s id f) :=
  holds_ite ⟨h.mem, hf _ h.crew, h.crews, h.ctx, h.ctxs⟩ ⟨h.mem, h.crew, crews_map (fun _ hu => crew_ite (hf _ hu) hu)
    h.crews, h.ctx, h.ctxs⟩

theorem holds_enqueueCopies {n : Nat} (h : P.Holds s) : P.Holds (enqueueCopies s n) := by
  fun_induction enqueueCopies s n
  · exact h
  · exact h
  · exact h
  next t ih =>
    have ht : P.Holds t := holds_onCrew h (fun _ hu => crew_withRing hu
        (fun _ hu1 => ring_of_counts hu1 rfl rfl rfl rfl rfl))
    exact ih ht

theorem holds_dropCommands {p : Command → Bool} (h : P.Holds s) : P.Holds (dropCommands s p) := holds_enqueueCopies h

theorem holds_sendLine {cell : Nat} {line : CopyLine} {stack : Nat} (h : P.Holds s) :
    P.Holds (sendLine s cell line stack) := holds_ite (holds_ite h h) h

theorem holds_arriveLine {stack cell : Nat} {line : CopyLine} (h : P.Holds s) : P.Holds (arriveLine s stack cell line) :=
  holds_ite (holds_sendLine h) h

theorem holds_sendAll {cell : Nat} {line : CopyLine} {ks : List Nat} (h : P.Holds s) : P.Holds (sendAll s cell line ks) :=
  holds_foldl (fun _ _ hu => holds_sendLine hu) h

theorem holds_repairPoison {cell : Nat} {line : CopyLine} (h : P.Holds s) : P.Holds (repairPoison s cell line) :=
  holds_sendAll h

theorem maj_majLoad {cell : Nat} (h : P.Holds s) : P.maj (majLoad s cell) := by
  unfold majLoad
  split
  · exact trivial
  · split
    · exact trivial
    · exact holds_repairPoison (holds_sendAll h)

theorem maj_storePhase {cell wid : Nat} {read : BitVec 64} {payload : Payload} (h : P.Holds s) :
    P.maj (storePhase s cell wid read payload) := by
  dsimp only [storePhase]
  split
  · exact trivial
  · split
    · exact trivial
    · split
      · exact holds_sendAll h
      · split
        · exact holds_sendAll h
        · exact holds_sendAll h

theorem holds_landLines (h : P.Holds s) : P.Holds (landLines s) := by
  unfold landLines
  split
  · exact h
  · exact h
  · exact holds_foldl (fun u _ hu => holds_arriveLine hu) h

theorem maj_majStore {cell wid : Nat} {payload : Payload} (h : P.Holds s) : P.maj (majStore s cell wid payload) := by
  unfold majStore
  split
  · exact trivial
  · split
    · exact trivial
    · exact maj_storePhase h

theorem maj_majCas {cell wid : Nat} {expect : DWord} {payload : Payload} (h : P.Holds s) :
    P.maj (majCas s cell wid expect payload) := by
  unfold majCas
  split
  · exact trivial
  · split
    · exact trivial
    · split
      · exact holds_repairPoison (holds_sendAll h)
      · exact maj_storePhase h

theorem holds_storeOverflow (h : P.Holds s) : P.Holds (storeOverflow s) := by
  unfold storeOverflow
  split
  next t he =>
    have ht : P.Holds t := of_ok he (exc_writeRun h)
    exact ht
  · exact h

theorem holds_evict {may : Split → Bool} (h : P.Holds s) : P.Holds (evict s may) := by
  unfold evict
  split
  · exact h
  · exact holds_storeOverflow h

theorem holds_addSplit {p : Split} (h : P.Holds s) : P.Holds (addSplit s p) := holds_ite (holds_evict h) h

theorem holds_returnOverflow {n : Nat} (h : P.Holds s) : P.Holds (returnOverflow s n) := by
  fun_induction returnOverflow s n
  · exact h
  next ih => exact ih h
  · exact h

theorem holds_branchOff {m : Mask} {f : State → State} (h : P.Holds s) (hf : ∀ a : State, P.Holds a → P.Holds (f a)) :
    P.Holds (branchOff s m f) := holds_addSplit (hf _ h)

theorem holds_divert {m : Mask} {f : State → State} (h : P.Holds s) (hf : ∀ a : State, P.Holds a → P.Holds (f a)) :
    P.Holds (divert s m f) := holds_ite h (holds_ite (hf _ h) (holds_branchOff h (fun _ hu => hf _ hu)))

theorem holds_splitSector {key : Nat} (h : P.Holds s) : P.Holds (splitSector s key) := holds_ite h h

theorem holds_spillWord {q l : Nat} (h : P.Holds s) : P.Holds (spillWord s q l) := by
  unfold spillWord
  split
  · exact h
  · exact ⟨mem_putBytes _ _ ((holds_splitSector h).mem), (holds_splitSector h).crew, (holds_splitSector h).crews,
        (holds_splitSector h).ctx, (holds_splitSector h).ctxs⟩

theorem holds_fillWord {q l : Nat} (h : P.Holds s) : P.Holds (fillWord s q l) := by
  dsimp only [fillWord]
  split
  · exact h
  · exact h

theorem holds_spillAll {m : Mask} {qs : List Nat} (h : P.Holds s) : P.Holds (spillAll s m qs) :=
  holds_foldl (fun _ _ hu => holds_foldl (fun _ _ hu1 => holds_spillWord hu1) hu) h

theorem holds_fillAll {m : Mask} {qs : List Nat} (h : P.Holds s) : P.Holds (fillAll s m qs) :=
  holds_foldl (fun _ _ hu => holds_foldl (fun _ _ hu1 => holds_fillWord hu1) hu) h

theorem holds_pushFrame {p : Slide} {code : Nat} (h : P.Holds s) : P.Holds (pushFrame s p code) := by
  dsimp only [pushFrame]
  split
  · exact h
  · refine holds_foldl (s := s) (fun u l hu => ?_) h
    split
    · exact holds_writeKey hu
    · exact hu

theorem holds_applyUp {p : Slide} {code : Nat} (h : P.Holds s) : P.Holds (applyUp s p code) :=
  holds_spillAll (holds_pushFrame h)

theorem holds_applyDown {p : Slide} (h : P.Holds s) : P.Holds (applyDown s p) := holds_fillAll h

theorem exc_slideUp {code : Nat} (h : P.Holds s) : P.exc (slideUp s code) := by
  unfold slideUp
  split
  · exact exc_error
  · split
    · exact exc_error
    · exact exc_ok (holds_applyUp h)

theorem exc_slideDown (h : P.Holds s) : P.exc (slideDown s) := by
  unfold slideDown
  split
  · exact exc_error
  · split
    · exact exc_error
    · exact exc_ok (holds_applyDown h)

theorem holds_claim {wid cell : Nat} {loss : Bool} {size : Nat} {mk : Nat → List Byte} {n : Nat} (h : P.Holds s) :
    P.Holds (claim s wid cell loss size mk n) := by
  fun_induction claim s wid cell loss size mk n
  · exact h
  next s2 he _ _ _ =>
    have hs2 : P.Holds s2 := maj_done he (maj_majLoad h)
    exact hs2
  next s2 he _ _ _ _ _ _ _ _ u he2 t he3 =>
    have hs2 : P.Holds s2 := maj_done he (maj_majLoad h)
    have hu : P.Holds u := maj_done he2 (maj_majCas hs2)
    have ht : P.Holds t := of_ok he3 (exc_writeRun hu)
    exact ht
  next s2 he _ _ _ _ _ _ _ _ u he2 _ _ =>
    have hs2 : P.Holds s2 := maj_done he (maj_majLoad h)
    have hu : P.Holds u := maj_done he2 (maj_majCas hs2)
    exact hu
  next s2 he _ _ _ _ _ _ _ u he2 ih =>
    have hs2 : P.Holds s2 := maj_done he (maj_majLoad h)
    have hu : P.Holds u := maj_done he2 (maj_majCas hs2)
    exact ih hu
  next s2 he _ _ _ _ _ _ _ _ =>
    have hs2 : P.Holds s2 := maj_done he (maj_majLoad h)
    exact hs2
  · exact h

theorem holds_writeJob {j : LogJob} (h : P.Holds s) : P.Holds (writeJob s j) := holds_claim h

theorem holds_logRecord {flog : DWord} {w : Warp} {loss : Bool} {record : List Byte} (h : P.Holds s) :
    P.Holds (logRecord s flog w loss record) := by
  unfold logRecord
  refine holds_ite h ?_
  split
  · exact h
  · exact holds_ite h (holds_writeJob h)

theorem holds_flushLogs {n : Nat} (h : P.Holds s) : P.Holds (flushLogs s n) := by
  fun_induction flushLogs s n
  · exact h
  · exact h
  next ih => exact ih (holds_pack (holds_writeJob (holds_focusOn h)))

theorem holds_logEvent {w : Warp} {e : LogEvent} (h : P.Holds s) : P.Holds (logEvent s w e) := holds_logRecord h

theorem holds_logLoss {kind lane addr : Nat} (h : P.Holds s) : P.Holds (logLoss s kind lane addr) := holds_logRecord h

end Sys2Proof.Machine.Storage
end

section
/-! SUPPORT. The storage laws at the bodies of register, control and special-register instructions. -/

namespace Sys2Proof.Machine.Storage
variable {P : StorageLaw} {s t : State}

theorem holds_park {c : Byte} {pc : DWord} {kind : ParkKind} (h : P.Holds s) : P.Holds (park s c pc kind) := holds_ite h h

theorem holds_parkIdle {c : Byte} {w : Warp} (h : P.Holds s) : P.Holds (parkIdle s c w) := holds_logEvent (holds_park h)

theorem holds_release (h : P.Holds s) : P.Holds (release s) :=
  ⟨h.mem, crew_ite h.crew h.crew, crews_map (fun _ hu => crew_ite hu hu) h.crews, h.ctx, h.ctxs⟩

theorem holds_hold {c : Byte} (h : P.Holds s) : P.Holds (hold s c) := ⟨h.mem, crew_ite h.crew h.crew, h.crews, h.ctx, h.ctxs⟩

theorem holds_enterTrap {c : Byte} {v pc : DWord} (h : P.Holds s) : P.Holds (enterTrap s c v pc) := by
  dsimp only [enterTrap]
  refine holds_ite h ?_
  refine holds_ite (holds_logEvent (holds_park h)) ?_
  split
  · exact holds_logEvent (holds_park h)
  next a he =>
    have ha : P.Holds a := of_ok he (exc_slideUp h)
    exact holds_ite (holds_logEvent (holds_hold ha)) (holds_hold ha)

theorem holds_countError {c : Byte} (h : P.Holds s) : P.Holds (countError s c) := holds_ite h (holds_ite h h)

theorem holds_takeTrap {s0 : State} {c : Byte} {v pc : DWord} (h : P.Holds s0) : P.Holds (takeTrap s0 c v pc) :=
  holds_ite h (holds_ite (holds_logEvent (holds_park (holds_countError h)))
    (holds_ite h (holds_enterTrap (holds_countError h))))

theorem exc_returnTrap (h : P.Holds s) : P.exc (returnTrap s) := by
  unfold returnTrap
  split
  · exact exc_error
  · split
    · exact exc_error
    next a he1 =>
      have ha : P.Holds a := of_ok he1 (exc_slideDown h)
      exact exc_ok (holds_release ha)

theorem holds_stopSplit {c : Byte} {v pc : DWord} (h : P.Holds s) : P.Holds (stopSplit s c v pc) := holds_ite h h

theorem holds_levelGroup {g : List Split} {f : Nat} (h : P.Holds s) : P.Holds (levelGroup s g f) :=
  holds_foldl (fun _ _ hu => holds_spillAll hu) h

theorem holds_putBack {inTable : Bool} (h : P.Holds s) : P.Holds (putBack s inTable) :=
  holds_ite h (holds_ite (holds_ite (holds_evict h) h) h)

theorem holds_mergeGroup {g : List Split} {a : DWord} {arriving : Option Nat} (h : P.Holds s) :
    P.Holds (mergeGroup s g a arriving) := by
  dsimp only [mergeGroup]
  split
  · exact h
  · split
    · exact holds_putBack (holds_takeTrap h)
    · exact holds_putBack (holds_ite (holds_takeTrap (holds_ite (holds_ite (holds_levelGroup h) h)
          (holds_ite (holds_levelGroup h) h))) (holds_ite (holds_levelGroup h) h))

theorem holds_mergeLoop {arriving : Option Nat} {n : Nat} (h : P.Holds s) : P.Holds (mergeLoop s arriving n) := by
  fun_induction mergeLoop s arriving n
  · exact h
  · exact h
  · exact h
  next ih => exact ih (holds_mergeGroup h)

theorem holds_mergeAll {arriving : Option Nat} (h : P.Holds s) : P.Holds (mergeAll s arriving) :=
  holds_ite (holds_retake (holds_returnOverflow (holds_mergeLoop h))) h

theorem holds_handlerGone (h : P.Holds s) : P.Holds (handlerGone s) := holds_ite h (holds_ite (holds_release h) h)

theorem holds_endCrew (h : P.Holds s) : P.Holds (endCrew s) :=
  holds_dropCommands ⟨h.mem, rings_blank _, h.crews, h.ctx, h.ctxs⟩

theorem holds_endWarp (h : P.Holds s) : P.Holds (endWarp s) :=
  holds_ite ⟨h.mem, crew_ite h.crew h.crew, crews_map (fun _ hu => crew_ite hu hu) h.crews, h.ctx, h.ctxs⟩
    (holds_ite (holds_endCrew ⟨h.mem, crew_ite h.crew h.crew, crews_map (fun _ hu => crew_ite hu hu) h.crews, h.ctx,
    h.ctxs⟩) ⟨h.mem, crew_ite h.crew h.crew, crews_map (fun _ hu => crew_ite hu hu) h.crews, h.ctx, h.ctxs⟩)

theorem holds_rejudge {arriving : Option Nat} (h : P.Holds s) : P.Holds (rejudge s arriving) :=
  holds_ite (holds_endWarp (holds_returnOverflow (holds_mergeAll (holds_handlerGone h))))
    (holds_returnOverflow (holds_mergeAll (holds_handlerGone h)))

theorem holds_strandCore {m : Mask} {kind : Nat} {pc : DWord} {addr : Nat → Nat} (h : P.Holds s) :
    P.Holds (strandCore s m kind pc addr) := holds_ite h (holds_foldl (fun _ _ hu => holds_logLoss hu) (holds_logEvent h))

theorem holds_stopNow (h : P.Holds s) : P.Holds (stopNow s) := by
  unfold stopNow
  split
  · exact holds_stopSplit h
  · exact holds_stopSplit h

theorem holds_onOverflow {n : Nat} {f : State → State} (h : P.Holds s) (hf : ∀ a : State, P.Holds a → P.Holds (f a)) :
    P.Holds (onOverflow s n f) := by
  unfold onOverflow
  split
  · exact h
  · exact hf _ h

theorem holds_stopParked {n : Nat} (h : P.Holds s) : P.Holds (stopParked s n) := by
  unfold stopParked
  split
  · exact holds_ite (holds_onOverflow h (fun _ hu => holds_stopNow hu)) h
  · exact h

theorem holds_stopSteps (h : P.Holds s) : P.Holds (stopSteps s) :=
  holds_foldl (fun _ _ hu => holds_stopParked hu) (holds_foldl (fun _ _ hu => holds_onSplit hu
    (fun _ hu1 => holds_stopNow hu1)) (holds_ite (holds_stopNow h) h))

theorem holds_loseItem {lane : Nat} (h : P.Holds s) : P.Holds (loseItem s lane) :=
  holds_ite h (holds_stopSteps (holds_rejudge (holds_strandCore h)))

theorem holds_strandLanes {m : Mask} {kind : Nat} {pc : DWord} {addr : Nat → Nat} (h : P.Holds s) :
    P.Holds (strandLanes s m kind pc addr) :=
  holds_ite h (holds_rejudge (holds_foldl (fun _ _ hu => holds_inWarp hu (fun _ hu1 => holds_loseItem hu1))
    (holds_strandCore h)))

theorem res_then {r : Res} {f : State → State} (hr : P.res r) (hf : ∀ u, P.Holds u → P.Holds (f u)) :
    P.res (r.then f) := by
  cases r with
  | ok u => exact hf u hr
  | jump u => exact hf u hr
  | trap c v pc u => exact hr
  | wait u => exact hr

theorem holds_consume {i : Instr} (h : P.Holds s) : P.Holds (consume s i) := holds_ite h (holds_strandLanes h)

theorem holds_finish {i : Instr} {again : Bool} {r : Res} (hr : P.res r) : P.Holds (finish i again r) := by
  cases r with
  | ok u => exact holds_stopSteps (s := advance _) (holds_ite (s := wake u) (t := dropArgs u) hr hr)
  | jump u => exact holds_stopSteps (holds_ite (s := wake u) (t := dropArgs u) hr hr)
  | wait u => exact hr
  | trap c v pc u => exact holds_stopSteps (holds_takeTrap
      (holds_ite (s := wake u) (t := dropArgs u) hr hr))

theorem holds_issueW {i : Instr} {body : Bool → State → Res} (h : ∀ (a : Bool) (b : State), P.Holds b → P.res (body a b))
    (hs : P.Holds s) :
    P.Holds (issueW i body s) := by
  unfold issueW
  refine holds_ite (holds_finish (h _ _ hs)) ?_
  split
  · exact holds_takeTrap hs
  · exact holds_finish (h _ _ (holds_consume hs))

theorem holds_issue {i : Instr} {body : State → Res} (h : ∀ a : State, P.Holds a → P.res (body a)) (hs : P.Holds s) :
    P.Holds (issue i body s) := holds_issueW (fun _ _ hu => h _ hu) hs

theorem out_event {f : Option State} (h : P.opt f) (hs : P.Holds s) : P.out (event f s) := holds_getD h hs

theorem out_run {i : Instr} {body : State → Res} (h : ∀ a : State, P.Holds a → P.res (body a)) (hs : P.Holds s) :
    P.out (run i body s) := holds_issue (fun _ hu => h _ hu) hs

theorem out_runW {i : Instr} {body : Bool → State → Res} (h : ∀ (a : Bool) (b : State), P.Holds b → P.res (body a b))
    (hs : P.Holds s) :
    P.out (runW i body s) := holds_issueW (fun _ _ hu => h _ _ hu) hs

theorem holds_perLane {f : Nat → State → State} (h : P.Holds s) (hf : ∀ (a : Nat) (b : State), P.Holds b → P.Holds (f a b)) :
    P.Holds (perLane s f) := holds_foldl (fun _ _ hu => hf _ _ hu) h

theorem res_once {f : State → Res} (h : P.Holds s) (hf : ∀ a : State, P.Holds a → P.res (f a)) : P.res (once s f) := by
  unfold once
  split
  · exact hf _ h
  · exact h

theorem res_lanes2 {d : Nat} {a b : State → Nat → Nat} {f : Nat → Nat → Nat → Nat} (h : P.Holds s) :
    P.res (lanes2 d a b f s) := holds_perLane h (fun _ _ hu => holds_xwrite hu)

theorem res_intBinary {f : IntOp} {d a b : BitVec 6} {u : BitVec 1} (h : P.Holds s) :
    P.res (intBinary f d a b u s) := res_lanes2 h

theorem res_intUnary {f : IntOp} {d a : BitVec 6} (h : P.Holds s) : P.res (intUnary f d a s) := res_lanes2 h

theorem res_intImm {f : IntOp} {d a : BitVec 6} {imm : Int} (h : P.Holds s) : P.res (intImm f d a imm s) := by
  unfold intImm
  exact res_lanes2 h

theorem res_bitwise {f : Nat → Nat → Nat} {d : BitVec 6} {a b : State → Nat → Nat} (h : P.Holds s) :
    P.res (bitwise f d a b s) := res_lanes2 h

theorem out_execAdd {d a b : BitVec 6} {u : BitVec 1} (h : P.Holds s) : P.out (execAdd d a b u s) :=
  out_run (fun _ hu => res_intBinary hu) h

theorem out_execSub {d a b : BitVec 6} {u : BitVec 1} (h : P.Holds s) : P.out (execSub d a b u s) :=
  out_run (fun _ hu => res_intBinary hu) h

theorem out_execMul {d a b : BitVec 6} {u : BitVec 1} (h : P.Holds s) : P.out (execMul d a b u s) :=
  out_run (fun _ hu => res_intBinary hu) h

theorem out_execMulh {d a b : BitVec 6} {u : BitVec 1} (h : P.Holds s) : P.out (execMulh d a b u s) :=
  out_run (fun _ hu => res_intBinary hu) h

theorem out_execMin {d a b : BitVec 6} {u : BitVec 1} (h : P.Holds s) : P.out (execMin d a b u s) :=
  out_run (fun _ hu => res_intBinary hu) h

theorem out_execMax {d a b : BitVec 6} {u : BitVec 1} (h : P.Holds s) : P.out (execMax d a b u s) :=
  out_run (fun _ hu => res_intBinary hu) h

theorem out_execAbs {d a : BitVec 6} (h : P.Holds s) : P.out (execAbs d a s) := out_run (fun _ hu => res_intUnary hu) h

theorem out_execNeg {d a : BitVec 6} (h : P.Holds s) : P.out (execNeg d a s) := out_run (fun _ hu => res_intUnary hu) h

theorem out_execAnd {d a b : BitVec 6} {u : BitVec 1} (h : P.Holds s) : P.out (execAnd d a b u s) :=
  out_run (fun _ hu => res_bitwise hu) h

theorem out_execOr {d a b : BitVec 6} {u : BitVec 1} (h : P.Holds s) : P.out (execOr d a b u s) :=
  out_run (fun _ hu => res_bitwise hu) h

theorem out_execXor {d a b : BitVec 6} {u : BitVec 1} (h : P.Holds s) : P.out (execXor d a b u s) :=
  out_run (fun _ hu => res_bitwise hu) h

theorem out_execAndn {d a b : BitVec 6} {u : BitVec 1} (h : P.Holds s) : P.out (execAndn d a b u s) :=
  out_run (fun _ hu => res_bitwise hu) h

theorem out_execShl {d a b : BitVec 6} {u : BitVec 1} (h : P.Holds s) : P.out (execShl d a b u s) :=
  out_run (fun _ hu => res_intBinary hu) h

theorem out_execShr {d a b : BitVec 6} {u : BitVec 1} (h : P.Holds s) : P.out (execShr d a b u s) :=
  out_run (fun _ hu => res_intBinary hu) h

theorem out_execSar {d a b : BitVec 6} {u : BitVec 1} (h : P.Holds s) : P.out (execSar d a b u s) :=
  out_run (fun _ hu => res_intBinary hu) h

theorem out_execRol {d a b : BitVec 6} {u : BitVec 1} (h : P.Holds s) : P.out (execRol d a b u s) :=
  out_run (fun _ hu => res_intBinary hu) h

theorem out_execMad {d a b c : BitVec 6} (h : P.Holds s) : P.out (execMad d a b c s) :=
  out_run (fun _ hu => holds_perLane hu (fun _ _ hu1 => holds_xwrite hu1)) h

theorem out_execAddi {d a : BitVec 6} {i : BitVec 12} (h : P.Holds s) : P.out (execAddi d a i s) :=
  out_run (fun _ hu => res_intUnary hu) h

theorem out_execAndi {d a : BitVec 6} {i : BitVec 12} (h : P.Holds s) : P.out (execAndi d a i s) :=
  out_run (fun _ hu => res_bitwise hu) h

theorem out_execOri {d a : BitVec 6} {i : BitVec 12} (h : P.Holds s) : P.out (execOri d a i s) :=
  out_run (fun _ hu => res_bitwise hu) h

theorem out_execXori {d a : BitVec 6} {i : BitVec 12} (h : P.Holds s) : P.out (execXori d a i s) :=
  out_run (fun _ hu => res_bitwise hu) h

theorem out_execShli {d a n : BitVec 6} (h : P.Holds s) : P.out (execShli d a n s) := out_run (fun _ hu => res_intUnary hu) h

theorem out_execShri {d a n : BitVec 6} (h : P.Holds s) : P.out (execShri d a n s) := out_run (fun _ hu => res_intUnary hu) h

theorem out_execSari {d a n : BitVec 6} (h : P.Holds s) : P.out (execSari d a n s) := out_run (fun _ hu => res_intUnary hu) h

theorem out_execMuli {d a : BitVec 6} {i : BitVec 12} (h : P.Holds s) : P.out (execMuli d a i s) :=
  out_run (fun _ hu => res_intUnary hu) h

theorem out_execMini {d a : BitVec 6} {i : BitVec 12} (h : P.Holds s) : P.out (execMini d a i s) :=
  out_run (fun _ hu => res_intImm hu) h

theorem out_execMaxi {d a : BitVec 6} {i : BitVec 12} (h : P.Holds s) : P.out (execMaxi d a i s) :=
  out_run (fun _ hu => res_intImm hu) h

theorem out_execCmp {d a b : BitVec 6} {u : BitVec 1} {c : BitVec 5} (h : P.Holds s) :
    P.out (execCmp d a b u c s) := out_run (fun _ hu => hu) h

theorem out_execCmpi {p c : BitVec 3} {a : BitVec 6} {i : BitVec 12} (h : P.Holds s) : P.out (execCmpi p c a i s) :=
  out_run (fun _ hu => hu) h

theorem res_lanes32 {d : Nat} {f : Nat → Word} (h : P.Holds s) : P.res (lanes32 d f s) := holds_perLane h (fun _ _ hu => hu)

theorem out_execSel {d a b : BitVec 6} {u : BitVec 1} {n : BitVec 3} (h : P.Holds s) :
    P.out (execSel d a b u n s) := out_run (fun _ hu => res_lanes32 hu) h

theorem out_execPopc {d a : BitVec 6} (h : P.Holds s) : P.out (execPopc d a s) := out_run (fun _ hu => res_lanes32 hu) h

theorem out_execClz {d a : BitVec 6} (h : P.Holds s) : P.out (execClz d a s) := out_run (fun _ hu => res_lanes32 hu) h

theorem out_execBrev {d a : BitVec 6} (h : P.Holds s) : P.out (execBrev d a s) := out_run (fun _ hu => res_lanes32 hu) h

theorem out_execPerm {d a b c : BitVec 6} (h : P.Holds s) : P.out (execPerm d a b c s) :=
  out_run (fun _ hu => res_lanes32 hu) h

theorem out_execBfx {d a n p : BitVec 6} (h : P.Holds s) : P.out (execBfx d a n p s) := by
  unfold execBfx
  refine out_run (fun u hu => ?_) h
  split
  · split
    · exact hu
    · exact hu
  · exact res_lanes2 hu

theorem out_execBfi {d a n p : BitVec 6} (h : P.Holds s) : P.out (execBfi d a n p s) := by
  unfold execBfi
  refine out_run (fun u hu => ?_) h
  split
  · split
    · exact hu
    · exact hu
  · exact res_lanes2 hu

theorem out_execMovx {d a : BitVec 6} (h : P.Holds s) : P.out (execMovx d a s) := out_run (fun _ hu => res_lanes32 hu) h

theorem out_execMovxK {d b : BitVec 6} (h : P.Holds s) : P.out (execMovxK d b s) := out_run (fun _ hu => res_lanes32 hu) h

theorem out_execMovi {d : BitVec 6} {i : BitVec 18} (h : P.Holds s) : P.out (execMovi d i s) :=
  out_run (fun _ hu => res_lanes32 hu) h

theorem out_execMovh {d : BitVec 6} {i : BitVec 18} (h : P.Holds s) : P.out (execMovh d i s) :=
  out_run (fun _ hu => res_lanes32 hu) h

theorem out_execPmov {d a : BitVec 6} (h : P.Holds s) : P.out (execPmov d a s) :=
  out_run (fun _ hu => res_once hu (fun _ hu1 => holds_kset hu1)) h

theorem out_execPset {d a : BitVec 6} (h : P.Holds s) : P.out (execPset d a s) := out_run (fun _ hu => hu) h

theorem out_execPlog {d a b : BitVec 6} {t : BitVec 4} (h : P.Holds s) : P.out (execPlog d a b t s) :=
  out_run (fun _ hu => hu) h

theorem out_execNop (h : P.Holds s) : P.out (execNop s) := out_run (fun _ hu => hu) h

theorem out_execBra {p : BitVec 3} {q : BitVec 1} {d : BitVec 20} (h : P.Holds s) : P.out (execBra p q d s) :=
  out_run (fun _ hu => holds_divert hu (fun _ hu1 => hu1)) h

theorem out_execJmpk {a : BitVec 6} (h : P.Holds s) : P.out (execJmpk a s) := by
  dsimp only [execJmpk]
  refine out_run (fun u hu => ?_) h
  split
  · exact hu
  · exact holds_divert hu (fun _ hu1 => hu1)

theorem holds_writeReturn {ra : DWord} (h : P.Holds s) : P.Holds (writeReturn ra s) := holds_foldl (fun _ _ hu => hu) h

theorem holds_callHalf {code : Nat} {t ra : DWord} (h : P.Holds s) : P.Holds (callHalf code t ra s) := by
  unfold callHalf
  split
  next u he =>
    have hu : P.Holds u := of_ok he (exc_slideUp h)
    exact holds_writeReturn hu
  · exact h

theorem res_callBody {code : Nat} {t : DWord} (h : P.Holds s) : P.res (callBody code t s) := by
  dsimp only [callBody]
  split
  · exact h
  · split
    · exact h
    · exact holds_divert h (fun _ hu => holds_callHalf hu)

theorem out_execCall {c : BitVec 4} {d : BitVec 20} (h : P.Holds s) : P.out (execCall c d s) :=
  out_run (fun _ hu => res_callBody hu) h

theorem out_execCallk {a : BitVec 6} {c : BitVec 4} (h : P.Holds s) : P.out (execCallk a c s) := by
  dsimp only [execCallk]
  refine out_run (fun u hu => ?_) h
  split
  · exact hu
  · exact res_callBody hu

theorem holds_retHalf {dest : DWord} (h : P.Holds s) : P.Holds (retHalf dest s) := by
  unfold retHalf
  split
  next u he =>
    have hu : P.Holds u := of_ok he (exc_slideDown h)
    exact hu
  · exact h

theorem holds_returnLanes {m : Mask} {groups : List RetGroup} (h : P.Holds s) : P.Holds (returnLanes s m groups) := by
  unfold returnLanes
  split
  · exact holds_ite (holds_foldl (fun u1 _ hu => holds_branchOff hu (fun _ hu1 => holds_retHalf hu1)) h) h
  · exact holds_ite (holds_foldl (fun u1 _ hu => holds_branchOff hu (fun _ hu1 => holds_retHalf hu1)) h) (holds_retHalf h)
  · exact holds_ite (holds_foldl (fun u1 _ hu => holds_branchOff hu (fun _ hu1 => holds_retHalf hu1)) h)
        (holds_retHalf (holds_foldl (fun u1 _ hu => holds_branchOff hu (fun _ hu1 => holds_retHalf hu1)) h))

theorem res_retBody (h : P.Holds s) : P.res (retBody s) := by
  dsimp only [retBody]
  split
  · exact h
  · split
    · exact h
    · split
      · exact h
      · split
        · exact h
        · split
          · exact h
          · exact holds_returnLanes h

theorem out_execRet (h : P.Holds s) : P.out (execRet s) := out_run (fun _ hu => res_retBody hu) h

theorem out_execSrcv {d : BitVec 24} (h : P.Holds s) : P.out (execSrcv d s) :=
  out_run (fun _ hu => res_once hu (fun _ hu1 => holds_mergeAll hu1)) h

theorem out_execRcv (h : P.Holds s) : P.out (execRcv s) := by
  unfold execRcv
  refine out_run (fun u hu => ?_) h
  refine res_once hu (fun u1 hu1 => ?_)
  split
  · exact hu1
  · exact holds_rejudge hu1

theorem out_execExit (h : P.Holds s) : P.out (execExit s) := by
  unfold execExit
  refine out_run (fun u hu => ?_) h
  refine res_once hu (fun u1 hu1 => ?_)
  split
  · exact hu1
  · exact holds_rejudge hu1

theorem out_execYield (h : P.Holds s) : P.out (execYield s) := out_run (fun _ hu => res_once hu (fun _ hu1 => hu1)) h

theorem out_execYieldp (h : P.Holds s) : P.out (execYieldp s) := by
  unfold execYieldp
  refine out_runW (fun _ u hu => ?_) h
  split
  · split
    · exact hu
    · exact hu
  · refine res_once hu (fun u1 hu1 => ?_)
    split
    · exact hu1
    · exact hu1

theorem out_execSleep {a : BitVec 6} (h : P.Holds s) : P.out (execSleep a s) := by
  unfold execSleep
  refine out_runW (fun _ u hu => ?_) h
  split
  · split
    · exact hu
    · exact hu
  · exact res_once hu (fun _ hu1 => hu1)

theorem out_execSetm {m : BitVec 18} (h : P.Holds s) : P.out (execSetm m s) := by
  unfold execSetm
  refine out_run (fun u hu => ?_) h
  refine res_once hu (fun u1 hu1 => ?_)
  split
  · exact hu1
  · exact hu1

theorem out_execSetg {q : BitVec 1} {g : BitVec 3} (h : P.Holds s) : P.out (execSetg q g s) := by
  unfold execSetg
  refine out_run (fun u hu => ?_) h
  refine res_once hu (fun u1 hu1 => ?_)
  split
  · exact hu1
  · exact hu1

theorem out_execSigchk {i : BitVec 24} (h : P.Holds s) : P.out (execSigchk i s) := by
  unfold execSigchk
  refine out_run (fun u hu => ?_) h
  refine res_once hu (fun u1 hu1 => ?_)
  split
  · exact hu1
  · exact hu1

theorem out_execTrap {v : BitVec 16} {c : BitVec 8} (h : P.Holds s) : P.out (execTrap v c s) :=
  out_run (fun _ hu => res_once hu (fun _ hu1 => hu1)) h

theorem out_execTret (h : P.Holds s) : P.out (execTret s) := by
  unfold execTret
  refine out_run (fun u hu => ?_) h
  refine res_once hu (fun u1 hu1 => ?_)
  split
  · exact hu1
  next t he =>
    have ht : P.Holds t := of_ok he (exc_returnTrap hu1)
    exact holds_mergeAll ht

theorem out_execBkpt {i : BitVec 24} (h : P.Holds s) : P.out (execBkpt i s) :=
  out_run (fun _ hu => res_once hu (fun _ hu1 => holds_stopSplit hu1)) h

theorem out_execSetrl {d : BitVec 24} (h : P.Holds s) : P.out (execSetrl d s) := by
  unfold execSetrl
  refine out_run (fun u hu => ?_) h
  refine res_once hu (fun u1 hu1 => ?_)
  split
  · exact hu1
  · exact hu1

theorem out_execSrd {d : BitVec 6} {k : BitVec 1} {i : BitVec 6} (h : P.Holds s) : P.out (execSrd d k i s) := by
  unfold execSrd
  refine out_run (fun u hu => ?_) h
  split
  · exact res_lanes32 hu
  · refine res_once hu (fun u1 hu1 => ?_)
    split
    · exact holds_kset hu1
    · exact holds_kset hu1

theorem res_swr {a : BitVec 6} {k : BitVec 1} {f : DWord → State → Res}
    (h : ∀ (a : DWord) (b : State), P.Holds b → P.res (f a b)) (hs : P.Holds s) :
    P.res (swr a k f s) := res_once hs (fun _ hu => h _ _ hu)

theorem out_execSwrMode {a : BitVec 6} {k : BitVec 1} (h : P.Holds s) : P.out (execSwrMode a k s) := by
  dsimp only [execSwrMode]
  refine out_run (fun u hu => ?_) h
  refine res_swr (fun _ u1 hu1 => ?_) hu
  split
  · exact hu1
  · split
    · exact hu1
    · exact hu1

theorem out_execSwrFflags {a : BitVec 6} {k : BitVec 1} (h : P.Holds s) : P.out (execSwrFflags a k s) :=
  out_run (fun _ hu => res_swr (fun _ _ hu1 => hu1) hu) h

theorem out_execSwrStrand {a : BitVec 6} {k : BitVec 1} (h : P.Holds s) : P.out (execSwrStrand a k s) :=
  out_run (fun _ hu => res_swr (fun _ _ hu1 => holds_strandLanes hu1) hu) h

theorem out_execSwrSpillb {a : BitVec 6} {k : BitVec 1} (h : P.Holds s) : P.out (execSwrSpillb a k s) := by
  unfold execSwrSpillb
  refine out_run (fun u hu => ?_) h
  refine res_swr (fun _ u1 hu1 => ?_) hu
  split
  · exact hu1
  · split
    · exact hu1
    · split
      · exact hu1
      · exact hu1

theorem out_execSwrTrapc {a : BitVec 6} {k : BitVec 1} (h : P.Holds s) : P.out (execSwrTrapc a k s) :=
  out_run (fun _ hu => res_swr (fun _ _ hu1 => hu1) hu) h

theorem out_execSwrTrapv {a : BitVec 6} {k : BitVec 1} (h : P.Holds s) : P.out (execSwrTrapv a k s) :=
  out_run (fun _ hu => res_swr (fun _ _ hu1 => hu1) hu) h

theorem out_execSwrTrappc {a : BitVec 6} {k : BitVec 1} (h : P.Holds s) : P.out (execSwrTrappc a k s) := by
  unfold execSwrTrappc
  refine out_run (fun u hu => ?_) h
  refine res_swr (fun _ u1 hu1 => ?_) hu
  split
  · exact hu1
  · exact hu1

theorem out_execSwrOvt {a : BitVec 6} {k : BitVec 1} (h : P.Holds s) : P.out (execSwrOvt a k s) := by
  unfold execSwrOvt
  refine out_run (fun u hu => ?_) h
  refine res_swr (fun _ u1 hu1 => ?_) hu
  split
  · exact hu1
  · exact hu1

theorem out_execOvtld {a : BitVec 6} (h : P.Holds s) : P.out (execOvtld a s) := by
  unfold execOvtld
  refine out_run (fun u hu => ?_) h
  refine res_once hu (fun u1 hu1 => ?_)
  split
  · exact hu1
  · exact hu1

theorem res_lanesF {t d : Nat} {f : Nat → Nat × BitVec 5} (h : P.Holds s) : P.res (lanesF t d f s) :=
  holds_perLane h (fun _ _ hu => holds_xwrite hu)

theorem res_floatBinary {f : Nat → FV → FV → FV × BitVec 5} {d a b : BitVec 6} {u : BitVec 1} (h : P.Holds s) :
    P.res (floatBinary f d a b u s) := res_lanesF h

theorem out_execFadd {d a b : BitVec 6} {u : BitVec 1} (h : P.Holds s) : P.out (execFadd d a b u s) :=
  out_run (fun _ hu => res_floatBinary hu) h

theorem out_execFsub {d a b : BitVec 6} {u : BitVec 1} (h : P.Holds s) : P.out (execFsub d a b u s) :=
  out_run (fun _ hu => res_floatBinary hu) h

theorem out_execFmul {d a b : BitVec 6} {u : BitVec 1} (h : P.Holds s) : P.out (execFmul d a b u s) :=
  out_run (fun _ hu => res_floatBinary hu) h

theorem out_execFma {d a b c : BitVec 6} (h : P.Holds s) : P.out (execFma d a b c s) := out_run (fun _ hu => res_lanesF hu) h

theorem res_fminmaxBody {isMax : Bool} {d a b : BitVec 6} {u : BitVec 1} (h : P.Holds s) :
    P.res (fminmaxBody isMax d a b u s) := res_lanes2 h

theorem out_execFmin {d a b : BitVec 6} {u : BitVec 1} (h : P.Holds s) : P.out (execFmin d a b u s) :=
  out_run (fun _ hu => res_fminmaxBody hu) h

theorem out_execFmax {d a b : BitVec 6} {u : BitVec 1} (h : P.Holds s) : P.out (execFmax d a b u s) :=
  out_run (fun _ hu => res_fminmaxBody hu) h

theorem res_signBody {f : Fmt → Nat → Nat} {d a : BitVec 6} (h : P.Holds s) : P.res (signBody f d a s) := res_lanes2 h

theorem out_execFabs {d a : BitVec 6} (h : P.Holds s) : P.out (execFabs d a s) := out_run (fun _ hu => res_signBody hu) h

theorem out_execFneg {d a : BitVec 6} (h : P.Holds s) : P.out (execFneg d a s) := out_run (fun _ hu => res_signBody hu) h

theorem out_execFcmp {d a b : BitVec 6} {u : BitVec 1} {c : BitVec 5} (h : P.Holds s) :
    P.out (execFcmp d a b u c s) := out_run (fun _ hu => hu) h

theorem out_execFrnd {d a : BitVec 6} (h : P.Holds s) : P.out (execFrnd d a s) := out_run (fun _ hu => res_lanesF hu) h

theorem out_execFcls {d a : BitVec 6} (h : P.Holds s) : P.out (execFcls d a s) := out_run (fun _ hu => res_lanes32 hu) h

theorem res_cvtBody {mode : Nat} {d a : BitVec 6} {st : Nat} (h : P.Holds s) : P.res (cvtBody mode d a st s) := res_lanesF h

theorem out_execCvt {d a : BitVec 6} {f : BitVec 4} (h : P.Holds s) : P.out (execCvt d a f s) :=
  out_run (fun _ hu => res_cvtBody hu) h

theorem out_execCvtz {d a : BitVec 6} {f : BitVec 4} (h : P.Holds s) : P.out (execCvtz d a f s) :=
  out_run (fun _ hu => res_cvtBody hu) h

theorem out_execPack {d a b : BitVec 6} {f : BitVec 4} (h : P.Holds s) : P.out (execPack d a b f s) :=
  out_run (fun _ hu => res_lanesF hu) h

theorem out_execUnpk {d a : BitVec 6} {h1 : BitVec 1} {f : BitVec 4} (h : P.Holds s) : P.out (execUnpk d a h1 f s) :=
  out_run (fun _ hu => res_lanesF hu) h

end Sys2Proof.Machine.Storage
end

section
/-! SUPPORT. The storage laws at lane memory, tensors and rings (06 R167 to R194). -/

namespace Sys2Proof.Machine.Storage
variable {P : StorageLaw} {s t : State}

theorem res_laneAccess {n : Need} {size : Nat} {m : MForm} {f : Nat → Nat → State → State}
    (h : ∀ (a b : Nat) (c : State), P.Holds c → P.Holds (f a b c)) (hs : P.Holds s) :
    P.res (laneAccess n size m f s) := by
  unfold laneAccess
  split
  · exact hs
  · exact holds_foldl (fun u _ hu => h _ _ _ hu) hs

theorem holds_loadReg {l r : Nat} {v : Word} {bad : Bool} {n : Nat} (h : P.Holds s) : P.Holds (loadReg s l r v bad n) :=
  holds_ite h h

theorem res_loadBody {size regs : Nat} {sg : Bool} {d : BitVec 6} {m : MForm} (h : P.Holds s) :
    P.res (loadBody size regs sg d m s) :=
  res_then (res_laneAccess (fun _ _ _ hu => holds_foldl (fun _ _ hu1 => holds_loadReg hu1) hu) h) (fun _ hu => hu)

theorem holds_laneStore {rel : Option Past} {rmw : Bool} {lanes : Mask} {va key : Nat} {bs : List Byte} (ht : P.Holds t) :
    P.Holds (laneStore s rel rmw lanes va key bs t) := holds_storeKey ht

theorem res_storeBody {size regs : Nat} {d : BitVec 6} {m : MForm} {rel : Option Past} (h : P.Holds s) :
    P.res (storeBody size regs d m rel s) := res_laneAccess (fun _ _ _ hu => holds_laneStore hu) h

theorem res_withRelease {body : Past → State → Res} (h : ∀ (a : Past) (b : State), P.Holds b → P.res (body a b))
    (hs : P.Holds s) :
    P.res (withRelease body s) := by
  unfold withRelease
  split
  · exact hs
  · exact h _ _ (snd_releaseNow hs)

theorem res_acquireBody {d : BitVec 6} {m : MForm} (h : P.Holds s) : P.res (acquireBody d m s) :=
  res_then (res_loadBody h) (fun _ hu => hu)

theorem out_execLdb {d i : BitVec 6} {k : BitVec 5} {l : BitVec 4} {q : BitVec 2} {e : BitVec 1} (h : P.Holds s) :
    P.out (execLdb d i k l q e s) := out_run (fun _ hu => res_loadBody hu) h

theorem out_execLdbs {d i : BitVec 6} {k : BitVec 5} {l : BitVec 4} {q : BitVec 2} {e : BitVec 1} (h : P.Holds s) :
    P.out (execLdbs d i k l q e s) := out_run (fun _ hu => res_loadBody hu) h

theorem out_execLdh {d i : BitVec 6} {k : BitVec 5} {l : BitVec 4} {q : BitVec 2} {e : BitVec 1} (h : P.Holds s) :
    P.out (execLdh d i k l q e s) := out_run (fun _ hu => res_loadBody hu) h

theorem out_execLdhs {d i : BitVec 6} {k : BitVec 5} {l : BitVec 4} {q : BitVec 2} {e : BitVec 1} (h : P.Holds s) :
    P.out (execLdhs d i k l q e s) := out_run (fun _ hu => res_loadBody hu) h

theorem out_execLdw {d i : BitVec 6} {k : BitVec 5} {l : BitVec 4} {q : BitVec 2} {e : BitVec 1} (h : P.Holds s) :
    P.out (execLdw d i k l q e s) := out_run (fun _ hu => res_loadBody hu) h

theorem out_execLdd {d i : BitVec 6} {k : BitVec 5} {l : BitVec 4} {q : BitVec 2} {e : BitVec 1} (h : P.Holds s) :
    P.out (execLdd d i k l q e s) := out_run (fun _ hu => res_loadBody hu) h

theorem out_execLdq {d i : BitVec 6} {k : BitVec 5} {l : BitVec 4} {q : BitVec 2} {e : BitVec 1} (h : P.Holds s) :
    P.out (execLdq d i k l q e s) := out_run (fun _ hu => res_loadBody hu) h

theorem out_execLda {d i : BitVec 6} {k : BitVec 5} {l : BitVec 4} {q : BitVec 2} {e : BitVec 1} (h : P.Holds s) :
    P.out (execLda d i k l q e s) := out_run (fun _ hu => res_acquireBody hu) h

theorem out_execStb {d i : BitVec 6} {k : BitVec 5} {l : BitVec 4} {q : BitVec 2} {e : BitVec 1} (h : P.Holds s) :
    P.out (execStb d i k l q e s) := out_run (fun _ hu => res_storeBody hu) h

theorem out_execSth {d i : BitVec 6} {k : BitVec 5} {l : BitVec 4} {q : BitVec 2} {e : BitVec 1} (h : P.Holds s) :
    P.out (execSth d i k l q e s) := out_run (fun _ hu => res_storeBody hu) h

theorem out_execStw {d i : BitVec 6} {k : BitVec 5} {l : BitVec 4} {q : BitVec 2} {e : BitVec 1} (h : P.Holds s) :
    P.out (execStw d i k l q e s) := out_run (fun _ hu => res_storeBody hu) h

theorem out_execStd {d i : BitVec 6} {k : BitVec 5} {l : BitVec 4} {q : BitVec 2} {e : BitVec 1} (h : P.Holds s) :
    P.out (execStd d i k l q e s) := out_run (fun _ hu => res_storeBody hu) h

theorem out_execStq {d i : BitVec 6} {k : BitVec 5} {l : BitVec 4} {q : BitVec 2} {e : BitVec 1} (h : P.Holds s) :
    P.out (execStq d i k l q e s) := out_run (fun _ hu => res_storeBody hu) h

theorem out_execStl {d i : BitVec 6} {k : BitVec 5} {l : BitVec 4} {q : BitVec 2} {e : BitVec 1} (h : P.Holds s) :
    P.out (execStl d i k l q e s) := out_run (fun _ hu => res_withRelease (fun _ _ hu1 => res_storeBody hu1) hu) h

theorem out_execKld {d : BitVec 6} {k : BitVec 5} {l : BitVec 4} (h : P.Holds s) : P.out (execKld d k l s) := by
  dsimp only [execKld]
  refine out_run (fun u hu => ?_) h
  refine res_once hu (fun u1 hu1 => ?_)
  split
  · exact hu1
  · split
    · exact hu1
    · exact holds_kset hu1

theorem out_execKst {d : BitVec 6} {k : BitVec 5} {l : BitVec 4} (h : P.Holds s) : P.out (execKst d k l s) := by
  dsimp only [execKst]
  refine out_run (fun u hu => ?_) h
  refine res_once hu (fun u1 hu1 => ?_)
  split
  · exact hu1
  · exact holds_laneStore hu1

theorem holds_atomReturn {t l d old key a : Nat} (h : P.Holds s) :
    P.Holds (atomReturn s t l d old key a) := holds_ite (holds_loadReg (holds_loadReg h)) (holds_loadReg h)

theorem holds_rereadHome {ks : List Nat} (h : P.Holds t) : P.Holds (readHome t ks) := h
theorem holds_acquire {ps : List Past} (h : P.Holds t) : P.Holds (acquire t ps) := h
theorem holds_acquireReads {rs : List (Nat × Nat)} (h : P.Holds t) : P.Holds (acquireReads t rs) := h

theorem holds_homeStep {p : Past} {l va key : Nat} {bs : Option (List Byte)} {size : Nat} (ht : P.Holds t) :
    P.Holds (homeStep s p l va key bs size t) := by
  unfold homeStep
  refine holds_rereadHome ?_
  cases bs with
  | none => exact holds_acquire (holds_acquireReads ht)
  | some b => exact holds_laneStore (holds_acquire (holds_acquireReads ht))

theorem res_atomBody {f : AtomOp} {d : BitVec 6} {m : MForm} (h : P.Holds s) : P.res (atomBody f d m s) := by
  unfold atomBody
  exact res_withRelease (fun _ _ hu => res_laneAccess (fun _ _ _ hu1 => holds_atomReturn (holds_homeStep hu1)) hu) h

theorem out_execAtadd {d i : BitVec 6} {k : BitVec 5} {l : BitVec 4} {q : BitVec 2} {e : BitVec 1} (h : P.Holds s) :
    P.out (execAtadd d i k l q e s) := out_run (fun _ hu => res_atomBody hu) h

theorem out_execAtmin {d i : BitVec 6} {k : BitVec 5} {l : BitVec 4} {q : BitVec 2} {e : BitVec 1} (h : P.Holds s) :
    P.out (execAtmin d i k l q e s) := out_run (fun _ hu => res_atomBody hu) h

theorem out_execAtmax {d i : BitVec 6} {k : BitVec 5} {l : BitVec 4} {q : BitVec 2} {e : BitVec 1} (h : P.Holds s) :
    P.out (execAtmax d i k l q e s) := out_run (fun _ hu => res_atomBody hu) h

theorem out_execAtand {d i : BitVec 6} {k : BitVec 5} {l : BitVec 4} {q : BitVec 2} {e : BitVec 1} (h : P.Holds s) :
    P.out (execAtand d i k l q e s) := out_run (fun _ hu => res_atomBody hu) h

theorem out_execAtor {d i : BitVec 6} {k : BitVec 5} {l : BitVec 4} {q : BitVec 2} {e : BitVec 1} (h : P.Holds s) :
    P.out (execAtor d i k l q e s) := out_run (fun _ hu => res_atomBody hu) h

theorem out_execAtxor {d i : BitVec 6} {k : BitVec 5} {l : BitVec 4} {q : BitVec 2} {e : BitVec 1} (h : P.Holds s) :
    P.out (execAtxor d i k l q e s) := out_run (fun _ hu => res_atomBody hu) h

theorem out_execAtxch {d i : BitVec 6} {k : BitVec 5} {l : BitVec 4} {q : BitVec 2} {e : BitVec 1} (h : P.Holds s) :
    P.out (execAtxch d i k l q e s) := out_run (fun _ hu => res_atomBody hu) h

theorem res_casBody {d : BitVec 6} {m : MForm} (h : P.Holds s) : P.res (casBody d m s) :=
  res_withRelease (fun _ _ hu => res_laneAccess (fun _ _ _ hu1 => holds_loadReg (holds_homeStep hu1)) hu) h

theorem out_execAtcas {d i : BitVec 6} {k : BitVec 5} {l : BitVec 4} {q : BitVec 2} {e : BitVec 1} (h : P.Holds s) :
    P.out (execAtcas d i k l q e s) := out_run (fun _ hu => res_casBody hu) h

theorem holds_redStore {size l va key : Nat} {new : Nat → Nat} (ht : P.Holds t) :
    P.Holds (redStore s size l va key new t) := by
  dsimp only [redStore]
  split
  · exact holds_storeKey ht
  · exact ht

theorem res_redBody {size : Nat} {m : MForm} {new : State → Nat → Nat → Nat} (h : P.Holds s) :
    P.res (redBody size m new s) := res_laneAccess (fun _ _ _ hu => holds_redStore hu) h

theorem out_execReda {d i : BitVec 6} {k : BitVec 5} {l : BitVec 4} {q : BitVec 2} {e : BitVec 1} (h : P.Holds s) :
    P.out (execReda d i k l q e s) := out_run (fun _ hu => res_redBody hu) h

theorem out_execRedaf {d i : BitVec 6} {k : BitVec 5} {l : BitVec 4} {q : BitVec 2} {e : BitVec 1} (h : P.Holds s) :
    P.out (execRedaf d i k l q e s) := out_run (fun _ hu => res_redBody hu) h

theorem out_execTdef {a b : BitVec 6} (h : P.Holds s) : P.out (execTdef a b s) := by
  dsimp only [execTdef]
  refine out_run (fun u hu => ?_) h
  refine res_once hu (fun u1 hu1 => ?_)
  split
  · exact hu1
  · split
    · exact hu1
    · split
      · exact hu1
      · exact hu1

theorem holds_onRing {r : Nat} {f : Ring → Ring} (h : P.Holds s) (hf : ∀ a : Ring, P.ring a → P.ring (f a)) :
    P.Holds (onRing s r f) := ⟨h.mem, crew_withRing h.crew (fun _ hu => hf _ hu), h.crews, h.ctx, h.ctxs⟩

theorem holds_discardRing {r : Nat} (h : P.Holds s) : P.Holds (discardRing s r) :=
  holds_dropCommands (holds_onRing ⟨h.mem, rings_mapIdx (fun _ _ hu => ring_ite
    (ring_of_counts hu rfl rfl rfl rfl rfl) hu) h.crew, crews_map (fun _ hu => crew_ite
    (rings_mapIdx (fun _ _ hu1 => ring_ite (ring_of_counts hu1 rfl rfl rfl rfl rfl) hu1) hu) hu) h.crews, h.ctx, h.ctxs⟩
    (fun _ hu => ring_of_counts hu rfl rfl rfl rfl rfl))

theorem holds_bindRing {r : Nat} {x : Ring} {accept : Bool} (h : P.Holds s) (hx : P.ring x) :
    P.Holds (bindRing s r x accept) :=
  (show P.Holds (onRing (discardRing (forgetSlices s r) r) r fun _ => x) from holds_onRing (holds_discardRing h)
    (fun _ _ => hx))

theorem out_execRngdef {r b : BitVec 6} (h : P.Holds s) : P.out (execRngdef r b s) := by
  dsimp only [execRngdef]
  refine out_run (fun u hu => ?_) h
  refine res_once hu (fun u1 hu1 => ?_)
  split
  · exact hu1
  · split
    · exact hu1
    · split
      · exact holds_bindRing hu1 P.ring_blank
      · split
        · exact hu1
        · split
          · exact hu1
          · split
            · exact hu1
            · split
              · exact hu1
              · split
                · exact hu1
                · exact holds_bindRing hu1 ring_ringOf

theorem holds_onCollective {r slot : Nat} {f : Collective → Collective} (h : P.Holds s) :
    P.Holds (onCollective s r slot f) := holds_onRing h (fun _ hu => ring_of_counts hu rfl rfl rfl rfl rfl)

theorem holds_judgeCollectives (h : P.Holds s) : P.Holds (judgeCollectives s) :=
  ⟨h.mem, rings_map (fun _ hu => ring_of_counts hu rfl rfl rfl rfl rfl) h.crew, h.crews, h.ctx, h.ctxs⟩

theorem holds_settleCopies (h : P.Holds s) : P.Holds (settleCopies s) := holds_enqueueCopies (holds_judgeCollectives h)

theorem holds_joinSlice {r slot : Nat} {x : Slice} (h : P.Holds s) : P.Holds (joinSlice s r slot x) :=
  holds_settleCopies (holds_onCollective (snd_stamp h))

theorem holds_reserveIn {r id : Nat} (h : P.Holds s) : P.Holds (reserveIn s r id) :=
  holds_onCrew h (fun _ hc => crew_withRing hc (fun _ hx => ring_reserve hx))

theorem opt_openCollective {r : Nat} {mask : Option Nat} (h : P.Holds s) : P.opt (openCollective s r mask) := by
  unfold openCollective
  extract_lets cs skip g t
  split
  · exact opt_none
  next hroom =>
    have hfree : (ringAt s r).hasRoom = true := by
      rw [Bool.or_eq_true, not_or, Bool.not_eq_true', Bool.not_eq_false] at hroom
      exact hroom.1
    have ht : P.Holds t :=
      ⟨h.mem, crew_ringAt h.crew (fun hx => ring_of_counts (P.ring_reserve hx hfree) rfl rfl rfl rfl rfl), h.crews, h.ctx, h.ctxs⟩
    exact opt_some (holds_foldl (fun u _ hu => holds_reserveIn hu) ht)

theorem res_placeSlice {r : Nat} {mask : Option Nat} {x : Slice} {since : Nat} (h : P.Holds s) :
    P.res (placeSlice s r mask x since) := by
  unfold placeSlice
  split
  · split
    · exact h
    · exact holds_joinSlice h
  · split
    · exact h
    · split
      · exact h
      next t he2 =>
        have ht : P.Holds t := of_some he2 (opt_openCollective h)
        exact holds_joinSlice ht

theorem res_sliceTry {r : Nat} {qual : BitVec 2} {mask : Option Nat} {bs : List Byte} {since : Nat} (h : P.Holds s) :
    P.res (sliceTry r qual mask bs since s) := by
  unfold sliceTry
  split
  · exact res_placeSlice h
  · split
    · exact h
    · exact res_placeSlice h

theorem holds_grantGrow {c : Crew} {g : Grow} (h : P.Holds s) : P.Holds (grantGrow s c g) := by
  unfold grantGrow
  have hu : P.Holds (onCrew s c.id (fun x => { x with cmsize := x.cmsize + g.size })) := holds_onCrew h (fun _ hc => hc)
  exact ⟨P.mem_filter _ hu.mem, hu.crew, hu.crews, hu.ctx, hu.ctxs⟩

theorem opt_judgeGrow {g : Grow} (h : P.Holds s) : P.opt (judgeGrow s g) := by
  dsimp only [judgeGrow]
  split
  · exact opt_none
  · split
    · exact opt_some h
    · split
      · exact opt_some (holds_grantGrow h)
      · split
        · exact opt_some h
        · split
          · exact opt_some h
          · exact opt_none

theorem opt_growStep {xs : List Grow} (h : P.Holds s) : P.opt (growStep s xs) := by
  fun_induction growStep s xs
  · exact opt_none
  next u he =>
    have hu : P.Holds u := of_some he (opt_judgeGrow h)
    exact opt_some hu
  next ih => exact ih

theorem holds_growIssue {bs : List Byte} (h : P.Holds s) : P.Holds (growIssue bs s) := by
  dsimp only [growIssue]
  split
  · exact holds_getD (opt_judgeGrow (snd_freshId h)) (snd_freshId h)
  · exact snd_freshId h

theorem res_growTry {b : BitVec 6} (h : P.Holds s) : P.res (growTry b s) := by
  dsimp only [growTry]
  split
  · split
    · exact holds_kset h
    · exact h
  · exact holds_kset h

theorem out_execCpy {r b : BitVec 6} {q : BitVec 2} (h : P.Holds s) : P.out (execCpy r b q s) := by
  unfold execCpy
  refine out_runW (fun _ u hu => ?_) h
  split
  · split
    · exact res_growTry hu
    · exact res_sliceTry hu
  · refine res_once hu (fun u1 hu1 => ?_)
    split
    · exact hu1
    · split
      · exact hu1
      · split
        · split
          · exact hu1
          · split
            · exact hu1
            · exact res_growTry (holds_growIssue hu1)
        · exact res_sliceTry hu1

theorem out_execCpym {m r b : BitVec 6} {q : BitVec 2} (h : P.Holds s) : P.out (execCpym m r b q s) := by
  dsimp only [execCpym]
  refine out_runW (fun _ u hu => ?_) h
  split
  · exact res_sliceTry hu
  · refine res_once hu (fun u1 hu1 => ?_)
    split
    · exact hu1
    · split
      · exact hu1
      · split
        · exact hu1
        · exact res_sliceTry hu1

theorem holds_restartCommand {r : Nat} (h : P.Holds s) : P.Holds (restartCommand s r) :=
  holds_onRing h (fun _ hu => ring_of_counts hu rfl rfl rfl rfl rfl)

theorem res_awaitFault {r : Nat} {f : HeldFault} (h : P.Holds s) : P.res (awaitFault s r f) := by
  unfold awaitFault
  split
  · exact h
  · exact holds_ite (holds_onRing h (fun _ hu => ring_of_counts hu rfl rfl rfl rfl rfl)) h

theorem res_awaitTry {r : Nat} {chunk : Option Nat} (h : P.Holds s) : P.res (awaitTry r chunk s) := by
  dsimp only [awaitTry]
  split
  · exact h
  · split
    · exact h
    · split
      · exact h
      · split
        · split
          · exact res_awaitFault h
          · exact h
        · exact h

theorem res_awaitIssue {r : Nat} {chunk : Option Nat} (h : P.Holds s) : P.res (awaitIssue r chunk s) := by
  unfold awaitIssue
  split
  · split
    · split
      · exact res_awaitFault h
      · exact res_awaitTry (holds_restartCommand h)
    · exact res_awaitTry h
  · exact res_awaitTry h

theorem out_execAwaitf {r : BitVec 6} (h : P.Holds s) : P.out (execAwaitf r s) := by
  unfold execAwaitf
  refine out_runW (fun _ u hu => ?_) h
  split
  · exact res_awaitTry hu
  · refine res_once hu (fun u1 hu1 => ?_)
    split
    · exact hu1
    · exact res_awaitIssue hu1

theorem out_execAwaitfC {r b : BitVec 6} (h : P.Holds s) : P.out (execAwaitfC r b s) := by
  unfold execAwaitfC
  refine out_runW (fun _ u hu => ?_) h
  split
  · exact res_awaitTry hu
  · refine res_once hu (fun u1 hu1 => ?_)
    split
    · exact hu1
    · exact res_awaitIssue hu1

theorem out_execRels {r : BitVec 6} (h : P.Holds s) : P.out (execRels r s) := by
  refine out_run (fun u hu => res_once hu (fun v hv => ?_)) h
  extract_lets x
  split
  · exact hv
  · split
    · exact hv
    · split
      · exact hv
      next hleft =>
        exact ⟨hv.mem, crew_ringAt hv.crew (fun hx => ring_releaseSlot hx (Nat.lt_of_not_le hleft)), hv.crews, hv.ctx, hv.ctxs⟩

theorem out_execRngst {d r : BitVec 6} (h : P.Holds s) : P.out (execRngst d r s) := by
  unfold execRngst
  refine out_run (fun u hu => ?_) h
  refine res_once hu (fun u1 hu1 => ?_)
  split
  · exact hu1
  · exact holds_kset hu1

end Sys2Proof.Machine.Storage
end

section
/-! SUPPORT. The storage laws at the copy engine, majority cells, crews and cross-lane work. -/

namespace Sys2Proof.Machine.Storage
variable {P : StorageLaw} {s t : State}

theorem holds_putElem {e : Late} {fmt key bit v : Nat} {bad : Bool} (h : P.Holds s) :
    P.Holds (putElem s e fmt key bit v bad) := holds_ite (holds_storeKey h) (holds_storeKey h)

theorem fst_performWrites {job : Job} {ring chunk : Nat} {fs : List Filling} {xs : List CopyWrite} {n : Nat} {u2 : State}
    (h : P.Holds u2) :
    P.fst (performWrites job ring chunk fs xs n u2) := by
  fun_induction performWrites job ring chunk fs xs n u2
  · exact h
  · exact h
  next ih => exact ih (holds_foldl (fun u _ hu => holds_putElem hu) h)

theorem optFst_focusCommand {cluster n : Nat} (h : P.Holds s) : P.optFst (focusCommand s cluster n) := by
  unfold focusCommand
  split
  · exact optFst_none
  · exact optFst_some (holds_focusCrew h)

theorem holds_endCommand {c : Command} (h : P.Holds s) : P.Holds (endCommand s c) :=
  holds_ite h (holds_enqueueCopies (holds_onRing h (fun _ hu => ring_of_counts hu rfl rfl rfl rfl rfl)))

theorem holds_fillChunks {c : Command} {g : Collective} {js : List Nat} (h : P.Holds s) : P.Holds (fillChunks s c g js) :=
  holds_foldl (fun _ _ hu => holds_foldl (fun _ _ hu1 => holds_onCrew hu1
    (fun _ hu2 => crew_withRing hu2 (fun _ hu3 => ring_fillChunk hu3))) hu) h

theorem holds_beginCommand {c : Command} (h : P.Holds s) : P.Holds (beginCommand s c) := by
  dsimp only [beginCommand]
  split
  · exact h
  · exact holds_endCommand (holds_fillChunks h)

theorem opt_startCopy {cluster : Nat} (h : P.Holds s) : P.opt (startCopy s cluster) := by
  dsimp only [startCopy]
  split
  · exact opt_none
  · exact opt_map (fun _ => holds_beginCommand (holds_focusCrew h))

theorem opt_copyCommandStartEvent (h : P.Holds s) : P.opt (copyCommandStartEvent s) :=
  opt_findSome (fun _ => opt_startCopy h)

theorem out_execCopyCommandStart (h : P.Holds s) : P.out (execCopyCommandStart s) :=
  out_event (opt_copyCommandStartEvent h) h

theorem fst_workChunk {c : Command} {g : Collective} (h : P.Holds s) : P.fst (workChunk s c g) :=
  fst_performWrites (holds_ite h h)

theorem opt_chunkFilledEvent {cluster command : Nat} (h : P.Holds s) : P.opt (chunkFilledEvent cluster command s) := by
  unfold chunkFilledEvent
  split
  · exact opt_none
  next t c hc =>
    have ht : P.Holds t := of_someFst hc (optFst_focusCommand h)
    split
    · exact opt_none
    next g _ =>
      dsimp only
      split
      · exact opt_none
      · split
        · exact opt_none
        next u n hw =>
          have hu : P.Holds u := fst_eq hw (fst_workChunk ht)
          exact opt_some (holds_endCommand (holds_fillChunks hu))

theorem out_execChunkFilled {cluster command : Nat} (h : P.Holds s) : P.out (execChunkFilled cluster command s) :=
  out_event (opt_chunkFilledEvent h) h

theorem opt_copyFaultEvent {cluster command : Nat} (h : P.Holds s) : P.opt (copyFaultEvent cluster command s) := by
  unfold copyFaultEvent
  split
  · exact opt_none
  next t c hc =>
    have ht : P.Holds t := of_someFst hc (optFst_focusCommand h)
    split
    · exact opt_none
    next g _ =>
      split
      · exact opt_none
      · split
        · exact opt_none
        next u n cause addr hw =>
          have hu : P.Holds u := fst_eq hw (fst_workChunk ht)
          have hset : P.Holds (setCommand u c { c with running := false, stalled := true, chunk := some (nextChunk t c), pos := n }) :=
            hu
          exact opt_some (holds_onRing hset (fun _ hx => ring_of_counts hx rfl rfl rfl rfl rfl))

theorem out_execCopyFault {cluster command : Nat} (h : P.Holds s) : P.out (execCopyFault cluster command s) :=
  out_event (opt_copyFaultEvent h) h

theorem opt_firstCluster {f : State → Option State} {a : List Cluster} (h : P.Holds s)
    (hf : ∀ a : State, P.Holds a → P.opt (f a)) :
    P.opt (firstCluster s f a) := by
  fun_induction firstCluster s f a
  · exact opt_none
  next u he =>
    have hu : P.Holds u := of_some he (hf _ (holds_focusOn h))
    exact opt_some hu
  next ih => exact ih

theorem opt_growDecidedEvent (h : P.Holds s) : P.opt (growDecidedEvent s) := opt_firstCluster h (fun _ hu => opt_growStep hu)

theorem out_execGrowDecided (h : P.Holds s) : P.out (execGrowDecided s) := out_event (opt_growDecidedEvent h) h

theorem opt_growTimeoutEvent (h : P.Holds s) : P.opt (growTimeoutEvent s) :=
  opt_firstCluster h (fun _ ht => opt_map (fun _ => ht))

theorem out_execGrowTimeout (h : P.Holds s) : P.out (execGrowTimeout s) := out_event (opt_growTimeoutEvent h) h

theorem res_majIssue {n : Need} {addr : DWord} {vs : List DWord} {f : State → Res}
    (h : ∀ a : State, P.Holds a → P.res (f a)) (hs : P.Holds s) :
    P.res (majIssue n addr vs f s) := by
  unfold majIssue
  refine res_once hs (fun u hu => ?_)
  split
  · exact hu
  · exact h _ hu

theorem res_attempt {f : State → Res} (h : ∀ a : State, P.Holds a → P.res (f a)) (hs : P.Holds s) : P.res (attempt f s) := by
  unfold attempt
  split
  · exact hs
  · split
    · exact hs
    · exact h _ hs

theorem res_mldTry {d : BitVec 6} (h : P.Holds s) : P.res (mldTry d s) := by
  unfold mldTry
  refine res_attempt (fun u hu => ?_) h
  split
  · exact hu
  · exact hu
  next t he =>
    have ht : P.Holds t := maj_done he (maj_majLoad hu)
    exact holds_ksetQuad (holds_acquire ht)

theorem out_execMld {d : BitVec 6} {k : BitVec 5} {l : BitVec 4} (h : P.Holds s) : P.out (execMld d k l s) := by
  unfold execMld
  refine out_runW (fun _ u hu => ?_) h
  split
  · exact res_mldTry hu
  · exact res_majIssue (fun _ hu1 => res_mldTry hu1) hu

theorem res_storeOrPart {tag : BitVec 64} {f : State → BitVec 64 → Res} (h : P.Holds s)
    (hf : ∀ u tag, P.Holds u → P.res (f u tag)) : P.res (storeOrPart s tag f) := by
  unfold storeOrPart
  split
  · exact h
  · exact hf _ _ h
  · exact hf _ _ h

theorem holds_releaseStore {cell : Nat} {rmw : Bool} (h : P.Holds s) : P.Holds (releaseStore s cell rmw) := snd_releaseNow h

theorem res_mstStore {p : BitVec 3} {tag : BitVec 64} (h : P.Holds s) : P.res (mstStore p s tag) := by
  unfold mstStore
  split
  · exact h
  · exact h
  next t he =>
    have ht : P.Holds t := maj_done he (maj_storePhase h)
    exact holds_ite (holds_releaseStore ht) ht

theorem res_mstTry {p : BitVec 3} (h : P.Holds s) : P.res (mstTry p s) := by
  unfold mstTry
  split
  · split
    · exact h
    · exact res_mstStore h
  · refine res_attempt (fun u hu => ?_) h
    split
    · exact hu
    · exact res_storeOrPart hu (fun _ _ hv => res_mstStore hv)

theorem out_execMst {d : BitVec 6} {k : BitVec 5} {l : BitVec 4} {p : BitVec 3} (h : P.Holds s) :
    P.out (execMst d k l p s) := by
  unfold execMst
  refine out_runW (fun _ u hu => ?_) h
  split
  · exact res_mstTry hu
  · exact res_majIssue (fun _ hu1 => res_mstTry hu1) hu

theorem holds_acquireCell {cell : Nat} (h : P.Holds t) : P.Holds (acquireCell t cell) := h
theorem holds_setOutcome {p : BitVec 3} {b : Bool} (h : P.Holds t) : P.Holds (setOutcome t p b) := h

theorem res_mcasStore {d : BitVec 6} {p : BitVec 3} {tag : BitVec 64} (h : P.Holds s) : P.res (mcasStore d p s tag) := by
  unfold mcasStore
  have hphase : P.maj (storePhase s (argCell s) (warpWid s.w) tag (argPayload s 3)) := maj_storePhase h
  split
  · exact h
  · exact h
  next t hd =>
    have ht : P.Holds t := maj_done hd hphase
    exact holds_setOutcome (holds_releaseStore (holds_acquireCell ht))
  next v t hd =>
    have ht : P.Holds t := maj_done hd hphase
    exact holds_setOutcome (holds_ksetQuad (holds_acquireCell ht))

theorem res_mcasTry {d : BitVec 6} {p : BitVec 3} (h : P.Holds s) : P.res (mcasTry d p s) := by
  unfold mcasTry
  split
  · split
    · exact h
    · exact res_mcasStore h
  · refine res_attempt (fun u hu => ?_) h
    split
    · exact hu
    next q line _ =>
      split
      · exact holds_setOutcome (holds_ksetQuad (holds_repairPoison (holds_sendAll hu)))
      · exact res_storeOrPart hu (fun _ _ hv => res_mcasStore hv)

theorem out_execMcas {d e : BitVec 6} {k : BitVec 5} {l : BitVec 4} {p : BitVec 3} (h : P.Holds s) :
    P.out (execMcas d e k l p s) := by
  unfold execMcas
  refine out_runW (fun _ u hu => ?_) h
  split
  · exact res_mcasTry hu
  · exact res_majIssue (fun _ hu1 => res_mcasTry hu1) hu

theorem res_trwaitTry (h : P.Holds s) : P.res (trwaitTry s) := by
  unfold trwaitTry
  refine res_attempt (fun u hu => ?_) h
  split
  · exact hu
  · exact hu
  next t he =>
    have ht : P.Holds t := maj_done he (maj_majLoad hu)
    split
    · exact holds_acquireCell ht
    · exact ht

theorem res_trwaitAgain (h : P.Holds s) : P.res (trwaitAgain s) := by
  unfold trwaitAgain
  split
  · exact h
  · exact res_trwaitTry h

theorem out_execTrwait {a b : BitVec 6} (h : P.Holds s) : P.out (execTrwait a b s) := by
  unfold execTrwait
  refine out_runW (fun _ u hu => ?_) h
  split
  · exact res_trwaitAgain hu
  · exact res_majIssue (fun _ hu1 => res_trwaitTry hu1) hu

theorem out_execTrsig {a b : BitVec 6} (h : P.Holds s) : P.out (execTrsig a b s) := by
  dsimp only [execTrsig]
  refine out_run (fun u hu => ?_) h
  refine res_once hu (fun u1 hu1 => ?_)
  split
  · exact hu1
  · exact snd_releaseNow hu1

theorem maj_raiseReady {cell wid : Nat} {value : DWord} {p : Past} (h : P.Holds s) :
    P.maj (raiseReady s cell wid value p) := by
  unfold raiseReady
  split
  next s1 he =>
    have hs1 : P.Holds s1 := maj_done he (maj_majLoad h)
    split
    · exact hs1
    · split
      next u he2 =>
        have hu : P.Holds u := maj_done he2 (maj_majCas hs1)
        exact hu
      · exact maj_majCas hs1
  · exact maj_majLoad h

theorem opt_finishTrsig {u : TrsigUpdate} (h : P.Holds s) : P.opt (finishTrsig s u) := by
  unfold finishTrsig
  split
  · exact opt_none
  · split
    next u1 he1 =>
      have hu1 : P.Holds u1 := maj_done he1 (maj_raiseReady h)
      exact opt_some hu1
    · exact opt_none

theorem opt_firstTrsig {xs : List TrsigUpdate} (h : P.Holds s) : P.opt (firstTrsig s xs) := by
  fun_induction firstTrsig s xs
  · exact opt_none
  next u1 he =>
    have hu1 : P.Holds u1 := of_some he (opt_finishTrsig h)
    exact opt_some hu1
  next ih => exact ih

theorem opt_trsigUpdateDoneEvent (h : P.Holds s) : P.opt (trsigUpdateDoneEvent s) := opt_firstTrsig h

theorem out_execTrsigUpdateDone (h : P.Holds s) : P.out (execTrsigUpdateDone s) := out_event (opt_trsigUpdateDoneEvent h) h

theorem opt_trsigAbandonEvent (h : P.Holds s) : P.opt (trsigAbandonEvent s) := by
  unfold trsigAbandonEvent
  split
  · exact opt_none
  · exact opt_some (holds_onAll h (fun _ hu => holds_pack (holds_logRecord (holds_focusOn hu))))

theorem out_execTrsigAbandon (h : P.Holds s) : P.out (execTrsigAbandon s) := out_event (opt_trsigAbandonEvent h) h

theorem opt_onWaiting {id slot : Nat} {f : State → Option State} (h : P.Holds s) (hf : ∀ a : State, P.Holds a → P.opt (f a))
    :
    P.opt (onWaiting s id slot f) := by
  dsimp only [onWaiting]
  split
  · exact opt_none
  · exact hf _ (holds_focusSplit h)

theorem opt_majorityTimeoutEvent (h : P.Holds s) : P.opt (majorityTimeoutEvent s) := by
  unfold majorityTimeoutEvent
  split
  · exact opt_none
  · exact opt_onWaiting h (fun u hu => opt_map (fun _ => holds_finish hu))

theorem out_execMajorityTimeout (h : P.Holds s) : P.out (execMajorityTimeout s) := out_event (opt_majorityTimeoutEvent h) h

theorem opt_trwaitRetryEvent {id slot : Nat} (h : P.Holds s) : P.opt (trwaitRetryEvent id slot s) := by
  unfold trwaitRetryEvent
  refine opt_onWaiting h (fun u hu => ?_)
  split
  · exact opt_some (holds_finish (res_trwaitAgain hu))
  · exact opt_none

theorem out_execTrwaitRetry {id slot : Nat} (h : P.Holds s) : P.out (execTrwaitRetry id slot s) :=
  out_event (opt_trwaitRetryEvent h) h

theorem res_roleTry (h : P.Holds s) : P.res (roleTry s) := by
  unfold roleTry
  extract_lets va v allot
  split
  · exact h
  split
  · exact h
  split
  · exact h
  next t ht =>
    have hw : P.Holds t := of_ok ht (exc_writeRun h)
    exact hw

theorem out_execRole {a : BitVec 6} (h : P.Holds s) : P.out (execRole a s) := by
  unfold execRole
  refine out_runW (fun _ u hu => ?_) h
  split
  · exact res_roleTry hu
  · refine res_once hu (fun u1 hu1 => ?_)
    split
    · exact hu1
    · split
      · exact hu1
      · split
        · exact hu1
        · split
          · exact hu1
          · exact res_roleTry hu1

theorem holds_leaveCrew (h : P.Holds s) : P.Holds (leaveCrew s) :=
  ⟨h.mem, rings_map (fun _ hx => P.ring_leave _ hx) h.crew, h.crews, h.ctx, h.ctxs⟩

theorem holds_membershipChanged (h : P.Holds s) : P.Holds (membershipChanged s) := holds_settleCopies h

theorem crew_join {c : Crew} {w : Nat} (h : P.crew c) : P.crew { c with
    nwarp := c.nwarp + 1
    rings := c.rings.map (fun r => if r.bound then { r with cursors := sset 0 r.cursors w r.rel } else r) } :=
  rings_map (fun _ hx => ring_ite (P.ring_join w hx) hx) h

theorem holds_joinCrew {target : Crew} (h : P.Holds s) (htarget : P.crew target) : P.Holds (joinCrew s target) := by
  unfold joinCrew
  extract_lets t old w left target' w' u
  have hleave : P.Holds (leaveCrew s) := holds_leaveCrew h
  have hleft : P.Holds left := holds_membershipChanged hleave
  have ht' : P.crew target' := by
    cases hf : left.crews.find? (fun c => c.id == target.id) with
    | none => rw [show target' = target from by simp only [target', hf, Option.getD_none]]; exact htarget
    | some c =>
      rw [show target' = c from by simp only [target', hf, Option.getD_some]]
      exact hleft.crews c (List.mem_of_find?_eq_some hf)
  have hu : P.Holds u :=
    ⟨hleft.mem, crew_join ht', crews_insertCrew hleft.crew (crews_filter hleft.crews), hleft.ctx, hleft.ctxs⟩
  exact holds_membershipChanged hu

theorem out_execCjoin {d a : BitVec 6} (h : P.Holds s) : P.out (execCjoin d a s) := by
  unfold execCjoin
  refine out_run (fun u hu => res_once hu (fun v hv => ?_)) h
  split
  · exact hv
  · split
    · exact holds_kset hv
    next c hc =>
      have hcrew : P.crew c := hv.crews c (List.mem_of_find?_eq_some hc)
      split
      · exact holds_kset hv
      · exact holds_kset (holds_joinCrew hv hcrew)

theorem holds_cleaveCrew {base : Nat} (h : P.Holds s) : P.Holds (cleaveCrew s base) := by
  have hfresh : P.Holds (freshId s).2 := h
  show P.Holds (joinCrew (onLaunch (freshId s).2 s.crew.launch _) _)
  exact holds_joinCrew (s := onLaunch (freshId s).2 s.crew.launch _) hfresh (rings_blank 8)

theorem out_execCleave {d : BitVec 6} (h : P.Holds s) : P.out (execCleave d s) := by
  unfold execCleave
  refine out_run (fun u hu => res_once hu (fun v hv => ?_)) h
  split
  · exact hv
  · split
    · exact holds_kset hv
    · split
      · exact holds_kset hv
      · exact holds_kset (holds_cleaveCrew hv)

theorem holds_arrive {n e : Nat} {m : Mask} (h : P.Holds s) : P.Holds (arrive s n e m) := snd_takePast h

theorem res_arriveThen {i : Instr} {a b : BitVec 6} {f : State → Res} (h : ∀ a : State, P.Holds a → P.res (f a))
    (hs : P.Holds s) :
    P.res (arriveThen i a b f s) := by
  dsimp only [arriveThen]
  split
  · exact hs
  · split
    · exact hs
    · split
      · exact hs
      · exact h _ (holds_arrive hs)

theorem res_barWait {n : Nat} (h : P.Holds s) : P.res (barWait n s) := by
  unfold barWait
  split
  · exact h
  · exact holds_acquire h

theorem out_execBara {a b : BitVec 6} (h : P.Holds s) : P.out (execBara a b s) :=
  out_run (fun _ hu => res_once hu (fun _ hu1 => res_arriveThen (fun _ hu2 => hu2) hu1)) h

theorem out_execBarw {a b : BitVec 6} (h : P.Holds s) : P.out (execBarw a b s) := by
  unfold execBarw
  refine out_runW (fun _ u hu => ?_) h
  split
  · exact res_barWait hu
  · refine res_once hu (fun u1 hu1 => ?_)
    split
    · exact hu1
    · exact res_barWait hu1

theorem out_execBars {a b : BitVec 6} (h : P.Holds s) : P.out (execBars a b s) := by
  unfold execBars
  refine out_runW (fun _ u hu => ?_) h
  split
  · exact res_barWait hu
  · exact res_once hu (fun _ hu1 => res_arriveThen (fun _ hu2 => res_barWait hu2) hu1)

theorem res_shflBody {op : ShflOp} {d a b : BitVec 6} (h : P.Holds s) : P.res (shflBody op d a b s) := by
  unfold shflBody
  refine holds_perLane h (fun l r hr => ?_)
  dsimp only
  split
  · exact hr
  · exact hr

theorem out_execShflFrom {d a b : BitVec 6} {l : BitVec 4} (h : P.Holds s) :
    P.out (execShflFrom d a b l s) := out_run (fun _ hu => res_shflBody hu) h

theorem out_execShflRot {d a b : BitVec 6} {l : BitVec 4} (h : P.Holds s) : P.out (execShflRot d a b l s) :=
  out_run (fun _ hu => res_shflBody hu) h

theorem out_execShflRotn {d a b : BitVec 6} {l : BitVec 4} (h : P.Holds s) :
    P.out (execShflRotn d a b l s) := out_run (fun _ hu => res_shflBody hu) h

theorem out_execShflXor {d a b : BitVec 6} {l : BitVec 4} (h : P.Holds s) : P.out (execShflXor d a b l s) :=
  out_run (fun _ hu => res_shflBody hu) h

theorem out_execVoteQuorum {d a b : BitVec 6} {l : BitVec 4} (h : P.Holds s) :
    P.out (execVoteQuorum d a b l s) := out_run (fun _ hu => hu) h

theorem out_execVoteUnan {d a : BitVec 6} {l : BitVec 4} (h : P.Holds s) : P.out (execVoteUnan d a l s) :=
  out_run (fun _ hu => hu) h

theorem out_execVoteMask {d a : BitVec 6} {l : BitVec 4} (h : P.Holds s) : P.out (execVoteMask d a l s) :=
  out_run (fun _ hu => res_once hu (fun _ hu1 => holds_kset hu1)) h

theorem out_execVoteCount {d a : BitVec 6} {l : BitVec 4} (h : P.Holds s) : P.out (execVoteCount d a l s) :=
  out_run (fun _ hu => res_once hu (fun _ hu1 => holds_kset hu1)) h

theorem out_execRedxAdd {d a : BitVec 6} {l : BitVec 4} (h : P.Holds s) : P.out (execRedxAdd d a l s) := by
  unfold execRedxAdd
  refine out_run (fun u hu => ?_) h
  refine res_once hu (fun u1 hu1 => ?_)
  split
  · exact holds_kset hu1
  · exact holds_kset hu1

theorem res_redxExtreme {isMax : Bool} {d a : BitVec 6} (h : P.Holds s) : P.res (redxExtreme isMax d a s) := by
  unfold redxExtreme
  refine res_once h (fun u hu => ?_)
  split
  · exact holds_kset hu
  · exact holds_kset hu

theorem out_execRedxMin {d a : BitVec 6} {l : BitVec 4} (h : P.Holds s) : P.out (execRedxMin d a l s) :=
  out_run (fun _ hu => res_redxExtreme hu) h

theorem out_execRedxMax {d a : BitVec 6} {l : BitVec 4} (h : P.Holds s) : P.out (execRedxMax d a l s) :=
  out_run (fun _ hu => res_redxExtreme hu) h

theorem res_argmx {isMax : Bool} {d a : BitVec 6} (h : P.Holds s) : P.res (argmx isMax d a s) :=
  res_once h (fun _ hu => holds_kset hu)

theorem out_execArgmxMax {d a : BitVec 6} {l : BitVec 4} (h : P.Holds s) : P.out (execArgmxMax d a l s) :=
  out_run (fun _ hu => res_argmx hu) h

theorem out_execArgmxMin {d a : BitVec 6} {l : BitVec 4} (h : P.Holds s) : P.out (execArgmxMin d a l s) :=
  out_run (fun _ hu => res_argmx hu) h

theorem res_scanAdd {incl : Bool} {d a : BitVec 6} (h : P.Holds s) : P.res (scanAdd incl d a s) := res_lanes32 h

theorem res_scanExtreme {isMax : Bool} {d a : BitVec 6} (h : P.Holds s) : P.res (scanExtreme isMax d a s) := res_lanes32 h

theorem out_execScanAddIncl {d a : BitVec 6} {l : BitVec 4} (h : P.Holds s) : P.out (execScanAddIncl d a l s) :=
  out_run (fun _ hu => res_scanAdd hu) h

theorem out_execScanAddExcl {d a : BitVec 6} {l : BitVec 4} (h : P.Holds s) : P.out (execScanAddExcl d a l s) :=
  out_run (fun _ hu => res_scanAdd hu) h

theorem out_execScanMax {d a : BitVec 6} {l : BitVec 4} (h : P.Holds s) : P.out (execScanMax d a l s) :=
  out_run (fun _ hu => res_scanExtreme hu) h

theorem out_execScanMin {d a : BitVec 6} {l : BitVec 4} (h : P.Holds s) : P.out (execScanMin d a l s) :=
  out_run (fun _ hu => res_scanExtreme hu) h

theorem out_execMatchLanes {d a : BitVec 6} {l : BitVec 4} (h : P.Holds s) : P.out (execMatchLanes d a l s) :=
  out_run (fun _ hu => res_lanes32 hu) h

theorem out_execX2k {d a b : BitVec 6} {l : BitVec 4} (h : P.Holds s) : P.out (execX2k d a b l s) :=
  out_run (fun _ hu => res_once hu (fun _ hu1 => holds_kset hu1)) h

end Sys2Proof.Machine.Storage
end

section
/-! SUPPORT. The storage laws at dispatch queues, neighbour lists, tile tasks and taps. -/

namespace Sys2Proof.Machine.Storage
variable {P : StorageLaw} {s t : State}

theorem fst_enqueueLane {n : Nat} {p : State × Mask} {l : Nat} (h : P.fst p) : P.fst (enqueueLane n p l) := by
  dsimp only [enqueueLane]
  split
  · exact h
  · exact h

theorem res_dispqTry {n : Nat} (h : P.Holds s) : P.res (dispqTry n s) := by
  have hfold : ∀ m : Mask, P.fst ((lanesOf m).foldl (enqueueLane n) (s, m)) :=
    fun _ => fst_foldl (fun _ _ hq => fst_enqueueLane hq) h
  dsimp only [dispqTry]
  split
  · exact hfold _
  · exact hfold _

theorem out_execDispq {a : BitVec 6} (h : P.Holds s) : P.out (execDispq a s) := by
  unfold execDispq
  refine out_runW (fun _ u hu => ?_) h
  split
  · exact res_dispqTry hu
  · refine res_once hu (fun u1 hu1 => ?_)
    split
    · exact hu1
    · split
      · exact hu1
      · exact res_dispqTry hu1

theorem holds_endItem {l : Nat} (h : P.Holds s) : P.Holds (endItem s l) := by
  unfold endItem
  split
  · exact h
  · exact h

theorem out_execQend (h : P.Holds s) : P.out (execQend s) := by
  unfold execQend
  refine out_run (fun u hu => ?_) h
  refine res_once hu (fun u1 hu1 => ?_)
  split
  · exact hu1
  · exact holds_rejudge (holds_foldl (fun u2 _ hu2 => holds_endItem hu2) hu1)

theorem opt_formIn {l : Launch} (h : P.Holds s) : P.opt (formIn s l) := by
  unfold formIn
  split
  · exact opt_none
  · split
    · split
      · exact opt_none
      · split
        · split
          · exact opt_none
          · exact opt_some ⟨h.mem, h.crew, crews_insertCrew crew_blank h.crews, h.ctx, h.ctxs⟩
        · exact opt_none

theorem opt_formFirst {clus : Nat} {l : List (Nat × Nat)} (h : P.Holds s) : P.opt (formFirst s clus l) := by
  induction l with
  | nil => exact opt_none
  | cons x l ih =>
    unfold formFirst
    dsimp only
    split
    next v hv =>
      obtain ⟨l, -, hl⟩ := Option.bind_eq_some_iff.mp hv
      have hv : P.Holds v := of_some hl (opt_formIn (holds_focusOn h))
      exact opt_some hv
    · exact ih

theorem opt_dispatchWarpFormEvent (h : P.Holds s) : P.opt (dispatchWarpFormEvent s) :=
  opt_findSome (fun _ => opt_formFirst h)

theorem out_execDispatchWarpForm (h : P.Holds s) : P.out (execDispatchWarpForm s) :=
  out_event (opt_dispatchWarpFormEvent h) h

theorem holds_enterEngine {o : NleOp} (h : P.Holds s) : P.Holds (enterEngine s o) := holds_ite h h

theorem holds_enterEngines {n : Nat} (h : P.Holds s) : P.Holds (enterEngines s n) := by
  fun_induction enterEngines s n
  · exact h
  · exact h
  next ih => exact ih (holds_enterEngine h)

theorem holds_beginOps (h : P.Holds s) : P.Holds (beginOps s) := holds_enterEngines h

theorem holds_submitOp {kind : NleKind} {ring : Nat} {addr : DWord} {d : List Byte} (h : P.Holds s) :
    P.Holds (submitOp s kind ring addr d) := by
  unfold submitOp
  split
  next t he =>
    have ht : P.Holds t := snd_eq he (snd_freshId h)
    split
    next t1 he1 =>
      have ht1 : P.Holds t1 := snd_eq he1 (snd_stamp ht)
      exact holds_beginOps ht1

theorem out_execNlbin {a : BitVec 6} (h : P.Holds s) : P.out (execNlbin a s) := by
  unfold execNlbin
  refine out_run (fun u hu => ?_) h
  refine res_once hu (fun u1 hu1 => ?_)
  split
  · exact hu1
  · split
    · exact hu1
    · exact holds_submitOp hu1

theorem res_nlpairTry (h : P.Holds s) : P.res (nlpairTry s) := by
  dsimp only [nlpairTry]
  split
  · exact h
  · split
    · exact h
    · split
      · exact h
      · exact h

theorem out_execNlpair {a r : BitVec 6} (h : P.Holds s) : P.out (execNlpair a r s) := by
  unfold execNlpair
  refine out_runW (fun _ u hu => ?_) h
  split
  · exact res_nlpairTry hu
  · refine res_once hu (fun u1 hu1 => ?_)
    split
    · exact hu1
    · split
      · exact holds_submitOp hu1
      · split
        · exact hu1
        · split
          · exact hu1
          · split
            · exact res_nlpairTry (holds_submitOp hu1)
            · exact holds_submitOp hu1

theorem res_nlstatFault {addr : DWord} {f : HeldFault} {next : State → Res} (h : P.Holds s)
    (hnext : ∀ a : State, P.Holds a → P.res (next a)) :
    P.res (nlstatFault s addr f next) := by
  unfold nlstatFault
  split
  · exact hnext _ (holds_beginOps h)
  · exact holds_ite h h

theorem holds_nlstatMem {addr : DWord} (h : P.Holds s) : P.Holds (nlstatMem s addr) := holds_ite h h

theorem out_execNlstat {d a : BitVec 6} (h : P.Holds s) : P.out (execNlstat d a s) := by
  dsimp only [execNlstat]
  refine out_run (fun u hu => ?_) h
  refine res_once hu (fun u1 hu1 => ?_)
  split
  · exact res_nlstatFault hu1 (fun _ hu2 => holds_kset (holds_nlstatMem hu2))
  · exact holds_kset (holds_nlstatMem hu1)

theorem holds_writeOutputs {t : Task} {ks : List (Nat × TileOut)} (h : P.Holds s) : P.Holds (writeOutputs s t ks) :=
  holds_foldl (fun _ _ hu => holds_putElem hu) h

theorem holds_writeStatus {t : Task} {state cause : Nat} (h : P.Holds s) : P.Holds (writeStatus s t state cause) := by
  unfold writeStatus
  split
  next t1 he =>
    have ht1 : P.Holds t1 := of_ok he (exc_jobRun h)
    exact ht1
  · exact h

theorem res_tqputTry {addr : DWord} {bs : List Byte} (h : P.Holds s) : P.res (tqputTry addr bs s) := by
  dsimp only [tqputTry]
  split
  · exact h
  · split
    · exact h
    · exact holds_writeStatus (snd_stamp h)

theorem out_execTqput {a : BitVec 6} (h : P.Holds s) : P.out (execTqput a s) := by
  unfold execTqput
  refine out_runW (fun _ u hu => ?_) h
  split
  · exact res_tqputTry hu
  · refine res_once hu (fun u1 hu1 => ?_)
    split
    · exact hu1
    · exact res_tqputTry hu1

theorem res_meetFaults {again : Bool} {next : State → Res} {a : List Task} (h : P.Holds s)
    (hnext : ∀ a : State, P.Holds a → P.res (next a)) :
    P.res (meetFaults s again next a) := by
  fun_induction meetFaults s again next a
  · exact hnext _ h
  next ih => exact ih h
  · exact h
  next ih => exact ih h
  · exact h
  next ih => exact ih h

theorem holds_failTask {old t : Task} {cause : Byte} (h : P.Holds s) : P.Holds (failTask s old t cause) := by
  unfold failTask
  split
  · exact holds_writeStatus h
  · exact holds_writeStatus h

theorem holds_failDependents {n : Nat} (h : P.Holds s) : P.Holds (failDependents s n) := by
  fun_induction failDependents s n
  · exact h
  · exact h
  next ih => exact ih (holds_failTask h)

theorem holds_clearMark {n : Nat} (h : P.Holds s) : P.Holds (clearMark s n) := holds_failDependents h

theorem res_barrierFaults {again : Bool} {n : Nat} {next : State → Res} (h : P.Holds s)
    (hnext : ∀ a : State, P.Holds a → P.res (next a)) :
    P.res (barrierFaults s again n next) := by
  unfold barrierFaults
  split
  · exact holds_ite (holds_clearMark h) h
  · exact res_meetFaults h (fun _ hu => hnext _ hu)

theorem res_twaitTry {n : Nat} {again : Bool} (h : P.Holds s) : P.res (twaitTry n again s) := by
  unfold twaitTry
  refine res_barrierFaults h (fun u hu => ?_)
  split
  · exact hu
  · exact hu

theorem out_execTwait {c b : BitVec 6} (h : P.Holds s) : P.out (execTwait c b s) := by
  unfold execTwait
  refine out_runW (fun _ u hu => ?_) h
  split
  · exact res_twaitTry hu
  · exact res_once hu (fun _ hu1 => res_twaitTry hu1)

theorem out_execTpoll {d c b : BitVec 6} (h : P.Holds s) : P.out (execTpoll d c b s) := by
  unfold execTpoll
  refine out_run (fun u hu => ?_) h
  refine res_once hu (fun u1 hu1 => ?_)
  refine res_barrierFaults hu1 (fun u2 hu2 => ?_)
  split
  · exact hu2
  · exact hu2

theorem out_execTstat {d a : BitVec 6} (h : P.Holds s) : P.out (execTstat d a s) := by
  dsimp only [execTstat]
  refine out_run (fun u hu => ?_) h
  refine res_once hu (fun u1 hu1 => ?_)
  split
  · exact hu1
  · split
    · exact res_meetFaults hu1 (fun _ hu2 => holds_kset hu2)
    · split
      · exact hu1
      · split
        · exact hu1
        · exact holds_kset hu1

theorem optFst_focusTask {cluster : Nat} {p : State → Task → Bool} (h : P.Holds s) : P.optFst (focusTask s cluster p) := by
  dsimp only [focusTask]
  cases (findCluster (pack s).cluss cluster).tasks.find? (fun t => p (focusOn s t.crew t.ctx cluster) t) with
  | none => exact optFst_none
  | some t => exact optFst_some (holds_focusOn h)

theorem opt_startTask {cluster : Nat} (h : P.Holds s) : P.opt (startTask s cluster) := by
  unfold startTask
  split
  next v t _ ht =>
    have hv : P.Holds v := of_someFst ht (optFst_focusTask h)
    exact opt_some hv
  · exact opt_none

theorem holds_taskDone {j : Job} {key n : Nat} (h : P.Holds s) :
    P.Holds { countMem s j key with ctx := { (countMem s j key).ctx with counts := sset 0 (countMem s j key).ctx.counts key n } } :=
  h

theorem holds_completeTask {old t : Task} (h : P.Holds s) : P.Holds (completeTask s old t) := by
  have hu : P.Holds (writeStatus (dropTask s old) t 5 0) := holds_writeStatus h
  unfold completeTask
  dsimp only
  split
  · exact hu
  · exact holds_taskDone hu

theorem opt_rowGroupWrittenEvent {cluster engine : Nat} (h : P.Holds s) : P.opt (rowGroupWrittenEvent cluster engine s) := by
  unfold rowGroupWrittenEvent
  split
  · exact opt_none
  split
  · exact opt_none
  next u t hf =>
    have hu : P.Holds u := of_someFst hf (optFst_focusTask h)
    split
    · exact opt_some (holds_completeTask hu)
    · split
      · exact opt_none
      next t1 ks _ =>
        have hw : P.Holds (writeOutputs u t1 ks) := holds_writeOutputs hu
        exact opt_some hw

theorem out_execRowGroupWritten {cluster engine : Nat} (h : P.Holds s) : P.out (execRowGroupWritten cluster engine s) :=
  out_event (opt_rowGroupWrittenEvent h) h

theorem opt_taskFaultEvent {cluster engine : Nat} (h : P.Holds s) : P.opt (taskFaultEvent cluster engine s) := by
  unfold taskFaultEvent
  split
  · split
    next u t hf =>
      have hu : P.Holds u := of_someFst hf (optFst_focusTask h)
      exact opt_some (holds_failTask hu)
    · exact opt_none
  · split
    · exact opt_none
    next u t hf =>
      have hu : P.Holds u := of_someFst hf (optFst_focusTask h)
      split
      · exact opt_none
      · split
        · exact opt_some hu
        · exact opt_some (holds_failTask hu)

theorem out_execTaskFault {cluster engine : Nat} (h : P.Holds s) : P.out (execTaskFault cluster engine s) :=
  out_event (opt_taskFaultEvent h) h

theorem holds_nlWrite {o : NleOp} {off n v : Nat} (h : P.Holds s) : P.Holds (nlWrite s o off n v) := by
  unfold nlWrite
  split
  next t he =>
    have ht : P.Holds t := of_ok he (exc_writeRun h)
    exact ht
  · exact h

theorem holds_endOp {o : NleOp} (h : P.Holds s) : P.Holds (endOp s o) := holds_beginOps (holds_nlWrite h)

theorem optFst_focusOp {id : Nat} {kind : NleKind} (h : P.Holds s) : P.optFst (focusOp s id kind) := by
  dsimp only [focusOp]
  split
  · exact optFst_none
  · split
    · exact optFst_some (holds_focusOn (holds_beginOps h))
    · exact optFst_none

theorem exc_binWork {o : NleOp} (h : P.Holds s) : P.exc (binWork s o) := by
  dsimp only [binWork]
  split
  · exact exc_error
  · split
    · exact exc_error
    next t he1 =>
      have ht : P.Holds t := of_ok he1 (exc_writeRun h)
      exact exc_ok (holds_ite ht (holds_nlWrite ht))

theorem opt_nlbinCompleteEvent {op : Nat} (h : P.Holds s) : P.opt (nlbinCompleteEvent op s) := by
  unfold nlbinCompleteEvent
  split
  · exact opt_none
  next t o hf =>
    have ht : P.Holds t := of_someFst hf (optFst_focusOp h)
    split
    · exact opt_none
    next u hw =>
      have hu : P.Holds u := of_ok hw (exc_binWork ht)
      exact opt_some (holds_endOp hu)

theorem out_execNlbinComplete {op : Nat} (h : P.Holds s) : P.out (execNlbinComplete op s) :=
  out_event (opt_nlbinCompleteEvent h) h

theorem exc_streamCheck {o : NleOp} (h : P.Holds s) : P.exc (streamCheck s o) := by
  dsimp only [streamCheck]
  split
  · exact exc_ok h
  · split
    · exact exc_error
    · split
      · exact exc_ok (holds_ite (holds_beginOps (holds_nlWrite h)) h)
      · exact exc_ok h

theorem holds_endStream {o : NleOp} (h : P.Holds s) : P.Holds (endStream s o) := holds_endOp (holds_nlWrite h)

theorem holds_writeSlot {o : NleOp} {slot base : Nat} {bs : List Byte} (h : P.Holds s) :
    P.Holds (writeSlot s o slot base bs) := holds_foldl (fun _ _ hu => holds_storeKey hu) h

theorem storeKey_crew {e : Late} {key : Nat} {bs : List Byte} : (storeKey e s key bs).crew = s.crew := by
  unfold storeKey clearPoison
  dsimp only
  split <;> rfl

theorem writeSlot_crew {o : NleOp} {slot base : Nat} {bs : List Byte} : (writeSlot s o slot base bs).crew = s.crew := by
  unfold writeSlot
  induction List.range ((bs.length + 4095) / 4096) generalizing s with
  | nil => rfl
  | cons j js ih => exact (ih (s := storeKey _ s _ _)).trans storeKey_crew

/-- A slot reserved and filled at once, as a stream does where its ring is ready, keeps the law. -/
theorem ring_push {x : Ring} (h : P.ring x) (hroom : x.hasRoom = true) (hfil : x.fil = x.res) :
    P.ring { x with res := x.res + 1, fil := x.fil + 1 } :=
  P.ring_fill (P.ring_reserve h hroom) (show x.fil < x.res + 1 by omega)

theorem holds_fillSlot {o : NleOp} {recs : List (BitVec 128)} (h : P.Holds s) (hroom : (ringAt s o.ring).hasRoom = true)
    (hfil : (ringAt s o.ring).fil = (ringAt s o.ring).res) : P.Holds (fillSlot s o recs) := by
  unfold fillSlot
  extract_lets x per last status bs t u v
  have ht : P.Holds t := holds_writeSlot h
  have hat : ringAt t o.ring = ringAt s o.ring := congrArg (fun c => c.rings.getD o.ring Ring.blank) writeSlot_crew
  have hcrew : P.crew (t.crew.withRing o.ring (fun y => { y with res := y.res + 1, fil := y.fil + 1 })) := by
    refine crew_ringAt ht.crew ?_
    rw [hat]
    exact fun hx => ring_push hx hroom hfil
  have hv : P.Holds v := ⟨ht.mem, hcrew, ht.crews, ht.ctx, ht.ctxs⟩
  exact holds_ite (holds_endStream hv) hv

theorem opt_nleSlotFilledEvent {op : Nat} (h : P.Holds s) : P.opt (nleSlotFilledEvent op s) := by
  unfold nleSlotFilledEvent
  split
  · exact opt_none
  next t o hf =>
    have ht : P.Holds t := of_someFst hf (optFst_focusOp h)
    split
    · split
      · exact opt_none
      next u hu => exact opt_some (of_ok hu (exc_streamCheck ht))
    · split
      next hready =>
        simp only [streamReady, Bool.and_eq_true, beq_iff_eq] at hready
        obtain ⟨⟨⟨-, hroom⟩, hfil⟩, -⟩ := hready
        exact opt_some (holds_fillSlot ht hroom hfil)
      · exact opt_none

theorem out_execNleSlotFilled {op : Nat} (h : P.Holds s) : P.out (execNleSlotFilled op s) :=
  out_event (opt_nleSlotFilledEvent h) h

theorem excFst_tableWork {o : NleOp} (h : P.Holds s) : P.excFst (tableWork s o) := by
  unfold tableWork
  extract_lets x part
  clear_value part
  cases part with
  | error e => exact excFst_error
  | ok r =>
    obtain ⟨es, more⟩ := r
    dsimp only
    split
    · exact excFst_error
    next t ht =>
      have hrun : P.Holds t := of_ok ht (exc_jobRun h)
      exact excFst_ok hrun

theorem opt_nleBlockTableDoneEvent {op : Nat} (h : P.Holds s) : P.opt (nleBlockTableDoneEvent op s) := by
  unfold nleBlockTableDoneEvent
  split
  · exact opt_none
  next t o hf =>
    have ht : P.Holds t := of_someFst hf (optFst_focusOp h)
    split
    · exact opt_none
    next u more hw =>
      have hu : P.Holds u := of_okFst hw (excFst_tableWork ht)
      exact opt_some (holds_endStream hu)

theorem out_execNleBlockTableDone {op : Nat} (h : P.Holds s) : P.out (execNleBlockTableDone op s) :=
  out_event (opt_nleBlockTableDoneEvent h) h

theorem holds_holdOp {o : NleOp} {c : Byte} {n : Nat} (h : P.Holds s) : P.Holds (holdOp s o c n) :=
  holds_ite (holds_beginOps (holds_nlWrite h)) (holds_endOp h)

theorem holds_holdStream {o : NleOp} {c : Byte} {n : Nat} (h : P.Holds s) : P.Holds (holdStream s o c n) :=
  holds_ite (holds_holdOp h) (holds_ite (holds_beginOps h) (holds_beginOps
    (holds_onRing h (fun _ hu => ring_of_counts hu rfl rfl rfl rfl rfl))))

theorem opt_nleFaultEvent {op : Nat} (h : P.Holds s) : P.opt (nleFaultEvent op s) := by
  unfold nleFaultEvent
  split
  · exact opt_none
  · split
    · exact opt_none
    next t o hf =>
      have ht : P.Holds t := of_someFst hf (optFst_focusOp h)
      split
      · exact opt_none
      · exact opt_some (holds_ite (holds_holdStream ht) (holds_holdOp ht))

theorem out_execNleFault {op : Nat} (h : P.Holds s) : P.out (execNleFault op s) := out_event (opt_nleFaultEvent h) h

theorem exc_laneRun {va : Nat} {bs : List Byte} (h : P.Holds s) : P.exc (laneRun s va bs) := by
  unfold laneRun
  split
  · exact exc_error
  · exact exc_ok (holds_storeRun h)

theorem exc_installRule {q : DWord} {rec : List Byte} {root : Payload} (h : P.Holds s) :
    P.exc (installRule s q rec root) := by
  dsimp only [installRule]
  split
  · exact exc_error
  · split
    · exact exc_error
    · split
      · exact exc_laneRun h
      · split
        · exact exc_error
        · split
          · exact exc_error
          · exact exc_laneRun h

theorem res_fruleStore {v : Payload} (h : P.Holds s) : P.res (fruleStore s v) := by
  unfold fruleStore
  split
  · exact h
  · exact h
  next t he =>
    have ht : P.Holds t := maj_done he (maj_majCas h)
    exact holds_releaseStore (holds_acquireCell ht)
  next t he =>
    have ht : P.Holds t := maj_done he (maj_majCas h)
    exact ht

theorem res_fruleTry (h : P.Holds s) : P.res (fruleTry s) := by
  unfold fruleTry
  refine res_attempt (fun u hu => ?_) h
  split
  · exact hu
  · split
    · exact hu
    · exact hu
    next t he1 =>
      have ht : P.Holds t := maj_done he1 (maj_majLoad hu)
      split
      · exact res_fruleStore ht
      · split
        · exact ht
        next t1 he3 =>
          have ht1 : P.Holds t1 := of_ok he3 (exc_installRule (holds_acquireCell ht))
          exact res_fruleStore ht1

theorem out_execFrule {a b : BitVec 6} (h : P.Holds s) : P.out (execFrule a b s) := by
  unfold execFrule
  refine out_runW (fun _ u hu => ?_) h
  split
  · exact res_fruleTry hu
  · refine res_once hu (fun u1 hu1 => ?_)
    split
    · exact hu1
    · exact res_majIssue (fun _ hu2 => res_fruleTry hu2) hu1

theorem out_execTap {a : BitVec 6} (h : P.Holds s) : P.out (execTap a s) := by
  dsimp only [execTap]
  refine out_run (fun u hu => ?_) h
  refine res_once hu (fun u1 hu1 => ?_)
  split
  · exact hu1
  · split
    · exact hu1
    · split
      · split
        · exact hu1
        · exact snd_stamp (snd_freshId hu1)
      · split
        · exact hu1
        · exact snd_stamp (snd_freshId hu1)

theorem res_tapwWait {slot b : Nat} (h : P.Holds s) : P.res (tapwWait slot b s) := by
  unfold tapwWait
  split
  · exact h
  · split
    · exact h
    · exact h

theorem res_tapwTry {slot : Nat} {again : Bool} (h : P.Holds s) : P.res (tapwTry slot again s) := by
  unfold tapwTry
  split
  · exact h
  · split
    · exact h
    · exact res_tapwWait (holds_ite h h)

theorem out_execTapw {sn b : BitVec 6} (h : P.Holds s) : P.out (execTapw sn b s) := by
  unfold execTapw
  refine out_runW (fun _ u hu => ?_) h
  split
  · exact res_tapwTry hu
  · exact res_once hu (fun _ hu1 => res_tapwTry hu1)

theorem res_withRecord {f : TapRecord → List TapRecord → State → Res}
    (h : ∀ (a : TapRecord) (b : List TapRecord) (c : State), P.Holds c → P.res (f a b c)) (hs : P.Holds s) :
    P.res (withRecord f s) := by
  unfold withRecord
  refine res_once hs (fun u hu => ?_)
  split
  · exact hu
  · exact h _ _ _ hu

theorem out_execTaprd {d : BitVec 6} (h : P.Holds s) : P.out (execTaprd d s) :=
  out_run (fun _ hu => res_withRecord (fun _ _ _ hu1 => holds_foldl (fun _ _ hu2 => holds_kset hu2) hu1) hu) h

theorem out_execTaped {a : BitVec 6} (h : P.Holds s) : P.out (execTaped a s) := by
  unfold execTaped
  refine out_run (fun u hu => ?_) h
  refine res_withRecord (fun _ _ u1 hu1 => ?_) hu
  split
  · exact hu1
  · split
    · exact hu1
    · exact hu1

theorem exc_fduWrite {t : Tap} {row : Nat} {n : Need} {va : Nat} {bs : List Byte} (h : P.Holds s) :
    P.exc (fduWrite s t row n va bs) := exc_jobRun h

theorem exc_entrySet {t : Tap} {r set clear : Nat} (h : P.Holds s) : P.exc (entrySet s t r set clear) := by
  unfold entrySet
  split
  · exact exc_error
  · exact exc_error
  · exact exc_ok (holds_storeRun h)

theorem exc_resolveRecord {r : TapRecord} {rest : List TapRecord} {flag : Nat} (h : P.Holds s) :
    P.exc (resolveRecord s r rest flag) := by
  dsimp only [resolveRecord]
  split
  · exact exc_ok h
  · split
    · exact exc_error
    next u he1 =>
      have hu : P.Holds u := of_ok he1 (exc_entrySet h)
      exact exc_ok (holds_ite hu hu)

theorem res_resolveBody {flag : Nat} {u2 : State} (h : P.Holds u2) : P.res (resolveBody flag u2) := by
  unfold resolveBody
  refine res_withRecord (fun _ _ u hu => ?_) h
  split
  · exact hu
  next t he =>
    have ht : P.Holds t := of_ok he (exc_resolveRecord hu)
    exact ht

theorem out_execTapresCont (h : P.Holds s) : P.out (execTapresCont s) := out_run (fun _ hu => res_resolveBody hu) h

theorem out_execTapresAbort (h : P.Holds s) : P.out (execTapresAbort s) := out_run (fun _ hu => res_resolveBody hu) h

theorem exc_applyEdit {t : Tap} {r : TapRecord} {rest : List TapRecord} {edit : List Byte} (h : P.Holds s) :
    P.exc (applyEdit s t r rest edit) := by
  dsimp only [applyEdit]
  split
  · exact exc_error
  next u he =>
    have hu : P.Holds u := of_ok he (exc_fduWrite h)
    split
    · exact exc_error
    · split
      · exact exc_error
      next u1 he2 =>
        have hu1 : P.Holds u1 := of_ok he2 (exc_fduWrite hu)
        split
        · exact exc_error
        next u2 he3 =>
          have hu2 : P.Holds u2 := of_ok he3 (exc_fduWrite hu1)
          exact exc_resolveRecord hu2

theorem out_execTapresEdit (h : P.Holds s) : P.out (execTapresEdit s) := by
  unfold execTapresEdit
  refine out_run (fun u hu => ?_) h
  refine res_withRecord (fun _ _ u1 hu1 => ?_) hu
  split
  · exact hu1
  · exact hu1
  · split
    · exact hu1
    next t1 he2 =>
      have ht1 : P.Holds t1 := of_ok he2 (exc_applyEdit hu1)
      exact ht1

theorem holds_abortRecords {n : Nat} (h : P.Holds s) : P.Holds (abortRecords s n) := by
  fun_induction abortRecords s n
  · exact h
  · exact h
  next t he1 ih =>
    have ht : P.Holds t := of_ok he1 (exc_resolveRecord h)
    exact ih ht
  next ih => exact ih h

theorem optFst_focusTap {id : Nat} (h : P.Holds s) : P.optFst (focusTap s id) := by
  unfold focusTap
  split
  · exact optFst_none
  · split
    · exact optFst_none
    · split
      · exact optFst_some (holds_focusOn h)
      · exact optFst_none

theorem holds_tapLog {t : Tap} {c : Byte} {v : Nat} (h : P.Holds s) : P.Holds (tapLog s t c v) := holds_logRecord h

theorem holds_dropRecords {tap r : Nat} (h : P.Holds s) : P.Holds (dropRecords s tap r) :=
  ⟨h.mem, h.crew, crews_map (fun _ hu => hu) h.crews, h.ctx, h.ctxs⟩

theorem holds_abortRow {s0 : State} {t : Tap} {r : Nat} {c : Byte} {n : Nat} (h : P.Holds s0) :
    P.Holds (abortRow s0 t r c n) := by
  dsimp only [abortRow]
  split
  next t1 he =>
    have ht1 : P.Holds t1 := of_ok he (exc_entrySet (holds_dropRecords h))
    exact holds_tapLog ht1
  · exact holds_tapLog (holds_dropRecords h)

theorem maj_rootLoad {t : Tap} {cell : Nat} (h : P.Holds s) : P.maj (rootLoad s t cell) := by
  unfold rootLoad
  split
  · exact trivial
  · split
    · exact trivial
    · split
      · split
        · exact trivial
        · exact trivial
      · exact maj_majLoad h

theorem opt_readLists {t : Tap} {root : Payload} (h : P.Holds s) : P.opt (readLists s t root) := by
  dsimp only [readLists]
  split
  · exact opt_none
  · exact opt_some h

theorem opt_fduRootReadEvent {tap : Nat} (h : P.Holds s) : P.opt (fduRootReadEvent tap s) := by
  unfold fduRootReadEvent
  split
  · exact opt_none
  next u t hf =>
    have hu : P.Holds u := of_someFst hf (optFst_focusTap h)
    split
    · exact opt_none
    · split
      · exact opt_readLists hu
      · split
        · exact opt_none
        next key _ =>
          split
          · exact opt_none
          · exact opt_some hu
          next v s1 hl =>
            have hs1 : P.Holds s1 := maj_done hl (maj_rootLoad hu)
            have hw : P.Holds (rootRead s1 t (cellOf key) v) := hs1
            exact opt_some (holds_getD (opt_readLists hw) hw)

theorem out_execFduRootRead {tap : Nat} (h : P.Holds s) : P.out (execFduRootRead tap s) :=
  out_event (opt_fduRootReadEvent h) h

theorem holds_intakeWrite {t : Tap} {x : TapRow} (h : P.Holds s) : P.Holds (intakeWrite t s x) := by
  unfold intakeWrite
  extract_lets s1
  have hs1 : P.Holds s1 := by
    refine holds_ite h ?_
    split
    next u hu => exact of_ok hu (exc_fduWrite h)
    · exact h
  split
  next u hu => exact of_ok hu (exc_entrySet hs1)
  · exact hs1

theorem opt_fduIntakeEndEvent {tap : Nat} (h : P.Holds s) : P.opt (fduIntakeEndEvent tap s) := by
  unfold fduIntakeEndEvent
  split
  · exact opt_none
  next u t hf =>
    have hu : P.Holds u := of_someFst hf (optFst_focusTap h)
    split
    · exact opt_none
    · split
      · exact opt_none
      next xs _ =>
        have hs1 : P.Holds (xs.foldl (intakeWrite t) u) := holds_foldl (fun _ _ hv => holds_intakeWrite hv) hu
        exact opt_some hs1

theorem out_execFduIntakeEnd {tap : Nat} (h : P.Holds s) : P.out (execFduIntakeEnd tap s) :=
  out_event (opt_fduIntakeEndEvent h) h

theorem opt_startEncoder {clus : Nat} (h : P.Holds s) : P.opt (startEncoder s clus) := by
  dsimp only [startEncoder]
  split
  · exact opt_none
  next c _ =>
    split
    · split
      · exact opt_none
      · exact opt_some ((show P.Holds (focusOn s 0 c.id clus) from holds_focusOn h))
    · exact opt_none

theorem opt_nextEncoder (h : P.Holds s) : P.opt (nextEncoder s) := opt_findSome (fun _ => opt_startEncoder h)

theorem opt_tileTaskDispatchEvent (h : P.Holds s) : P.opt (tileTaskDispatchEvent s) := by
  unfold tileTaskDispatchEvent
  split
  · exact opt_none
  · split
    next t ht => exact opt_some (of_some ht (opt_nextEncoder h))
    · exact opt_findSome (fun _ => opt_startTask h)

theorem out_execTileTaskDispatch (h : P.Holds s) : P.out (execTileTaskDispatch s) :=
  out_event (opt_tileTaskDispatchEvent h) h

theorem holds_putRows {id : Nat} {xs : List TapRow} (h : P.Holds s) : P.Holds (putRows s id xs) :=
  holds_foldl (fun _ _ hu => hu) h

theorem opt_fduEncoderTaskDoneEvent {tap : Nat} (h : P.Holds s) : P.opt (fduEncoderTaskDoneEvent tap s) := by
  unfold fduEncoderTaskDoneEvent
  split
  · exact opt_none
  split
  · exact opt_none
  next u t hf =>
    have hu : P.Holds u := of_someFst hf (optFst_focusTap h)
    split
    · exact opt_none
    next e _ =>
      split
      · exact opt_none
      · exact opt_some (holds_putRows (s := { u with clus := { u.clus with encoders := u.clus.encoders.erase e } }) hu)

theorem out_execFduEncoderTaskDone {tap : Nat} (h : P.Holds s) : P.out (execFduEncoderTaskDone tap s) :=
  out_event (opt_fduEncoderTaskDoneEvent h) h

theorem opt_fduSelectDoneEvent {tap : Nat} (h : P.Holds s) : P.opt (fduSelectDoneEvent tap s) := by
  unfold fduSelectDoneEvent
  split
  · exact opt_none
  next u t hf =>
    have hu : P.Holds u := of_someFst hf (optFst_focusTap h)
    dsimp only
    split
    · exact opt_none
    · exact opt_some (holds_putRows hu)

theorem out_execFduSelectDone {tap : Nat} (h : P.Holds s) : P.out (execFduSelectDone tap s) :=
  out_event (opt_fduSelectDoneEvent h) h

theorem opt_appendRecord {t : Tap} {x : TapRow} {e : Nat × List Byte} {v : Word} (h : P.Holds s) :
    P.opt (appendRecord s t x e v) := by
  unfold appendRecord
  split
  · refine opt_some ?_
    split
    next t1 he1 =>
      have ht1 : P.Holds t1 := of_ok he1 (exc_entrySet h)
      exact ht1
    · exact h
  · split
    · exact opt_none
    · exact opt_some (holds_onCrew h (fun _ hu => hu))

theorem holds_rowChange {tap row : Nat} {f : TapRow → TapRow} (h : P.Holds s) : P.Holds (onRow s tap row f) := h

theorem opt_ruleStep {t : Tap} {x : TapRow} (h : P.Holds s) : P.opt (ruleStep s t x) := by
  unfold ruleStep
  split
  · exact opt_none
  next e _ =>
    extract_lets v go
    have hgo : ∀ u, P.Holds u → P.Holds (go u) := fun _ hu => holds_rowChange hu
    split
    · exact opt_some (hgo s h)
    · split
      · split
        · exact opt_some (hgo s h)
        · split
          · exact opt_mapState hgo (opt_appendRecord h)
          · exact opt_some (hgo _ (holds_tapLog h))
      · exact opt_some (holds_rowChange (hgo s h))

theorem exc_clearPending {t : Tap} {x : TapRow} (h : P.Holds s) : P.exc (clearPending s t x) := by
  unfold clearPending
  split
  · exact exc_ok h
  · exact exc_entrySet h

theorem exc_closeRow {t : Tap} {x : TapRow} (h : P.Holds s) : P.exc (closeRow s t x) := by
  unfold closeRow
  split
  · exact exc_error
  next u he =>
    have hu : P.Holds u := of_ok he (exc_clearPending h)
    exact exc_ok hu

theorem opt_fduRuleUnitEvent {tap : Nat} (h : P.Holds s) : P.opt (fduRuleUnitEvent tap s) := by
  unfold fduRuleUnitEvent
  split
  · exact opt_none
  next u t hf =>
    have hu : P.Holds u := of_someFst hf (optFst_focusTap h)
    split
    · split
      next v hv => exact opt_some (of_ok hv (exc_closeRow hu))
      · exact opt_none
    · dsimp only
      split
      · exact opt_none
      · exact opt_some (holds_foldl (fun _ _ hv => holds_getD (opt_ruleStep hv) hv) hu)

theorem out_execFduRuleUnit {tap : Nat} (h : P.Holds s) : P.out (execFduRuleUnit tap s) :=
  out_event (opt_fduRuleUnitEvent h) h

theorem exc_writeBack {t : Tap} {x : TapRow} (h : P.Holds s) : P.exc (writeBack s t x) := by
  dsimp only [writeBack]
  split
  · exact exc_error
  · split
    · exact exc_error
    next u he1 =>
      have hu : P.Holds u := of_ok he1 (exc_clearPending (holds_foldl (fun u1 _ hu => holds_storeKey hu) h))
      exact exc_ok (holds_performPart hu)

theorem opt_fduWritebackEvent {tap : Nat} (h : P.Holds s) : P.opt (fduWritebackEvent tap s) := by
  unfold fduWritebackEvent
  split
  · exact opt_none
  next u t hf =>
    have hu : P.Holds u := of_someFst hf (optFst_focusTap h)
    split
    · exact opt_none
    · split
      · exact opt_none
      next v hv => exact opt_some (of_ok hv (exc_writeBack hu))

theorem out_execFduWriteback {tap : Nat} (h : P.Holds s) : P.out (execFduWriteback tap s) :=
  out_event (opt_fduWritebackEvent h) h

theorem holds_rootFault {t : Tap} {c : Byte} (h : P.Holds s) : P.Holds (rootFault s t c) :=
  holds_ite h (holds_foldl (fun _ _ hu => holds_abortRow hu) h)

theorem opt_fduFaultEvent {tap : Nat} (h : P.Holds s) : P.opt (fduFaultEvent tap s) := by
  unfold fduFaultEvent
  split
  · exact opt_none
  next u t hf =>
    have hu : P.Holds u := of_someFst hf (optFst_focusTap h)
    split
    · exact opt_some (holds_rootFault hu)
    · split
      · exact opt_none
      next r c a _ =>
        have hstop : P.Holds (stopEncoders (holdTap u t c a) t.id) := hu
        exact opt_some (holds_ite hstop (holds_abortRow hu))

theorem out_execFduFault {tap : Nat} (h : P.Holds s) : P.out (execFduFault tap s) := out_event (opt_fduFaultEvent h) h

end Sys2Proof.Machine.Storage
end

section
/-! SUPPORT. The storage laws at launches, preemption, events and the device. -/

namespace Sys2Proof.Machine.Storage
variable {P : StorageLaw} {s t : State}

theorem fst_enterLaunch {r : LaunchRec} {past : Option Past} (h : P.Holds s) : P.fst (enterLaunch s r past) := by
  unfold enterLaunch
  split
  · exact h
  · exact h

theorem out_execLaunch {d a : BitVec 6} (h : P.Holds s) : P.out (execLaunch d a s) := by
  unfold execLaunch
  refine out_run (fun u hu => ?_) h
  refine res_once hu (fun u1 hu1 => ?_)
  split
  · exact hu1
  · split
    next t he1 =>
      have ht : P.Holds t := snd_eq he1 (snd_releaseNow hu1)
      split
      next u2 _ he2 =>
        have hu2 : P.Holds u2 := fst_eq he2 (fst_enterLaunch ht)
        exact holds_kset hu2

theorem out_execShape {d a : BitVec 6} (h : P.Holds s) : P.out (execShape d a s) := by
  dsimp only [execShape]
  refine out_run (fun u hu => ?_) h
  refine res_once hu (fun u1 hu1 => ?_)
  split
  · exact hu1
  · exact holds_kset hu1

theorem out_execAccup {d a : BitVec 6} (h : P.Holds s) : P.out (execAccup d a s) := by
  dsimp only [execAccup]
  refine out_run (fun u hu => ?_) h
  refine res_once hu (fun u1 hu1 => ?_)
  split
  · exact hu1
  · split
    · exact hu1
    · exact holds_kset hu1

theorem holds_capture {kind : Nat} {payload : List Byte} (h : P.Holds s) : P.Holds (capture s kind payload) := by
  unfold capture
  split
  · exact h
  · exact holds_ite h (holds_ite h (holds_writeKey h))

theorem holds_captureAll {kind : Nat} {payload : List Byte} (h : P.Holds s) : P.Holds (captureAll s kind payload) :=
  holds_foldl (fun _ _ hu => holds_capture (holds_focusOn hu)) h

theorem opt_focusCtx {id : Nat} (h : P.Holds s) : P.opt (focusCtx s id) := by
  dsimp only [focusCtx]
  split
  · exact opt_some (holds_focusOn h)
  · exact opt_none

theorem opt_serviceLaunchEvent {ctx : Nat} {record : DWord} (h : P.Holds s) : P.opt (serviceLaunchEvent ctx record s) := by
  unfold serviceLaunchEvent
  split
  · exact opt_none
  next t he =>
    have ht : P.Holds t := of_some he (opt_focusCtx h)
    split
    · exact opt_some ht
    · exact opt_some (fst_enterLaunch ht)

theorem out_execServiceLaunch {ctx : Nat} {record : DWord} (h : P.Holds s) : P.out (execServiceLaunch ctx record s) :=
  out_event (opt_serviceLaunchEvent h) h

theorem holds_admitLaunch {l : Launch} (h : P.Holds s) : P.Holds (admitLaunch s l) := by
  unfold admitLaunch
  split
  · exact h
  · exact h

theorem opt_launchAdmitEvent {ctx : Nat} (h : P.Holds s) : P.opt (launchAdmitEvent ctx s) := by
  unfold launchAdmitEvent
  split
  · exact opt_none
  next t he =>
    have ht : P.Holds t := of_some he (opt_focusCtx h)
    split
    · exact opt_none
    · exact opt_some (holds_capture (holds_admitLaunch ht))

theorem out_execLaunchAdmit {ctx : Nat} (h : P.Holds s) : P.out (execLaunchAdmit ctx s) :=
  out_event (opt_launchAdmitEvent h) h

theorem holds_startCrew {id : Nat} (h : P.Holds s) : P.Holds (startCrew s id) :=
  ⟨h.mem, h.crew, crews_map (fun _ hu => crew_ite hu hu) h.crews, h.ctx, h.ctxs⟩

theorem holds_loadWarp {l : Launch} {b : Bind} {crew : Nat} (h : P.Holds s) : P.Holds (loadWarp s l b crew) := by
  unfold loadWarp
  split
  next t he =>
    have ht : P.Holds t := snd_eq he (snd_freshId h)
    exact holds_ite ht (holds_startCrew ht)

theorem opt_bindOne {r : BitVec 256} (h : P.Holds s) : P.opt (bindOne s r) := by
  dsimp only [bindOne]
  split
  · exact opt_some h
  · split
    · exact opt_some h
    · split
      · exact opt_some (holds_loadWarp h)
      · split
        · exact opt_none
        · exact opt_some (holds_loadWarp ⟨(snd_freshId h).mem, (snd_freshId h).crew, crews_insertCrew crew_blank
              ((snd_freshId h).crews), (snd_freshId h).ctx, (snd_freshId h).ctxs⟩)

theorem holds_bindAll {clus : Nat} {xs : List (BitVec 256)} (h : P.Holds s) : P.Holds (bindAll clus s xs) := by
  fun_induction bindAll clus s xs
  · exact h
  next ih => exact ih h
  next s1 _ _ _ _ _ _ _ => exact (show P.Holds (focusOn s1 0 0 clus) from holds_focusOn h)
  next u t he1 ih =>
    have hu : P.Holds u := holds_focusOn h
    have ht : P.Holds t := of_some he1 (opt_bindOne hu)
    exact ih (holds_ite (holds_capture ht) ht)

theorem holds_drainRing {clus : Nat} {more : List (BitVec 256)} (h : P.Holds s) : P.Holds (drainRing s clus more) :=
  holds_bindAll ((show P.Holds (focusOn s 0 0 clus) from holds_focusOn h))

theorem opt_drainFirst {xs : List Cluster} (h : P.Holds s) : P.opt (drainFirst s xs) := by
  fun_induction drainFirst s xs
  · exact opt_none
  next ih => exact ih
  next t1 _ =>
    have ht1 : P.Holds t1 := holds_drainRing h
    exact opt_some ht1

theorem opt_bindRecordEvent {record : BitVec 256} (h : P.Holds s) : P.opt (bindRecordEvent record s) := by
  unfold bindRecordEvent
  split
  · exact opt_drainFirst h
  · split
    · exact opt_none
    · exact opt_some (holds_drainRing h)

theorem out_execBindRecord {record : BitVec 256} (h : P.Holds s) : P.out (execBindRecord record s) :=
  out_event (opt_bindRecordEvent h) h

theorem maj_holdRecord {cell wid : Nat} (h : P.Holds s) : P.maj (holdRecord s cell wid) := by
  unfold holdRecord
  split
  next s1 he =>
    have hs1 : P.Holds s1 := maj_done he (maj_majLoad h)
    exact maj_majCas hs1
  · exact maj_majLoad h

theorem holds_serviceOrder {o : ServiceOp} {stored : Bool} (h : P.Holds s) : P.Holds (serviceOrder s o stored) := by
  unfold serviceOrder
  split
  · exact holds_ite (holds_ite h h) (holds_ite (holds_ite h h) (holds_ite h h))
  · exact holds_ite h (holds_ite h h)

theorem maj_serviceWork {o : ServiceOp} (h : P.Holds s) : P.maj (serviceWork s o) := by
  unfold serviceWork
  split
  · exact maj_majLoad h
  · exact maj_raiseReady h
  · exact maj_holdRecord h
  · exact maj_storePhase h
  · exact maj_majStore h
  · exact maj_majCas h

theorem holds_endService {o : ServiceOp} {stores answered outcome : Bool} {payload : Payload} (h : P.Holds s) :
    P.Holds (endService s o stores answered outcome payload) := by
  unfold endService
  split
  · exact h
  · exact holds_ite (holds_captureAll h) h

theorem holds_advanceService {o : ServiceOp} (h : P.Holds s) : P.Holds (advanceService s o) := by
  unfold advanceService
  split
  · exact holds_endService h
  · split
    · exact h
    · split
      · exact h
      · split
        next t he3 =>
          have ht : P.Holds t := maj_done he3 (maj_serviceWork h)
          exact holds_ite (holds_endService (holds_serviceOrder ht)) (holds_serviceOrder ht)
        · exact holds_endService h
        · exact holds_ite (holds_endService h) h

theorem holds_advanceServices (h : P.Holds s) : P.Holds (advanceServices s) :=
  holds_foldl (fun _ _ hu => holds_advanceService hu) h

theorem opt_serviceOp {core cell : Nat} {kind : ServiceKind} {expect : DWord} {payload : Payload} (h : P.Holds s) :
    P.opt (serviceOp s core cell kind expect payload) := by
  unfold serviceOp
  split
  · exact opt_none
  · exact opt_some (holds_advanceService h)

theorem opt_serviceMldEvent {core cell : Nat} (h : P.Holds s) : P.opt (serviceMldEvent core cell s) := opt_serviceOp h

theorem out_execServiceMld {core cell : Nat} (h : P.Holds s) : P.out (execServiceMld core cell s) :=
  out_event (opt_serviceMldEvent h) h

theorem opt_serviceMstEvent {core cell : Nat} {payload : Payload} (h : P.Holds s) :
    P.opt (serviceMstEvent core cell payload s) := opt_serviceOp h

theorem out_execServiceMst {core cell : Nat} {payload : Payload} (h : P.Holds s) :
    P.out (execServiceMst core cell payload s) := out_event (opt_serviceMstEvent h) h

theorem opt_serviceMcasEvent {core cell : Nat} {expect : DWord} {payload : Payload} (h : P.Holds s) :
    P.opt (serviceMcasEvent core cell expect payload s) := opt_serviceOp h

theorem out_execServiceMcas {core cell : Nat} {expect : DWord} {payload : Payload} (h : P.Holds s) :
    P.out (execServiceMcas core cell expect payload s) := out_event (opt_serviceMcasEvent h) h

theorem opt_serviceTrsigUpdateEvent {core cell : Nat} {value : DWord} (h : P.Holds s) :
    P.opt (serviceTrsigUpdateEvent core cell value s) := opt_serviceOp h

theorem out_execServiceTrsigUpdate {core cell : Nat} {value : DWord} (h : P.Holds s) :
    P.out (execServiceTrsigUpdate core cell value s) := out_event (opt_serviceTrsigUpdateEvent h) h

theorem opt_budgetExpiryEvent (h : P.Holds s) : P.opt (budgetExpiryEvent s) := by
  unfold budgetExpiryEvent
  split
  · exact opt_none
  · exact opt_some (holds_parkIdle (holds_focusCrew h))

theorem out_execBudgetExpiry (h : P.Holds s) : P.out (execBudgetExpiry s) := out_event (opt_budgetExpiryEvent h) h

theorem exc_unwindLoop {n : Nat} {u : State} (h : P.Holds u) : P.exc (unwindLoop n u) := by
  fun_induction unwindLoop n u
  · exact exc_ok h
  · exact exc_ok h
  · exact exc_error
  next n he1 ih =>
    have ha : P.Holds n := of_ok he1 (exc_slideDown h)
    exact ih ha

theorem exc_unwindSplit (h : P.Holds s) : P.exc (unwindSplit s) := by
  unfold unwindSplit
  split
  · exact exc_error
  next a he =>
    have ha : P.Holds a := of_ok he (exc_unwindLoop h)
    exact exc_ok ha

theorem exc_unwindOne (h : P.Holds s) : P.exc (unwindOne s) := by
  unfold unwindOne
  split
  · split
    · exact exc_error
    next a he1 =>
      have ha : P.Holds a := of_ok he1 (exc_unwindSplit h)
      exact exc_ok ha
  · split
    · exact exc_ok h
    · split
      · exact exc_error
      next a he2 =>
        have ha : P.Holds a := of_ok he2 (exc_unwindSplit h)
        exact exc_ok ha

theorem exc_unwindSplits {n : Nat} {u : State} (h : P.Holds u) : P.exc (unwindSplits n u) := by
  fun_induction unwindSplits n u
  · exact exc_ok h
  · exact exc_error
  next t he ih =>
    have ht : P.Holds t := of_ok he (exc_unwindOne h)
    exact ih ht

theorem exc_unwindWarp (h : P.Holds s) : P.exc (unwindWarp s) := exc_unwindSplits h

theorem exc_unwindAll {ks : List Nat} {u : State} (h : P.Holds u) : P.exc (unwindAll ks u) := by
  fun_induction unwindAll ks u
  · exact exc_ok h
  · exact exc_error
  next t he ih =>
    have ht : P.Holds t := of_ok he (exc_unwindWarp (holds_focusWarp h))
    exact ih ht

theorem holds_releaseCrew {crew : Nat} (h : P.Holds s) : P.Holds (releaseCrew s crew) :=
  holds_focusCrew ⟨(holds_pack h).mem, (holds_pack h).crew, crews_map (fun _ hu => crew_ite hu hu)
    ((holds_pack h).crews), (holds_pack h).ctx, (holds_pack h).ctxs⟩

theorem holds_resumed {crew : Nat} {budget : DWord} (h : P.Holds s) : P.Holds (resumed s crew budget) := holds_releaseCrew h

theorem opt_resumeEvent {crew : Nat} {budget : DWord} (h : P.Holds s) : P.opt (resumeEvent crew budget s) := by
  dsimp only [resumeEvent]
  split
  · exact opt_none
  · split
    · exact opt_some (holds_resumed (holds_focusCrew h))
    · split
      next u he2 =>
        have hu : P.Holds u := of_ok he2 (exc_unwindAll (holds_focusCrew h))
        exact opt_some (holds_resumed hu)
      · exact opt_some (holds_logEvent (holds_focusWarp (holds_focusCrew h)))

theorem out_execResume {crew : Nat} {budget : DWord} (h : P.Holds s) : P.out (execResume crew budget s) :=
  out_event (opt_resumeEvent h) h

theorem holds_loseItems {w : Warp} (h : P.Holds s) : P.Holds (loseItems s w) :=
  holds_foldl (fun _ _ hu => holds_ite (holds_loseItem (holds_focusWarp hu)) (holds_focusWarp hu)) h

theorem holds_discardWork (h : P.Holds s) : P.Holds (discardWork s) := by
  have ht : P.Holds ((List.range 8).foldl discardRing s) := holds_foldl (fun _ _ hu => holds_discardRing hu) h
  unfold discardWork
  generalize (List.range 8).foldl discardRing s = t at ht
  exact ht

theorem opt_killEvent {crew : Nat} (h : P.Holds s) : P.opt (killEvent crew s) := by
  unfold killEvent
  extract_lets t w parked s1 sent s3 s4 s5 gone s6 u c s7
  have hs1 : P.Holds s1 := holds_logEvent (holds_focusCrew h)
  clear_value s1
  have hs3 : P.Holds s3 := hs1
  have hs5 : P.Holds s5 := holds_discardWork (holds_abortRecords hs3)
  clear_value s5
  have hs6 : P.Holds s6 := hs5
  clear_value s6
  have hs7 : P.Holds s7 := hs6
  clear_value s7
  split
  · exact opt_none
  split
  · exact opt_some (holds_foldl (fun _ _ hu => holds_loseItems hu) hs7)
  · exact opt_some (holds_endCrew hs6)

theorem out_execKill {crew : Nat} (h : P.Holds s) : P.out (execKill crew s) := out_event (opt_killEvent h) h

theorem opt_preemptRequestEvent {ctx : Nat} {time : SaveTime} (h : P.Holds s) : P.opt (preemptRequestEvent ctx time s) := by
  unfold preemptRequestEvent
  split
  · exact opt_none
  next t _ he =>
    have ht : P.Holds t := of_some he (opt_focusCtx h)
    exact opt_some ht
  next t _ he =>
    have ht : P.Holds t := of_some he (opt_focusCtx h)
    split
    · exact opt_none
    · exact opt_some ht

theorem out_execPreemptRequest {ctx : Nat} {time : SaveTime} (h : P.Holds s) : P.out (execPreemptRequest ctx time s) :=
  out_event (opt_preemptRequestEvent h) h

theorem opt_firstOf {fs : List (State → Option State)} (hf : ∀ f ∈ fs, P.opt (f s)) : P.opt (firstOf s fs) := by
  intro t ht
  obtain ⟨f, hmem, hft⟩ := List.exists_of_findSome?_eq_some ht
  exact hf f hmem t hft

theorem holds_runOut {f : State → Option State} {a : Nat} {a1 : State} (h : ∀ a : State, P.Holds a → P.opt (f a))
    (ha1 : P.Holds a1) :
    P.Holds (runOut f a a1) := by
  fun_induction runOut f a a1
  · exact ha1
  next u he ih =>
    have hu : P.Holds u := of_some he (h _ ha1)
    exact ih hu
  · exact ha1

theorem opt_tapWork {tap : Nat} (h : P.Holds s) : P.opt (tapWork tap s) := by
  refine opt_firstOf (fun f hf => ?_)
  simp only [List.mem_cons, List.not_mem_nil, or_false] at hf
  obtain rfl | rfl | rfl | rfl | rfl | rfl | rfl := hf
  · exact opt_fduRootReadEvent h
  · exact opt_fduIntakeEndEvent h
  · exact opt_fduEncoderTaskDoneEvent h
  · exact opt_fduSelectDoneEvent h
  · exact opt_fduWritebackEvent h
  · exact opt_fduRuleUnitEvent h
  · exact opt_fduFaultEvent h

theorem opt_tapsWork {ctx : Nat} (h : P.Holds s) : P.opt (tapsWork ctx s) := by
  refine opt_firstOf (fun f hf => ?_)
  obtain ⟨t, -, ht⟩ := List.mem_flatMap.mp hf
  simp only [List.mem_cons, List.not_mem_nil, or_false] at ht
  obtain rfl | rfl := ht
  · exact opt_tapWork h
  · exact opt_startEncoder h

theorem opt_copyWork {clus : Nat} (h : P.Holds s) : P.opt (copyWork clus s) := by
  refine opt_firstOf (fun f hf => ?_)
  simp only [List.mem_append, List.mem_map, List.mem_cons, List.not_mem_nil, or_false] at hf
  obtain (⟨n, -, rfl⟩ | ⟨n, -, rfl⟩) | rfl := hf
  · exact opt_chunkFilledEvent h
  · exact opt_copyFaultEvent h
  · exact opt_startCopy h

theorem res_majorityTry {x : Instr × Res} (h : P.Holds s) (hx : majorityTry s = some x) : P.res x.2 := by
  unfold majorityTry at hx
  split at hx
  · rw [← Option.some.inj hx]; exact res_mldTry h
  · rw [← Option.some.inj hx]; exact res_mstTry h
  · rw [← Option.some.inj hx]; exact res_mcasTry h
  · rw [← Option.some.inj hx]; exact res_fruleTry h
  · exact (Option.some_ne_none _ hx.symm).elim

theorem holds_completeMajority (h : P.Holds s) : P.Holds (completeMajority s) := by
  unfold completeMajority
  split
  next hm => exact res_majorityTry h hm
  next hm =>
    exact holds_ite h (holds_finish (res_majorityTry h hm))
  next hm => exact holds_finish (res_majorityTry h hm)
  · exact h

theorem holds_failMajority (h : P.Holds s) : P.Holds (failMajority s) := holds_ite h h

theorem holds_eachMajority {f : State → State} {id : Nat} (h : ∀ a : State, P.Holds a → P.Holds (f a)) (hs : P.Holds s) :
    P.Holds (eachMajority f s id) :=
  holds_foldl (fun _ _ hu => holds_onOverflow hu (fun _ hu1 => h _ hu1))
    (holds_foldl (fun _ _ hu => holds_onSplit hu (fun _ hu1 => h _ hu1)) (holds_focusWarp hs))

theorem holds_majorityRound {ids : List Nat} (h : P.Holds s) : P.Holds (majorityRound ids s) := by
  have ht : P.Holds (ids.foldl (eachMajority completeMajority) s) :=
    holds_foldl (fun _ _ hu => holds_eachMajority (fun _ hv => holds_completeMajority hv) hu) h
  exact holds_advanceServices (holds_foldl (fun _ _ hu => holds_getD (opt_finishTrsig hu) hu) ht)

theorem holds_completeMajorities {ids : List Nat} (h : P.Holds s) : P.Holds (completeMajorities s ids) :=
  holds_foldl (fun _ _ hu => holds_eachMajority (fun _ hv => holds_failMajority hv) hu)
    (holds_foldl (fun _ _ hu => holds_majorityRound hu) h)

theorem holds_completeBin {o : NleOp} (h : P.Holds s) : P.Holds (completeBin s o) := by
  unfold completeBin
  extract_lets t
  have ht : P.Holds t := by
    dsimp only [t]
    split
    next x _ =>
      have he : P.Holds (enterEngine s x) := holds_enterEngine h
      exact holds_ite he h
    · exact h
  refine holds_getD (opt_firstOf (fun f hf => ?_)) ht
  simp only [List.mem_cons, List.not_mem_nil, or_false] at hf
  obtain rfl | rfl := hf
  · exact opt_nlbinCompleteEvent ht
  · exact opt_nleFaultEvent ht

theorem holds_settleWork (h : P.Holds s) : P.Holds (settleWork s) := by
  unfold settleWork
  extract_lets ctx s1 s2 s3
  have hs1 : P.Holds s1 := holds_completeMajorities h
  have hs2 : P.Holds s2 := holds_foldl (fun _ _ hu => holds_completeBin hu) hs1
  have hs3 : P.Holds s3 := holds_runOut (fun _ hu => opt_tapsWork hu) hs2
  exact holds_focusOn (holds_foldl (fun _ _ hu => holds_runOut (fun _ hv => opt_copyWork hv) hu) hs3)

theorem holds_discardTask {ctx clus : Nat} {t : Task} (h : P.Holds s) : P.Holds (discardTask ctx clus s t) :=
  holds_writeStatus (holds_focusOn h)

theorem holds_discardTasks (h : P.Holds s) : P.Holds (discardTasks s) :=
  holds_focusOn (holds_foldl (fun _ _ hu => holds_foldl (fun _ _ hu1 => holds_discardTask hu1) hu) h)

theorem crews_allCrews (h : P.Holds s) : P.crews s.allCrews := by
  intro c hc
  obtain hc | hc := List.mem_append.mp hc
  · split at hc
    · rw [List.mem_singleton.mp hc]; exact h.crew
    · exact (List.not_mem_nil hc).elim
  · exact h.crews c hc

theorem crews_ctxCrews (h : P.Holds s) : P.crews (ctxCrews s) := crews_filter (crews_allCrews h)

theorem image_imageOf {light : List Nat} (h : P.Holds s) : P.image (imageOf s light) :=
  ⟨P.mem_filter _ h.mem, crews_ctxCrews h⟩

theorem ctx_withImage {c : Ctx} {i : Image} (h : P.image i) : P.ctx { c with place := .saved, preempt := none, image := some i } :=
  fun _ he => Option.some.inj he ▸ h

theorem holds_saveCtx {light : List Nat} (h : P.Holds s) : P.Holds (saveCtx s light) := by
  have hwork : P.Holds (settleWork (discardTasks s)) := holds_settleWork (holds_discardTasks h)
  unfold saveCtx
  generalize settleWork (discardTasks s) = u at hwork
  extract_lets t ids img p
  have ht : P.Holds t := hwork
  clear_value t
  have himg : P.image img := image_imageOf ht
  have hpack : P.Holds (pack t) := holds_pack ht
  have hp : P.Holds p := hpack
  clear_value img p
  refine holds_focusOn ⟨P.mem_filter _ hp.mem, hp.crew, crews_filter hp.crews, hp.ctx, ?_⟩
  exact ctxs_map (fun _ hc => ctx_ite (ctx_withImage himg) hc) hp.ctxs

theorem opt_preemptDeadlineEvent (h : P.Holds s) : P.opt (preemptDeadlineEvent s) := by
  unfold preemptDeadlineEvent
  split
  · exact opt_none
  · exact opt_some (holds_saveCtx (holds_focusOn h))

theorem out_execPreemptDeadline (h : P.Holds s) : P.out (execPreemptDeadline s) := out_event (opt_preemptDeadlineEvent h) h

theorem opt_darkslideSwapEvent {ctx : Nat} (h : P.Holds s) : P.opt (darkslideSwapEvent ctx s) := by
  unfold darkslideSwapEvent
  split
  · exact opt_none
  next t he =>
    have ht : P.Holds t := of_some he (opt_focusCtx h)
    split
    · exact opt_none
    · split
      · exact opt_none
      · exact opt_some ⟨ht.mem, ht.crew, ht.crews, ht.ctx, ctxs_map (fun _ hu => ctx_ite hu hu) ht.ctxs⟩
      · exact opt_some ht

theorem out_execDarkslideSwap {ctx : Nat} (h : P.Holds s) : P.out (execDarkslideSwap ctx s) :=
  out_event (opt_darkslideSwapEvent h) h

theorem holds_parkTaskflt (h : P.Holds s) : P.Holds (parkTaskflt s) := holds_parkIdle h

theorem holds_afterDiscard (h : P.Holds s) : P.Holds (afterDiscard s) :=
  holds_ite h (holds_ite h (holds_ite (holds_logEvent h) (holds_parkTaskflt h)))

theorem crews_insertAll {l cs : List Crew} (hl : P.crews l) (h : P.crews cs) :
    P.crews (l.foldl (fun cs x => insertCrew x cs) cs) := by
  induction l generalizing cs with
  | nil => exact h
  | cons x l ih =>
    rw [StorageLaw.crews, List.forall_mem_cons] at hl
    exact ih hl.2 (crews_insertCrew hl.1 h)

theorem holds_putImage {ctx : Ctx} {img : Image} (h : P.Holds s) (himg : P.image img) : P.Holds (putImage s ctx img) := by
  refine ⟨mem_foldl_sset img.mem h.mem, h.crew, ?_, h.ctx, h.ctxs⟩
  exact crews_insertAll himg.2 h.crews

theorem ctx_noImage {c : Ctx} : P.ctx { c with place := .running, image := none } := ctx_none rfl

theorem image_empty : P.image
    { crews := [], warps := [], copies := [], items := [], grows := [], mem := [], poison := [], spillPoison := [] } :=
  ⟨P.mem_nil, crews_nil⟩

theorem image_getD {o : Option Image} {i : Image} (ho : ∀ j, o = some j → P.image j) (h : P.image i) : P.image (o.getD i) := by
  cases o with
  | none => exact h
  | some j => exact ho j rfl

theorem opt_contextRestoreEvent {ctx : Nat} (h : P.Holds s) : P.opt (contextRestoreEvent ctx s) := by
  unfold contextRestoreEvent
  split
  · exact opt_none
  next t hf =>
    have ht : P.Holds t := of_some hf (opt_focusCtx h)
    split
    · exact opt_none
    · extract_lets img c p
      have himg : P.image img := image_getD ht.ctx image_empty
      have hp : P.Holds p := holds_pack ⟨ht.mem, ht.crew, ht.crews, ctx_noImage, ht.ctxs⟩
      exact opt_some (holds_foldl (fun _ _ hu => holds_afterDiscard (holds_focusCrew hu)) (holds_putImage hp himg))

theorem out_execContextRestore {ctx : Nat} (h : P.Holds s) : P.out (execContextRestore ctx s) :=
  out_event (opt_contextRestoreEvent h) h

theorem opt_contextCreationEvent {partition : Nat} {ctxid : BitVec 16} {root : Nat} (h : P.Holds s) :
    P.opt (contextCreationEvent partition ctxid root s) := by
  dsimp only [contextCreationEvent]
  split
  · exact opt_none
  · exact opt_some ⟨(snd_freshId (holds_pack h)).mem, (snd_freshId (holds_pack h)).crew, (snd_freshId (holds_pack h)).crews,
        (snd_freshId (holds_pack h)).ctx, ctxs_insertCtx ctx_blank ((snd_freshId (holds_pack h)).ctxs)⟩

theorem out_execContextCreation {partition : Nat} {ctxid : BitVec 16} {root : Nat} (h : P.Holds s) :
    P.out (execContextCreation partition ctxid root s) := out_event (opt_contextCreationEvent h) h

theorem opt_contextDestructionEvent {ctx : Nat} (h : P.Holds s) : P.opt (contextDestructionEvent ctx s) := by
  unfold contextDestructionEvent
  split
  · exact opt_none
  next t he =>
    have ht : P.Holds t := of_some he (opt_focusCtx h)
    exact opt_some ⟨(holds_pack ht).mem, (holds_pack ht).crew, crews_filter ((holds_pack ht).crews), (holds_pack ht).ctx,
        ctxs_filter ((holds_pack ht).ctxs)⟩

theorem out_execContextDestruction {ctx : Nat} (h : P.Holds s) : P.out (execContextDestruction ctx s) :=
  out_event (opt_contextDestructionEvent h) h

theorem opt_longLatencyCompleteEvent (h : P.Holds s) : P.opt (longLatencyCompleteEvent s) := by
  unfold longLatencyCompleteEvent
  split
  · exact opt_none
  · exact opt_some h

theorem out_execLongLatencyComplete (h : P.Holds s) : P.out (execLongLatencyComplete s) :=
  out_event (opt_longLatencyCompleteEvent h) h

theorem holds_swapIn {p : Split} (h : P.Holds s) : P.Holds (swapIn s p) := by
  dsimp only [swapIn]
  split
  · exact holds_evict h
  · exact holds_evict h

theorem opt_splitOverflowExchangeEvent (h : P.Holds s) : P.opt (splitOverflowExchangeEvent s) := by
  unfold splitOverflowExchangeEvent
  split
  · exact opt_none
  · exact opt_map (fun _ => holds_swapIn (holds_focusWarp h))

theorem out_execSplitOverflowExchange (h : P.Holds s) : P.out (execSplitOverflowExchange s) :=
  out_event (opt_splitOverflowExchangeEvent h) h

theorem holds_atSplit {id : Nat} {p : Split} {f : State → State} (h : P.Holds s)
    (hf : ∀ a : State, P.Holds a → P.Holds (f a)) :
    P.Holds (atSplit s id p f) :=
  holds_ite (hf _ (holds_focusSplit h)) (holds_onOverflow (holds_focusWarp h) (fun _ hu => hf _ hu))

theorem opt_notificationDeliveryEvent (h : P.Holds s) : P.opt (notificationDeliveryEvent s) := by
  unfold notificationDeliveryEvent
  split
  · exact opt_none
  · split
    · exact opt_some (holds_atSplit h (fun _ hu => holds_takeTrap hu))
    · exact opt_some (holds_atSplit h (fun _ hu => holds_takeTrap hu))
    · exact opt_none

theorem out_execNotificationDelivery (h : P.Holds s) : P.out (execNotificationDelivery s) :=
  out_event (opt_notificationDeliveryEvent h) h

theorem opt_sleepWakeEvent (h : P.Holds s) : P.opt (sleepWakeEvent s) := by
  unfold sleepWakeEvent
  split
  · exact opt_none
  next w _ =>
    split
    · exact opt_none
    next q _ => exact opt_some (holds_stopSteps ((show P.Holds (wake (focusSplit s w.id q.slot)) from
        (show P.Holds (focusSplit s w.id q.slot) from holds_focusSplit h))))

theorem out_execSleepWake (h : P.Holds s) : P.out (execSleepWake s) := out_event (opt_sleepWakeEvent h) h

theorem opt_refusedWordEvent {word : Word} (h : P.Holds s) : P.opt (refusedWordEvent word s) := by
  unfold refusedWordEvent
  split
  · exact opt_none
  · exact opt_some (holds_takeTrap h)

theorem out_execRefusedWord {word : Word} (h : P.Holds s) : P.out (execRefusedWord word s) :=
  out_event (opt_refusedWordEvent h) h

theorem opt_instructionFetchFaultEvent (h : P.Holds s) : P.opt (instructionFetchFaultEvent s) := by
  unfold instructionFetchFaultEvent
  split
  · exact opt_some (holds_takeTrap h)
  · exact opt_none

theorem out_execInstructionFetchFault (h : P.Holds s) : P.out (execInstructionFetchFault s) :=
  out_event (opt_instructionFetchFaultEvent h) h

theorem holds_freezeSplit (h : P.Holds s) : P.Holds (freezeSplit s) := holds_ite h (holds_ite (holds_stopSplit h) h)

theorem holds_freezeWarp {id : Nat} (h : P.Holds s) : P.Holds (freezeWarp s id) :=
  holds_foldl (fun _ _ hu => holds_onOverflow hu (fun _ hu1 => holds_freezeSplit hu1))
    (holds_foldl (fun _ _ hu => holds_onSplit hu (fun _ hu1 => holds_freezeSplit hu1)) (holds_focusWarp h))

theorem opt_debugFreezeEvent {scope : FreezeScope} {target : Nat} (h : P.Holds s) :
    P.opt (debugFreezeEvent scope target s) := by
  unfold debugFreezeEvent
  split
  · exact opt_none
  · exact opt_some (holds_foldl (fun u _ hu => holds_freezeWarp hu) h)

theorem out_execDebugFreeze {scope : FreezeScope} {target : Nat} (h : P.Holds s) :
    P.out (execDebugFreeze scope target s) := out_event (opt_debugFreezeEvent h) h

theorem opt_onStopped {warp slot : Nat} {f : State → State} (h : P.Holds s) (hf : ∀ a : State, P.Holds a → P.Holds (f a)) :
    P.opt (onStopped s warp slot f) := by
  dsimp only [onStopped]
  split
  · split
    · exact opt_some (hf _ (holds_focusSplit h))
    · exact opt_none
  · split
    · split
      · exact opt_some (holds_onOverflow (holds_focusWarp h) (fun _ hu => hf _ hu))
      · exact opt_none
    · exact opt_none

theorem opt_debugStepEvent {warp slot : Nat} (h : P.Holds s) : P.opt (debugStepEvent warp slot s) :=
  opt_onStopped h (fun _ hu => hu)

theorem out_execDebugStep {warp slot : Nat} (h : P.Holds s) : P.out (execDebugStep warp slot s) :=
  out_event (opt_debugStepEvent h) h

theorem opt_debugContinueEvent {warp slot : Nat} (h : P.Holds s) : P.opt (debugContinueEvent warp slot s) :=
  opt_onStopped h (fun _ hu => hu)

theorem out_execDebugContinue {warp slot : Nat} (h : P.Holds s) : P.out (execDebugContinue warp slot s) :=
  out_event (opt_debugContinueEvent h) h

theorem holds_stopAtBreak (h : P.Holds s) : P.Holds (stopAtBreak s) := holds_freezeSplit h

theorem opt_debugBreakpointHitEvent {warp : Option Nat} {place : BreakPlace} (h : P.Holds s) :
    P.opt (debugBreakpointHitEvent warp place s) := by
  dsimp only [debugBreakpointHitEvent]
  split
  · exact opt_mapState (fun _ ht => ⟨ht.mem, ht.crew, ht.crews, ht.ctx, ht.ctxs⟩) (opt_focusCtx h)
  · exact opt_none
  · split
    · exact opt_some (holds_stopAtBreak (holds_focusSplit h))
    · exact opt_none

theorem out_execDebugBreakpointHit {warp : Option Nat} {place : BreakPlace} (h : P.Holds s) :
    P.out (execDebugBreakpointHit warp place s) := out_event (opt_debugBreakpointHitEvent h) h

theorem opt_scoreboardMismatchEvent {quadrant : Nat} (h : P.Holds s) : P.opt (scoreboardMismatchEvent quadrant s) := by
  unfold scoreboardMismatchEvent
  split
  · exact opt_none
  · exact opt_some h

theorem out_execScoreboardMismatch {quadrant : Nat} (h : P.Holds s) : P.out (execScoreboardMismatch quadrant s) :=
  out_event (opt_scoreboardMismatchEvent h) h

theorem holds_repairCell {cell : Nat} (h : P.Holds s) : P.Holds (repairCell s cell) := by
  unfold repairCell
  split
  · exact h
  · exact holds_sendAll h

theorem opt_scrubVisitEvent {set : Nat} (h : P.Holds s) : P.opt (scrubVisitEvent set s) := by
  unfold scrubVisitEvent
  split
  · exact opt_none
  · exact opt_some (holds_repairCell h)

theorem out_execScrubVisit {set : Nat} (h : P.Holds s) : P.out (execScrubVisit set s) := out_event (opt_scrubVisitEvent h) h

theorem opt_rebuildVisitEvent {set : Nat} (h : P.Holds s) : P.opt (rebuildVisitEvent set s) := by
  dsimp only [rebuildVisitEvent]
  split
  · exact opt_none
  · split
    · exact opt_some (holds_repairCell h)
    · exact opt_some (holds_repairCell h)

theorem out_execRebuildVisit {set : Nat} (h : P.Holds s) : P.out (execRebuildVisit set s) :=
  out_event (opt_rebuildVisitEvent h) h

theorem holds_scrubSet {set : Nat} (h : P.Holds s) : P.Holds (scrubSet s set) :=
  holds_foldl (fun _ _ hu => holds_getD (opt_scrubVisitEvent hu) hu) h

theorem holds_rebuildSet {set : Nat} (h : P.Holds s) : P.Holds (rebuildSet s set) :=
  holds_ite h (holds_foldl (fun _ _ hu => holds_getD (opt_rebuildVisitEvent hu) hu) h)

theorem holds_visitCells (h : P.Holds s) : P.Holds (visitCells s) :=
  holds_foldl (fun _ _ hu => holds_rebuildSet (holds_scrubSet hu)) h

theorem holds_failRoot {tap : Nat} (h : P.Holds s) : P.Holds (failRoot s tap) := by
  unfold failRoot
  split
  · exact h
  next u _ he =>
    have hu : P.Holds u := of_someFst he (optFst_focusTap h)
    refine holds_ite h ?_
    split
    · exact h
    · exact holds_ite hu h

theorem opt_stackRetireEvent {stack : Nat} (h : P.Holds s) : P.opt (stackRetireEvent stack s) := by
  unfold stackRetireEvent
  split
  · exact opt_some (holds_foldl (fun u _ hu => holds_failRoot hu) h)
  · exact opt_some (holds_foldl (fun u _ hu => holds_failRoot hu) h)
  · exact opt_some (holds_foldl (fun u _ hu => holds_failRoot hu) h)
  · exact opt_none

theorem out_execStackRetire {stack : Nat} (h : P.Holds s) : P.out (execStackRetire stack s) :=
  out_event (opt_stackRetireEvent h) h

theorem opt_stackReturnEvent {stack place : Nat} (h : P.Holds s) : P.opt (stackReturnEvent stack place s) := by
  unfold stackReturnEvent
  split
  · split
    · exact opt_none
    · exact opt_some (holds_ite h h)
  · split
    · exact opt_some h
    · exact opt_none
  · exact opt_none

theorem out_execStackReturn {move : StackMove} (h : P.Holds s) : P.out (execStackReturn move s) :=
  out_event (opt_stackReturnEvent h) h

theorem holds_noteSeals (h : P.Holds s) : P.Holds (noteSeals s) :=
  ⟨h.mem, h.crew, h.crews, ctx_ite h.ctx h.ctx, ctxs_map (fun _ hu => hu) h.ctxs⟩

theorem holds_finishInvalidation {r : Nat × Nat × Nat} (h : P.Holds s) : P.Holds (finishInvalidation s r) := holds_ite h h

theorem holds_finishInvalidations (h : P.Holds s) : P.Holds (finishInvalidations s) :=
  holds_foldl (fun _ _ hu => holds_finishInvalidation hu) h

theorem opt_translationInvalidateEvent {ctx : Nat} {va : DWord} {size : Nat} (h : P.Holds s) :
    P.opt (translationInvalidateEvent ctx va size s) := by
  unfold translationInvalidateEvent
  split
  · exact opt_some (holds_finishInvalidations (holds_noteSeals h))
  · exact opt_none

theorem out_execTranslationInvalidate {ctx : Nat} {va : DWord} {size : Nat} (h : P.Holds s) :
    P.out (execTranslationInvalidate ctx va size s) := out_event (opt_translationInvalidateEvent h) h

theorem holds_limited {ok : Bool} (h : P.Holds s) (ht : P.Holds t) : P.Holds (limited s ok t) := holds_ite ht h

theorem holds_writeEntry {pa : Nat} {v : DWord} (h : P.Holds s) : P.Holds (writeEntry s pa v) :=
  holds_noteSeals (holds_writeKey h)

theorem opt_firmwareLimitWriteEvent {limit : Limit} (h : P.Holds s) : P.opt (firmwareLimitWriteEvent limit s) := by
  unfold firmwareLimitWriteEvent
  split
  · exact opt_some h
  · exact opt_some h
  · exact opt_some h
  · split
    · exact opt_some (holds_writeEntry h)
    · exact opt_none
  · exact opt_some (holds_limited h h)
  · split
    · exact opt_none
    · exact opt_some (holds_limited h h)
  · split
    · exact opt_none
    next t he =>
      have ht : P.Holds t := of_some he (opt_focusCtx h)
      exact opt_some (holds_limited ht ht)

theorem out_execFirmwareLimitWrite {limit : Limit} (h : P.Holds s) : P.out (execFirmwareLimitWrite limit s) :=
  out_event (opt_firmwareLimitWriteEvent h) h

theorem opt_contactEvent {buffer length : Nat} (h : P.Holds s) : P.opt (contactEvent buffer length s) := by
  unfold contactEvent
  extract_lets body need trunc bs n t
  have ht : P.Holds t := holds_writeKey h
  clear_value t
  split
  · exact opt_none
  · exact opt_some ht

theorem out_execContact {buffer length : Nat} (h : P.Holds s) : P.out (execContact buffer length s) :=
  out_event (opt_contactEvent h) h

theorem opt_captureEnableEvent {ctx buffer length : Nat} (h : P.Holds s) :
    P.opt (captureEnableEvent ctx buffer length s) := by
  unfold captureEnableEvent
  split
  · exact opt_none
  next t he =>
    have ht : P.Holds t := of_some he (opt_focusCtx h)
    split
    · exact opt_some ht
    · exact opt_none

theorem out_execCaptureEnable {ctx buffer length : Nat} (h : P.Holds s) :
    P.out (execCaptureEnable ctx buffer length s) := out_event (opt_captureEnableEvent h) h

theorem opt_replayEvent {ctx buffer length : Nat} (h : P.Holds s) : P.opt (replayEvent ctx buffer length s) := by
  dsimp only [replayEvent]
  split
  · exact opt_none
  next t he =>
    have ht : P.Holds t := of_some he (opt_focusCtx h)
    split
    · exact opt_none
    · split
      · exact opt_some ht
      · exact opt_some (holds_drainRing ht)

theorem out_execReplay {r : Recording} (h : P.Holds s) : P.out (execReplay r s) := out_event (opt_replayEvent h) h

theorem holds_bootFrom (h : P.Holds s) : P.Holds (bootFrom s) := by
  unfold bootFrom
  split
  · exact h
  · exact h
  · exact h
  · exact h

theorem holds_reset : P.Holds State.reset :=
  ⟨P.mem_nil, crew_blank, crews_nil, ctx_blank, ctxs_nil⟩

theorem holds_resetKeeping : P.Holds (resetKeeping s) :=
  ⟨P.mem_nil, crew_blank, crews_nil, ctx_blank, ctxs_nil⟩

theorem opt_deviceResetEvent : P.opt (deviceResetEvent s) := opt_some (holds_bootFrom holds_resetKeeping)

theorem out_execDeviceReset (h : P.Holds s) : P.out (execDeviceReset s) := out_event opt_deviceResetEvent h

theorem opt_attestationReportEvent {nonce : BitVec 256} (h : P.Holds s) : P.opt (attestationReportEvent nonce s) :=
  opt_some h

theorem out_execAttestationReport {nonce : BitVec 256} (h : P.Holds s) : P.out (execAttestationReport nonce s) :=
  out_event (opt_attestationReportEvent h) h

theorem opt_recoveryImageLoadEvent {image : Option Nat} (h : P.Holds s) : P.opt (recoveryImageLoadEvent image s) := by
  unfold recoveryImageLoadEvent
  split
  · exact opt_none
  · exact opt_some h

theorem out_execRecoveryImageLoad {image : Option Nat} (h : P.Holds s) : P.out (execRecoveryImageLoad image s) :=
  out_event (opt_recoveryImageLoadEvent h) h

theorem holds_dropByte {e : Late} {x : Nat × Byte} (h : P.Holds s) : P.Holds (dropByte e s x) := by
  unfold dropByte
  split
  · exact h
  · exact ⟨P.mem_sset _ _ h.mem, h.crew, h.crews, h.ctx, h.ctxs⟩

theorem holds_dropWrite {e : Late} (h : P.Holds s) : P.Holds (dropWrite s e) :=
  holds_foldl (fun _ _ hu => holds_dropByte hu) h

theorem holds_dropAccess {o : Outstanding} {upto : Nat} (h : P.Holds s) : P.Holds (dropAccess s o upto) :=
  holds_foldl (fun _ _ hu => holds_logEvent hu) (holds_foldl (fun _ _ hu => holds_dropWrite hu) h)

theorem holds_remoteFailed (h : P.Holds s) : P.Holds (remoteFailed s) := h

theorem opt_remoteKld (h : P.Holds s) : P.opt (remoteKld s) := by
  unfold remoteKld
  split
  · exact opt_none
  · split
    · exact opt_none
    · split
      · refine opt_some (holds_remoteFailed (holds_issue (fun u hu => res_once hu (fun v hv => ?_)) h))
        dsimp only
        split
        · exact hv
        · exact hv
      · exact opt_none

theorem opt_loseAccess {a : LostAccess} (h : P.Holds s) : P.opt (loseAccess s a) := by
  unfold loseAccess
  extract_lets t
  have ht : P.Holds t := holds_focusSplit h
  clear_value t
  split
  · exact opt_none
  · split
    · exact opt_some (holds_remoteFailed (holds_finish ht))
    · exact opt_remoteKld ht
    next o _ =>
      have hu : P.Holds (remoteFailed { t with sp := { t.sp with out := t.sp.out.eraseIdx a.n } }) := ht
      split
      · exact opt_none
      · exact opt_some hu
      · exact opt_some (holds_dropAccess hu)
      · exact opt_some (holds_dropAccess hu)

theorem opt_remoteTimeoutEvent (h : P.Holds s) : P.opt (remoteTimeoutEvent s) := by
  unfold remoteTimeoutEvent
  split
  · exact opt_none
  next a rest _ =>
    have ht : P.Holds { s with env := { s.env with lost := rest } } := h
    exact opt_some (holds_getD (opt_loseAccess ht) ht)

theorem out_execRemoteTimeout (h : P.Holds s) : P.out (execRemoteTimeout s) := out_event (opt_remoteTimeoutEvent h) h

theorem opt_powerGateJudgeEvent (h : P.Holds s) : P.opt (powerGateJudgeEvent s) := by
  refine opt_some ?_
  exact ⟨h.mem, h.crew, h.crews, h.ctx, h.ctxs⟩

theorem out_execPowerGateJudge (h : P.Holds s) : P.out (execPowerGateJudge s) := out_event (opt_powerGateJudgeEvent h) h

theorem opt_thermalHaltEvent (h : P.Holds s) : P.opt (thermalHaltEvent s) := opt_some h

theorem out_execThermalHalt (h : P.Holds s) : P.out (execThermalHalt s) := out_event (opt_thermalHaltEvent h) h

theorem opt_egressRequestEvent {ctx launch descriptor : Nat} (h : P.Holds s) :
    P.opt (egressRequestEvent ctx launch descriptor s) := by
  dsimp only [egressRequestEvent]
  split
  · exact opt_none
  next t he =>
    have ht : P.Holds t := of_some he (opt_focusCtx h)
    split
    · exact opt_none
    · exact opt_some ht

theorem out_execEgressRequest {l : LaunchRef} {descriptor : Nat} (h : P.Holds s) :
    P.out (execEgressRequest l descriptor s) := out_event (opt_egressRequestEvent h) h

theorem opt_serviceKernelWatchdogEvent {core cell : Nat} {ran budget : Option Nat} (h : P.Holds s) :
    P.opt (serviceKernelWatchdogEvent core cell ran budget s) := by
  unfold serviceKernelWatchdogEvent
  split
  · exact opt_none
  split
  · exact opt_none
  · exact opt_mapState (fun _ ht => ⟨ht.mem, ht.crew, ht.crews, ht.ctx, ht.ctxs⟩) (opt_serviceOp h)

theorem out_execServiceKernelWatchdog {core : Nat} {k : KernelRun} (h : P.Holds s) :
    P.out (execServiceKernelWatchdog core k s) := out_event (opt_serviceKernelWatchdogEvent h) h

theorem holds_agentWrite {e : Late} {n : Nat} {bs : List Byte} (h : P.Holds s) : P.Holds (agentWrite e s n bs) :=
  holds_storeKey h

theorem holds_poisonWrite {e : Late} {n : Nat} {bs : List Byte} (h : P.Holds s) : P.Holds (poisonWrite e s n bs) :=
  holds_agentWrite h

theorem holds_sendBytes {r : Reader} {a n : Nat} {head tail : List Byte} (h : P.Holds s) :
    P.Holds (sendBytes r s a n head tail) := holds_ite h h

theorem opt_serviceOrdinaryAccessEvent {core address : Nat} {access : Access} (h : P.Holds s) :
    P.opt (serviceOrdinaryAccessEvent core address access s) := by
  unfold serviceOrdinaryAccessEvent
  split
  · exact opt_none
  · split
    · exact opt_some h
    · exact opt_some (holds_captureAll (holds_agentWrite h))
    · exact opt_some (holds_captureAll (holds_poisonWrite h))
    · exact opt_none
    · split
      · exact opt_none
      · exact opt_some (holds_sendBytes h)
    · exact opt_some (holds_captureAll (holds_agentWrite h))

theorem out_execServiceOrdinaryAccess {core address : Nat} {access : Access} (h : P.Holds s) :
    P.out (execServiceOrdinaryAccess core address access s) := out_event (opt_serviceOrdinaryAccessEvent h) h

theorem opt_hostDmaEvent {a_function address : Nat} {access : Access} (h : P.Holds s) :
    P.opt (hostDmaEvent a_function address access s) := by
  unfold hostDmaEvent
  split
  · exact opt_some (holds_ite (holds_sendBytes h) h)
  · exact opt_some (holds_ite (holds_agentWrite h) h)
  · exact opt_some (holds_ite (holds_poisonWrite h) h)
  · exact opt_none
  · exact opt_none
  · exact opt_none

theorem out_execHostDma {function address : Nat} {access : Access} (h : P.Holds s) :
    P.out (execHostDma function address access s) := out_event (opt_hostDmaEvent h) h

theorem opt_skerryRemoteAccessEvent {device address : Nat} {access : Access} (h : P.Holds s) :
    P.opt (skerryRemoteAccessEvent device address access s) := by
  unfold skerryRemoteAccessEvent
  split
  · exact opt_none
  · split
    · exact opt_some (holds_sendBytes h)
    · exact opt_some (holds_agentWrite h)
    · exact opt_some (holds_poisonWrite h)
    · exact opt_some (holds_agentWrite h)
    · exact opt_none
    · exact opt_none

theorem out_execSkerryRemoteAccess {a_device address : Nat} {access : Access} (h : P.Holds s) :
    P.out (execSkerryRemoteAccess a_device address access s) := out_event (opt_skerryRemoteAccessEvent h) h

theorem holds_applyUpset {u : Upset} (h : P.Holds s) : P.Holds (applyUpset s u) := by
  unfold applyUpset
  split
  · exact h
  · exact h
  · exact h
  · exact h
  · exact holds_ite h (holds_ite h h)

theorem holds_applyUpsets {us : List Upset} (h : P.Holds s) : P.Holds (applyUpsets s us) :=
  holds_foldl (fun _ _ hu => holds_applyUpset hu) h

theorem out_execFence {p q c : BitVec 6} (h : P.Holds s) : P.out (execFence p q c s) := by
  unfold execFence
  refine out_runW (fun _ u hu => ?_) h
  split
  · exact hu
  · split
    · exact holds_fenceMem hu
    · exact hu

theorem holds_invalidateRange {level base size : Nat} (h : P.Holds s) :
    P.Holds (invalidateRange s level base size) := holds_ite h h

theorem res_cinvBody {level : Nat} {a b : BitVec 6} (h : P.Holds s) : P.res (cinvBody level a b s) := by
  unfold cinvBody
  refine res_once h (fun u hu => ?_)
  split
  · exact hu
  · split
    · exact hu
    · exact holds_invalidateRange hu

theorem out_execCinvL1 {a b : BitVec 6} (h : P.Holds s) : P.out (execCinvL1 a b s) := out_run (fun _ hu => res_cinvBody hu) h

theorem out_execCinvDie {a b : BitVec 6} (h : P.Holds s) : P.out (execCinvDie a b s) :=
  out_run (fun _ hu => res_cinvBody hu) h

theorem holds_cacheByte {n since key : Nat} (h : P.Holds s) : P.Holds (cacheByte n since s key).2.2 := by
  unfold cacheByte
  extract_lets line r kept fresh
  have hfresh : P.Holds fresh.2.2 := h
  clear_value fresh
  split
  · exact hfresh
  · split
    · exact h
    · exact hfresh

theorem holds_cacheBytes {n since : Nat} {ks : List Nat} (h : P.Holds s) : P.Holds (cacheBytes n since s ks).2.2 := by
  induction ks generalizing s with
  | nil => exact h
  | cons k ks ih => exact ih (holds_cacheByte h)

theorem holds_cacheRun {d : Draw} {va size : Nat} {bs : List Byte} {p : Bool} (h : P.Holds s)
    (ht : cacheRun d s va size = .ok (bs, p, t)) : P.Holds t := by
  unfold cacheRun at ht
  split at ht
  · simp at ht
  next ks _ =>
    have heq := Except.ok.inj ht
    have hc : P.Holds (cacheBytes d.n d.since s ks).2.2 := holds_cacheBytes h
    rw [heq] at hc
    exact hc

theorem excSnd_error {ε α : Type} {e : ε} : P.excSnd (.error e : Except ε (α × State)) := fun _ he => by simp at he
theorem excSnd_ok {ε α : Type} {a : α} (h : P.Holds s) : P.excSnd (.ok (a, s) : Except ε (α × State)) := by
  intro x he
  rw [← Except.ok.inj he]
  exact h

theorem excSnd_readBlock {n : Draw} {x : Tensor} {b : Nat} (h : P.Holds s) : P.excSnd (readBlock n s x b) := by
  unfold readBlock
  split
  · exact excSnd_error
  next s1 h1 =>
    have hs1 : P.Holds s1 := holds_cacheRun h h1
    dsimp only
    split
    · exact excSnd_ok hs1
    · split
      · exact excSnd_error
      next s2 h2 =>
        have hs2 : P.Holds s2 := holds_cacheRun hs1 h2
        split
        · exact excSnd_error
        next s3 h3 =>
          have hs3 : P.Holds s3 := holds_cacheRun hs2 h3
          split
          · exact excSnd_ok hs3
          · exact excSnd_ok hs3

theorem excSnd_readBlocks {n : Draw} {x : Tensor} {bs : List Nat} (h : P.Holds s) : P.excSnd (readBlocks n s x bs) := by
  induction bs generalizing s with
  | nil => exact excSnd_ok h
  | cons b bs ih =>
    unfold readBlocks
    split
    · exact excSnd_error
    next u hu =>
      have hread : P.Holds u := of_okSnd hu (excSnd_readBlock h)
      split
      · exact excSnd_error
      next v hv => exact excSnd_ok (of_okSnd hv (ih hread))

theorem holds_fetchLane {t : Tensor} {blocks : List Block} {d p c l : Nat} (h : P.Holds s) :
    P.Holds (fetchLane t blocks d p c l s) := by
  unfold fetchLane
  refine holds_ite h ?_
  split
  · exact h
  · exact holds_ite (holds_loadReg h) (holds_ite h h)

theorem holds_logFormat {addr : Nat} (h : P.Holds s) : P.Holds (logFormat s addr) := holds_logEvent h

theorem res_fetchBody {id : Nat} {x : Tensor} {d a : BitVec 6} {p : Nat} (h : P.Holds s) :
    P.res (fetchBody id x d a p s) := by
  unfold fetchBody
  extract_lets n e s1 index want
  have hs1 : P.Holds s1 := h
  clear_value s1
  split
  · exact hs1
  next blocks u hr =>
    have hu : P.Holds u := of_okSnd hr (excSnd_readBlocks hs1)
    dsimp only
    split
    · exact hu
    · exact holds_foldl (fun _ _ hv => holds_logFormat hv) (holds_foldl (fun _ _ hv => holds_fetchLane hv) hu)

theorem out_execFetch {d a b : BitVec 6} {l : BitVec 4} (h : P.Holds s) : P.out (execFetch d a b l s) := by
  dsimp only [execFetch]
  refine out_run (fun u hu => ?_) h
  refine res_once hu (fun u1 hu1 => ?_)
  split
  · exact hu1
  · split
    · exact res_fetchBody hu1
    · exact hu1

theorem out_execFinv {a : BitVec 6} (h : P.Holds s) : P.out (execFinv a s) := by
  dsimp only [execFinv]
  refine out_run (fun u hu => ?_) h
  refine res_once hu (fun u1 hu1 => ?_)
  split
  · exact hu1
  · exact hu1

theorem out_execMpath {d a b : BitVec 6} {l : BitVec 4} (h : P.Holds s) : P.out (execMpath d a b l s) := by
  unfold execMpath
  refine out_run (fun u hu => ?_) h
  refine res_once hu (fun u1 hu1 => ?_)
  split
  · exact hu1
  · split
    · exact hu1
    · split
      · exact hu1
      · exact holds_foldl (fun u2 _ hu2 => hu2) hu1

theorem res_specialBody {f : FV → FV × BitVec 5} {closes : Bool} {d a : BitVec 6} (h : P.Holds s) :
    P.res (specialBody f closes d a s) := res_lanesF h

theorem out_execRcp {d a : BitVec 6} {l : BitVec 4} (h : P.Holds s) : P.out (execRcp d a l s) :=
  out_run (fun _ hu => res_specialBody hu) h

theorem out_execRsq {d a : BitVec 6} {l : BitVec 4} (h : P.Holds s) : P.out (execRsq d a l s) :=
  out_run (fun _ hu => res_specialBody hu) h

theorem out_execLg2 {d a : BitVec 6} {l : BitVec 4} (h : P.Holds s) : P.out (execLg2 d a l s) :=
  out_run (fun _ hu => res_specialBody hu) h

theorem out_execEx2 {d a : BitVec 6} {l : BitVec 4} (h : P.Holds s) : P.out (execEx2 d a l s) :=
  out_run (fun _ hu => res_specialBody hu) h

theorem out_execSin {d a : BitVec 6} {l : BitVec 4} (h : P.Holds s) : P.out (execSin d a l s) :=
  out_run (fun _ hu => res_specialBody hu) h

theorem out_execCos {d a : BitVec 6} {l : BitVec 4} (h : P.Holds s) : P.out (execCos d a l s) :=
  out_run (fun _ hu => res_specialBody hu) h

theorem out_execTanh {d a : BitVec 6} {l : BitVec 4} (h : P.Holds s) : P.out (execTanh d a l s) :=
  out_run (fun _ hu => res_specialBody hu) h

theorem out_execPpe {d a : BitVec 6} {l : BitVec 4} {q : BitVec 2} (h : P.Holds s) : P.out (execPpe d a l q s) :=
  out_run (fun _ hu => res_specialBody hu) h

theorem out_execPpld {a b : BitVec 6} {l : BitVec 4} {q : BitVec 2} (h : P.Holds s) : P.out (execPpld a b l q s) := by
  dsimp only [execPpld]
  refine out_run (fun u hu => ?_) h
  refine res_once hu (fun u1 hu1 => ?_)
  split
  · exact hu1
  · split
    · exact hu1
    · split
      · exact hu1
      · split
        · exact hu1
        · exact hu1

theorem res_uniform {d : BitVec 6} {f : State → DWord} (h : P.Holds s) : P.res (uniform d f s) :=
  res_once h (fun _ hu => holds_kset hu)

theorem out_execKadd {d a b : BitVec 6} (h : P.Holds s) : P.out (execKadd d a b s) := out_run (fun _ hu => res_uniform hu) h

theorem out_execKsub {d a b : BitVec 6} (h : P.Holds s) : P.out (execKsub d a b s) := out_run (fun _ hu => res_uniform hu) h

theorem out_execKmul {d a b : BitVec 6} (h : P.Holds s) : P.out (execKmul d a b s) := out_run (fun _ hu => res_uniform hu) h

theorem out_execKand {d a b : BitVec 6} (h : P.Holds s) : P.out (execKand d a b s) := out_run (fun _ hu => res_uniform hu) h

theorem out_execKor {d a b : BitVec 6} (h : P.Holds s) : P.out (execKor d a b s) := out_run (fun _ hu => res_uniform hu) h

theorem out_execKxor {d a b : BitVec 6} (h : P.Holds s) : P.out (execKxor d a b s) := out_run (fun _ hu => res_uniform hu) h

theorem out_execKshl {d a b : BitVec 6} (h : P.Holds s) : P.out (execKshl d a b s) := out_run (fun _ hu => res_uniform hu) h

theorem out_execKshr {d a b : BitVec 6} (h : P.Holds s) : P.out (execKshr d a b s) := out_run (fun _ hu => res_uniform hu) h

theorem out_execKaddi {d a : BitVec 6} {i : BitVec 12} (h : P.Holds s) : P.out (execKaddi d a i s) :=
  out_run (fun _ hu => res_uniform hu) h

theorem out_execKmovi {d : BitVec 6} {i : BitVec 18} (h : P.Holds s) : P.out (execKmovi d i s) :=
  out_run (fun _ hu => res_uniform hu) h

theorem out_execKcat {d : BitVec 6} {i : BitVec 18} (h : P.Holds s) : P.out (execKcat d i s) :=
  out_run (fun _ hu => res_uniform hu) h

theorem out_execKcmp {d a b : BitVec 6} {c : BitVec 5} (h : P.Holds s) : P.out (execKcmp d a b c s) :=
  out_run (fun _ hu => res_uniform hu) h

theorem out_execKsel {d a b : BitVec 6} {f : BitVec 5} (h : P.Holds s) : P.out (execKsel d a b f s) :=
  out_run (fun _ hu => res_uniform hu) h

theorem out_execKmin {d a b : BitVec 6} (h : P.Holds s) : P.out (execKmin d a b s) := out_run (fun _ hu => res_uniform hu) h

theorem out_execKminU {d a b : BitVec 6} (h : P.Holds s) : P.out (execKminU d a b s) :=
  out_run (fun _ hu => res_uniform hu) h

theorem out_execKmax {d a b : BitVec 6} (h : P.Holds s) : P.out (execKmax d a b s) := out_run (fun _ hu => res_uniform hu) h

theorem out_execKmaxU {d a b : BitVec 6} (h : P.Holds s) : P.out (execKmaxU d a b s) :=
  out_run (fun _ hu => res_uniform hu) h

end Sys2Proof.Machine.Storage
end

section
/-! SUPPORT. The storage laws at the dispatch of instructions and at one step. -/

namespace Sys2Proof.Machine.Storage
variable {P : StorageLaw} {s t : State}

theorem out_exec {i : Instr} (h : P.Holds s) : P.out (exec i s) := by
  cases i with
  | bra _ _ _ => exact out_execBra h
  | jmpk _ => exact out_execJmpk h
  | call _ _ => exact out_execCall h
  | callk _ _ => exact out_execCallk h
  | srcv _ => exact out_execSrcv h
  | sleep _ => exact out_execSleep h
  | setm _ => exact out_execSetm h
  | setg _ _ => exact out_execSetg h
  | sigchk _ => exact out_execSigchk h
  | trap _ _ => exact out_execTrap h
  | role _ => exact out_execRole h
  | dispq _ => exact out_execDispq h
  | cjoin _ _ => exact out_execCjoin h
  | cleave _ => exact out_execCleave h
  | bara _ _ => exact out_execBara h
  | barw _ _ => exact out_execBarw h
  | bars _ _ => exact out_execBars h
  | setrl _ => exact out_execSetrl h
  | srd _ _ _ => exact out_execSrd h
  | swrMode _ _ => exact out_execSwrMode h
  | swrFflags _ _ => exact out_execSwrFflags h
  | swrStrand _ _ => exact out_execSwrStrand h
  | swrSpillb _ _ => exact out_execSwrSpillb h
  | swrTrapc _ _ => exact out_execSwrTrapc h
  | swrTrapv _ _ => exact out_execSwrTrapv h
  | swrTrappc _ _ => exact out_execSwrTrappc h
  | swrOvt _ _ => exact out_execSwrOvt h
  | bkpt _ => exact out_execBkpt h
  | ovtld _ => exact out_execOvtld h
  | add _ _ _ _ => exact out_execAdd h
  | sub _ _ _ _ => exact out_execSub h
  | mul _ _ _ _ => exact out_execMul h
  | mulh _ _ _ _ => exact out_execMulh h
  | min _ _ _ _ => exact out_execMin h
  | max _ _ _ _ => exact out_execMax h
  | abs _ _ => exact out_execAbs h
  | neg _ _ => exact out_execNeg h
  | and _ _ _ _ => exact out_execAnd h
  | or _ _ _ _ => exact out_execOr h
  | xor _ _ _ _ => exact out_execXor h
  | andn _ _ _ _ => exact out_execAndn h
  | shl _ _ _ _ => exact out_execShl h
  | shr _ _ _ _ => exact out_execShr h
  | sar _ _ _ _ => exact out_execSar h
  | rol _ _ _ _ => exact out_execRol h
  | mad _ _ _ _ => exact out_execMad h
  | sel _ _ _ _ _ => exact out_execSel h
  | cmp _ _ _ _ _ => exact out_execCmp h
  | cmpi _ _ _ _ => exact out_execCmpi h
  | popc _ _ => exact out_execPopc h
  | clz _ _ => exact out_execClz h
  | brev _ _ => exact out_execBrev h
  | perm _ _ _ _ => exact out_execPerm h
  | bfx _ _ _ _ => exact out_execBfx h
  | bfi _ _ _ _ => exact out_execBfi h
  | movx _ _ => exact out_execMovx h
  | movxK _ _ => exact out_execMovxK h
  | movi _ _ => exact out_execMovi h
  | movh _ _ => exact out_execMovh h
  | pmov _ _ => exact out_execPmov h
  | pset _ _ => exact out_execPset h
  | plog _ _ _ _ => exact out_execPlog h
  | addi _ _ _ => exact out_execAddi h
  | andi _ _ _ => exact out_execAndi h
  | ori _ _ _ => exact out_execOri h
  | xori _ _ _ => exact out_execXori h
  | shli _ _ _ => exact out_execShli h
  | shri _ _ _ => exact out_execShri h
  | sari _ _ _ => exact out_execSari h
  | muli _ _ _ => exact out_execMuli h
  | mini _ _ _ => exact out_execMini h
  | maxi _ _ _ => exact out_execMaxi h
  | fadd _ _ _ _ => exact out_execFadd h
  | fsub _ _ _ _ => exact out_execFsub h
  | fmul _ _ _ _ => exact out_execFmul h
  | fma _ _ _ _ => exact out_execFma h
  | fmin _ _ _ _ => exact out_execFmin h
  | fmax _ _ _ _ => exact out_execFmax h
  | fabs _ _ => exact out_execFabs h
  | fneg _ _ => exact out_execFneg h
  | fcmp _ _ _ _ _ => exact out_execFcmp h
  | cvt _ _ _ => exact out_execCvt h
  | cvtz _ _ _ => exact out_execCvtz h
  | frnd _ _ => exact out_execFrnd h
  | fcls _ _ => exact out_execFcls h
  | pack _ _ _ _ => exact out_execPack h
  | unpk _ _ _ _ => exact out_execUnpk h
  | rcp _ _ _ => exact out_execRcp h
  | rsq _ _ _ => exact out_execRsq h
  | lg2 _ _ _ => exact out_execLg2 h
  | ex2 _ _ _ => exact out_execEx2 h
  | sin _ _ _ => exact out_execSin h
  | cos _ _ _ => exact out_execCos h
  | tanh _ _ _ => exact out_execTanh h
  | ppe _ _ _ _ => exact out_execPpe h
  | ppld _ _ _ _ => exact out_execPpld h
  | shflFrom _ _ _ _ => exact out_execShflFrom h
  | shflRot _ _ _ _ => exact out_execShflRot h
  | shflRotn _ _ _ _ => exact out_execShflRotn h
  | shflXor _ _ _ _ => exact out_execShflXor h
  | voteQuorum _ _ _ _ => exact out_execVoteQuorum h
  | voteUnan _ _ _ => exact out_execVoteUnan h
  | voteMask _ _ _ => exact out_execVoteMask h
  | voteCount _ _ _ => exact out_execVoteCount h
  | redxAdd _ _ _ => exact out_execRedxAdd h
  | redxMin _ _ _ => exact out_execRedxMin h
  | redxMax _ _ _ => exact out_execRedxMax h
  | argmxMax _ _ _ => exact out_execArgmxMax h
  | argmxMin _ _ _ => exact out_execArgmxMin h
  | scanAddIncl _ _ _ => exact out_execScanAddIncl h
  | scanAddExcl _ _ _ => exact out_execScanAddExcl h
  | scanMax _ _ _ => exact out_execScanMax h
  | scanMin _ _ _ => exact out_execScanMin h
  | matchLanes _ _ _ => exact out_execMatchLanes h
  | x2k _ _ _ _ => exact out_execX2k h
  | kadd _ _ _ => exact out_execKadd h
  | ksub _ _ _ => exact out_execKsub h
  | kmul _ _ _ => exact out_execKmul h
  | kand _ _ _ => exact out_execKand h
  | kor _ _ _ => exact out_execKor h
  | kxor _ _ _ => exact out_execKxor h
  | kshl _ _ _ => exact out_execKshl h
  | kshr _ _ _ => exact out_execKshr h
  | kaddi _ _ _ => exact out_execKaddi h
  | kmovi _ _ => exact out_execKmovi h
  | kcat _ _ => exact out_execKcat h
  | kcmp _ _ _ _ => exact out_execKcmp h
  | ksel _ _ _ _ => exact out_execKsel h
  | kmin _ _ _ => exact out_execKmin h
  | kminU _ _ _ => exact out_execKminU h
  | kmax _ _ _ => exact out_execKmax h
  | kmaxU _ _ _ => exact out_execKmaxU h
  | ldb _ _ _ _ _ _ => exact out_execLdb h
  | ldbs _ _ _ _ _ _ => exact out_execLdbs h
  | ldh _ _ _ _ _ _ => exact out_execLdh h
  | ldhs _ _ _ _ _ _ => exact out_execLdhs h
  | ldw _ _ _ _ _ _ => exact out_execLdw h
  | ldd _ _ _ _ _ _ => exact out_execLdd h
  | ldq _ _ _ _ _ _ => exact out_execLdq h
  | lda _ _ _ _ _ _ => exact out_execLda h
  | stb _ _ _ _ _ _ => exact out_execStb h
  | sth _ _ _ _ _ _ => exact out_execSth h
  | stw _ _ _ _ _ _ => exact out_execStw h
  | std _ _ _ _ _ _ => exact out_execStd h
  | stq _ _ _ _ _ _ => exact out_execStq h
  | stl _ _ _ _ _ _ => exact out_execStl h
  | kld _ _ _ => exact out_execKld h
  | kst _ _ _ => exact out_execKst h
  | atadd _ _ _ _ _ _ => exact out_execAtadd h
  | atmin _ _ _ _ _ _ => exact out_execAtmin h
  | atmax _ _ _ _ _ _ => exact out_execAtmax h
  | atand _ _ _ _ _ _ => exact out_execAtand h
  | ator _ _ _ _ _ _ => exact out_execAtor h
  | atxor _ _ _ _ _ _ => exact out_execAtxor h
  | atxch _ _ _ _ _ _ => exact out_execAtxch h
  | atcas _ _ _ _ _ _ => exact out_execAtcas h
  | reda _ _ _ _ _ _ => exact out_execReda h
  | redaf _ _ _ _ _ _ => exact out_execRedaf h
  | mld _ _ _ => exact out_execMld h
  | mst _ _ _ _ => exact out_execMst h
  | mcas _ _ _ _ _ => exact out_execMcas h
  | fence _ _ _ => exact out_execFence h
  | cinvL1 _ _ => exact out_execCinvL1 h
  | cinvDie _ _ => exact out_execCinvDie h
  | finv _ => exact out_execFinv h
  | rngdef _ _ => exact out_execRngdef h
  | cpy _ _ _ => exact out_execCpy h
  | cpym _ _ _ _ => exact out_execCpym h
  | awaitf _ => exact out_execAwaitf h
  | awaitfC _ _ => exact out_execAwaitfC h
  | rels _ => exact out_execRels h
  | rngst _ _ => exact out_execRngst h
  | fetch _ _ _ _ => exact out_execFetch h
  | mpath _ _ _ _ => exact out_execMpath h
  | tdef _ _ => exact out_execTdef h
  | tqput _ => exact out_execTqput h
  | twait _ _ => exact out_execTwait h
  | tpoll _ _ _ => exact out_execTpoll h
  | tstat _ _ => exact out_execTstat h
  | nlbin _ => exact out_execNlbin h
  | nlpair _ _ => exact out_execNlpair h
  | nlstat _ _ => exact out_execNlstat h
  | tap _ => exact out_execTap h
  | tapw _ _ => exact out_execTapw h
  | taprd _ => exact out_execTaprd h
  | taped _ => exact out_execTaped h
  | frule _ _ => exact out_execFrule h
  | launch _ _ => exact out_execLaunch h
  | trsig _ _ => exact out_execTrsig h
  | trwait _ _ => exact out_execTrwait h
  | shape _ _ => exact out_execShape h
  | accup _ _ => exact out_execAccup h
  | debugFreeze _ _ => exact out_execDebugFreeze h
  | debugStep _ _ => exact out_execDebugStep h
  | preemptRequest _ _ => exact out_execPreemptRequest h
  | darkslideSwap _ => exact out_execDarkslideSwap h
  | contextRestore _ => exact out_execContextRestore h
  | resume _ _ => exact out_execResume h
  | kill _ => exact out_execKill h
  | trwaitRetry _ _ => exact out_execTrwaitRetry h
  | rowGroupWritten _ _ => exact out_execRowGroupWritten h
  | taskFault _ _ => exact out_execTaskFault h
  | chunkFilled _ _ => exact out_execChunkFilled h
  | copyFault _ _ => exact out_execCopyFault h
  | nlbinComplete _ => exact out_execNlbinComplete h
  | nleSlotFilled _ => exact out_execNleSlotFilled h
  | nleBlockTableDone _ => exact out_execNleBlockTableDone h
  | nleFault _ => exact out_execNleFault h
  | fduRootRead _ => exact out_execFduRootRead h
  | fduIntakeEnd _ => exact out_execFduIntakeEnd h
  | fduEncoderTaskDone _ => exact out_execFduEncoderTaskDone h
  | fduSelectDone _ => exact out_execFduSelectDone h
  | fduRuleUnit _ => exact out_execFduRuleUnit h
  | fduWriteback _ => exact out_execFduWriteback h
  | fduFault _ => exact out_execFduFault h
  | launchAdmit _ => exact out_execLaunchAdmit h
  | serviceLaunch _ _ => exact out_execServiceLaunch h
  | bindRecord _ => exact out_execBindRecord h
  | serviceMld _ _ => exact out_execServiceMld h
  | serviceMst _ _ _ => exact out_execServiceMst h
  | serviceMcas _ _ _ _ => exact out_execServiceMcas h
  | serviceTrsigUpdate _ _ _ => exact out_execServiceTrsigUpdate h
  | scrubVisit _ => exact out_execScrubVisit h
  | rebuildVisit _ => exact out_execRebuildVisit h
  | stackRetire _ => exact out_execStackRetire h
  | stackReturn _ => exact out_execStackReturn h
  | translationInvalidate _ _ _ => exact out_execTranslationInvalidate h
  | scoreboardMismatch _ => exact out_execScoreboardMismatch h
  | contact _ _ => exact out_execContact h
  | captureEnable _ _ _ => exact out_execCaptureEnable h
  | replay _ => exact out_execReplay h
  | attestationReport _ => exact out_execAttestationReport h
  | firmwareLimitWrite _ => exact out_execFirmwareLimitWrite h
  | egressRequest _ _ => exact out_execEgressRequest h
  | refusedWord _ => exact out_execRefusedWord h
  | debugContinue _ _ => exact out_execDebugContinue h
  | debugBreakpointHit _ _ => exact out_execDebugBreakpointHit h
  | contextCreation _ _ _ => exact out_execContextCreation h
  | contextDestruction _ => exact out_execContextDestruction h
  | serviceKernelWatchdog _ _ => exact out_execServiceKernelWatchdog h
  | serviceOrdinaryAccess _ _ _ => exact out_execServiceOrdinaryAccess h
  | hostDma _ _ _ => exact out_execHostDma h
  | skerryRemoteAccess _ _ _ => exact out_execSkerryRemoteAccess h
  | recoveryImageLoad _ => exact out_execRecoveryImageLoad h
  | nop => exact out_execNop h
  | ret => exact out_execRet h
  | rcv => exact out_execRcv h
  | exit => exact out_execExit h
  | yield => exact out_execYield h
  | yieldp => exact out_execYieldp h
  | tret => exact out_execTret h
  | qend => exact out_execQend h
  | tapresCont => exact out_execTapresCont h
  | tapresEdit => exact out_execTapresEdit h
  | tapresAbort => exact out_execTapresAbort h
  | longLatencyComplete => exact out_execLongLatencyComplete h
  | splitOverflowExchange => exact out_execSplitOverflowExchange h
  | dispatchWarpForm => exact out_execDispatchWarpForm h
  | notificationDelivery => exact out_execNotificationDelivery h
  | preemptDeadline => exact out_execPreemptDeadline h
  | budgetExpiry => exact out_execBudgetExpiry h
  | sleepWake => exact out_execSleepWake h
  | majorityTimeout => exact out_execMajorityTimeout h
  | trsigUpdateDone => exact out_execTrsigUpdateDone h
  | trsigAbandon => exact out_execTrsigAbandon h
  | tileTaskDispatch => exact out_execTileTaskDispatch h
  | copyCommandStart => exact out_execCopyCommandStart h
  | growDecided => exact out_execGrowDecided h
  | growTimeout => exact out_execGrowTimeout h
  | deviceReset => exact out_execDeviceReset h
  | remoteTimeout => exact out_execRemoteTimeout h
  | powerGateJudge => exact out_execPowerGateJudge h
  | thermalHalt => exact out_execThermalHalt h
  | instructionFetchFault => exact out_execInstructionFetchFault h

theorem crew_spend {c : Crew} {n : Nat} (h : P.crew c) : P.crew (c.spend n) := by
  unfold Crew.spend
  split
  · exact h
  · exact h

theorem holds_countBudgets {n : Nat} (ht : P.Holds t) : P.Holds (countBudgets s t n) :=
  ⟨ht.mem, crew_ite (crew_spend ht.crew) ht.crew, crews_map (fun _ hc => crew_ite (crew_spend hc) hc) ht.crews, ht.ctx,
    ht.ctxs⟩

theorem holds_judgePower {n : Nat} (h : P.Holds s) : P.Holds (judgePower s n) :=
  holds_ite h (holds_getD (opt_powerGateJudgeEvent h) h)

theorem holds_tick (ht : P.Holds t) : P.Holds (tick s t) := by
  have hjudged : P.Holds (judgePower (countBudgets s t (paceOf s)) (paceOf s)) := holds_judgePower (holds_countBudgets ht)
  unfold tick
  dsimp only
  generalize judgePower (countBudgets s t (paceOf s)) (paceOf s) = u at hjudged
  exact hjudged

theorem opt_ownEvent {i : Instr} (h : P.Holds s) : P.opt (ownEvent i s) := by
  unfold ownEvent
  split
  · exact opt_budgetExpiryEvent h
  · exact opt_preemptDeadlineEvent h
  · exact opt_sleepWakeEvent h
  · exact opt_notificationDeliveryEvent h
  · exact opt_splitOverflowExchangeEvent h
  · exact opt_growTimeoutEvent h
  · exact opt_growDecidedEvent h
  · exact opt_trsigAbandonEvent h
  · exact opt_trsigUpdateDoneEvent h
  · exact opt_majorityTimeoutEvent h
  · exact opt_copyCommandStartEvent h
  · exact opt_tileTaskDispatchEvent h
  · exact opt_dispatchWarpFormEvent h
  · exact opt_chunkFilledEvent h
  · exact opt_copyFaultEvent h
  · exact opt_rowGroupWrittenEvent h
  · exact opt_taskFaultEvent h
  · exact opt_nlbinCompleteEvent h
  · exact opt_nleSlotFilledEvent h
  · exact opt_nleBlockTableDoneEvent h
  · exact opt_nleFaultEvent h
  · exact opt_fduRootReadEvent h
  · exact opt_fduIntakeEndEvent h
  · exact opt_fduEncoderTaskDoneEvent h
  · exact opt_fduSelectDoneEvent h
  · exact opt_fduRuleUnitEvent h
  · exact opt_fduWritebackEvent h
  · exact opt_fduFaultEvent h
  · exact opt_bindRecordEvent h
  · exact opt_none

theorem opt_firstNext {is : List Instr} (h : P.Holds s) : P.opt (firstNext s is) := opt_findSome (fun _ => opt_ownEvent h)

theorem holds_mergeWarp {id : Nat} (h : P.Holds s) : P.Holds (mergeWarp s id) :=
  holds_pack (holds_stopSteps (holds_mergeAll (holds_focusWarp h)))

theorem holds_mergeGroups (h : P.Holds s) : P.Holds (mergeGroups s) := holds_foldl (fun _ _ hu => holds_mergeWarp hu) h

theorem holds_settleDue (h : P.Holds s) : P.Holds (settleDue s) :=
  holds_mergeGroups (holds_visitCells (holds_finishInvalidations
    (holds_flushLogs (holds_advanceServices (holds_landLines h)))))

theorem holds_settle (h : P.Holds s) : P.Holds (settle s) := by
  unfold settle
  split
  · exact holds_settleDue h
  · exact holds_settleDue (holds_applyUpsets h)

theorem opt_resumeFirst {l : List (Nat × Nat)} (h : P.Holds s) : P.opt (resumeFirst s l) := by
  induction l with
  | nil => exact opt_none
  | cons x l ih =>
    unfold resumeFirst
    dsimp only
    split
    · exact ih
    · split
      next u hu =>
        have hexec : P.Holds u := out_next hu (out_exec (holds_focusSplit h))
        split
        · exact opt_some hexec
        · exact ih
      · exact ih

theorem holds_focusCand {c : Candidate} (h : P.Holds s) : P.Holds (focusCand s c) := holds_focusSplit h

theorem out_issueCand {cs : List Candidate} {c : Candidate} (h : P.Holds s) : P.out (issueCand s cs c) := by
  have hcount : P.Holds (countStarve s cs c) := h
  have ht : P.Holds (focusCand (countStarve s cs c) c) := holds_focusSplit hcount
  unfold issueCand
  dsimp only
  generalize focusCand (countStarve s cs c) c = t at ht
  split
  · exact holds_stopAtBreak (holds_focusSplit h)
  split
  · exact holds_saveCtx (s := { t with ctx := { t.ctx with armed := none } }) ⟨ht.mem, ht.crew, ht.crews, ht.ctx, ht.ctxs⟩
  · exact out_exec ht

theorem opt_unblock {c : Candidate} (h : P.Holds s) : P.opt (unblock s c) := by
  have ht : P.Holds (focusCand s c) := holds_focusSplit h
  unfold unblock
  dsimp only
  generalize focusCand s c = t at ht
  split
  · exact opt_longLatencyCompleteEvent ht
  split
  · exact opt_some ht
  · exact opt_none

theorem holds_takeTurn (h : P.Holds s) : P.Holds (takeTurn s) := by
  have hp : P.Holds (pack s) := holds_pack h
  exact ⟨hp.mem, hp.crew, hp.crews, hp.ctx, hp.ctxs⟩

theorem out_issueStep {o : Host.Outcome State Fault Refusal} (h : P.Holds s) (ho : issueStep s = some o) : P.out o := by
  unfold issueStep at ho
  split at ho
  · exact (Option.some_ne_none _ ho.symm).elim
  · obtain ⟨c, -, rfl⟩ := Option.map_eq_some_iff.mp ho
    exact out_issueCand h

theorem opt_completeStep (h : P.Holds s) : P.opt (completeStep s) := opt_findSome (fun _ => opt_unblock h)

theorem out_mapNext {o : Option State} {u : Host.Outcome State Fault Refusal} (h : P.opt o)
    (hu : o.map Host.Outcome.next = some u) : P.out u := by
  obtain ⟨t, ht, rfl⟩ := Option.map_eq_some_iff.mp hu
  exact h t ht

theorem out_orElse {a : Option (Host.Outcome State Fault Refusal)} {b : Unit → Option (Host.Outcome State Fault Refusal)}
    (ha : ∀ u, a = some u → P.out u) (hb : ∀ u, b () = some u → P.out u) : ∀ u, a.orElse b = some u → P.out u := by
  cases a with
  | none => exact hb
  | some a => exact ha

theorem out_getD {a : Option (Host.Outcome State Fault Refusal)} {u : Host.Outcome State Fault Refusal}
    (ha : ∀ u, a = some u → P.out u) (hu : P.out u) : P.out (a.getD u) := by
  cases a with
  | none => exact hu
  | some a => exact ha a rfl

theorem out_act (h : P.Holds s) : P.out (act s) := by
  have hengines := fun u => out_mapNext (u := u) (opt_firstNext (is := engineEvents s) h)
  have hcompletes := fun u => out_mapNext (u := u) (opt_completeStep (holds_takeTurn h))
  have hissues := fun u => out_issueStep (o := u) (holds_takeTurn h)
  unfold act
  dsimp only
  split
  · exact out_getD (out_orElse (out_orElse hissues hengines) hcompletes) h
  · exact out_getD (out_orElse (out_orElse hengines hcompletes) hissues) h

theorem out_move (h : P.Holds s) : P.out (move s) := by
  have hp : P.Holds (settle (pack s)) := holds_settle (holds_pack h)
  unfold move
  dsimp only
  generalize settle (pack s) = p at hp
  split
  next i rest _ =>
    have ht : P.Holds { p with env := { p.env with inbox := rest } } := hp
    split
    · exact out_exec ht
    · exact ht
  · split
    next t ht => exact of_some ht (opt_firstNext hp)
    · split
      next t ht => exact of_some ht (opt_resumeFirst hp)
      · exact out_act hp

theorem out_step (h : P.Holds s) : P.out (step s) := by
  unfold step
  split
  next t ht => exact holds_tick (out_next ht (out_move h))
  · exact trivial
  · exact trivial

end Sys2Proof.Machine.Storage
end

section
/-! PROOFS. The canonical form of memory and the order of ring counts at every step (06 R169, R186). -/

namespace Sys2Proof.Machine
open Storage

/-- Memories are in canonical form; of rings nothing is asked (R169). -/
def memoryLaw : StorageLaw where
  mem m := Memory.wf m = true
  ring _ := True
  mem_nil := rfl
  mem_sset k b h := wf_sset k b h
  mem_filter p h := wf_filter p h
  ring_congr _ _ _ _ _ _ := trivial
  ring_blank := trivial
  ring_bound _ _ := trivial
  ring_reserve _ _ := trivial
  ring_fill _ _ := trivial
  ring_free _ _ := trivial
  ring_cursor _ _ _ := trivial
  ring_join _ _ := trivial
  ring_leave _ _ := trivial

theorem memoryLaw_holds_iff {s : State} : memoryLaw.Holds s ↔ MemoryOk s := by
  constructor
  · rintro ⟨hmem, -, -, hctx, hctxs⟩
    exact ⟨hmem, List.forall_mem_cons.mpr ⟨fun i hi => (hctx i hi).1, fun c hc i hi => (hctxs c hc i hi).1⟩⟩
  · rintro ⟨hmem, hctxs⟩
    obtain ⟨hctx, hctxs⟩ := List.forall_mem_cons.mp hctxs
    exact ⟨hmem, fun _ _ => trivial, fun _ _ _ _ => trivial, fun i hi => ⟨hctx i hi, fun _ _ _ _ => trivial⟩,
      fun c hc i hi => ⟨hctxs c hc i hi, fun _ _ _ _ => trivial⟩⟩

theorem ordered_newRing {x : Ring} (hres : x.res = 0) (hfil : x.fil = 0) (hrel : x.rel = 0) (hcursors : x.cursors = []) :
    x.ordered := by
  refine ⟨by omega, by omega, by omega, fun w => ?_⟩
  rw [Ring.cursor, hcursors]
  exact Nat.zero_le _

/-- A cursor moved to a place that is filled leaves a ring in order. -/
theorem ordered_setCursor {x : Ring} {w n : Nat} (h : x.ordered) (hn : n ≤ x.fil) :
    { x with cursors := sset 0 x.cursors w n }.ordered := by
  obtain ⟨hrel, hfil, hres, hcursor⟩ := h
  refine ⟨hrel, hfil, hres, fun v => ?_⟩
  show sget 0 (sset 0 x.cursors w n) v ≤ x.fil
  rw [sget_sset]
  split
  · exact hn
  · exact hcursor v

theorem ordered_dropCursor {x : Ring} {w : Nat} (h : x.ordered) : { x with cursors := serase x.cursors w }.ordered := by
  obtain ⟨hrel, hfil, hres, hcursor⟩ := h
  refine ⟨hrel, hfil, hres, fun v => ?_⟩
  show sget 0 (serase x.cursors w) v ≤ x.fil
  by_cases hv : v = w
  · rw [hv, sget_serase_same]; exact Nat.zero_le _
  · rw [sget_serase_ne 0 _ hv]; exact hcursor v

/-- The counts of rings are in order; of memories nothing is asked (R186). -/
def ringLaw : StorageLaw where
  mem _ := True
  ring := Ring.ordered
  mem_nil := trivial
  mem_sset _ _ _ := trivial
  mem_filter _ _ := trivial
  ring_congr := by
    intro x y hdepth hres hfil hrel hcursors h
    simpa only [Ring.ordered, Ring.cursor, hdepth, hres, hfil, hrel, hcursors] using h
  ring_blank := ordered_newRing rfl rfl rfl rfl
  ring_bound _ _ := ordered_newRing rfl rfl rfl rfl
  ring_reserve := by
    rintro x ⟨hrel, hfil, hres, hcursor⟩ hroom
    have hfree : x.res - x.rel < x.depth := of_decide_eq_true hroom
    exact ⟨hrel, Nat.le_succ_of_le hfil, show x.res + 1 ≤ x.rel + x.depth by omega, hcursor⟩
  ring_fill := by
    rintro x ⟨hrel, hfil, hres, hcursor⟩ hopen
    exact ⟨Nat.le_succ_of_le hrel, hopen, hres, fun w => Nat.le_succ_of_le (hcursor w)⟩
  ring_free := by
    rintro x ⟨hrel, hfil, hres, hcursor⟩ hfilled
    exact ⟨hfilled, hfil, show x.res ≤ x.rel + 1 + x.depth by omega, hcursor⟩
  ring_cursor _ h hleft := ordered_setCursor h hleft
  ring_join _ h := ordered_setCursor h h.1
  ring_leave _ h := ordered_dropCursor h

theorem ringLaw_holds_iff {s : State} : ringLaw.Holds s ↔ RingsOk s := by
  constructor
  · rintro ⟨-, hcrew, hcrews, hctx, hctxs⟩
    exact ⟨List.forall_mem_cons.mpr ⟨hcrew, hcrews⟩,
      List.forall_mem_cons.mpr ⟨fun i hi => (hctx i hi).2, fun c hc i hi => (hctxs c hc i hi).2⟩⟩
  · rintro ⟨hcrews, hctxs⟩
    obtain ⟨hcrew, hcrews⟩ := List.forall_mem_cons.mp hcrews
    obtain ⟨hctx, hctxs⟩ := List.forall_mem_cons.mp hctxs
    exact ⟨trivial, hcrew, hcrews, fun i hi => ⟨trivial, hctx i hi⟩, fun c hc i hi => ⟨trivial, hctxs c hc i hi⟩⟩

theorem holds_step {P : StorageLaw} {s t : State} (h : P.Holds s) (ht : step s = .next t) : P.Holds t :=
  out_next ht (out_step h)

/-- Settles O15: a step reaches memory only by setting bytes and by dropping a partition's, which keep the canonical form. -/
theorem canonicalMemory : Obligations.CanonicalMemory := fun _ _ hs ht =>
  memoryLaw_holds_iff.mp (holds_step (memoryLaw_holds_iff.mpr hs) ht)

/-- Settles O33: every count moves under the guard that keeps the order (a slot is reserved where the ring has room, filled
where it is reserved, freed and passed by a cursor where it is filled), and a warp that joins starts at REL. -/
theorem ringOrder : Obligations.RingOrder := fun _ _ hs ht =>
  ringLaw_holds_iff.mp (holds_step (ringLaw_holds_iff.mpr hs) ht)

end Sys2Proof.Machine
end

section
/-! SUPPORT. One access per participating lane: every check before any effect (R167). -/

namespace Sys2Proof.Machine

/-! Per-lane accesses: every check before any effect (R167). -/

section
variable {s : State} {n : Need} {size : Nat} {m : MForm} {f : Nat → Nat → State → State}

theorem checkLanes_ok {addr key : Nat → Nat} {L : List Nat} (h : ∀ l ∈ L, checkAccess s n (addr l) size = .ok (key l)) :
    checkLanes s n size addr L = .ok (L.map (fun l => (l, key l))) := by
  induction L with
  | nil => rfl
  | cons l L ih =>
    rw [List.forall_mem_cons] at h
    rw [checkLanes, h.1, ih h.2]
    rfl

theorem checkLanes_bad {addr : Nat → Nat} {L K : List Nat} {l : Nat} {c : Byte}
    (h : ∀ x ∈ L, ∃ key, checkAccess s n (addr x) size = .ok key) (hl : checkAccess s n (addr l) size = .bad c) :
    checkLanes s n size addr (L ++ l :: K) = .error (c, addr l) := by
  induction L with
  | nil => rw [List.nil_append, checkLanes, hl]
  | cons x L ih =>
    obtain ⟨⟨key, hx⟩, hL⟩ := List.forall_mem_cons.mp h
    rw [List.cons_append, checkLanes, hx, ih hL]

/-- The lanes of a mask up to one of them are its lower ones. -/
theorem lanesOf_split {p : Mask} {l : Nat} (h : l ∈ lanesOf p) : ∃ L K, lanesOf p = L ++ l :: K ∧ ∀ x ∈ L, x < l := by
  obtain ⟨L, K, hLK⟩ := List.append_of_mem h
  refine ⟨L, K, hLK, fun x hx => ?_⟩
  have hsorted : (lanesOf p).Pairwise (· < ·) := List.Pairwise.filter _ List.pairwise_lt_range
  rw [hLK, List.pairwise_append] at hsorted
  exact hsorted.2.2 x hx l List.mem_cons_self

theorem nodup_lanesOf (p : Mask) : (lanesOf p).Nodup := List.Nodup.filter _ List.nodup_range

theorem laneAccess_ok {key : Nat → Nat} (h : ∀ l, takesPart s l → checkAccess s n (mAddr s m l) size = .ok (key l)) :
    laneAccess n size m f s = .ok ((lanesOf (partMask s)).foldl (fun t l => f l (key l) t) s) := by
  unfold laneAccess
  rw [checkLanes_ok (fun l hl => h l (takesPart_iff.mpr hl))]
  exact congrArg Res.ok List.foldl_map

/-- The lowest lane that fails a check gives the trap, with its address (R167). -/
theorem laneAccess_bad {l : Nat} {c : Byte} (hl : takesPart s l)
    (hlow : ∀ x < l, takesPart s x → ∃ key, checkAccess s n (mAddr s m x) size = .ok key)
    (hbad : checkAccess s n (mAddr s m l) size = .bad c) :
    laneAccess n size m f s = .trap c (BitVec.ofNat 64 (mAddr s m l)) s.sp.pc s := by
  obtain ⟨L, K, hLK, hlt⟩ := lanesOf_split (takesPart_iff.mp hl)
  unfold laneAccess
  rw [hLK, checkLanes_bad (fun x hx => hlow x (hlt x hx) (takesPart_iff.mpr (hLK ▸ List.mem_append_left _ hx))) hbad]
  rfl

theorem laneKeys_ok {key : Nat → Nat} (h : ∀ l, takesPart s l → checkAccess s needR (mAddr s m l) size = .ok (key l)) :
    laneKeys s size m = (lanesOf (partMask s)).map (fun l => (l, key l)) := by
  unfold laneKeys
  rw [checkLanes_ok (fun l hl => h l (takesPart_iff.mpr hl))]

@[simp] theorem mAddr_issued (i : Instr) (l : Nat) : mAddr (issued i s) m l = mAddr s m l := rfl

theorem takesPart_issued (i : Instr) (l : Nat) : takesPart (issued i s) l ↔ takesPart s l := Iff.rfl

end

/-! Lane registers loaded from memory, with their marks (R168, R169, R259). -/

/-- A register written by a load: its lane and number, the value, and the mark, which is 0 where nothing is poisoned. -/
structure RegLoad where
  lane : Nat
  reg : Nat
  value : Word
  mark : Nat

/-- One register written by a load. -/
def RegLoad.put (x : RegLoad) (s : State) : State :=
  loadReg s x.lane x.reg x.value (x.mark != 0) (x.mark - 1)

/-- The physical register of a load's register. -/
def RegLoad.key (x : RegLoad) (s : State) : Nat := physKey s.w x.lane (s.sp.wbase + x.reg)

section
variable {s : State} {x : RegLoad} {ws : List RegLoad} {key : Nat}

theorem LanesOnly.loadReg (s : State) (l r : Nat) (v : Word) (b : Bool) (a : Nat) : LanesOnly s (loadReg s l r v b a) := by
  unfold Machine.loadReg
  dsimp only
  split <;> rfl

theorem put_only : LanesOnly s (x.put s) := LanesOnly.loadReg ..

theorem physGet_put : physGet (x.put s).w key = if key = x.key s then x.value else physGet s.w key := by
  have hset : physGet (xset s x.lane x.reg x.value).w key = if key = x.key s then x.value else physGet s.w key :=
    physGet_physSet ..
  unfold RegLoad.put loadReg
  dsimp only
  split
  · exact hset
  · exact hset

theorem marks_put : sget 0 (x.put s).w.marks key = if key = x.key s then x.mark else sget 0 s.w.marks key := by
  have hset : sget 0 (xset s x.lane x.reg x.value).w.marks key = if key = x.key s then 0 else sget 0 s.w.marks key := by
    show sget 0 (serase s.w.marks (x.key s)) key = _
    split
    next h => rw [h, sget_serase_same]
    next h => exact sget_serase_ne 0 _ h
  unfold RegLoad.put loadReg
  dsimp only
  split
  next hm =>
    show sget 0 (sset 0 _ (x.key s) (x.mark - 1 + 1)) key = _
    rw [sget_sset]
    split
    next => have : x.mark ≠ 0 := by simpa using hm
            omega
    next h => rw [hset, if_neg h]
  next hm =>
    have hm : x.mark = 0 := by simpa using hm
    rw [hset, hm]

theorem foldl_put_only : LanesOnly s (ws.foldl (fun t x => x.put t) s) := LanesOnly.foldl _ (fun _ _ => put_only) ws s

theorem key_foldl_put (y : RegLoad) : y.key (ws.foldl (fun t x => x.put t) s) = y.key s := by
  unfold RegLoad.key
  rw [foldl_put_only.key, foldl_put_only.sp]

theorem key_put (y : RegLoad) : y.key (x.put s) = y.key s := by
  unfold RegLoad.key
  rw [put_only.key, put_only.sp]

/-- Registers that a load does not name keep their values and marks. -/
theorem foldl_put_other (h : ∀ x ∈ ws, key ≠ x.key s) : physGet (ws.foldl (fun t x => x.put t) s).w key = physGet s.w key ∧
    sget 0 (ws.foldl (fun t x => x.put t) s).w.marks key = sget 0 s.w.marks key := by
  induction ws generalizing s with
  | nil => exact ⟨rfl, rfl⟩
  | cons x ws ih =>
    rw [List.forall_mem_cons] at h
    obtain ⟨hphys, hmarks⟩ := ih (s := x.put s) (fun y hy => by rw [key_put]; exact h.2 y hy)
    rw [List.foldl_cons, hphys, hmarks, physGet_put, marks_put, if_neg h.1, if_neg h.1]
    exact ⟨rfl, rfl⟩

/-- A register that a load names holds its value and its mark, where no register is named twice. -/
theorem foldl_put_same (hkeys : (ws.map (RegLoad.key · s)).Nodup) (hx : x ∈ ws) :
    physGet (ws.foldl (fun t x => x.put t) s).w (x.key s) = x.value ∧
      sget 0 (ws.foldl (fun t x => x.put t) s).w.marks (x.key s) = x.mark := by
  induction ws generalizing s with
  | nil => cases hx
  | cons y ws ih =>
    rw [List.map_cons, List.nodup_cons] at hkeys
    obtain ⟨hy, hkeys⟩ := hkeys
    have hmap : ws.map (RegLoad.key · (y.put s)) = ws.map (RegLoad.key · s) := List.map_congr_left (fun z _ => key_put z)
    rw [List.foldl_cons]
    cases hx with
    | head =>
      have hother : ∀ z ∈ ws, x.key s ≠ z.key (x.put s) := fun z hz he =>
        hy (List.mem_map.mpr ⟨z, hz, (he.trans (key_put z)).symm⟩)
      obtain ⟨hphys, hmarks⟩ := foldl_put_other hother
      rw [hphys, hmarks, physGet_put, marks_put, if_pos rfl, if_pos rfl]
      exact ⟨rfl, rfl⟩
    | tail _ hx =>
      rw [← key_put (s := s) (x := y) x]
      exact ih (by rw [hmap]; exact hkeys) hx

end
end Sys2Proof.Machine
end

section
/-! PROOFS. The lane loads (R167, R168). -/

namespace Sys2Proof.Machine
section
variable {i : Instr} {s : State} {size regs d : Nat} {sg : Bool} {m : MForm} {key : Nat → Nat}

/-- What is known of the writes aside, a state is another. -/
def LateOnly (s t : State) : Prop := t = { s with late := t.late }

theorem LateOnly.trans {s t u : State} (h : LateOnly s t) (h' : LateOnly t u) : LateOnly s u := by
  unfold LateOnly at h h'
  rw [h] at h'
  exact h'

theorem rememberReads_lateOnly (rs : List (Nat × Nat)) : LateOnly s (rememberReads s rs) := rememberReads_eq s rs
theorem acquireReads_lateOnly (rs : List (Nat × Nat)) : LateOnly s (acquireReads s rs) := acquireReads_eq s rs
theorem acquire_lateOnly (ps : List Past) : LateOnly s (acquire s ps) := acquire_eq s ps

theorem rememberReads_retired (rs : List (Nat × Nat)) : rememberReads (retired s) rs = retired (rememberReads s rs) := rfl
theorem acquireReads_retired (rs : List (Nat × Nat)) : acquireReads (retired s) rs = retired (acquireReads s rs) := rfl
theorem acquire_retired (ps : List Past) : acquire (retired s) ps = retired (acquire s ps) := rfl

theorem retired_w (u : State) : (retired u).w = u.w := rfl
theorem xget_retired (u : State) (l r : Nat) : xget (retired u) l r = xget u l r := rfl

/-- The j-th register that a load of a lane writes, with its value and mark (R168, R169). -/
def loadAt (s : State) (size regs : Nat) (sg : Bool) (d : Nat) (m : MForm) (key : Nat → Nat) (l j : Nat) : RegLoad :=
  let each := size / regs
  { lane := l, reg := d + j
    value := BitVec.ofInt 32 (signedOf sg (8 * each) (readAs (laneReaderOf s (some l)) s (key l + each * j) each))
    mark := if poisonedRange s (key l + each * j) each then mAddr s m l + each * j + 1 else 0 }

/-- The registers that a lane load writes. -/
def loadRegs (s : State) (size regs : Nat) (sg : Bool) (d : Nat) (m : MForm) (key : Nat → Nat) : List RegLoad :=
  (lanesOf (partMask s)).flatMap (fun l => (List.range regs).map (loadAt s size regs sg d m key l))

/-- The machine after a lane load has written its registers. -/
def loadedLanes (i : Instr) (s : State) (size regs : Nat) (sg : Bool) (d : Nat) (m : MForm) (key : Nat → Nat) : State :=
  (loadRegs s size regs sg d m key).foldl (fun t x => x.put t) (issued i s)

theorem loadReg_eq_put (u : State) (l r : Nat) (v : Word) (b : Bool) (a : Nat) :
    loadReg u l r v b a = RegLoad.put ⟨l, r, v, if b then a + 1 else 0⟩ u := by
  cases b <;> rfl

theorem poisonedRange_of_lanesOnly {t : State} (h : LanesOnly s t) (a n : Nat) : poisonedRange t a n = poisonedRange s a n := by
  rw [h]; rfl

/-- A fold may take another step function that agrees with it as long as an invariant holds. -/
theorem foldl_congr_of_inv {α β : Type} {f g : α → β → α} (I : α → Prop) (hg : ∀ t x, I t → I (g t x))
    (hfg : ∀ t x, I t → f t x = g t x) (xs : List β) {t : α} (ht : I t) : xs.foldl f t = xs.foldl g t := by
  induction xs generalizing t with
  | nil => rfl
  | cons x xs ih => rw [List.foldl_cons, List.foldl_cons, hfg t x ht]; exact ih (hg t x ht)

theorem foldl_loadReg (v : Nat → Nat → Word) (k a : Nat → Nat → Nat) (each : Nat) (L : List Nat) (s : State) :
    L.foldl (fun t l => (List.range regs).foldl (fun u j =>
      loadReg u l (d + j) (v l j) (poisonedRange t (k l j) each) (a l j)) t) s =
    (L.flatMap (fun l => (List.range regs).map (fun j =>
      (⟨l, d + j, v l j, if poisonedRange s (k l j) each then a l j + 1 else 0⟩ : RegLoad)))).foldl (fun t x => x.put t) s := by
  rw [List.foldl_flatMap]
  refine foldl_congr_of_inv (LanesOnly s) (fun t l h => h.trans foldl_put_only) (fun t l h => ?_) L (.refl s)
  rw [List.foldl_map]
  simp only [loadReg_eq_put, poisonedRange_of_lanesOnly h]

theorem readWrites_issued (lane : Option Nat) (ks : List Nat) : readWrites (issued i s) lane ks = readWrites s lane ks := rfl

/-- The writes that the lanes of a load read. -/
def readsOf (s : State) (key : Nat → Nat) (size : Nat) : List (Nat × Nat) :=
  (lanesOf (partMask s)).flatMap (fun l => readWrites s (some l) (keysFrom (key l) size))

section
variable (h : ∀ l, takesPart s l → checkAccess s needR (mAddr s m l) size = .ok (key l))
include h

theorem checks_issued : ∀ l, takesPart (issued i s) l →
    checkAccess (issued i s) needR (mAddr (issued i s) m l) size = .ok (key l) := fun l hl => by
  rw [checkAccess_issued]
  exact h l hl

theorem laneReads_ok : laneReads (issued i s) size m = readsOf s key size := by
  unfold laneReads
  rw [laneKeys_ok (checks_issued h), List.flatMap_map]
  rfl

theorem loadBody_ok (d : BitVec 6) : loadBody size regs sg d m (issued i s) =
    .ok (rememberReads (loadedLanes i s size regs sg d.toNat m key) (readsOf s key size)) := by
  unfold loadBody
  dsimp only
  rw [laneAccess_ok (checks_issued h), foldl_loadReg, laneReads_ok h]
  rfl

end

theorem keys_loadRegs (hd : d + regs ≤ 64) :
    ((loadRegs s size regs sg d m key).map (RegLoad.key · (issued i s))).Nodup := by
  refine List.Nodup.map_on ?_ ?_
  · intro x hx y hy hxy
    simp only [loadRegs, List.mem_flatMap, List.mem_map, List.mem_range] at hx hy
    obtain ⟨l, -, j, hj, rfl⟩ := hx
    obtain ⟨l', -, j', hj', rfl⟩ := hy
    obtain ⟨hlane, hmod⟩ := (physKey_inj _).mp hxy
    obtain rfl : l = l' := hlane
    have hreg : d + j = d + j' := mod_inj (regs_ge _) (by omega) (by omega) hmod
    obtain rfl : j = j' := Nat.add_left_cancel hreg
    rfl
  · refine List.nodup_flatMap.mpr ⟨fun l _ => ?_, ?_⟩
    · refine List.Nodup.map_on (fun j _ j' _ he => ?_) List.nodup_range
      have hreg : d + j = d + j' := congrArg RegLoad.reg he
      exact Nat.add_left_cancel hreg
    · refine (nodup_lanesOf _).imp (fun {l l'} hne x hx hx' => ?_)
      obtain ⟨j, -, rfl⟩ := List.mem_map.mp hx
      obtain ⟨j', -, he⟩ := List.mem_map.mp hx'
      exact hne (congrArg RegLoad.lane he).symm

theorem loadedLanes_only : LanesOnly (issued i s) (loadedLanes i s size regs sg d m key) := foldl_put_only

/-- What a load leaves in its registers, and in all others. -/
theorem loadedLanes_reg (hd : d + regs ≤ 64) {l j : Nat} (hl : takesPart s l) (hj : j < regs) :
    let each := size / regs
    xget (retired (loadedLanes i s size regs sg d m key)) l (d + j) =
      BitVec.ofInt 32 (signedOf sg (8 * each) (readAs (laneReaderOf s (some l)) s (key l + each * j) each)) ∧
    sget 0 (retired (loadedLanes i s size regs sg d m key)).w.marks (physKey s.w l (s.sp.wbase + (d + j))) =
      if poisonedRange s (key l + each * j) each then mAddr s m l + each * j + 1 else 0 := by
  have hmem : loadAt s size regs sg d m key l j ∈ loadRegs s size regs sg d m key :=
    List.mem_flatMap.mpr ⟨l, takesPart_iff.mp hl, List.mem_map_of_mem (List.mem_range.mpr hj)⟩
  obtain ⟨hvalue, hmark⟩ := foldl_put_same (s := issued i s) (keys_loadRegs hd) hmem
  rw [retired_w]
  refine ⟨?_, hmark⟩
  rw [xget_retired]
  unfold xget
  rw [loadedLanes_only.key, loadedLanes_only.sp]
  exact hvalue

theorem writes_loadedLanes : WritesLanes i ((List.range regs).map (fun j => d + j)) s
    (retired (loadedLanes i s size regs sg d m key)) where
  frame := by
    have h := loadedLanes_only (i := i) (s := s) (size := size) (regs := regs) (sg := sg) (d := d) (m := m) (key := key)
    generalize loadedLanes i s size regs sg d m key = u at h
    rw [h]
    rfl
  others := by
    intro k hk
    have hother : ∀ x ∈ loadRegs s size regs sg d m key, k ≠ x.key (issued i s) := by
      intro x hx
      simp only [loadRegs, List.mem_flatMap, List.mem_map] at hx
      obtain ⟨l, hl, j, hj, rfl⟩ := hx
      exact hk l (takesPart_iff.mpr hl) (d + j) (List.mem_map_of_mem hj)
    rw [retired_w]
    exact foldl_put_other hother
  flags := by
    show (loadedLanes i s size regs sg d m key).w.fflags &&& s.w.fflags = s.w.fflags
    rw [loadedLanes_only]
    exact BitVec.and_self

theorem fflags_loadedLanes : (retired (loadedLanes i s size regs sg d m key)).w.fflags = s.w.fflags := by
  show (loadedLanes i s size regs sg d m key).w.fflags = _
  rw [loadedLanes_only]
  rfl

/-- A lane that fails a check stops a load before anything is read. -/
theorem loadBody_bad {l : Nat} {c : Byte} (d : BitVec 6) (hl : takesPart s l)
    (hlow : ∀ x < l, takesPart s x → ∃ key, checkAccess s needR (mAddr s m x) size = .ok key)
    (hbad : checkAccess s needR (mAddr s m l) size = .bad c) :
    loadBody size regs sg d m (issued i s) = .trap c (BitVec.ofNat 64 (mAddr s m l)) s.sp.pc (issued i s) := by
  unfold loadBody
  dsimp only
  rw [laneAccess_bad (s := issued i s) (m := m) (c := c) hl
    (fun x hx hp => by rw [checkAccess_issued]; exact hlow x hx hp) (by rw [checkAccess_issued]; exact hbad)]
  rfl

/-- How a lane load ends: with its registers written and something done to what is known of the writes, or with the trap of
the lowest lane that fails a check. -/
def LoadEnds (i : Instr) (s : State) (size regs : Nat) (sg : Bool) (d : BitVec 6) (m : MForm)
    (after : (Nat → Nat) → State → State) : Prop :=
  (∀ key : Nat → Nat, (∀ l, takesPart s l → checkAccess s needR (mAddr s m l) size = .ok (key l)) →
    ∃ t, exec i s = .next (after key t) ∧ WritesLanes i ((List.range regs).map (fun j => d.toNat + j)) s t ∧
      t.w.fflags = s.w.fflags ∧ ∀ l, takesPart s l → ∀ j < regs,
        xget t l (d.toNat + j) = BitVec.ofInt 32 (signedOf sg (8 * (size / regs))
          (readAs (laneReaderOf s (some l)) s (key l + size / regs * j) (size / regs))) ∧
        sget 0 t.w.marks (physKey s.w l (s.sp.wbase + (d.toNat + j))) =
          if poisonedRange s (key l + size / regs * j) (size / regs) then mAddr s m l + size / regs * j + 1 else 0) ∧
  (∀ l c, takesPart s l → (∀ x < l, takesPart s x → ∃ key, checkAccess s needR (mAddr s m x) size = .ok key) →
    checkAccess s needR (mAddr s m l) size = .bad c →
    exec i s = .next (trapped (issued i s) c (BitVec.ofNat 64 (mAddr s m l)) s.sp.pc))

/-- A load that ends with its registers written and something done to what is known of the writes. -/
theorem lane_load {body : State → Res} {after : (Nat → Nat) → State → State} {d : BitVec 6} (hd : d.toNat + regs ≤ 64)
    (hx : exec i s = run i body s)
    (hok : ∀ key, (∀ l, takesPart s l → checkAccess s needR (mAddr s m l) size = .ok (key l)) →
      body (issued i s) = .ok (after key (loadedLanes i s size regs sg d.toNat m key)))
    (hlate : ∀ key u, LateOnly u (after key u)) (hret : ∀ key u, after key (retired u) = retired (after key u))
    (hbad : ∀ l c, takesPart s l → (∀ x < l, takesPart s x → ∃ key, checkAccess s needR (mAddr s m x) size = .ok key) →
      checkAccess s needR (mAddr s m l) size = .bad c →
      body (issued i s) = .trap c (BitVec.ofNat 64 (mAddr s m l)) s.sp.pc (issued i s)) (hi : Issues i s) :
    LoadEnds i s size regs sg d m after := by
  refine ⟨fun key hkey => ⟨retired (loadedLanes i s size regs sg d.toNat m key), ?_, writes_loadedLanes,
    fflags_loadedLanes, fun l hl j hj => loadedLanes_reg hd hl hj⟩, fun l c hl hlow hc => ?_⟩
  · have honly := loadedLanes_only (i := i) (s := s) (size := size) (regs := regs) (sg := sg) (d := d.toNat) (m := m) (key := key)
    rw [hx, run_eq hi, hok key hkey, hret]
    generalize loadedLanes i s size regs sg d.toNat m key = u at honly
    have hsp : (after key u).sp = u.sp := by rw [hlate key u]
    have hw : (after key u).w = u.w := by rw [hlate key u]
    refine congrArg Host.Outcome.next (finish_ok_of_splits hi (hsp.trans honly.sp) ?_ ?_)
    · rw [hw, honly]; rfl
    · rw [hw, honly]; rfl
  · rw [hx]
    exact run_trap hi (hbad l c hl hlow hc)

/-- The loads that acquire nothing. -/
theorem plain_load {d : BitVec 6} (hd : Issues i s → d.toNat + regs ≤ 64)
    (hx : exec i s = run i (loadBody size regs sg d m) s) (hi : Issues i s) :
    LoadEnds i s size regs sg d m (fun key t => rememberReads t (readsOf s key size)) :=
  lane_load (after := fun key t => rememberReads t (readsOf s key size)) (hd hi) hx (fun _ hkey => loadBody_ok hkey d)
    (fun _ _ => rememberReads_eq ..) (fun _ _ => rfl) (fun _ _ => loadBody_bad d) hi

/-- The writes that LDA's lanes have read of releases. -/
def acquired (s : State) (key : Nat → Nat) : List Past :=
  (lanesOf (partMask s)).flatMap (fun l => (keysFrom (key l) 4).flatMap (fun a =>
    releasesRead (fun e => e.sees s (laneReaderOf s (some l)) a) a s.late))

/-- What LDA does to what is known of the writes (R170, R297, R299). -/
def acquiring (s : State) (key : Nat → Nat) (t : State) : State :=
  acquire (acquireReads (rememberReads t (readsOf s key 4)) (readsOf s key 4)) (acquired s key)

theorem acquiring_lateOnly (key : Nat → Nat) (t : State) : LateOnly t (acquiring s key t) :=
  ((rememberReads_lateOnly _).trans (acquireReads_lateOnly _)).trans (acquire_lateOnly _)

theorem acquiring_retired (key : Nat → Nat) (t : State) : acquiring s key (retired t) = retired (acquiring s key t) := by
  unfold acquiring
  rw [rememberReads_retired, acquireReads_retired, acquire_retired]

theorem acquireBody_ok (d : BitVec 6) (h : ∀ l, takesPart s l → checkAccess s needR (mAddr s m l) 4 = .ok (key l)) :
    acquireBody d m (issued i s) = .ok (acquiring s key (loadedLanes i s 4 1 false d.toNat m key)) := by
  unfold acquireBody
  rw [loadBody_ok h d, laneReads_ok h, laneKeys_ok (checks_issued h), List.flatMap_map]
  rfl

/-- The load that acquires. -/
theorem acquire_load {d xi : BitVec 6} {k : BitVec 5} {la : BitVec 4} {q : BitVec 2} {e : BitVec 1} (hd : d.toNat + 1 ≤ 64)
    (hi : Issues (.lda d xi k la q e) s) :
    LoadEnds (.lda d xi k la q e) s 4 1 false d (mform xi k q e) (acquiring s) :=
  lane_load (body := acquireBody d (mform xi k q e)) hd rfl (fun _ hkey => acquireBody_ok d hkey) acquiring_lateOnly
    acquiring_retired (fun _ _ hl hlow hc => by
      unfold acquireBody
      rw [loadBody_bad d hl hlow hc]
      rfl) hi

end

/-- An M-format word's address, as R75 gives it. -/
theorem mAddr_mform (s : State) (i : BitVec 6) (k : BitVec 5) (q : BitVec 2) (e : BitVec 1) (l : Nat) :
    mAddr s (mform i k q e) l =
      let index : Int := if i = 63 then 0 else if e = 1 then (xget s l i.toNat).toInt else (xget s l i.toNat).toNat
      ((((kget s k.toNat).toNat : Int) + index * 2 ^ q.toNat).emod (2 ^ 64)).toNat := by
  have hi : (i.toNat = 63) = (i = 63) := propext ⟨fun h => BitVec.eq_of_toNat_eq h, fun h => h ▸ rfl⟩
  show laneAddr s i.toNat k.toNat q.toNat e l = _
  unfold laneAddr
  simp only [hi]

/-- The registers of a lane load are among the 64 (R88). -/
theorem Issues.operandsOk {i : Instr} {s : State} (h : Issues i s) : i.operandsOk = true := by
  have hc := h.checks
  unfold r88 at hc
  dsimp only at hc
  split at hc
  · cases hc
  split at hc
  · cases hc
  next hops =>
    rw [Bool.or_eq_true, not_or, Bool.not_eq_true', Bool.not_eq_false] at hops
    exact hops.1

/-- Settles O27: the checks come first, lane by lane, and each lane then writes registers of its own. -/
theorem laneLoads : Obligations.LaneLoads := by
  unfold Obligations.LaneLoads
  intro s d i k la q e addr reads after forms f hf hi
  have haddr : addr = mAddr s (mform i k q e) := funext fun l => (mAddr_mform s i k q e l).symm
  clear_value addr
  subst haddr
  have hsingle : d.toNat + 1 ≤ 64 := d.isLt
  suffices hends : LoadEnds f.1 s f.2.1 f.2.2.1 f.2.2.2 d (mform i k q e) (after f.1 f.2.1) from hends
  simp only [forms, List.mem_cons, List.not_mem_nil, or_false] at hf
  obtain rfl | rfl | rfl | rfl | rfl | rfl | rfl | rfl := hf
  · exact plain_load (fun _ => hsingle) rfl hi
  · exact plain_load (fun _ => hsingle) rfl hi
  · exact plain_load (fun _ => hsingle) rfl hi
  · exact plain_load (fun _ => hsingle) rfl hi
  · exact plain_load (fun _ => hsingle) rfl hi
  · refine plain_load (regs := 2) (fun hi => ?_) rfl hi
    have hpair : d.toNat % 2 = 0 := of_decide_eq_true hi.operandsOk
    omega
  · refine plain_load (regs := 4) (fun hi => ?_) rfl hi
    have hquad : d.toNat % 4 = 0 := of_decide_eq_true hi.operandsOk
    omega
  · exact acquire_load hsingle hi

end Sys2Proof.Machine
end

section
/-! PROOFS. The lane stores (R167 to R169). -/

namespace Sys2Proof.Machine

/-! Writes of lanes one after another (R168, R169). -/

section
variable {s : State} {e : Nat → Late} {key : Nat → Nat} {bs : Nat → List Byte} {L : List Nat}

/-- A write for each lane of a list, in its order. -/
def storeAll (e : Nat → Late) (key : Nat → Nat) (bs : Nat → List Byte) (L : List Nat) (s : State) : State :=
  L.foldl (fun t l => storeKey (e l) t (key l) (bs l)) s

theorem storeKey_short {w : Late} {k : Nat} {b : List Byte} (h : b.length < 32) : storeKey w s k b =
    { keepWrite w s (keysFrom k b.length) with mem := putBytes s.mem k b } := by
  unfold storeKey clearPoison
  rw [if_pos h]

theorem storeAll_frame (h : ∀ l, (bs l).length < 32) : storeAll e key bs L s =
    { s with mem := (storeAll e key bs L s).mem, late := (storeAll e key bs L s).late
             writes := (storeAll e key bs L s).writes } := by
  induction L generalizing s with
  | nil => rfl
  | cons l L ih =>
    have hs := ih (s := storeKey (e l) s (key l) (bs l))
    rw [storeKey_short (h l)] at hs
    unfold storeAll at hs ⊢
    rw [List.foldl_cons, storeKey_short (h l)]
    exact hs

theorem byteAt_storeAll_out {a : Nat} (h : ∀ l ∈ L, ¬ (key l ≤ a ∧ a < key l + (bs l).length)) :
    byteAt (storeAll e key bs L s).mem a = byteAt s.mem a := by
  induction L generalizing s with
  | nil => rfl
  | cons l L ih =>
    obtain ⟨hl, hL⟩ := List.forall_mem_cons.mp h
    refine (ih (s := storeKey (e l) s (key l) (bs l)) hL).trans ?_
    show byteAt (putBytes s.mem (key l) (bs l)) a = _
    rw [byteAt_putBytes, if_neg hl]

/-- Where several lanes write a byte, the last one's stands. -/
theorem byteAt_storeAll {K : List Nat} {l j : Nat} (hj : j < (bs l).length)
    (h : ∀ x ∈ K, ¬ (key x ≤ key l + j ∧ key l + j < key x + (bs x).length)) :
    byteAt (storeAll e key bs (L ++ l :: K) s).mem (key l + j) = (bs l).getD j 0 := by
  have hsplit : storeAll e key bs (L ++ l :: K) s =
      storeAll e key bs K (storeKey (e l) (storeAll e key bs L s) (key l) (bs l)) := by
    unfold storeAll
    rw [List.foldl_append, List.foldl_cons]
  rw [hsplit, byteAt_storeAll_out h]
  show byteAt (putBytes (storeAll e key bs L s).mem (key l) (bs l)) (key l + j) = _
  rw [byteAt_putBytes, if_pos ⟨by omega, by omega⟩, Nat.add_sub_cancel_left]

theorem storeKey_late (w : Late) (k : Nat) (b : List Byte) : (storeKey w s k b).late =
    { w with id := s.writes, bytes := (keysFrom k b.length).map (fun k => (k, byteAt s.mem k)) } :: s.late := by
  unfold storeKey clearPoison
  split <;> rfl

theorem exists_late_storeKey {w : Late} {k : Nat} {b : List Byte} : ∃ x ∈ (storeKey w s k b).late, x.whole = w.whole ∧
    x.by_ = w.by_ ∧ x.bytes.map (fun y => y.1) = keysFrom k b.length := by
  rw [storeKey_late]
  refine ⟨_, List.mem_cons_self, rfl, rfl, ?_⟩
  rw [List.map_map]
  exact List.map_id' _

theorem mem_late_storeAll {w : Late} (h : w ∈ s.late) : w ∈ (storeAll e key bs L s).late := by
  induction L generalizing s with
  | nil => exact h
  | cons l L ih =>
    exact ih (s := storeKey (e l) s (key l) (bs l)) (by rw [storeKey_late]; exact List.mem_cons_of_mem _ h)

/-- Each lane's store is one write of its own bytes. -/
theorem exists_late_storeAll {l : Nat} (hl : l ∈ L) : ∃ w ∈ (storeAll e key bs L s).late, w.whole = (e l).whole ∧
    w.by_ = (e l).by_ ∧ w.bytes.map (fun x => x.1) = keysFrom (key l) (bs l).length := by
  induction L generalizing s with
  | nil => cases hl
  | cons x L ih =>
    cases hl with
    | tail _ hl => exact ih (s := storeKey (e x) s (key x) (bs x)) hl
    | head =>
      obtain ⟨w, hw, hends⟩ := exists_late_storeKey (w := e l) (s := s) (k := key l) (b := bs l)
      exact ⟨w, mem_late_storeAll (L := L) hw, hends⟩

end

/-! The bytes of a lane store (R169). -/

theorem getD_natLE {v n j : Nat} (hj : j < n) : (natLE v n).getD j 0 = BitVec.ofNat 8 (v / 256 ^ j) := by
  induction n generalizing v j with
  | zero => omega
  | succ n ih =>
    cases j with
    | zero => rw [Nat.pow_zero, Nat.div_one]; rfl
    | succ j =>
      show (natLE (v / 256) n).getD j 0 = _
      rw [ih (by omega), Nat.div_div_eq_div_mul, Nat.pow_succ']

theorem length_flatMap_range {α : Type} {f : Nat → List α} {e : Nat} (h : ∀ j, (f j).length = e) (n : Nat) :
    ((List.range n).flatMap f).length = n * e := by
  rw [List.length_flatMap, List.map_congr_left (fun j _ => h j), List.map_const', List.length_range, List.sum_replicate]
  rfl

/-- The j-th of lists of one length put one after another. -/
theorem getD_flatMap_range {α : Type} {f : Nat → List α} {e : Nat} (h : ∀ j, (f j).length = e) {n j : Nat} (hj : j < n * e)
    (x : α) : ((List.range n).flatMap f).getD j x = (f (j / e)).getD (j % e) x := by
  induction n with
  | zero => omega
  | succ n ih =>
    rw [List.range_succ, List.flatMap_append, List.flatMap_singleton]
    have hlen := length_flatMap_range h n
    by_cases hlt : j < n * e
    · rw [List.getD_append _ _ _ _ (by rw [hlen]; exact hlt), ih hlt]
    · rw [List.getD_append_right _ _ _ _ (by rw [hlen]; omega), hlen]
      rw [Nat.succ_mul] at hj
      have hdiv : j / e = n := Nat.div_eq_of_lt_le (by omega) (by rw [Nat.succ_mul]; exact hj)
      have hmod : j % e = j - n * e := by
        have := Nat.div_add_mod j e
        rw [hdiv, Nat.mul_comm] at this
        omega
      rw [hdiv, hmod]

theorem length_storeBytes (s : State) (size regs : Nat) (d : BitVec 6) (l : Nat) :
    (storeBytes s size regs d l).length = regs * (size / regs) :=
  length_flatMap_range (fun _ => natLE_length ..) regs

theorem getD_storeBytes (s : State) {size regs j : Nat} (d : BitVec 6) (l : Nat) (hpos : 0 < size / regs)
    (hj : j < regs * (size / regs)) : (storeBytes s size regs d l).getD j 0 =
      BitVec.ofNat 8 ((xget s l (d.toNat + j / (size / regs))).toNat / 256 ^ (j % (size / regs))) := by
  unfold storeBytes
  rw [getD_flatMap_range (fun _ => natLE_length ..) hj, getD_natLE (Nat.mod_lt _ hpos)]

/-! The lane stores. -/

theorem withRelease_ok {body : Past → State → Res} {s t : State} (h : body (releaseNow s).1 (releaseNow s).2 = .ok t) :
    withRelease body s = .ok t := by
  unfold withRelease
  rw [h]

/-- An access that traps releases nothing (R134). -/
theorem withRelease_trap {body : Past → State → Res} {s t : State} {c : Byte} {v pc : DWord}
    (h : body (releaseNow s).1 (releaseNow s).2 = .trap c v pc t) : withRelease body s = .trap c v pc s := by
  unfold withRelease
  rw [h]

/-- How a lane store ends: with its bytes written, or with the trap of the lowest lane that fails a check. -/
def StoreEnds (i : Instr) (s : State) (size regs : Nat) (d : BitVec 6) (m : MForm) : Prop :=
  (∀ key : Nat → Nat, (∀ l, takesPart s l → checkAccess s needW (mAddr s m l) size = .ok (key l)) →
    ∃ t, exec i s = .next t ∧ t = { retired (issued i s) with mem := t.mem, late := t.late, writes := t.writes } ∧
      KeptOutside s t (fun a => ∃ l, takesPart s l ∧ key l ≤ a ∧ a < key l + size) ∧
      (∀ l, takesPart s l → ∀ j < size,
        (∀ x, takesPart s x → l < x → ¬ (key x ≤ key l + j ∧ key l + j < key x + size)) →
        byteAt t.mem (key l + j) =
          BitVec.ofNat 8 ((xget s l (d.toNat + j / (size / regs))).toNat / 256 ^ (j % (size / regs)))) ∧
      ∀ l, takesPart s l → ∃ e ∈ t.late, e.whole = true ∧
        e.by_ = .lane (.warp s.w.id) (oneLane l) s.sp.active (coreOf s) s.ctx.id ∧
        e.bytes.map (fun x => x.1) = keysFrom (key l) size) ∧
  (∀ l c, takesPart s l → (∀ x < l, takesPart s x → ∃ key, checkAccess s needW (mAddr s m x) size = .ok key) →
    checkAccess s needW (mAddr s m l) size = .bad c →
    exec i s = .next (trapped (issued i s) c (BitVec.ofNat 64 (mAddr s m l)) s.sp.pc))

section
variable {i : Instr} {s u : State} {size regs : Nat} {d : BitVec 6} {m : MForm} {key : Nat → Nat} {rel : Option Past}

/-- A machine at an instruction's issue, with releases perhaps noted: what is known of the writes aside, it is as issued. -/
def Noted (i : Instr) (s u : State) : Prop := u = { issued i s with late := u.late, writes := u.writes }

theorem noted_issued (i : Instr) (s : State) : Noted i s (issued i s) := rfl
theorem noted_released (i : Instr) (s : State) : Noted i s (releaseNow (issued i s)).2 := rfl

theorem walk_noted (h : Noted i s u) (va : Nat) (lvs : List WalkLevel) (table : Nat) :
    walk u va lvs table = walk s va lvs table := by
  induction lvs generalizing table with
  | nil => rfl
  | cons lv rest ih =>
    simp only [walk, ih]
    rw [h]
    rfl

theorem translate_noted (h : Noted i s u) (va : Nat) : translate u va = translate s va := by
  simp only [translate, walk_noted h]
  rw [h]
  rfl

theorem checkAccess_noted (h : Noted i s u) (n : Need) (va size : Nat) : checkAccess u n va size = checkAccess s n va size := by
  simp only [checkAccess, translate_noted h]

/-- What a lane's store writes, as a write of its own. -/
def laneWriteOf (u : State) (m : MForm) (rel : Option Past) (l : Nat) : Late :=
  { laneWrite u (oneLane l) (mAddr u m l) with rel := rel, rmw := false }

theorem storeBody_ok (h : Noted i s u)
    (hkey : ∀ l, takesPart s l → checkAccess s needW (mAddr s m l) size = .ok (key l)) : storeBody size regs d m rel u =
      .ok (storeAll (laneWriteOf u m rel) key (storeBytes u size regs d) (lanesOf (partMask u)) u) := by
  refine laneAccess_ok (fun l hl => ?_)
  have haddr : mAddr u m = mAddr s m := by rw [h]; rfl
  have htakes : takesPart u = takesPart s := by rw [h]; rfl
  rw [checkAccess_noted h, haddr]
  exact hkey l (htakes ▸ hl)

theorem storeBody_bad (h : Noted i s u) {l : Nat} {c : Byte} (hl : takesPart s l)
    (hlow : ∀ x < l, takesPart s x → ∃ key, checkAccess s needW (mAddr s m x) size = .ok key)
    (hbad : checkAccess s needW (mAddr s m l) size = .bad c) :
    storeBody size regs d m rel u = .trap c (BitVec.ofNat 64 (mAddr s m l)) s.sp.pc u := by
  have haddr : mAddr u m = mAddr s m := by rw [h]; rfl
  have hpc : u.sp.pc = s.sp.pc := by rw [h]; rfl
  have htakes : takesPart u = takesPart s := by rw [h]; rfl
  rw [← haddr, ← hpc]
  refine laneAccess_bad (by rw [htakes]; exact hl) (fun x hx hp => ?_) (by rw [checkAccess_noted h, haddr]; exact hbad)
  rw [checkAccess_noted h, haddr]
  rw [htakes] at hp
  exact hlow x hx hp

/-- A store whose body, at its issue or after a release, writes each lane's bytes. -/
theorem lane_store {body : State → Res} (hx : exec i s = run i body s) (hu : Noted i s u) (hsize : regs * (size / regs) = size)
    (hpos : 0 < size) (hshort : size < 32) (hok : ∀ t, storeBody size regs d m rel u = .ok t → body (issued i s) = .ok t)
    (hbad : ∀ c v pc, storeBody size regs d m rel u = .trap c v pc u → body (issued i s) = .trap c v pc (issued i s))
    (hi : Issues i s) : StoreEnds i s size regs d m := by
  have hlen : ∀ l, (storeBytes u size regs d l).length = size := fun l => (length_storeBytes u size regs d l).trans hsize
  have hlanes : ∀ l, l ∈ lanesOf (partMask u) ↔ takesPart s l := fun l => by rw [hu]; exact takesPart_iff.symm
  have heach : 0 < size / regs := Nat.pos_of_ne_zero (fun h => by rw [h, Nat.mul_zero] at hsize; omega)
  refine ⟨fun key hkey => ?_, fun l c hl hlow hc => hx.trans (run_trap hi (hbad _ _ _ (storeBody_bad hu hl hlow hc)))⟩
  have hframe := storeAll_frame (e := laneWriteOf u m rel) (key := key) (bs := storeBytes u size regs d)
    (L := lanesOf (partMask u)) (s := u) (fun l => by rw [hlen]; exact hshort)
  have hbody := hok _ (storeBody_ok hu hkey)
  refine ⟨retired (storeAll (laneWriteOf u m rel) key (storeBytes u size regs d) (lanesOf (partMask u)) u), ?_, ?_, ?_, ?_, ?_⟩
  · rw [hx, run_eq hi, hbody]
    refine congrArg Host.Outcome.next (finish_ok_of_splits hi ?_ ?_ ?_)
    · rw [hframe, hu]
    · rw [hframe, hu]; rfl
    · rw [hframe, hu]; rfl
  · rw [hframe, hu]
    rfl
  · intro a ha
    refine (byteAt_storeAll_out (fun l hl hin => ha ⟨l, (hlanes l).mp hl, ?_⟩)).trans (by rw [hu]; rfl)
    rw [hlen] at hin
    exact hin
  · intro l hl j hj hlast
    obtain ⟨L, K, hLK, -⟩ := lanesOf_split ((hlanes l).mpr hl)
    have hgt : ∀ x ∈ K, l < x := fun x hx => by
      have hsorted : (lanesOf (partMask u)).Pairwise (· < ·) := List.Pairwise.filter _ List.pairwise_lt_range
      rw [hLK, List.pairwise_append, List.pairwise_cons] at hsorted
      exact hsorted.2.1.1 x hx
    show byteAt (storeAll _ _ _ (lanesOf (partMask u)) u).mem _ = _
    rw [hLK, byteAt_storeAll (by rw [hlen]; exact hj) (fun x hx => ?_), getD_storeBytes u d l heach (by rw [hsize]; exact hj)]
    · rw [hu]; rfl
    · rw [hlen]
      exact hlast x ((hlanes x).mp (hLK ▸ List.mem_append_right _ (List.mem_cons_of_mem _ hx))) (hgt x hx)
  · intro l hl
    obtain ⟨w, hw, hwhole, hby, hbytes⟩ := exists_late_storeAll (e := laneWriteOf u m rel) (key := key)
      (bs := storeBytes u size regs d) (s := u) ((hlanes l).mpr hl)
    refine ⟨w, hw, hwhole, hby.trans ?_, by rw [hbytes, hlen]⟩
    rw [hu]
    rfl

/-- The stores that release nothing. -/
theorem plain_store (hx : exec i s = run i (storeBody size regs d m none) s) (hsize : regs * (size / regs) = size)
    (hpos : 0 < size) (hshort : size < 32) (hi : Issues i s) : StoreEnds i s size regs d m :=
  lane_store hx (noted_issued i s) hsize hpos hshort (fun _ h => h) (fun _ _ _ h => h) hi

end

/-- Settles O28: the lanes' writes come one after another, in ascending order. -/
theorem laneStores : Obligations.LaneStores := by
  unfold Obligations.LaneStores
  intro s d i k la q e addr forms f hf hi
  suffices hends : StoreEnds f.1 s f.2.1 f.2.2 d (mform i k q e) from hends
  simp only [forms, List.mem_cons, List.not_mem_nil, or_false] at hf
  obtain rfl | rfl | rfl | rfl | rfl | rfl := hf
  · exact plain_store (size := 1) (regs := 1) rfl rfl (by decide) (by decide) hi
  · exact plain_store (size := 2) (regs := 1) rfl rfl (by decide) (by decide) hi
  · exact plain_store (size := 4) (regs := 1) rfl rfl (by decide) (by decide) hi
  · exact plain_store (size := 8) (regs := 2) rfl rfl (by decide) (by decide) hi
  · exact plain_store (size := 16) (regs := 4) rfl rfl (by decide) (by decide) hi
  · exact lane_store (size := 4) (regs := 1) rfl (noted_released _ _) rfl (by decide) (by decide)
      (fun _ h => withRelease_ok h) (fun _ _ _ h => withRelease_trap h) hi

end Sys2Proof.Machine
end

section
/-! PROOFS. The atomics and reductions to memory (R172 to R174). -/

namespace Sys2Proof.Machine

/-! What an atomic step changes (R172, R174). -/

/-- The issuing split and the other splits of its warp are as they were. -/
def SameSplits (s t : State) : Prop := t.sp = s.sp ∧ t.w.splits = s.w.splits ∧ t.w.overflow = s.w.overflow

section
variable {s t u : State}

theorem SameSplits.refl (s : State) : SameSplits s s := ⟨rfl, rfl, rfl⟩

theorem SameSplits.trans (h : SameSplits s t) (h' : SameSplits t u) : SameSplits s u := by
  obtain ⟨hsp, hs, ho⟩ := h
  obtain ⟨hsp', hs', ho'⟩ := h'
  exact ⟨hsp'.trans hsp, hs'.trans hs, ho'.trans ho⟩

theorem SameSplits.foldl {α : Type} {f : State → α → State} (hf : ∀ t x, SameSplits t (f t x)) (xs : List α) (s : State) :
    SameSplits s (xs.foldl f s) := by
  induction xs generalizing s with
  | nil => exact .refl s
  | cons x xs ih => exact (hf s x).trans (ih (f s x))

theorem LateOnly.sameSplits (h : LateOnly s t) : SameSplits s t := by
  rw [h]
  exact .refl s

theorem LanesOnly.sameSplits (h : LanesOnly s t) : SameSplits s t := by
  rw [h]
  exact .refl s

theorem storeKey_sameSplits (w : Late) (k : Nat) (b : List Byte) : SameSplits s (storeKey w s k b) := by
  rw [storeKey_eq]
  exact .refl s

theorem readHome_lateOnly (ks : List Nat) : LateOnly s (readHome s ks) := readHome_eq s ks

end

section
variable {s t : State} {p : Past} {l va key size : Nat} {bs : List Byte}

/-- What an atomic step acquires from its location. -/
def homeRead (t : State) (ks : List Nat) : State :=
  acquire (acquireReads t (ks.filterMap (fun k => (newestSeen (fun _ => true) k t.late).map (fun n => (n, k)))))
    (ks.flatMap (fun k => releasesOf k t.late))

theorem homeRead_lateOnly (ks : List Nat) : LateOnly t (homeRead t ks) :=
  (acquireReads_lateOnly _).trans (acquire_lateOnly _)

theorem homeStep_some (s : State) (p : Past) (l va key : Nat) (bs : List Byte) (size : Nat) (t : State) :
    homeStep s p l va key (some bs) size t =
      readHome (laneStore s (some p) true (oneLane l) va key bs (homeRead t (keysFrom key size))) (keysFrom key size) := rfl

theorem homeStep_none (s : State) (p : Past) (l va key size : Nat) (t : State) :
    homeStep s p l va key none size t = readHome (homeRead t (keysFrom key size)) (keysFrom key size) := rfl

theorem homeStep_sameSplits (b : Option (List Byte)) : SameSplits t (homeStep s p l va key b size t) := by
  cases b with
  | none => exact ((homeRead_lateOnly _).trans (readHome_lateOnly _)).sameSplits
  | some bs =>
    exact ((homeRead_lateOnly _).sameSplits.trans (storeKey_sameSplits ..)).trans (readHome_lateOnly _).sameSplits

/-- Bytes are stored, and nothing changes but what is known of the writes. -/
def Kept (t : State) (key : Nat) (bs : List Byte) (u : State) : Prop :=
  u = { t with mem := putBytes t.mem key bs, late := u.late, writes := t.writes + 1 }

theorem kept_storeKey {w : Late} (h : bs.length < 32) : Kept t key bs (storeKey w t key bs) := by
  rw [storeKey_short h]
  rfl

theorem kept_homeStep (h : bs.length < 32) : Kept t key bs (homeStep s p l va key (some bs) size t) := by
  have hread := homeRead_lateOnly (t := t) (keysFrom key size)
  rw [homeStep_some]
  generalize homeRead t (keysFrom key size) = u at hread
  have hstore : Kept u key bs (laneStore s (some p) true (oneLane l) va key bs u) := kept_storeKey h
  generalize laneStore s (some p) true (oneLane l) va key bs u = v at hstore
  rw [readHome_eq, hstore, hread]
  rfl

theorem homeStep_none_lateOnly : LateOnly t (homeStep s p l va key none size t) :=
  (homeRead_lateOnly _).trans (readHome_lateOnly _)

theorem redStore_sameSplits (new : Nat → Nat) : SameSplits t (redStore s size l va key new t) := by
  obtain h | ⟨newer, e, older, -, -, -, -, h⟩ := redStore_cases s size l va key new t
  · rw [h]
    exact storeKey_sameSplits ..
  · rw [h]
    exact .refl t

theorem atomReturn_lanesOnly (ty d old a : Nat) : LanesOnly t (atomReturn t ty l d old key a) := by
  unfold atomReturn
  split
  · exact (LanesOnly.loadReg ..).trans (LanesOnly.loadReg ..)
  · exact LanesOnly.loadReg ..

end

section
variable {i : Instr} {s u : State}

theorem laneWrite_noted (h : Noted i s u) (lanes : Mask) (va : Nat) : laneWrite u lanes va = laneWrite s lanes va := by
  have huo : uoAt u va = uoAt s va := by simp only [uoAt, translate_noted h]
  have hso : soAt u va = soAt s va := by simp only [soAt, translate_noted h]
  unfold laneWrite
  rw [huo, hso, h]
  rfl

theorem homeStep_noted (h : Noted i s u) (p : Past) (l va key : Nat) (b : Option (List Byte)) (size : Nat) (t : State) :
    homeStep u p l va key b size t = homeStep s p l va key b size t := by
  cases b with
  | none => rfl
  | some bs => rw [homeStep_some, homeStep_some, laneStore, laneStore, laneWrite_noted h]

end

/-! The atomics and reductions. -/

/-- How an atomic ends: its lanes act one after another from a state on, or the lowest lane that fails a check traps. -/
def AtomicEnds (i : Instr) (s : State) (size : Nat) (m : MForm) (base : State) (step : Nat → Nat → State → State) : Prop :=
  (∀ key : Nat → Nat, (∀ l, takesPart s l → checkAccess s needAtomic (mAddr s m l) size = .ok (key l)) →
    exec i s = .next (retired ((lanesOf (partMask s)).foldl (fun t l => step l (key l) t) base))) ∧
  (∀ l c, takesPart s l → (∀ x < l, takesPart s x → ∃ key, checkAccess s needAtomic (mAddr s m x) size = .ok key) →
    checkAccess s needAtomic (mAddr s m l) size = .bad c →
    exec i s = .next (trapped (issued i s) c (BitVec.ofNat 64 (mAddr s m l)) s.sp.pc))

section
variable {i : Instr} {s u : State} {size : Nat} {m : MForm} {step : Nat → Nat → State → State}

theorem lane_atomic {body : State → Res} (hx : exec i s = run i body s) (hu : Noted i s u)
    (hok : ∀ t, laneAccess needAtomic size m step u = .ok t → body (issued i s) = .ok t)
    (hbad : ∀ c v pc, laneAccess needAtomic size m step u = .trap c v pc u → body (issued i s) = .trap c v pc (issued i s))
    (hstep : ∀ l key t, SameSplits t (step l key t)) (hi : Issues i s) : AtomicEnds i s size m u step := by
  have haddr : mAddr u m = mAddr s m := by rw [hu]; rfl
  have hpc : u.sp.pc = s.sp.pc := by rw [hu]; rfl
  have htakes : takesPart u = takesPart s := by rw [hu]; rfl
  have hmask : partMask u = partMask s := by rw [hu]; rfl
  refine ⟨fun key hkey => ?_, fun l c hl hlow hc => hx.trans (run_trap hi (hbad _ _ _ ?_))⟩
  · have hall := laneAccess_ok (s := u) (f := step) (m := m) (n := needAtomic) (size := size) (key := key)
      (fun l hl => by rw [checkAccess_noted hu, haddr]; exact hkey l (htakes ▸ hl))
    obtain ⟨hsp, hs, ho⟩ := SameSplits.foldl (f := fun t l => step l (key l) t) (fun t l => hstep l (key l) t)
      (lanesOf (partMask s)) u
    rw [hmask] at hall
    rw [hx, run_eq hi, hok _ hall]
    refine congrArg Host.Outcome.next (finish_ok_of_splits hi (hsp.trans ?_) (hs.trans ?_) (ho.trans ?_))
    · rw [hu]
    · rw [hu]; rfl
    · rw [hu]; rfl
  · rw [← haddr, ← hpc]
    refine laneAccess_bad (by rw [htakes]; exact hl) (fun x hx hp => ?_) (by rw [checkAccess_noted hu, haddr]; exact hc)
    rw [checkAccess_noted hu, haddr]
    rw [htakes] at hp
    exact hlow x hx hp

/-- An atomic that begins with a release. -/
theorem released_atomic {body : State → Res} {access : Past → State → Res} (hx : exec i s = run i body s)
    (hb : body (issued i s) = withRelease access (issued i s))
    (ha : access (pastNow s) = laneAccess needAtomic size m step) (hstep : ∀ l key t, SameSplits t (step l key t))
    (hi : Issues i s) : AtomicEnds i s size m (releaseNow (issued i s)).2 step :=
  lane_atomic hx (noted_released i s) (fun _ h => hb.trans (withRelease_ok (by rw [← h, ← ha]; rfl)))
    (fun _ _ _ h => hb.trans (withRelease_trap (by rw [← h, ← ha]; rfl))) hstep hi

/-- A lane's step of an atomic (R172). -/
def atomStep (f : AtomOp) (d : BitVec 6) (m : MForm) (s : State) (p : Past) (l key : Nat) (u : State) : State :=
  let t := modeType s.w.mode
  let old := readKey u key (atomSize s)
  let new := f (typeSigned t) (8 * atomSize s) old (xread s t l d.toNat)
  atomReturn (homeStep s p l (mAddr s m l) key (some (natLE new (atomSize s))) (atomSize s) u) t l d.toNat old key
    (mAddr s m l)

theorem atomBody_eq (f : AtomOp) (d : BitVec 6) (m : MForm) (s : State) : atomBody f d m s =
    withRelease (fun p => laneAccess needAtomic (atomSize s) m (atomStep f d m s p)) s := rfl

/-- The atomics of R172. -/
theorem atom_ends {f : AtomOp} {g : Nat → Nat → Nat} {d : BitVec 6} (hx : exec i s = run i (atomBody f d m) s)
    (hg : ∀ o v, f (typeSigned (modeType s.w.mode)) (8 * atomSize s) o v = g o v) (hi : Issues i s) :
    AtomicEnds i s (atomSize s) m (releaseNow (issued i s)).2 (fun l key t =>
      atomReturn (homeStep (releaseNow (issued i s)).2 (pastNow s) l (mAddr s m l) key
          (some (natLE (g (readKey t key (atomSize s)) (xread s (modeType s.w.mode) l d.toNat)) (atomSize s))) (atomSize s) t)
        (modeType s.w.mode) l d.toNat (readKey t key (atomSize s)) key (mAddr s m l)) := by
  refine released_atomic hx (atomBody_eq ..) ?_ (fun l key t => (homeStep_sameSplits _).trans (atomReturn_lanesOnly ..).sameSplits) hi
  refine congrArg (laneAccess needAtomic (atomSize s) m) (funext fun l => funext fun key => funext fun t => ?_)
  unfold atomStep
  dsimp only
  rw [homeStep_noted (noted_released i s), homeStep_noted (noted_issued i s), ← hg]
  rfl

/-- ATCAS (R173). -/
theorem cas_ends {d : BitVec 6} (hx : exec i s = run i (casBody d m) s) (hi : Issues i s) :
    AtomicEnds i s 4 m (releaseNow (issued i s)).2 (fun l key t =>
      loadReg (homeStep (releaseNow (issued i s)).2 (pastNow s) l (mAddr s m l) key
          (if readKey t key 4 = (xget s l d.toNat).toNat then some (natLE (xget s l (d.toNat + 1)).toNat 4) else none) 4 t)
        l d.toNat (BitVec.ofNat 32 (readKey t key 4)) (poisonedRange t key 4) (mAddr s m l)) := by
  refine released_atomic hx rfl ?_ (fun l key t => (homeStep_sameSplits _).trans (LanesOnly.loadReg ..).sameSplits) hi
  refine congrArg (laneAccess needAtomic 4 m) (funext fun l => funext fun key => funext fun t => ?_)
  dsimp only
  rw [homeStep_noted (noted_released i s), homeStep_noted (noted_issued i s)]
  rfl

/-- The reductions of R174, which release nothing: their lanes act on the machine as the issue leaves it. -/
theorem red_ends {body : State → Res} {new : State → Nat → Nat → Nat} {g : Nat → Nat → Nat} (hx : exec i s = run i body s)
    (hb : body (issued i s) = redBody size m new (issued i s)) (hg : ∀ o l, new (issued i s) o l = g o l) (hi : Issues i s) :
    AtomicEnds i s size m (id (issued i s)) (fun l key t =>
      redStore (id (issued i s)) size l (mAddr s m l) key (fun o => g o l) t) := by
  rw [id]
  refine lane_atomic hx (noted_issued i s) (fun _ h => ?_) (fun _ _ _ h => ?_) (fun l key t => redStore_sameSplits _) hi
  · rw [hb, ← h]
    simp only [← hg]
    rfl
  · rw [hb, ← h]
    simp only [← hg]
    rfl

theorem reda_ends {d : BitVec 6} (hx : exec i s = run i (fun s => redBody (atomSize s) m (fun s old l =>
      atAdd true (8 * atomSize s) old (xread s (modeType s.w.mode) l d.toNat)) s) s) (hi : Issues i s) :
    AtomicEnds i s (atomSize s) m (id (issued i s)) (fun l key t => redStore (id (issued i s)) (atomSize s) l (mAddr s m l) key
      (fun o => (o + xread s (modeType s.w.mode) l d.toNat) % 2 ^ (8 * atomSize s)) t) :=
  red_ends (g := fun o l => (o + xread s (modeType s.w.mode) l d.toNat) % 2 ^ (8 * atomSize s)) hx rfl (fun _ _ => rfl) hi

theorem redaf_ends {d : BitVec 6}
    (hx : exec i s = run i (redBody 4 m (fun s old l => redafWord s old (xget s l d.toNat).toNat)) s) (hi : Issues i s) :
    AtomicEnds i s 4 m (id (issued i s)) (fun l key t => redStore (id (issued i s)) 4 l (mAddr s m l) key
      (fun o => redafWord s o (xget s l d.toNat).toNat) t) :=
  red_ends (g := fun o l => redafWord s o (xget s l d.toNat).toNat) hx rfl (fun _ _ => rfl) hi

end

section
variable {s t : State} {l : Nat}

/-- What a reduction passes over (R299, R322). -/
theorem overtaken_spec {ks : List Nat} {n : Nat} {f : Late} (h : Late.overtaken t l ks n f = true) :
    f.rmw = false ∧ f.so = false ∧ f.received (pastNow t) true = [] ∧
      ∀ k ∈ ks, (f.oldAt k).isSome = true ∧ f.sees t (laneReaderOf t (some l)) k = false := by
  simp only [Late.overtaken, Bool.and_eq_true, List.all_eq_true, Bool.not_eq_true', List.isEmpty_iff] at h
  obtain ⟨⟨⟨⟨hall, hrmw⟩, hso⟩, hrec⟩, -⟩ := h
  exact ⟨hrmw, hso, hrec, hall⟩

theorem loadReg_clean (s : State) (l r : Nat) (v : Word) (a : Nat) : loadReg s l r v false a = xset s l r v := rfl

theorem poisonedRange_le {key size n : Nat} (hn : n ≤ size) (h : poisonedRange t key size = false) :
    poisonedRange t key n = false := by
  unfold poisonedRange at h ⊢
  rw [List.any_eq_false] at h ⊢
  exact fun i hi => h i (List.mem_range.mpr (lt_of_lt_of_le (List.mem_range.mp hi) hn))

theorem poisonedRange_add {key size n k : Nat} (hn : k + n ≤ size) (h : poisonedRange t key size = false) :
    poisonedRange t (key + k) n = false := by
  unfold poisonedRange at h ⊢
  rw [List.any_eq_false] at h ⊢
  intro i hi
  rw [Nat.add_assoc]
  exact h (k + i) (List.mem_range.mpr (by have := List.mem_range.mp hi; omega))

/-- An atomic that reads nothing poisoned returns the old value (R172). -/
theorem atomReturn_clean {ty old key a d : Nat} (h : poisonedRange t key (if type64 ty then 8 else 4) = false) :
    atomReturn t ty l d old key a = xwrite t ty l d old := by
  unfold atomReturn
  rw [xwrite_eq]
  split
  next h64 =>
    rw [if_pos h64] at h
    rw [poisonedRange_le (by omega) h, poisonedRange_add (by omega) h, loadReg_clean, loadReg_clean]
    have hlow : (BitVec.ofNat 64 old).extractLsb' 0 32 = BitVec.ofNat 32 old := by
      apply BitVec.eq_of_toNat_eq
      simp only [BitVec.extractLsb'_toNat, BitVec.toNat_ofNat, Nat.shiftRight_zero]
      omega
    have hhigh : (BitVec.ofNat 64 old).extractLsb' 32 32 = BitVec.ofNat 32 (old / 2 ^ 32) := by
      apply BitVec.eq_of_toNat_eq
      simp only [BitVec.extractLsb'_toNat, BitVec.toNat_ofNat, Nat.shiftRight_eq_div_pow]
      omega
    rw [hlow, hhigh]
  next h64 =>
    rw [if_neg h64] at h
    rw [h, loadReg_clean]

end

/-- Settles O29: each lane acts on what the lanes below it have left. -/
theorem atomics : Obligations.Atomics := by
  unfold Obligations.Atomics
  intro s d i k la q e ty wide sg addr operand forms kept acts release p
  refine ⟨?_, fun hi => cas_ends rfl hi, fun hi => reda_ends rfl hi,
    fun hi => redaf_ends rfl hi, ?_, ?_, fun t l old key a h => atomReturn_clean h⟩
  · intro f hf hi
    suffices hends : AtomicEnds f.1 s (atomSize s) (mform i k q e) (releaseNow (issued f.1 s)).2 (fun l key t =>
      atomReturn (homeStep (releaseNow (issued f.1 s)).2 (pastNow s) l (mAddr s (mform i k q e) l) key
          (some (natLE (f.2 (readKey t key (atomSize s)) (xread s (modeType s.w.mode) l d.toNat)) (atomSize s))) (atomSize s) t)
        (modeType s.w.mode) l d.toNat (readKey t key (atomSize s)) key (mAddr s (mform i k q e) l)) from hends
    simp only [forms, List.mem_cons, List.not_mem_nil, or_false] at hf
    obtain rfl | rfl | rfl | rfl | rfl | rfl | rfl := hf
    · exact atom_ends (f := atAdd) rfl (fun _ _ => rfl) hi
    · exact atom_ends (f := atMin) rfl (fun _ _ => rfl) hi
    · exact atom_ends (f := atMax) rfl (fun _ _ => rfl) hi
    · exact atom_ends (f := atAnd) rfl (fun _ _ => rfl) hi
    · exact atom_ends (f := atOr) rfl (fun _ _ => rfl) hi
    · exact atom_ends (f := atXor) rfl (fun _ _ => rfl) hi
    · exact atom_ends (f := atXch) rfl (fun _ _ => rfl) hi
  · intro size l va key new t ks w
    obtain h | ⟨newer, e, older, hlate, he, -, hover, h⟩ := redStore_cases s size l va key new t
    · exact .inl h
    · exact .inr ⟨newer, e, older, hlate, he, fun f hf ht => overtaken_spec (hover f hf ht), h⟩
  · exact fun rel rmw lanes l va key size bs t h => ⟨kept_homeStep h, kept_storeKey h, homeStep_none_lateOnly⟩

end Sys2Proof.Machine
end

section
/-! PROOFS. The uniform loads and stores, and the order of the access checks (R167, R171). -/

namespace Sys2Proof.Machine

/-! The uniform loads and stores (R171). -/

/-- An instruction that acts once and raises a trap there. -/
theorem once_trap {i : Instr} {s : State} {body : State → Res} {c : Byte} {v pc : DWord}
    (he : exec i s = run i (fun s => once s body) s) (hb : body (issued i s) = .trap c v pc (issued i s)) :
    OnceEnds i s (fun u => trapped u c v pc) :=
  once_ends he (fun _ _ => by rw [hb]; rfl)

section
variable {s : State} {d : BitVec 6} {k : BitVec 5} {i : Instr} {key : Nat} {c : Byte}

/-- KLD's access. -/
def kldBody (d : BitVec 6) (k : BitVec 5) (s : State) : Res :=
  let a := (kget s k.toNat).toNat
  match checkAccess s needR a 8 with
  | .bad c => trapHere s c a
  | .ok key => if poisonedRange s key 8 then trapHere s cEccfatal a
               else .ok (rememberReads (kset s d.toNat (BitVec.ofNat 64 (readAs (laneReader s) s key 8)))
                 (readWrites s none (keysFrom key 8)))

/-- KST's access. -/
def kstBody (d : BitVec 6) (k : BitVec 5) (s : State) : Res :=
  let a := (kget s k.toNat).toNat
  match checkAccess s needW a 8 with
  | .bad c => trapHere s c a
  | .ok key => .ok (laneStore s none false s.sp.active a key (natLE (kget s d.toNat).toNat 8) s)

theorem poisonedRange_issued (key n : Nat) : poisonedRange (issued i s) key n = poisonedRange s key n := rfl

theorem trapHere_toNat (c : Byte) (v : DWord) : trapHere s c v.toNat = .trap c v s.sp.pc s :=
  congrArg (fun x => Res.trap c x s.sp.pc s) (BitVec.ofNat_toNat 64 v |>.trans (BitVec.setWidth_eq v))

theorem kldBody_bad (h : checkAccess s needR (kget s k.toNat).toNat 8 = .bad c) :
    kldBody d k (issued i s) = .trap c (kget s k.toNat) s.sp.pc (issued i s) := by
  unfold kldBody
  dsimp only
  rw [kget_issued, checkAccess_issued, h]
  exact trapHere_toNat ..

theorem kldBody_poisoned (h : checkAccess s needR (kget s k.toNat).toNat 8 = .ok key) (hp : poisonedRange s key 8 = true) :
    kldBody d k (issued i s) = .trap cEccfatal (kget s k.toNat) s.sp.pc (issued i s) := by
  unfold kldBody
  dsimp only
  rw [kget_issued, checkAccess_issued, h]
  dsimp only
  rw [poisonedRange_issued, if_pos hp]
  exact trapHere_toNat ..

/-- What KLD does where its datum is good. -/
def kldState (s : State) (d : BitVec 6) (key : Nat) (u : State) : State :=
  rememberReads (kset u d.toNat (BitVec.ofNat 64 (readAs (laneReader s) s key 8))) (readWrites s none (keysFrom key 8))

theorem kldBody_ok (h : checkAccess s needR (kget s k.toNat).toNat 8 = .ok key) (hp : poisonedRange s key 8 = false) :
    kldBody d k (issued i s) = .ok (kldState s d key (issued i s)) := by
  unfold kldBody
  dsimp only
  rw [kget_issued, checkAccess_issued, h]
  dsimp only
  rw [poisonedRange_issued, hp, readAs_issued, readWrites_issued]
  rfl

theorem kldState_sameSplits (u : State) : SameSplits u (kldState s d key u) :=
  SameSplits.trans ⟨kset_sp .., kset_sameSplits ..⟩ (rememberReads_lateOnly _).sameSplits

theorem kstBody_bad (h : checkAccess s needW (kget s k.toNat).toNat 8 = .bad c) :
    kstBody d k (issued i s) = .trap c (kget s k.toNat) s.sp.pc (issued i s) := by
  unfold kstBody
  dsimp only
  rw [kget_issued, checkAccess_issued, h]
  exact trapHere_toNat ..

/-- A lane store of an issued instruction, and what it makes known of the writes. -/
theorem laneStore_issued {rel : Option Past} {rmw : Bool} {lanes : Mask} {va key : Nat} {bs : List Byte}
    (h : bs.length < 32) : laneStore (issued i s) rel rmw lanes va key bs (issued i s) =
      { issued i s with mem := putBytes s.mem key bs, writes := s.writes + 1
                        late := (laneStore s rel rmw lanes va key bs s).late } := by
  unfold laneStore
  rw [laneWrite_noted (noted_issued i s), storeKey_short h, storeKey_short h]
  rfl

/-- What KST does. -/
def kstState (s : State) (d : BitVec 6) (k : BitVec 5) (key : Nat) (u : State) : State :=
  let bs := natLE (kget s d.toNat).toNat 8
  { u with mem := putBytes s.mem key bs, writes := s.writes + 1
           late := (laneStore s none false s.sp.active (kget s k.toNat).toNat key bs s).late }

theorem kstBody_ok (h : checkAccess s needW (kget s k.toNat).toNat 8 = .ok key) :
    kstBody d k (issued i s) = .ok (kstState s d k key (issued i s)) := by
  unfold kstBody
  dsimp only
  rw [kget_issued, kget_issued, checkAccess_issued, h]
  exact congrArg Res.ok (laneStore_issued (by rw [natLE_length]; decide))

theorem once_sameSplits {body : State → Res} {f : State → State} (he : exec i s = run i (fun s => once s body) s)
    (hb : body (issued i s) = .ok (f (issued i s))) (hf : ∀ u, SameSplits u (f u)) : OnceResult i s f :=
  once_result f he hb (hf (issued i s))

end

/-! The checks of one access, in order (R167, R41, R43, R370). -/

section
variable {s : State} {n : Need} {va size : Nat} {p : Place}

theorem checkAccess_far (h : 2 ^ 56 ≤ va) : checkAccess s n va size = .bad cProt := if_pos h

theorem checkAccess_unaligned (hva : va < 2 ^ 56) (h : va % size ≠ 0) : checkAccess s n va size = .bad cAlign := by
  unfold checkAccess
  rw [if_neg (Nat.not_le.mpr hva), if_pos (bne_iff_ne.mpr h)]

theorem checkAccess_aligned (hva : va < 2 ^ 56) (h : va % size = 0) : checkAccess s n va size = match translate s va with
    | .page => .bad cPage
    | .prot => .bad cProt
    | .ok p => if permits n p then .ok p.key else .bad cProt := by
  unfold checkAccess
  exact (if_neg (Nat.not_le.mpr hva)).trans (if_neg (by simp [h]))

theorem permits_false (h : (n.r = true ∧ p.r = false) ∨ (n.w = true ∧ p.w = false) ∨ p.maj = true) : permits n p = false := by
  unfold permits
  obtain ⟨hn, hp⟩ | ⟨hn, hp⟩ | hp := h
  · simp [hn, hp]
  · simp [hn, hp]
  · simp [hp]

/-- Tile memory of another partition is out of reach (R43). -/
theorem translate_otherTile (hlow : tileBase ≤ va) (hhigh : va < tileEnd) (hpart : (va - tileBase) / 0x1000000 ≠ s.ctx.part) :
    translate s va = .prot := by
  unfold translate
  have hquot : (va - tileBase) / 0x400000 / 4 = (va - tileBase) / 0x1000000 := Nat.div_div_eq_div_mul ..
  have hne : ¬ ((va - tileBase) / 0x1000000 == s.ctx.part) = true := fun h => hpart (beq_iff_eq.mp h)
  rw [hquot, if_neg (Nat.not_lt.mpr hlow), if_pos hhigh, if_neg hne, ite_self]

end

/-- Settles O30, from the laws of memory and the order in which an access is checked. -/
theorem uniformMemory : Obligations.UniformMemory := by
  unfold Obligations.UniformMemory
  refine ⟨fun s d k la => ⟨fun c h => once_trap (body := kldBody d k) rfl (kldBody_bad h),
      fun key h hp => once_trap (body := kldBody d k) rfl (kldBody_poisoned h hp),
      fun key h hp => once_sameSplits (body := kldBody d k) (f := kldState s d key) rfl (kldBody_ok h hp) kldState_sameSplits,
      fun c h => once_trap (body := kstBody d k) rfl (kstBody_bad h),
      fun key h => once_sameSplits (body := kstBody d k) (f := kstState s d k key) rfl (kstBody_ok h) (fun _ => ⟨rfl, rfl, rfl⟩)⟩,
    fun m key other size v bs => ⟨bytesAt_putBytes bs m key, fun h => byteAt_putBytes_out bs m h, leNat_natLE v size,
      natLE_length v size, wf_putBytes bs key⟩, fun s n va size => ⟨checkAccess_far, checkAccess_unaligned, ?_, ?_, ?_, ?_,
      fun p _ h => permits_false h, translate_otherTile⟩, fun d k la => ⟨?_, ?_⟩⟩
  · intro hva ha ht
    rw [checkAccess_aligned hva ha, ht]
  · intro hva ha ht
    rw [checkAccess_aligned hva ha, ht]
  · intro p hva ha ht hp
    rw [checkAccess_aligned hva ha, ht]
    exact if_neg (by rw [hp]; decide)
  · intro p hva ha ht hp
    rw [checkAccess_aligned hva ha, ht]
    exact if_pos hp
  all_goals
    refine encode_append rfl ?_
    simp only [encodeNat, toNat_append_add, -Nat.reduceAdd, BitVec.toNat_ofNat]
    omega

end Sys2Proof.Machine
end

section
/-! SUPPORT. Majority cells: what lines sent change, and what a read phase learns (R176 to R178). -/

namespace Sys2Proof.Machine

/-! The copies of majority cells: what sending a line changes (R176 to R178). -/

/-- A tag that the accept rule makes no older: a copy that held a value holds one, of a rank no lower. -/
def LineRises (s t : State) (cell : Nat) : Prop := ∀ k, (lineAt s k cell).holds = true →
  (lineAt t k cell).holds = true ∧ tagRank (lineAt s k cell).tag ≤ tagRank (lineAt t k cell).tag

/-- A copy holds a value at least as new as a line. -/
def AsNew (line c : CopyLine) : Prop := c.holds = true ∧ tagRank line.tag ≤ tagRank c.tag

section
variable {s t u : State} {cell k m : Nat} {line c : CopyLine} {ks : List Nat}

theorem accepts_iff {tag : BitVec 64} : accepts c tag = true ↔ (c.holds = true → tagRank c.tag < tagRank tag) := by
  unfold accepts
  cases c.holds <;> simp

theorem lineKey_inj (h : k ≠ m) : lineKey s k cell ≠ lineKey s m cell := by
  unfold lineKey
  omega

theorem lineAt_noteRepair : lineAt (noteRepair s cell) k m = lineAt s k m := rfl

/-- A line sent to a stack stands in its copy where the copy accepts it, and changes no other copy. -/
theorem lineAt_sendLine : lineAt (sendLine s cell line m) k cell =
    if k = m ∧ accepts (lineAt s m cell) line.tag = true then line else lineAt s k cell := by
  by_cases ha : accepts (lineAt s m cell) line.tag = true
  · have hput : lineAt (sendLine s cell line m) k cell = sget (blankLine s k)
        (sset (blankLine s m) s.majority (lineKey s m cell) line) (lineKey s k cell) := by
      rw [sendLine, if_pos ha]
      split <;> rfl
    rw [hput]
    by_cases hk : k = m
    · subst hk
      rw [sget_sset_same, if_pos ⟨rfl, ha⟩]
    · rw [if_neg (fun h => hk h.1)]
      unfold sset
      split
      · exact sget_serase_ne _ _ (lineKey_inj hk)
      · rw [sget_sinsert_ne _ _ _ (lineKey_inj hk)]
        exact sget_serase_ne _ _ (lineKey_inj hk)
  · rw [sendLine, if_neg ha, if_neg (fun h => ha h.2)]

theorem LineRises.refl (s : State) (cell : Nat) : LineRises s s cell := fun _ h => ⟨h, le_refl _⟩

theorem LineRises.trans (h : LineRises s t cell) (h' : LineRises t u cell) : LineRises s u cell := fun k hk =>
  ⟨(h' k (h k hk).1).1, le_trans (h k hk).2 (h' k (h k hk).1).2⟩

theorem AsNew.rises (hr : LineRises s t cell) (h : AsNew line (lineAt s k cell)) : AsNew line (lineAt t k cell) :=
  ⟨(hr k h.1).1, le_trans h.2 (hr k h.1).2⟩

theorem rises_sendLine (hl : line.holds = true) : LineRises s (sendLine s cell line m) cell := fun k hk => by
  rw [lineAt_sendLine]
  by_cases h : k = m ∧ accepts (lineAt s m cell) line.tag = true
  · obtain ⟨rfl, ha⟩ := h
    rw [if_pos ⟨rfl, ha⟩]
    exact ⟨hl, le_of_lt (accepts_iff.mp ha hk)⟩
  · rw [if_neg h]
    exact ⟨hk, le_refl _⟩

theorem asNew_sendLine (hl : line.holds = true) : AsNew line (lineAt (sendLine s cell line k) k cell) := by
  rw [lineAt_sendLine]
  by_cases ha : accepts (lineAt s k cell) line.tag = true
  · rw [if_pos ⟨rfl, ha⟩]
    exact ⟨hl, le_refl _⟩
  · rw [if_neg (fun h => ha h.2)]
    rw [accepts_iff] at ha
    push Not at ha
    exact ha

theorem sendAll_cons : sendAll s cell line (m :: ks) = sendAll (sendLine s cell line m) cell line ks := rfl

theorem rises_sendAll (hl : line.holds = true) : LineRises s (sendAll s cell line ks) cell := by
  induction ks generalizing s with
  | nil => exact .refl s cell
  | cons k ks ih =>
    rw [sendAll_cons]
    exact (rises_sendLine hl).trans ih

theorem asNew_sendAll (hl : line.holds = true) (hk : k ∈ ks) : AsNew line (lineAt (sendAll s cell line ks) k cell) := by
  induction ks generalizing s with
  | nil => cases hk
  | cons m ks ih =>
    rw [sendAll_cons]
    rcases List.mem_cons.mp hk with rfl | hk
    · exact (asNew_sendLine hl).rises (rises_sendAll hl)
    · exact ih hk

/-- A line sent to many stacks: each that it was sent to and whose copy accepts it has it, and no other copy changes. -/
theorem lineAt_sendAll : lineAt (sendAll s cell line ks) k cell =
    if k ∈ ks ∧ accepts (lineAt s k cell) line.tag = true then line else lineAt s k cell := by
  induction ks generalizing s with
  | nil => simp [sendAll]
  | cons m ks ih =>
    rw [sendAll_cons, ih, lineAt_sendLine]
    by_cases hkm : k = m
    · subst hkm
      by_cases ha : accepts (lineAt s k cell) line.tag = true
      · simp [ha]
      · simp [ha]
    · simp [hkm]

theorem rises_repairPoison (hl : line.holds = true) : LineRises s (repairPoison s cell line) cell := rises_sendAll hl

/-! Which stacks serve a cell. -/

theorem sendLine_hbm : (sendLine s cell line k).hbm = s.hbm := by
  unfold sendLine
  split
  · split <;> rfl
  · rfl

theorem sendLine_spares : (sendLine s cell line k).spares = s.spares := by
  unfold sendLine
  split
  · split <;> rfl
  · rfl

theorem sendLine_shape : (sendLine s cell line k).shape = s.shape := by
  unfold sendLine
  split
  · split <;> rfl
  · rfl

theorem sendAll_places : (sendAll s cell line ks).hbm = s.hbm ∧ (sendAll s cell line ks).spares = s.spares ∧
    (sendAll s cell line ks).shape = s.shape := by
  induction ks generalizing s with
  | nil => exact ⟨rfl, rfl, rfl⟩
  | cons k ks ih =>
    obtain ⟨h1, h2, h3⟩ := ih (s := sendLine s cell line k)
    exact ⟨h1.trans sendLine_hbm, h2.trans sendLine_spares, h3.trans sendLine_shape⟩

theorem standInFrom_congr (h : t.spares = s.spares) (n : Nat) : standInFrom t n k = standInFrom s n k := by
  induction n generalizing k with
  | zero => rfl
  | succ n ih =>
    rw [standInFrom, standInFrom, h]
    split
    · exact ih
    · rfl

theorem setStacks_congr (h : t.spares = s.spares) (hs : t.shape = s.shape) : setStacks t cell = setStacks s cell := by
  unfold setStacks
  rw [hs]
  exact List.map_congr_left (fun _ _ => standInFrom_congr h 12)

theorem serving_congr (h : t.hbm = s.hbm) (h' : t.spares = s.spares) (hs : t.shape = s.shape) :
    serving t cell = serving s cell := by
  unfold serving
  rw [setStacks_congr h' hs]
  exact List.filter_congr (fun k _ => by rw [stackServes, stackServes, h])

theorem mem_serving : k ∈ serving s cell ↔ k ∈ setStacks s cell ∧ stackServes s k = true := List.mem_filter

theorem length_setStacks (h : s.shape = 3 ∨ s.shape = 5) : (setStacks s cell).length < 2 * quorum s.shape := by
  rcases h with h | h <;> simp [setStacks, quorum, h]

end

/-! The read phase: whose replies make its majority, and the newest line among them (R178). -/

section
variable {s t u : State} {cell k : Nat} {line : CopyLine} {q : List Nat}

theorem mem_repliers (h : k ∈ repliers s cell) : k ∈ serving s cell ∧ (lineAt s k cell).holds = true := by
  unfold repliers at h
  simp only [List.mem_append, List.mem_dedup, List.mem_filter, List.contains_iff_mem] at h
  rcases h with h | h
  · exact h.2
  · exact h.1

theorem nodup_repliers (h : (serving s cell).Nodup) : (repliers s cell).Nodup := by
  refine List.nodup_append.mpr ⟨List.nodup_dedup _, (h.filter _).filter _, fun a ha b hb hab => ?_⟩
  subst hab
  have hnot := (List.mem_filter.mp hb).2
  rw [Bool.not_eq_true'] at hnot
  exact Bool.false_ne_true (hnot.symm.trans (List.contains_iff_mem.mpr ha))

/-- The newer of two lines. -/
def newerLine (s : State) (cell : Nat) (best : CopyLine) (k : Nat) : CopyLine :=
  if tagRank best.tag < tagRank (lineAt s k cell).tag then lineAt s k cell else best

theorem newest_foldl {ks : List Nat} {best : CopyLine} :
    (ks.foldl (newerLine s cell) best = best ∨ ∃ x ∈ ks, ks.foldl (newerLine s cell) best = lineAt s x cell) ∧
    tagRank best.tag ≤ tagRank (ks.foldl (newerLine s cell) best).tag ∧
    ∀ x ∈ ks, tagRank (lineAt s x cell).tag ≤ tagRank (ks.foldl (newerLine s cell) best).tag := by
  induction ks generalizing best with
  | nil => exact ⟨.inl rfl, le_refl _, fun _ h => nomatch h⟩
  | cons k ks ih =>
    obtain ⟨hwho, hbest, hall⟩ := ih (best := newerLine s cell best k)
    have hstep : tagRank best.tag ≤ tagRank (newerLine s cell best k).tag ∧
        tagRank (lineAt s k cell).tag ≤ tagRank (newerLine s cell best k).tag := by
      unfold newerLine
      split <;> omega
    refine ⟨?_, le_trans hstep.1 hbest, fun x hx => ?_⟩
    · rcases hwho with h | ⟨x, hx, h⟩
      · have hone : newerLine s cell best k = lineAt s k cell ∨ newerLine s cell best k = best := by
          unfold newerLine
          split
          · exact .inl rfl
          · exact .inr rfl
        rcases hone with ho | ho
        · exact .inr ⟨k, List.mem_cons_self .., h.trans ho⟩
        · exact .inl (h.trans ho)
      · exact .inr ⟨x, List.mem_cons_of_mem _ hx, h⟩
    · rcases List.mem_cons.mp hx with rfl | hx
      · exact le_trans hstep.2 hbest
      · exact hall x hx

/-- The highest line on some stacks is one of theirs, and none of theirs is newer. -/
theorem highestLine_spec (h : q ≠ []) : (∃ x ∈ q, highestLine s cell q = lineAt s x cell) ∧
    ∀ x ∈ q, tagRank (lineAt s x cell).tag ≤ tagRank (highestLine s cell q).tag := by
  obtain ⟨k, q, rfl⟩ := List.exists_cons_of_ne_nil h
  have heq : highestLine s cell (k :: q) = (k :: q).foldl (newerLine s cell) (lineAt s k cell) := rfl
  obtain ⟨hwho, _, hall⟩ := newest_foldl (s := s) (cell := cell) (ks := k :: q) (best := lineAt s k cell)
  rw [← heq] at hwho hall
  refine ⟨?_, hall⟩
  rcases hwho with h | h
  · exact ⟨k, List.mem_cons_self .., h⟩
  · exact h

theorem quorum_pos (n : Nat) : 0 < quorum n := by
  unfold quorum
  split <;> omega

/-- What a read phase has learnt (R178): a majority of the serving stacks that hold a value replied, and the line is the
newest of theirs. -/
theorem readPhase_some (h : readPhase s cell = some (q, line)) : q.length = quorum s.shape ∧
    (∀ x ∈ q, x ∈ serving s cell ∧ (lineAt s x cell).holds = true) ∧ (∃ x ∈ q, line = lineAt s x cell) ∧
    ∀ x ∈ q, tagRank (lineAt s x cell).tag ≤ tagRank line.tag := by
  unfold readPhase at h
  by_cases hlen : ((repliers s cell).take (quorum s.shape)).length < quorum s.shape
  · simp only [hlen, if_true, reduceCtorEq] at h
  · simp only [hlen, if_false, Option.some.injEq, Prod.mk.injEq] at h
    obtain ⟨rfl, rfl⟩ := h
    have hq : ((repliers s cell).take (quorum s.shape)).length = quorum s.shape := by
      rw [List.length_take] at hlen ⊢
      omega
    have hne : (repliers s cell).take (quorum s.shape) ≠ [] :=
      List.length_pos_iff.mp (Nat.lt_of_lt_of_eq (quorum_pos s.shape) hq.symm)
    obtain ⟨hwho, hall⟩ := highestLine_spec (s := s) (cell := cell) hne
    exact ⟨hq, fun x hx => mem_repliers (List.mem_of_mem_take hx), hwho, hall⟩

theorem readPhase_holds (h : readPhase s cell = some (q, line)) : line.holds = true := by
  obtain ⟨_, hmem, ⟨x, hx, rfl⟩, _⟩ := readPhase_some h
  exact (hmem x hx).2

theorem readPhase_nodup (hn : (serving s cell).Nodup) (h : readPhase s cell = some (q, line)) : q.Nodup := by
  unfold readPhase at h
  by_cases hlen : ((repliers s cell).take (quorum s.shape)).length < quorum s.shape
  · simp only [hlen, if_true, reduceCtorEq] at h
  · simp only [hlen, if_false, Option.some.injEq, Prod.mk.injEq] at h
    rw [← h.1]
    exact (nodup_repliers hn).sublist (List.take_sublist ..)

theorem majLoad_eq : majLoad s cell = if tooFew s cell then .fail else match readPhase s cell with
    | none => .wait
    | some (q, line) => .done true line.payload (repairPoison (sendAll s cell line q) cell line) := rfl

/-- A load fails exactly where too few stacks serve (R176). -/
theorem majLoad_fail_iff : majLoad s cell = .fail ↔ tooFew s cell = true := by
  rw [majLoad_eq]
  cases tooFew s cell with
  | true => simp
  | false => cases h : readPhase s cell <;> simp

theorem majLoad_wait_iff : majLoad s cell = .wait ↔ tooFew s cell = false ∧ readPhase s cell = none := by
  rw [majLoad_eq]
  cases tooFew s cell with
  | true => simp
  | false => cases h : readPhase s cell <;> simp

theorem majLoad_done {b : Bool} {v : Payload} (h : majLoad s cell = .done b v t) : ∃ q line,
    readPhase s cell = some (q, line) ∧ b = true ∧ v = line.payload ∧ tooFew s cell = false ∧
      t = repairPoison (sendAll s cell line q) cell line := by
  rw [majLoad_eq] at h
  cases htf : tooFew s cell with
  | true => simp [htf] at h
  | false =>
    cases hr : readPhase s cell with
    | none => simp [htf, hr] at h
    | some r =>
      obtain ⟨q, line⟩ := r
      simp only [htf, hr, Bool.false_eq_true, if_false, MajRes.done.injEq] at h
      obtain ⟨rfl, rfl, rfl⟩ := h
      exact ⟨q, line, rfl, rfl, rfl, rfl, rfl⟩

/-- The load's write-back leaves a majority of the serving stacks as new as the line it returns (R178). -/
theorem majLoad_writesBack {b : Bool} {v : Payload} (hn : (serving s cell).Nodup)
    (hr : readPhase s cell = some (q, line)) (h : majLoad s cell = .done b v t) : quorum s.shape ≤
      ((serving s cell).filter (fun k => decide (tagRank line.tag ≤ tagRank (lineAt t k cell).tag))).length := by
  obtain ⟨q', line', hr', _, _, _, rfl⟩ := majLoad_done h
  obtain ⟨rfl, rfl⟩ : q = q' ∧ line = line' := by
    rw [hr] at hr'
    exact Prod.mk.inj (Option.some.inj hr')
  obtain ⟨hlen, hmem, _, _⟩ := readPhase_some hr
  have hl := readPhase_holds hr
  rw [← hlen]
  refine (List.subperm_of_subset (readPhase_nodup hn hr) (fun x hx => ?_)).length_le
  exact List.mem_filter.mpr ⟨(hmem x hx).1,
    decide_eq_true ((asNew_sendAll hl hx).rises (rises_repairPoison hl)).2⟩

/-- Two majorities of a set's stacks share one. -/
theorem majorities_meet {ks q r : List Nat} {n : Nat} (hks : ks.length < 2 * n) (hq : q.Nodup) (hr : r.Nodup)
    (hqk : q ⊆ ks) (hrk : r ⊆ ks) (hqn : n ≤ q.length) (hrn : n ≤ r.length) : ∃ x ∈ q, x ∈ r := by
  by_contra hnot
  push Not at hnot
  have happ : (q ++ r).Nodup := List.nodup_append.mpr ⟨hq, hr, fun a ha b hb hab => hnot a ha (hab ▸ hb)⟩
  have hlen := (List.subperm_of_subset happ (List.append_subset.mpr ⟨hqk, hrk⟩)).length_le
  rw [List.length_append] at hlen
  omega

end

end Sys2Proof.Machine
end

section
/-! PROOFS. A load begun where a store has completed (R178, R179). -/

namespace Sys2Proof.Machine

/-! What a store that has completed leaves in the copies (R178). -/

theorem toNat_mkTag {tide wid : Nat} (ht : tide < 2 ^ 48) (hw : wid < 4096) :
    (mkTag tide wid).toNat = tide * 65536 + wid * 16 + 1 := by
  rw [mkTag, BitVec.toNat_ofNat]
  omega

theorem tagRank_mkTag {tide wid : Nat} (ht : tide < 2 ^ 48) (hw : wid < 4096) :
    tagRank (mkTag tide wid) = tide * 4096 + wid := by
  rw [tagRank, toNat_mkTag ht hw]
  omega

theorem holds_mkTag {tide wid : Nat} (ht : tide < 2 ^ 48) (hw : wid < 4096) (p : Payload) :
    CopyLine.holds ⟨mkTag tide wid, p⟩ = true := by
  have h0 : (mkTag tide wid).getLsbD 0 = true := by
    rw [← BitVec.testBit_toNat, toNat_mkTag ht hw, Nat.testBit_zero, decide_eq_true_iff]
    omega
  have h1 : (mkTag tide wid).getLsbD 1 = false := by
    rw [← BitVec.testBit_toNat, toNat_mkTag ht hw, Nat.testBit_eq_decide_div_mod_eq, decide_eq_false_iff_not]
    omega
  rw [CopyLine.holds, h0, h1]
  rfl

/-- A store that has completed has sent its line to some of the serving stacks, a majority of them. -/
structure StoreSent (s t : State) (cell : Nat) (line : CopyLine) (ks : List Nat) : Prop where
  sent : ∀ k, lineAt t k cell = if k ∈ ks ∧ accepts (lineAt s k cell) line.tag = true then line else lineAt s k cell
  places : t.hbm = s.hbm ∧ t.spares = s.spares ∧ t.shape = s.shape
  among : ks.Sublist (serving s cell)
  reached : quorum s.shape ≤ ks.length

theorem storePhase_true {s t : State} {cell wid : Nat} {read : BitVec 64} {payload seen : Payload}
    (h : storePhase s cell wid read payload = .done true seen t) :
    ∃ ks, StoreSent s t cell ⟨mkTag (tagTide read + 1) wid, payload⟩ ks := by
  unfold storePhase at h
  split at h
  · cases h
  · split at h
    · cases h
    · dsimp only at h
      split at h
      next hfast =>
        cases h
        exact ⟨_, fun _ => lineAt_sendAll, sendAll_places, List.filter_sublist,
          le_trans hfast List.filter_sublist.length_le⟩
      next =>
        split at h
        next hall =>
          cases h
          exact ⟨_, fun _ => lineAt_sendAll, sendAll_places, .refl _, le_trans hall List.filter_sublist.length_le⟩
        next => cases h

section
variable {s t : State} {cell k : Nat} {line seen : CopyLine} {ks q rs : List Nat}

/-- The read phase's stacks and what they reply after a completed store, whichever replies come first. -/
structure ReadAfter (s t : State) (cell : Nat) (q : List Nat) (line : CopyLine) : Prop where
  length : q.length = quorum s.shape
  nodup : q.Nodup
  replied : ∀ x ∈ q, x ∈ serving s cell
  newest : ∃ x ∈ q, line = lineAt t x cell
  highest : ∀ x ∈ q, tagRank (lineAt t x cell).tag ≤ tagRank line.tag

theorem StoreSent.serving (h : StoreSent s t cell line ks) :
    serving { t with env := { t.env with replies := rs } } cell = Machine.serving s cell :=
  serving_congr h.places.1 h.places.2.1 h.places.2.2

theorem StoreSent.readAfter (h : StoreSent s t cell line ks) (hn : (Machine.serving s cell).Nodup)
    (hr : readPhase { t with env := { t.env with replies := rs } } cell = some (q, seen)) : ReadAfter s t cell q seen := by
  obtain ⟨hlen, hmem, hwho, hall⟩ := readPhase_some hr
  rw [h.serving] at hmem
  refine ⟨hlen.trans ?_, readPhase_nodup ?_ hr, fun x hx => (hmem x hx).1, hwho, hall⟩
  · exact congrArg quorum h.places.2.2
  · rw [h.serving]
    exact hn

/-- A stack that the store has reached holds a value at least as new as its line. -/
theorem StoreSent.asNew (h : StoreSent s t cell line ks) (hl : line.holds = true) (hk : k ∈ ks) :
    AsNew line (lineAt t k cell) := by
  rw [h.sent, ← lineAt_sendAll]
  exact asNew_sendAll hl hk

/-- Whichever majority answers meets the majority that the store has reached. -/
theorem StoreSent.visible (h : StoreSent s t cell line ks) (hl : line.holds = true)
    (hshape : s.shape = 3 ∨ s.shape = 5) (hn : (setStacks s cell).Nodup) (hr : ReadAfter s t cell q seen) :
    tagRank line.tag ≤ tagRank seen.tag := by
  have hsub : (Machine.serving s cell).Sublist (setStacks s cell) := List.filter_sublist
  obtain ⟨x, hxq, hxk⟩ := majorities_meet (length_setStacks hshape) hr.nodup (hn.sublist (h.among.trans hsub))
    (fun x hx => hsub.subset (hr.replied x hx)) (h.among.trans hsub).subset hr.length.ge h.reached
  exact le_trans (h.asNew hl hxk).2 (hr.highest x hxq)

/-- Where the copies were all older than the store's line, a read that finds its tag finds its line. -/
theorem StoreSent.line_eq (h : StoreSent s t cell line ks) (hr : ReadAfter s t cell q seen)
    (hold : ∀ k ∈ Machine.serving s cell, tagRank (lineAt s k cell).tag < tagRank line.tag)
    (heq : tagRank seen.tag = tagRank line.tag) : seen = line := by
  obtain ⟨x, hx, rfl⟩ := hr.newest
  rw [h.sent] at heq ⊢
  split at heq
  next hin => rw [if_pos hin]
  next =>
    have := hold x (hr.replied x hx)
    omega

end

/-- Settles O32: a majority that answers shares a stack with the majority that has accepted the store, and the accept rule
replaces no line by an older one. -/
theorem majorityReadsSeeStores : Obligations.MajorityReadsSeeStores := by
  intro s t cell wid read payload seen v replies q line hshape hn hwid htide hstore hread
  have ht : tagTide read + 1 < 2 ^ 48 := by omega
  have hl := holds_mkTag ht hwid payload
  have hns : (serving s cell).Nodup := hn.sublist List.filter_sublist
  obtain ⟨ks, hsent⟩ := storePhase_true hstore
  have hafter := hsent.readAfter hns hread
  refine ⟨hsent.visible hl hshape hn hafter, fun heq hold => ?_, fun o u hload => ?_, fun j k x _ hx hk => rises_sendLine hx k hk⟩
  · rw [hsent.line_eq hafter hold heq]
  · have hback := majLoad_writesBack (by rw [hsent.serving]; exact hns) hread hload
    rw [hsent.serving] at hback
    exact le_trans (le_of_eq (congrArg quorum hsent.places.2.2.symm)) hback

end Sys2Proof.Machine
end

section
/-! PROOFS. The majority instructions (R176, R178, R179, R243). -/

namespace Sys2Proof.Machine

/-! A majority instruction at its issue: its checks, what it keeps, and its attempt (R176). -/

section
variable {i : Instr} {s t u : State} {n : Need} {addr : State → DWord} {ops : State → List DWord} {va : DWord}
  {vs : List DWord} {cell key : Nat} {line : CopyLine} {ks : List Nat}

/-- What a majority instruction does where some lane passes the guard: its address checks, and its attempt with what it
keeps of its operands. -/
def majBody (n : Need) (addr : State → DWord) (ops : State → List DWord) (go : State → Res) (s : State) : Res :=
  match checkCell s n (addr s).toNat with
  | .bad c => .trap c (addr s) s.sp.pc s
  | .ok key => go (keepArgs s (addr s :: BitVec.ofNat 64 (cellOf key) :: ops s))

/-- An issued majority instruction with what it keeps: its address, its cell and its operands. -/
def keptFor (va : DWord) (vs : List DWord) (key : Nat) (u : State) : State :=
  keepArgs u (va :: BitVec.ofNat 64 (cellOf key) :: vs)

/-- How a majority instruction ends at its issue: the trap of its address checks, MAJFAIL, a wait behind a store of its
quadrant, or what its phases give (R176). -/
def MajEnds (s : State) (i : Instr) (n : Need) (va : DWord) (vs : List DWord) (f : Nat → State → State) : Prop :=
  (∀ c, checkCell s n va.toNat = .bad c → OnceEnds i s (fun u => trapped u c va s.sp.pc)) ∧
  ∀ key, checkCell s n va.toNat = .ok key → cellOf key < 2 ^ 64 →
    (tooFew s (cellOf key) = true → OnceEnds i s (fun u => trapped (keptFor va vs key u) cMajfail va s.sp.pc)) ∧
    (tooFew s (cellOf key) = false → cellBusy s (cellOf key) = true → OnceEnds i s (fun u => waits i (keptFor va vs key u))) ∧
    (tooFew s (cellOf key) = false → cellBusy s (cellOf key) = false → OnceEnds i s (f key))

@[simp] theorem checkCell_issued (i : Instr) (s : State) (n : Need) (va : Nat) :
    checkCell (issued i s) n va = checkCell s n va := by
  unfold checkCell
  rw [translate_issued]

@[simp] theorem tooFew_kept (i : Instr) (s : State) (cell : Nat) :
    tooFew (keptFor va vs key (issued i s)) cell = tooFew s cell := rfl

@[simp] theorem cellBusy_kept (i : Instr) (s : State) (cell : Nat) :
    cellBusy (keptFor va vs key (issued i s)) cell = cellBusy s cell := rfl

theorem argCell_kept (h : cellOf key < 2 ^ 64) : argCell (keptFor va vs key u) = cellOf key := by
  show (BitVec.ofNat 64 (cellOf key)).toNat = cellOf key
  rw [BitVec.toNat_ofNat, Nat.mod_eq_of_lt h]

theorem majFail_kept : majFail (keptFor va vs key u) = .trap cMajfail va u.sp.pc (keptFor va vs key u) := rfl

/-- An attempt at the issue: what it does in each of the cases of R176. -/
theorem attempt_kept {go : State → Res} (h : cellOf key < 2 ^ 64) :
    attempt go (keptFor va vs key (issued i s)) =
      if tooFew s (cellOf key) = true then .trap cMajfail va s.sp.pc (keptFor va vs key (issued i s))
      else if cellBusy s (cellOf key) = true then .wait (keptFor va vs key (issued i s))
      else go (keptFor va vs key (issued i s)) := by
  unfold attempt
  rw [argCell_kept h, tooFew_kept, cellBusy_kept]
  rfl

/-- What a majority instruction does at its issue, from what its phases do. -/
theorem maj_ends {go more : State → Res} {f : Nat → State → State}
    (he : exec i s = runW i (fun again s => if again then more s else once s (majBody n addr ops (attempt go))) s)
    (haddr : ∀ j, addr (issued j s) = va) (hops : ∀ j, ops (issued j s) = vs)
    (hf : ∀ key, cellOf key < 2 ^ 64 → tooFew s (cellOf key) = false → Issues i s →
      finish i false (go (keptFor va vs key (issued i s))) = f key (issued i s)) :
    MajEnds s i n va vs f := by
  have hbody : majBody n addr ops (attempt go) (issued i s) = match checkCell s n va.toNat with
      | .bad c => .trap c va s.sp.pc (issued i s)
      | .ok key => attempt go (keptFor va vs key (issued i s)) := by
    unfold majBody
    rw [haddr, hops, checkCell_issued]
    rfl
  refine ⟨fun c hc => once_endsW he (fun _ _ => ?_), fun key hkey hcell =>
    ⟨fun hfew => ?_, fun hfew hbusy => ?_, fun hfew hbusy => ?_⟩⟩
  · rw [hbody, hc]
    rfl
  · exact once_endsW he (fun _ _ => by rw [hbody, hkey]; dsimp only; rw [attempt_kept hcell, if_pos hfew]; rfl)
  · exact once_endsW he (fun _ _ => by
      rw [hbody, hkey]; dsimp only
      rw [attempt_kept hcell, if_neg (hfew ▸ Bool.false_ne_true), if_pos hbusy]; rfl)
  · exact once_endsW he (fun hi _ => by
      rw [hbody, hkey]; dsimp only
      rw [attempt_kept hcell, if_neg (hfew ▸ Bool.false_ne_true), if_neg (hbusy ▸ Bool.false_ne_true)]
      exact hf key hcell hfew hi)

/-! What the phases of a majority instruction leave of the splits. -/

theorem sendLine_sameSplits (k : Nat) : SameSplits s (sendLine s cell line k) := by
  unfold sendLine
  split
  · split <;> exact ⟨rfl, rfl, rfl⟩
  · exact .refl s

theorem sendAll_sameSplits : SameSplits s (sendAll s cell line ks) := .foldl (fun _ _ => sendLine_sameSplits _) ks s

theorem ksetQuad_sameSplits (d : Nat) (v : Payload) : SameSplits s (ksetQuad s d v) := by
  have hone (u : State) (n : Nat) (x : DWord) : SameSplits u (kset u n x) := ⟨kset_sp u n x, kset_sameSplits u n x⟩
  exact (hone _ _ _).trans ((hone _ _ _).trans ((hone _ _ _).trans (hone _ _ _)))

theorem acquireCell_sameSplits : SameSplits s (acquireCell s cell) := (acquire_lateOnly _).sameSplits

theorem releaseStore_sameSplits (rmw : Bool) : SameSplits s (releaseStore s cell rmw) := ⟨rfl, rfl, rfl⟩

theorem majLoad_sameSplits {b : Bool} {v : Payload} (h : majLoad s cell = .done b v t) : SameSplits s t := by
  obtain ⟨_, _, _, _, _, _, rfl⟩ := majLoad_done h
  exact sendAll_sameSplits.trans sendAll_sameSplits

theorem storePhase_sameSplits {wid : Nat} {read : BitVec 64} {p v : Payload} {b : Bool}
    (h : storePhase s cell wid read p = .done b v t) : SameSplits s t := by
  have hsend (ks : List Nat) : SameSplits s
      (sendAll { s with env := { s.env with slow := s.env.slow.tail } } cell ⟨mkTag (tagTide read + 1) wid, p⟩ ks) :=
    .trans ⟨rfl, rfl, rfl⟩ sendAll_sameSplits
  unfold storePhase at h
  split at h
  · cases h
  · split at h
    · cases h
    · dsimp only at h
      split at h
      · cases h
        exact (hsend _).trans ⟨rfl, rfl, rfl⟩
      · split at h <;> cases h <;> exact hsend _

theorem finish_ok_kept (hi : Issues i s) (h : SameSplits (keptFor va vs key (issued i s)) t) :
    finish i false (.ok t) = retired t := by
  obtain ⟨hsp, hs, ho⟩ := h
  exact finish_ok (by rw [hsp]; exact issued_stopDue hi.whole.1 hi.whole.2.1) (by rw [hs, ho]; exact hi.whole.2.2)

/-- The outcome predicate is written in the lanes that took part at the issue and are still in ACTIVE. -/
theorem setOutcome_kept {p : BitVec 3} {b : Bool} (h : SameSplits (keptFor va vs key (issued i s)) t) :
    setOutcome t p b =
      { t with w := setPred t.w p.toNat (partMask s &&& t.sp.active) (if b then 0xFFFFFFFF else 0) } := by
  have hl : argLanes t = partMask s &&& t.sp.active := by
    have ha : argLanes t = argLanes (keptFor va vs key (issued i s)) := by
      unfold argLanes
      rw [h.1]
    rw [ha, keptFor, argLanes_keepArgs, h.1]
    rfl
  rw [setOutcome, hl]
  rfl

theorem setOutcome_sameSplits (p : BitVec 3) (b : Bool) : SameSplits t (setOutcome t p b) := by
  unfold setOutcome setPred
  split <;> exact ⟨rfl, rfl, rfl⟩

end

/-! What the phases of each instruction end with. -/

section
variable {i : Instr} {s : State} {va : DWord} {vs : List DWord} {key : Nat} {d : BitVec 6} {p : BitVec 3}

/-- A store's outcome written to its predicate. -/
def putOutcome (s : State) (p : BitVec 3) (t : State) (b : Bool) : State :=
  { t with w := setPred t.w p.toNat (partMask s &&& t.sp.active) (if b then 0xFFFFFFFF else 0) }

/-- The four registers of a payload. -/
def payloadOf (s : State) (d : BitVec 6) : List DWord := (List.range 4).map (fun j => kget s (d.toNat + j))

/-- MLD after its checks. -/
def mldGo (d : BitVec 6) (s : State) : Res :=
  match majLoad s (argCell s) with
  | .fail => majFail s
  | .wait => .wait s
  | .done _ v t => .ok (ksetQuad (acquireCell t (argCell s)) d.toNat v)

theorem finish_mldGo (hi : Issues i s) (hcell : cellOf key < 2 ^ 64) :
    finish i false (mldGo d (keptFor va vs key (issued i s))) =
      match majLoad (keptFor va vs key (issued i s)) (cellOf key) with
      | .fail => trapped (keptFor va vs key (issued i s)) cMajfail va s.sp.pc
      | .wait => waits i (keptFor va vs key (issued i s))
      | .done _ v t => retired (ksetQuad (acquireCell t (cellOf key)) d.toNat v) := by
  rw [mldGo, argCell_kept hcell]
  cases h : majLoad (keptFor va vs key (issued i s)) (cellOf key) with
  | fail => rfl
  | wait => rfl
  | done b v t =>
    exact finish_ok_kept hi ((majLoad_sameSplits h).trans (acquireCell_sameSplits.trans (ksetQuad_sameSplits _ _)))

/-- TRWAIT after its checks. -/
def trwaitGo (s : State) : Res :=
  match majLoad s (argCell s) with
  | .fail => majFail s
  | .wait => .wait s
  | .done _ v t =>
    if (argN s 2).toNat ≤ readyOf v then .ok (acquireCell t (argCell s))
    else .wait { t with sp := { t.sp with since := t.cycle.toNat } }

theorem finish_trwaitGo {x : DWord} (hi : Issues i s) (hcell : cellOf key < 2 ^ 64) :
    finish i false (trwaitGo (keptFor va [x] key (issued i s))) =
      match majLoad (keptFor va [x] key (issued i s)) (cellOf key) with
      | .fail => trapped (keptFor va [x] key (issued i s)) cMajfail va s.sp.pc
      | .wait => waits i (keptFor va [x] key (issued i s))
      | .done _ v t => if x.toNat ≤ (v.extractLsb' 0 64).toNat then retired (acquireCell t (cellOf key))
        else waits i { t with sp := { t.sp with since := t.cycle.toNat } } := by
  rw [trwaitGo, argCell_kept hcell]
  cases h : majLoad (keptFor va [x] key (issued i s)) (cellOf key) with
  | fail => rfl
  | wait => rfl
  | done b v t =>
    show finish i false (if x.toNat ≤ readyOf v then _ else _) = if x.toNat ≤ readyOf v then _ else _
    split
    · exact finish_ok_kept hi ((majLoad_sameSplits h).trans acquireCell_sameSplits)
    · rfl

theorem finish_putOutcome {t : State} {b : Bool} (hi : Issues i s) (h : SameSplits (keptFor va vs key (issued i s)) t) :
    finish i false (.ok (setOutcome t p b)) = retired (putOutcome s p t b) := by
  rw [finish_ok_kept hi (h.trans (setOutcome_sameSplits p b)), setOutcome_kept h]
  rfl

theorem payload_kept : argPayload (keptFor va (payloadOf s d) key (issued i s)) 2 = kquad s d.toNat := rfl

/-- An MST is its read phase and then its store phase. -/
theorem majStore_eq {cell wid : Nat} {x : Payload} (h : tooFew s cell = false) : majStore s cell wid x =
    match readPhase s cell with
    | none => .wait
    | some (_, line) => storePhase s cell wid line.tag x := by
  rw [majStore, h]
  rfl

/-- MST after its checks. -/
def mstGo (p : BitVec 3) (s : State) : Res :=
  match readPhase s (argCell s) with
  | none => .wait s
  | some (_, line) => storeOrPart s line.tag (mstStore p)

theorem storeOrPart_whole {tag : BitVec 64} {f : State → BitVec 64 → Res} (h : s.env.parted = []) :
    storeOrPart s tag f = f s tag := by
  rw [storeOrPart, h]

theorem finish_mstGo (hi : Issues i s) (hparted : s.env.parted = []) (hcell : cellOf key < 2 ^ 64)
    (hfew : tooFew s (cellOf key) = false) :
    finish i false (mstGo p (keptFor va (payloadOf s d) key (issued i s))) =
      match majStore (keptFor va (payloadOf s d) key (issued i s)) (cellOf key) (warpWid s.w) (kquad s d.toNat) with
      | .fail => trapped (keptFor va (payloadOf s d) key (issued i s)) cMajfail va s.sp.pc
      | .wait => waits i (keptFor va (payloadOf s d) key (issued i s))
      | .done b _ t => retired (putOutcome s p (if b then releaseStore t (cellOf key) false else t) b) := by
  rw [mstGo, argCell_kept hcell, majStore_eq ((tooFew_kept i s _).trans hfew)]
  cases hread : readPhase (keptFor va (payloadOf s d) key (issued i s)) (cellOf key) with
  | none => rfl
  | some r =>
    obtain ⟨q, line⟩ := r
    dsimp only
    rw [storeOrPart_whole (s := keptFor va (payloadOf s d) key (issued i s)) hparted, mstStore, argCell_kept hcell, payload_kept]
    show finish i false (match storePhase _ _ (warpWid s.w) _ _ with
      | .fail => _
      | .wait => _
      | .done b _ t => _) = _
    cases hstore : storePhase (keptFor va (payloadOf s d) key (issued i s)) (cellOf key) (warpWid s.w) line.tag
      (kquad s d.toNat) with
    | fail => rfl
    | wait => rfl
    | done b v t =>
      refine finish_putOutcome hi ((storePhase_sameSplits hstore).trans ?_)
      split
      · exact releaseStore_sameSplits false
      · exact .refl t

/-- MCAS after its checks. -/
def mcasGo (d : BitVec 6) (p : BitVec 3) (s : State) : Res :=
  match readPhase s (argCell s) with
  | none => .wait s
  | some (q, line) =>
    if line.payload.extractLsb' 0 64 ≠ argN s 2 then
      .ok (setOutcome (ksetQuad (acquireCell (repairPoison (sendAll s (argCell s) line q) (argCell s) line) (argCell s))
        d.toNat line.payload) p false)
    else storeOrPart s line.tag (mcasStore d p)

/-- An MCAS is its read phase, its compare and then its store phase. -/
theorem majCas_eq {cell wid : Nat} {e : DWord} {x : Payload} (h : tooFew s cell = false) : majCas s cell wid e x =
    match readPhase s cell with
    | none => .wait
    | some (q, line) =>
      if line.payload.extractLsb' 0 64 ≠ e then
        .done false line.payload (repairPoison (sendAll s cell line q) cell line)
      else storePhase s cell wid line.tag x := by
  rw [majCas, h]
  rfl

theorem payload_keptCas {x : DWord} :
    argPayload (keptFor va (x :: payloadOf s d) key (issued i s)) 3 = kquad s d.toNat := rfl

theorem finish_mcasGo {x : DWord} (hi : Issues i s) (hparted : s.env.parted = []) (hcell : cellOf key < 2 ^ 64)
    (hfew : tooFew s (cellOf key) = false) :
    finish i false (mcasGo d p (keptFor va (x :: payloadOf s d) key (issued i s))) =
      match majCas (keptFor va (x :: payloadOf s d) key (issued i s)) (cellOf key) (warpWid s.w) x (kquad s d.toNat) with
      | .fail => trapped (keptFor va (x :: payloadOf s d) key (issued i s)) cMajfail va s.sp.pc
      | .wait => waits i (keptFor va (x :: payloadOf s d) key (issued i s))
      | .done true _ t => retired (putOutcome s p (releaseStore (acquireCell t (cellOf key)) (cellOf key) true) true)
      | .done false v t => retired (putOutcome s p (ksetQuad (acquireCell t (cellOf key)) d.toNat v) false) := by
  rw [mcasGo, argCell_kept hcell, majCas_eq ((tooFew_kept i s _).trans hfew)]
  cases hread : readPhase (keptFor va (x :: payloadOf s d) key (issued i s)) (cellOf key) with
  | none => rfl
  | some r =>
    obtain ⟨q, line⟩ := r
    dsimp only
    by_cases hne : line.payload.extractLsb' 0 64 ≠ x
    · rw [if_pos hne, if_pos (show line.payload.extractLsb' 0 64 ≠ argN (keptFor va (x :: payloadOf s d) key (issued i s)) 2
        from hne)]
      exact finish_putOutcome hi (sendAll_sameSplits.trans (sendAll_sameSplits.trans
        (acquireCell_sameSplits.trans (ksetQuad_sameSplits _ _))))
    · rw [if_neg hne, if_neg (show ¬ line.payload.extractLsb' 0 64 ≠ argN (keptFor va (x :: payloadOf s d) key (issued i s)) 2
        from hne)]
      rw [storeOrPart_whole (s := keptFor va (x :: payloadOf s d) key (issued i s)) hparted, mcasStore, argCell_kept hcell,
        payload_keptCas]
      show finish i false (match storePhase _ _ (warpWid s.w) _ _ with
        | .fail => _
        | .wait => _
        | .done true _ t => _
        | .done false v t => _) = _
      cases hstore : storePhase (keptFor va (x :: payloadOf s d) key (issued i s)) (cellOf key) (warpWid s.w) line.tag
        (kquad s d.toNat) with
      | fail => rfl
      | wait => rfl
      | done b v t =>
        cases b with
        | true =>
          exact finish_putOutcome hi ((storePhase_sameSplits hstore).trans
            (acquireCell_sameSplits.trans (releaseStore_sameSplits true)))
        | false =>
          exact finish_putOutcome hi ((storePhase_sameSplits hstore).trans
            (acquireCell_sameSplits.trans (ksetQuad_sameSplits _ _)))

end

/-! The five instructions. -/

section
variable {s : State} {d e : BitVec 6} {k : BitVec 5} {la : BitVec 4} {p : BitVec 3} {a b : BitVec 6}

theorem mld_ends : MajEnds s (.mld d k la) needR (kget s k.toNat) [] (fun key u =>
    match majLoad (keptFor (kget s k.toNat) [] key u) (cellOf key) with
    | .fail => trapped (keptFor (kget s k.toNat) [] key u) cMajfail (kget s k.toNat) s.sp.pc
    | .wait => waits (.mld d k la) (keptFor (kget s k.toNat) [] key u)
    | .done _ v t => retired (ksetQuad (acquireCell t (cellOf key)) d.toNat v)) :=
  maj_ends (addr := fun s => kget s k.toNat) (ops := fun _ => []) (go := mldGo d) (more := mldTry d) rfl (fun _ => rfl) (fun _ => rfl)
    (fun _ hcell _ hi => finish_mldGo hi hcell)

theorem mst_ends (hparted : s.env.parted = []) :
    MajEnds s (.mst d k la p) needW (kget s k.toNat) (payloadOf s d) (fun key u =>
      match majStore (keptFor (kget s k.toNat) (payloadOf s d) key u) (cellOf key) (warpWid s.w) (kquad s d.toNat) with
      | .fail => trapped (keptFor (kget s k.toNat) (payloadOf s d) key u) cMajfail (kget s k.toNat) s.sp.pc
      | .wait => waits (.mst d k la p) (keptFor (kget s k.toNat) (payloadOf s d) key u)
      | .done b _ t => retired (putOutcome s p (if b then releaseStore t (cellOf key) false else t) b)) :=
  maj_ends (addr := fun s => kget s k.toNat) (ops := fun s => payloadOf s d) (go := mstGo p) (more := mstTry p) rfl (fun _ => rfl) (fun _ => rfl)
    (fun _ hcell hfew hi => finish_mstGo hi hparted hcell hfew)

theorem mcas_ends (hparted : s.env.parted = []) :
    MajEnds s (.mcas d e k la p) ⟨true, true, false, false⟩ (kget s k.toNat) (kget s e.toNat :: payloadOf s d) (fun key u =>
      match majCas (keptFor (kget s k.toNat) (kget s e.toNat :: payloadOf s d) key u) (cellOf key) (warpWid s.w)
        (kget s e.toNat) (kquad s d.toNat) with
      | .fail => trapped (keptFor (kget s k.toNat) (kget s e.toNat :: payloadOf s d) key u) cMajfail (kget s k.toNat) s.sp.pc
      | .wait => waits (.mcas d e k la p) (keptFor (kget s k.toNat) (kget s e.toNat :: payloadOf s d) key u)
      | .done true _ t => retired (putOutcome s p (releaseStore (acquireCell t (cellOf key)) (cellOf key) true) true)
      | .done false v t => retired (putOutcome s p (ksetQuad (acquireCell t (cellOf key)) d.toNat v) false)) :=
  maj_ends (addr := fun s => kget s k.toNat) (ops := fun s => kget s e.toNat :: payloadOf s d) (go := mcasGo d p)
    (more := mcasTry d p) rfl (fun _ => rfl) (fun _ => rfl) (fun _ hcell hfew hi => finish_mcasGo hi hparted hcell hfew)

theorem trwait_ends : MajEnds s (.trwait a b) needR (kget s a.toNat) [kget s b.toNat] (fun key u =>
    match majLoad (keptFor (kget s a.toNat) [kget s b.toNat] key u) (cellOf key) with
    | .fail => trapped (keptFor (kget s a.toNat) [kget s b.toNat] key u) cMajfail (kget s a.toNat) s.sp.pc
    | .wait => waits (.trwait a b) (keptFor (kget s a.toNat) [kget s b.toNat] key u)
    | .done _ v t => if (kget s b.toNat).toNat ≤ (v.extractLsb' 0 64).toNat then retired (acquireCell t (cellOf key))
      else waits (.trwait a b) { t with sp := { t.sp with since := t.cycle.toNat } }) :=
  maj_ends (addr := fun s => kget s a.toNat) (ops := fun s => [kget s b.toNat]) (go := trwaitGo) (more := trwaitAgain)
    rfl (fun _ => rfl) (fun _ => rfl) (fun _ hcell _ hi => finish_trwaitGo hi hcell)

/-- A TRWAIT's first attempt that waits behind no store: MAJFAIL where too few stacks serve, else what its load gives. -/
theorem trwait_attempts {key : Nat} (h : checkCell s needR (kget s a.toNat).toNat = .ok key) (hcell : cellOf key < 2 ^ 64)
    (hor : tooFew s (cellOf key) = true ∨ cellBusy s (cellOf key) = false) : OnceEnds (.trwait a b) s (fun u =>
      match majLoad (keptFor (kget s a.toNat) [kget s b.toNat] key u) (cellOf key) with
      | .fail => trapped (keptFor (kget s a.toNat) [kget s b.toNat] key u) cMajfail (kget s a.toNat) s.sp.pc
      | .wait => waits (.trwait a b) (keptFor (kget s a.toNat) [kget s b.toNat] key u)
      | .done _ v t => if (kget s b.toNat).toNat ≤ (v.extractLsb' 0 64).toNat then retired (acquireCell t (cellOf key))
        else waits (.trwait a b) { t with sp := { t.sp with since := t.cycle.toNat } }) := by
  obtain ⟨hfail, _, hgo⟩ := trwait_ends.2 key h hcell
  cases hfew : tooFew s (cellOf key) with
  | false => exact hgo hfew (hor.resolve_left (hfew ▸ Bool.false_ne_true))
  | true =>
    have hload (j : Instr) : majLoad (keptFor (kget s a.toNat) [kget s b.toNat] key (issued j s)) (cellOf key) = .fail :=
      majLoad_fail_iff.mpr ((tooFew_kept j s _).trans hfew)
    intro hi
    rw [hfail hfew hi]
    beta_reduce
    rw [hload]

/-- The update that TRSIG hands to its quadrant's majority unit (R243). -/
def handedOver (s : State) (addr value : DWord) (key : Nat) (u : State) : State :=
  { (releaseNow u).2 with trsigs := s.trsigs ++
    [{ cell := cellOf key, addr := addr, value := value
       warp := { s.w with splits := [], overflow := [] }, number := s.crew.number, flog := s.crew.flog, pc := s.sp.pc
       since := s.cycle.toNat, past := pastNow s }] }

/-- TRSIG where some lane passes the guard. -/
def trsigBody (a b : BitVec 6) (s : State) : Res :=
  match checkCell s ⟨true, true, false, false⟩ (kget s a.toNat).toNat with
  | .bad c => .trap c (kget s a.toNat) s.sp.pc s
  | .ok key => .ok (handedOver s (kget s a.toNat) (kget s b.toNat) key s)

theorem trsigBody_issued (i : Instr) (s : State) : trsigBody a b (issued i s) =
    match checkCell s ⟨true, true, false, false⟩ (kget s a.toNat).toNat with
    | .bad c => .trap c (kget s a.toNat) s.sp.pc (issued i s)
    | .ok key => .ok (handedOver s (kget s a.toNat) (kget s b.toNat) key (issued i s)) := by
  unfold trsigBody
  rw [checkCell_issued]
  rfl

theorem trsig_bad {i : Instr} {c : Byte} (he : exec i s = run i (fun s => once s (trsigBody a b)) s)
    (h : checkCell s ⟨true, true, false, false⟩ (kget s a.toNat).toNat = .bad c) :
    OnceEnds i s (fun u => trapped u c (kget s a.toNat) s.sp.pc) :=
  once_trap he (by rw [trsigBody_issued, h])

theorem trsig_ok {i : Instr} {key : Nat} (he : exec i s = run i (fun s => once s (trsigBody a b)) s)
    (h : checkCell s ⟨true, true, false, false⟩ (kget s a.toNat).toNat = .ok key) :
    OnceResult i s (handedOver s (kget s a.toNat) (kget s b.toNat) key) :=
  once_result _ he (by rw [trsigBody_issued, h]) ⟨rfl, rfl, rfl⟩

end

theorem tooFew_iff {s : State} {cell : Nat} : tooFew s cell = true ↔ (serving s cell).length < quorum s.shape :=
  decide_eq_true_iff

/-- Settles O31: each instruction checks its cell, attempts its operation with what it has kept, and its phases are those of
the majority operation it performs. -/
theorem majorityAccesses : Obligations.MajorityAccesses := by
  refine ⟨fun s d e k la p => ⟨mld_ends, mst_ends, mcas_ends, fun cell => ⟨tooFew_iff, majLoad_fail_iff, majLoad_wait_iff,
    fun b v t h => ?_⟩⟩, fun s a b => ⟨fun c h => trsig_bad rfl h, fun key h => trsig_ok rfl h, trwait_ends.1,
      fun key h hcell => (trwait_ends.2 key h hcell).2.1, fun key h hcell hor => trwait_attempts h hcell hor⟩⟩
  obtain ⟨q, line, hread, _, hv, _, ht⟩ := majLoad_done h
  obtain ⟨hlen, hmem, hwho, hall⟩ := readPhase_some hread
  exact ⟨q, line, hread, hv, hlen, hmem, hwho, hall, ht⟩

end Sys2Proof.Machine
end

section
/-! PROOFS. Rings bound and unbound (R185 to R187). -/

namespace Sys2Proof.Machine

/-! What binding a ring changes (R186, R187, R189). -/

/-- A ring whose collectives have no entry in the copy queue. -/
def Ring.unentered (x : Ring) : Ring := { x with collectives := x.collectives.map (fun g => { g with queued := false }) }

/-- The crew in focus has an id of its own, no collective in one of its rings, and no command of that ring is queued. -/
structure RingEmptied (id r : Nat) (s : State) : Prop where
  own : s.crew.id = id
  others : ∀ c ∈ s.crews, c.id ≠ id
  idle : ∀ x, s.crew.rings[r]? = some x → x.collectives = []
  unqueued : ∀ c ∈ s.clus.copies, ¬ (c.crew = id ∧ c.ring = r)

section
variable {s : State} {id r n m : Nat} {f : Ring → Ring}

theorem getElem?_withRing (c : Crew) : (c.withRing r f).rings[m]? =
    (c.rings[m]?).map (fun x => if m = r then f x else x) := List.getElem?_mapIdx

/-- A change of one ring of a crew that some measure of rings does not see. -/
theorem map_rings_onCrew {α : Type} (g : Ring → α) (hf : ∀ x, g (f x) = g x) :
    (onCrew s id (fun c => c.withRing r f)).crew.rings.map g = s.crew.rings.map g := by
  unfold onCrew
  split
  · refine List.ext_getElem? (fun k => ?_)
    rw [List.getElem?_map, List.getElem?_map, getElem?_withRing]
    cases s.crew.rings[k]? with
    | none => rfl
    | some x =>
      simp only [Option.map_some]
      split
      · rw [hf]
      · rfl
  · rfl

/-- A collective's entry in the copy queue. -/
def entered (slot : Nat) (y : Ring) : Ring :=
  { y with collectives := y.collectives.map (fun h => if h.slot = slot then { h with queued := true } else h) }

theorem unentered_entered (slot : Nat) (y : Ring) : (entered slot y).unentered = y.unentered := by
  unfold Ring.unentered entered
  simp only [List.map_map]
  refine congrArg (fun l => { y with collectives := l }) (List.map_congr_left (fun g _ => ?_))
  simp only [Function.comp_apply]
  split <;> rfl

theorem oldestOpened_mem {xs : List (Nat × Nat × Collective)} {x : Nat × Nat × Collective} (h : oldestOpened xs = some x) :
    x ∈ xs := by
  induction xs generalizing x with
  | nil => cases h
  | cons y ys ih =>
    rw [oldestOpened] at h
    split at h
    · cases h
      exact List.mem_cons_self ..
    next z hz =>
      split at h
      · cases h
        exact List.mem_cons_self ..
      · cases h
        exact List.mem_cons_of_mem _ (ih hz)

/-- A crew with a collective of a ring entered in the copy queue. -/
def enteredIn (x : Nat × Nat × Collective) (c : Crew) : Crew := c.withRing x.2.1 (entered x.2.2.slot)

/-- A collective of a crew and ring given an entry in the copy queue. -/
def enterCopy (s : State) (x : Nat × Nat × Collective) : State :=
  let t := onCrew s x.1 (enteredIn x)
  { t with clus := { t.clus with copies := t.clus.copies ++
    [{ crew := x.1, ring := x.2.1, slot := x.2.2.slot, running := false, chunk := none, pos := 0, stalled := false }] } }

/-- Taking entries in the copy queue ends, or takes one for the oldest collective that waits for it. -/
theorem enqueueCopies_succ (s : State) (n : Nat) : enqueueCopies s (n + 1) = s ∨
    ∃ x ∈ unqueued s, enqueueCopies s (n + 1) = enqueueCopies (enterCopy s x) n := by
  rw [enqueueCopies]
  split
  · exact .inl rfl
  · cases h : oldestOpened (unqueued s) with
    | none => exact .inl rfl
    | some x => exact .inr ⟨x, oldestOpened_mem h, rfl⟩

/-- What every entry taken keeps, all of them keep. -/
theorem enqueueCopies_keeps {p : State → Prop} (hp : ∀ s x, x ∈ unqueued s → p s → p (enterCopy s x)) (n : Nat) :
    ∀ s, p s → p (enqueueCopies s n) := by
  induction n with
  | zero => exact fun _ h => h
  | succ n ih =>
    intro s h
    rcases enqueueCopies_succ s n with he | ⟨x, hx, he⟩
    · rwa [he]
    · rw [he]
      exact ih _ (hp s x hx h)

/-- Entries taken in the copy queue leave the rings of the crew in focus as they were but for that. -/
theorem unentered_enqueueCopies (s : State) (n : Nat) :
    (enqueueCopies s n).crew.rings.map Ring.unentered = s.crew.rings.map Ring.unentered :=
  enqueueCopies_keeps (p := fun t => t.crew.rings.map Ring.unentered = s.crew.rings.map Ring.unentered)
    (fun t x _ h => (map_rings_onCrew (s := t) (id := x.1) _ (unentered_entered _)).trans h) n s rfl

/-- What may take an entry is a collective of a ring of some crew. -/
theorem mem_unqueued {x : Nat × Nat × Collective} (h : x ∈ unqueued s) :
    ∃ c ∈ s.allCrews, ∃ y, c.id = x.1 ∧ c.rings[x.2.1]? = some y ∧ x.2.2 ∈ y.collectives := by
  unfold unqueued at h
  obtain ⟨c, hc, h⟩ := List.mem_flatMap.mp h
  obtain ⟨⟨y, k⟩, hy, h⟩ := List.mem_flatMap.mp h
  obtain ⟨g, hg, rfl⟩ := List.mem_map.mp h
  obtain ⟨hk, heq⟩ := List.mem_zipIdx' hy
  exact ⟨c, (List.mem_filter.mp hc).1, y, rfl, heq ▸ List.getElem?_eq_getElem hk, (List.mem_filter.mp hg).1⟩

theorem mem_allCrews {c : Crew} (h : c ∈ s.allCrews) : c = s.crew ∨ c ∈ s.crews := by
  unfold State.allCrews at h
  split at h
  · simpa using h
  · exact .inr h

/-- No collective of an emptied ring takes an entry. -/
theorem RingEmptied.unqueued_ne (h : RingEmptied id r s) {x : Nat × Nat × Collective} (hx : x ∈ Machine.unqueued s) :
    ¬ (x.1 = id ∧ x.2.1 = r) := by
  rintro ⟨rfl, rfl⟩
  obtain ⟨c, hc, y, hid, hy, hg⟩ := mem_unqueued hx
  rcases mem_allCrews hc with rfl | hc
  · rw [h.idle y hy] at hg
    cases hg
  · exact h.others c hc hid

theorem onCrew_id {f : Crew → Crew} (hf : ∀ c, (f c).id = c.id) : (onCrew s id f).crew.id = s.crew.id := by
  unfold onCrew
  split
  · exact hf _
  · rfl

theorem mem_onCrew_crews {f : Crew → Crew} (hf : ∀ c, (f c).id = c.id) {c : Crew} (hc : c ∈ (onCrew s id f).crews) :
    ∃ o ∈ s.crews, o.id = c.id := by
  unfold onCrew at hc
  split at hc
  · exact ⟨c, hc, rfl⟩
  · obtain ⟨o, ho, rfl⟩ := List.mem_map.mp hc
    refine ⟨o, ho, ?_⟩
    split
    · exact (hf o).symm
    · rfl

theorem onCrew_clus {f : Crew → Crew} : (onCrew s id f).clus = s.clus := by
  unfold onCrew
  split <;> rfl

/-- A ring without collectives has none after an entry is taken. -/
theorem collectives_enterCopy {x : Nat × Nat × Collective} {y : Ring} (hy : (Machine.enterCopy s x).crew.rings[r]? = some y)
    (h : ∀ z, s.crew.rings[r]? = some z → z.collectives = []) : y.collectives = [] := by
  have hmap : (Machine.enterCopy s x).crew.rings.map Ring.unentered = s.crew.rings.map Ring.unentered :=
    map_rings_onCrew (s := s) (id := x.1) Ring.unentered (unentered_entered x.2.2.slot)
  have hat : (some y).map Ring.unentered = (s.crew.rings[r]?).map Ring.unentered := by
    rw [← hy, ← List.getElem?_map, hmap, List.getElem?_map]
  obtain ⟨z, hz, hzy⟩ := Option.map_eq_some_iff.mp hat.symm
  have hc : z.unentered.collectives = y.unentered.collectives := congrArg Ring.collectives hzy
  simpa [Ring.unentered, h z hz] using hc

theorem RingEmptied.enterCopy (h : RingEmptied id r s) {x : Nat × Nat × Collective} (hx : x ∈ Machine.unqueued s) :
    RingEmptied id r (enterCopy s x) where
  own := (onCrew_id (s := s) (id := x.1) (f := enteredIn x) (fun _ => rfl)).trans h.own
  others c hc := by
    obtain ⟨o, ho, hoc⟩ := mem_onCrew_crews (s := s) (id := x.1) (f := enteredIn x) (fun _ => rfl) hc
    exact hoc ▸ h.others o ho
  idle y hy := collectives_enterCopy hy h.idle
  unqueued c hc := by
    rcases List.mem_append.mp hc with hc' | hc'
    · rw [onCrew_clus] at hc'
      exact h.unqueued c hc'
    · rw [List.mem_singleton.mp hc']
      exact h.unqueued_ne hx

theorem RingEmptied.enqueueCopies (h : RingEmptied id r s) (n : Nat) : RingEmptied id r (enqueueCopies s n) :=
  enqueueCopies_keeps (fun _ _ hx h => h.enterCopy hx) n s h

end

section
variable {u : State} {n m : Nat} {x : Ring} {accept : Bool}

/-- Everything in a ring discarded but what takes the entries that its commands leave. -/
def ringCleared (s : State) (r : Nat) : State :=
  let mine : Crew → Crew := fun c => { c with rings := c.rings.mapIdx (fun i x =>
    if i = r then { x with collectives := x.collectives.map (fun g =>
      { g with receivers := g.receivers.filter (fun p => p.1 != s.crew.id) }) } else x) }
  let t := onRing (forgetSlots { s with
    crew := mine s.crew
    crews := s.crews.map (fun c => if c.clus = s.crew.clus then mine c else c)
    nles := s.nles.filter (fun o => !streamsInto s r o) } s.crew.id r) r (fun x => { x with collectives := [] })
  { t with clus := { t.clus with copies := t.clus.copies.filter (fun c => !(c.crew == s.crew.id && c.ring == r)) } }

theorem discardRing_eq (s : State) (r : Nat) : discardRing s r = enqueueCopies (ringCleared s r) 64 := rfl

theorem getElem?_ringCleared (s : State) (r : Nat) : (ringCleared s r).crew.rings[m]? =
    (s.crew.rings[m]?).map (fun y => if m = r then { y with collectives := [] } else y) := by
  show (Crew.withRing _ r _).rings[m]? = _
  rw [getElem?_withRing]
  show Option.map _ ((s.crew.rings.mapIdx _)[m]?) = _
  rw [List.getElem?_mapIdx, Option.map_map]
  cases s.crew.rings[m]? with
  | none => rfl
  | some y =>
    simp only [Option.map_some, Function.comp_apply]
    split <;> rfl

theorem length_ringCleared (s : State) (r : Nat) : (ringCleared s r).crew.rings.length = s.crew.rings.length := by
  show ((s.crew.rings.mapIdx _).mapIdx _).length = _
  rw [List.length_mapIdx, List.length_mapIdx]

theorem ringCleared_emptied (h : ∀ c ∈ u.crews, c.id ≠ u.crew.id) : RingEmptied u.crew.id n (ringCleared u n) where
  own := rfl
  others c hc := by
    obtain ⟨o, ho, rfl⟩ := List.mem_map.mp hc
    split <;> exact h o ho
  idle y hy := by
    rw [getElem?_ringCleared] at hy
    obtain ⟨z, _, rfl⟩ := Option.map_eq_some_iff.mp hy
    rw [if_pos rfl]
  unqueued c hc := by
    have hnot := (List.mem_filter.mp hc).2
    simpa [imp_iff_not_or] using hnot

/-- A ring of the crew in focus put in the place of another, and its bit of an acceptance set. -/
def ringPut (t : State) (mcast : BitVec 8) (r : Nat) (x : Ring) (accept : Bool) : State :=
  { onRing t r (fun _ => x) with
    crew := { (onRing t r (fun _ => x)).crew with
      mcast := if accept then mcast ||| BitVec.ofNat 8 (2 ^ r) else mcast &&& ~~~BitVec.ofNat 8 (2 ^ r) } }

theorem bindRing_eq : bindRing u n x accept =
    ringPut (enqueueCopies (ringCleared (forgetSlices u n) n) 64) u.crew.mcast n x accept := by
  rw [← discardRing_eq]
  rfl

theorem ringPut_frame {t : State} {mcast : BitVec 8} : (ringPut t mcast n x accept).sp = t.sp ∧
    (ringPut t mcast n x accept).mem = t.mem ∧ (ringPut t mcast n x accept).w = t.w ∧
    (ringPut t mcast n x accept).clus = t.clus := ⟨rfl, rfl, rfl, rfl⟩

theorem ringCleared_frame : (ringCleared u n).sp = u.sp ∧ (ringCleared u n).mem = u.mem ∧ (ringCleared u n).w = u.w :=
  ⟨rfl, rfl, rfl⟩

/-- A ring's binding changes neither the issuing split nor memory, and of the warp only what the slices of its waiting
splits are. -/
theorem bindRing_frame : (bindRing u n x accept).sp = u.sp ∧ (bindRing u n x accept).mem = u.mem ∧
    (bindRing u n x accept).w = (forgetSlices u n).w := by
  have h := requeued_enqueueCopies (ringCleared (forgetSlices u n) n) 64
  obtain ⟨hsp, hmem, hw⟩ := ringCleared_frame (u := forgetSlices u n) (n := n)
  generalize ht : enqueueCopies (ringCleared (forgetSlices u n) n) 64 = t at h
  rw [bindRing_eq, ht]
  exact ⟨h.sp.trans hsp, h.mem.trans hmem, h.w.trans hw⟩

theorem getElem?_ringPut {t : State} {mcast : BitVec 8} : (ringPut t mcast n x accept).crew.rings[m]? =
    (t.crew.rings[m]?).map (fun y => if m = n then x else y) := getElem?_withRing _

theorem getElem?_bindRing : (bindRing u n x accept).crew.rings[m]? =
    ((enqueueCopies (ringCleared (forgetSlices u n) n) 64).crew.rings[m]?).map (fun y => if m = n then x else y) := by
  rw [bindRing_eq, getElem?_ringPut]

/-- The other rings are as they were, but for entries their collectives may have taken. -/
theorem unentered_discardRing (hne : m ≠ n) :
    ((enqueueCopies (ringCleared (forgetSlices u n) n) 64).crew.rings[m]?).map Ring.unentered =
      (u.crew.rings[m]?).map Ring.unentered := by
  rw [← List.getElem?_map, unentered_enqueueCopies, List.getElem?_map, getElem?_ringCleared, Option.map_map]
  refine congrArg (fun f => Option.map f u.crew.rings[m]?) (funext fun y => ?_)
  simp only [Function.comp_apply, if_neg hne]

theorem bindRing_other (hne : m ≠ n) : ((bindRing u n x accept).crew.rings[m]?).map Ring.unentered =
    (u.crew.rings[m]?).map Ring.unentered := by
  rw [getElem?_bindRing, ← unentered_discardRing hne, Option.map_map]
  simp only [if_neg hne]
  rfl

theorem bindRing_same (hn : n < u.crew.rings.length) : (bindRing u n x accept).crew.rings[n]? = some x := by
  have hlen := congrArg List.length (unentered_enqueueCopies (ringCleared (forgetSlices u n) n) 64)
  have hn' : n < (enqueueCopies (ringCleared (forgetSlices u n) n) 64).crew.rings.length := by
    simp only [List.length_map] at hlen
    rw [hlen, length_ringCleared]
    exact hn
  rw [getElem?_bindRing, List.getElem?_eq_getElem hn', Option.map_some, if_pos rfl]

theorem bindRing_copies (h : ∀ c ∈ u.crews, c.id ≠ u.crew.id) :
    ∀ c ∈ (bindRing u n x accept).clus.copies, ¬ (c.crew = u.crew.id ∧ c.ring = n) := by
  rw [bindRing_eq, ringPut_frame.2.2.2]
  exact ((ringCleared_emptied (u := forgetSlices u n) h).enqueueCopies 64).unqueued

theorem getLsbD_bindRing_mcast (hm : m < 8) : (bindRing u n x accept).crew.mcast.getLsbD m =
    if m = n then accept else u.crew.mcast.getLsbD m := by
  have hbit : (BitVec.ofNat 8 (2 ^ n)).getLsbD m = decide (m = n) := by
    rw [BitVec.getLsbD_ofNat, Nat.testBit_two_pow, decide_eq_true hm, Bool.true_and]
    exact decide_eq_decide.mpr eq_comm
  show (if accept then u.crew.mcast ||| _ else u.crew.mcast &&& ~~~ _).getLsbD m = _
  cases accept with
  | true =>
    rw [if_pos rfl, BitVec.getLsbD_or, hbit]
    by_cases h : m = n <;> simp [h]
  | false =>
    rw [if_neg Bool.false_ne_true, BitVec.getLsbD_and, BitVec.getLsbD_not, hbit]
    by_cases h : m = n <;> simp [h, hm]

end

/-! RNGDEF's checks, in their order (R187; log 45). -/

section
variable {i : Instr} {s : State} {r b : BitVec 6} {va : Nat} {bs : List Byte}

/-- RNGDEF where some lane passes the guard. -/
def rngdefBody (r b : BitVec 6) (s : State) : Res :=
  let va := (kget s b.toNat).toNat
  if s.crew.dispatch then trapOpen s cProt
  else if rngRefused s r.toNat then trapHere s cOperand 2
  else if va = 0 then .ok (bindRing s r.toNat Ring.blank false)
  else if va % 32 ≠ 0 then trapHere s cAlign va
  else if !inCrewMemory s va 32 then trapHere s cProt va
  else match readRecord s needR 32 va 32 with
    | .error (c, v) => trapHere s c v
    | .ok bs =>
      let v := leNat bs
      let x := ringOf (kget s b.toNat) v
      if ringBad v then trapHere s cOperand 3
      else if !inCrewMemory s x.base (x.depth * x.slotBytes) then trapHere s cOperand 4
      else .ok (bindRing s r.toNat x (bitsOf v 88 1 == 1))

/-- A split whose slice is to be checked again. -/
def unsliced (r : Nat) (p : Split) : Split := if waitsOnRing r p then { p with slice := none } else p

theorem stopDue_unsliced (r : Nat) (p : Split) : (unsliced r p).stopDue = p.stopDue := by
  unfold unsliced
  split <;> rfl

theorem forgetSlices_w (s : State) (r : Nat) : (forgetSlices s r).w =
    { s.w with splits := s.w.splits.map (unsliced r), overflow := s.w.overflow.map (unsliced r) } := rfl

/-- A ring's binding leaves nothing to be stopped. -/
theorem finish_bindRing {n : Nat} {x : Ring} {accept : Bool} (hi : Issues i s) :
    finish i false (.ok (bindRing (issued i s) n x accept)) = retired (bindRing (issued i s) n x accept) := by
  obtain ⟨hsp, _, hw⟩ := bindRing_frame (u := issued i s) (n := n) (x := x) (accept := accept)
  refine finish_ok (by rw [hsp]; exact issued_stopDue hi.whole.1 hi.whole.2.1) ?_
  have hstop : Split.stopDue ∘ unsliced n = Split.stopDue := funext (stopDue_unsliced n)
  rw [hw, forgetSlices_w, ← List.map_append, List.filter_map, hstop, List.map_eq_nil_iff]
  exact hi.whole.2.2

theorem onceResult_bindRing {n : Nat} {x : Ring} {accept : Bool} (he : exec i s = run i (fun s => once s (rngdefBody r b)) s)
    (hb : rngdefBody r b (issued i s) = .ok (bindRing (issued i s) n x accept)) :
    OnceResult i s (fun u => bindRing u n x accept) :=
  (once_ends he (fun hi _ => by rw [hb]; exact finish_bindRing hi) :
    OnceEnds i s (fun u => retired (bindRing u n x accept))).result

theorem bitsOf_one_eq (v n : Nat) : (bitsOf v n 1 == 1) = v.testBit n := by
  rw [Nat.testBit_eq_decide_div_mod_eq, beq_eq_decide]
  rfl

/-- Part of a range lies outside the crew's memory. -/
def outsideCrew (s : State) (a n : Nat) : Prop := a < s.crew.cmbase ∨ s.crew.cmbase + s.crew.cmsize < a + n

theorem inCrewMemory_eq_false {a n : Nat} : inCrewMemory s a n = false ↔ outsideCrew s a n := by
  unfold inCrewMemory outsideCrew
  simp only [Bool.and_eq_false_iff, decide_eq_false_iff_not, Nat.not_le]

theorem inCrewMemory_eq_true {a n : Nat} (h : ¬ outsideCrew s a n) : inCrewMemory s a n = true := by
  rw [← inCrewMemory_eq_false] at h
  exact Bool.not_eq_false _ ▸ h

variable (hd : s.crew.dispatch = false)
include hd

/-- RNGDEF's checks at its issue. -/
theorem rngdefBody_issued (i : Instr) : rngdefBody r b (issued i s) =
    if rngRefused s r.toNat then .trap cOperand 2 s.sp.pc (issued i s)
    else if (kget s b.toNat).toNat = 0 then .ok (bindRing (issued i s) r.toNat Ring.blank false)
    else if (kget s b.toNat).toNat % 32 ≠ 0 then .trap cAlign (kget s b.toNat) s.sp.pc (issued i s)
    else if !inCrewMemory s (kget s b.toNat).toNat 32 then .trap cProt (kget s b.toNat) s.sp.pc (issued i s)
    else match readRecord s needR 32 (kget s b.toNat).toNat 32 with
      | .error (c, v) => .trap c (BitVec.ofNat 64 v) s.sp.pc (issued i s)
      | .ok bs =>
        if ringBad (leNat bs) then .trap cOperand 3 s.sp.pc (issued i s)
        else if !inCrewMemory s (ringOf (kget s b.toNat) (leNat bs)).base
          ((ringOf (kget s b.toNat) (leNat bs)).depth * (ringOf (kget s b.toNat) (leNat bs)).slotBytes) then
          .trap cOperand 4 s.sp.pc (issued i s)
        else .ok (bindRing (issued i s) r.toNat (ringOf (kget s b.toNat) (leNat bs)) (bitsOf (leNat bs) 88 1 == 1)) := by
  unfold rngdefBody
  rw [if_neg (show ¬ (issued i s).crew.dispatch = true from hd ▸ Bool.false_ne_true), readRecord_issued, kget_issued,
    trapHere_toNat, trapHere_toNat]
  rfl

/-- How RNGDEF ends in each case of its checks. -/
structure RngdefEnds (i : Instr) (s : State) (r b : BitVec 6) : Prop where
  used : rngRefused s r.toNat = true → OnceEnds i s (fun u => trapped u cOperand 2 s.sp.pc)
  unbinds : rngRefused s r.toNat = false → (kget s b.toNat).toNat = 0 →
    OnceResult i s (fun u => bindRing u r.toNat Ring.blank false)
  unaligned : rngRefused s r.toNat = false → (kget s b.toNat).toNat ≠ 0 → (kget s b.toNat).toNat % 32 ≠ 0 →
    OnceEnds i s (fun u => trapped u cAlign (kget s b.toNat) s.sp.pc)
  outside : rngRefused s r.toNat = false → (kget s b.toNat).toNat ≠ 0 → (kget s b.toNat).toNat % 32 = 0 →
    outsideCrew s (kget s b.toNat).toNat 32 → OnceEnds i s (fun u => trapped u cProt (kget s b.toNat) s.sp.pc)
  unread : rngRefused s r.toNat = false → (kget s b.toNat).toNat ≠ 0 → (kget s b.toNat).toNat % 32 = 0 →
    ¬ outsideCrew s (kget s b.toNat).toNat 32 → ∀ c v, readRecord s needR 32 (kget s b.toNat).toNat 32 = .error (c, v) →
    OnceEnds i s (fun u => trapped u c (BitVec.ofNat 64 v) s.sp.pc)
  read : rngRefused s r.toNat = false → (kget s b.toNat).toNat ≠ 0 → (kget s b.toNat).toNat % 32 = 0 →
    ¬ outsideCrew s (kget s b.toNat).toNat 32 → ∀ bs, readRecord s needR 32 (kget s b.toNat).toNat 32 = .ok bs →
    let x := ringOf (kget s b.toNat) (leNat bs)
    (ringBad (leNat bs) = true → OnceEnds i s (fun u => trapped u cOperand 3 s.sp.pc)) ∧
    (ringBad (leNat bs) = false → outsideCrew s x.base (x.depth * x.slotBytes) →
      OnceEnds i s (fun u => trapped u cOperand 4 s.sp.pc)) ∧
    (ringBad (leNat bs) = false → ¬ outsideCrew s x.base (x.depth * x.slotBytes) →
      OnceResult i s (fun u => bindRing u r.toNat x ((leNat bs).testBit 88)))

theorem rngdef_ends (he : exec i s = run i (fun s => once s (rngdefBody r b)) s) : RngdefEnds i s r b := by
  have hbody := rngdefBody_issued (r := r) (b := b) hd i
  refine ⟨fun hu => once_trap he ?_, fun hu h0 => onceResult_bindRing he ?_, fun hu h0 ha => once_trap he ?_,
    fun hu h0 ha ho => once_trap he ?_, fun hu h0 ha ho c v hr => once_trap he ?_, fun hu h0 ha ho bs hr => ?_⟩
  · rw [hbody, if_pos hu]
  · rw [hbody, if_neg (hu ▸ Bool.false_ne_true), if_pos h0]
  · rw [hbody, if_neg (hu ▸ Bool.false_ne_true), if_neg h0, if_pos ha]
  · rw [hbody, if_neg (hu ▸ Bool.false_ne_true), if_neg h0, if_neg (not_not.mpr ha), inCrewMemory_eq_false.mpr ho]
    rfl
  · rw [hbody, if_neg (hu ▸ Bool.false_ne_true), if_neg h0, if_neg (not_not.mpr ha), inCrewMemory_eq_true ho, hr]
    rfl
  · have hread : rngdefBody r b (issued i s) =
        if ringBad (leNat bs) then .trap cOperand 3 s.sp.pc (issued i s)
        else if !inCrewMemory s (ringOf (kget s b.toNat) (leNat bs)).base
          ((ringOf (kget s b.toNat) (leNat bs)).depth * (ringOf (kget s b.toNat) (leNat bs)).slotBytes) then
          .trap cOperand 4 s.sp.pc (issued i s)
        else .ok (bindRing (issued i s) r.toNat (ringOf (kget s b.toNat) (leNat bs)) (bitsOf (leNat bs) 88 1 == 1)) := by
      rw [hbody, if_neg (hu ▸ Bool.false_ne_true), if_neg h0, if_neg (not_not.mpr ha), inCrewMemory_eq_true ho, hr]
      rfl
    refine ⟨fun hbad => once_trap he ?_, fun hbad hout => once_trap he ?_, fun hbad hout => onceResult_bindRing he ?_⟩
    · rw [hread, if_pos hbad]
    · rw [hread, if_neg (hbad ▸ Bool.false_ne_true), inCrewMemory_eq_false.mpr hout]
      rfl
    · rw [hread, if_neg (hbad ▸ Bool.false_ne_true), inCrewMemory_eq_true hout, bitsOf_one_eq]
      rfl

end

/-- Settles O34: RNGDEF's body is its checks in their order and then the binding, and a binding changes no other ring but for
the entries that what it discards leaves to their collectives. -/
theorem ringDefinitions : Obligations.RingDefinitions := by
  intro s r b hd
  have h : RngdefEnds (.rngdef r b) s r b := rngdef_ends hd rfl
  refine ⟨h.used, h.unbinds, h.unaligned, h.outside, fun hu h0 ha ho => ⟨h.unread hu h0 ha ho, h.read hu h0 ha ho⟩,
    fun u n x accept hn hid => ?_⟩
  obtain ⟨hsp, hmem, hw⟩ := bindRing_frame (u := u) (n := n) (x := x) (accept := accept)
  exact ⟨bindRing_same hn, fun m hm => bindRing_other hm, fun m hm => getLsbD_bindRing_mcast hm, bindRing_copies hid,
    hsp, hmem, hw⟩

end Sys2Proof.Machine
end

section
/-! PROOFS. Fences and the cache invalidations (R180 to R183). -/

namespace Sys2Proof.Machine

/-! What a fence waits for (R180, R181). -/

section
variable {s : State} {p q c : BitVec 6}

/-- A stream whose ring has no free slot. -/
def Streaming (s : State) (o : NleOp) : Prop := o.kind = .stream ∧ o.todo.isSome = true ∧ ∃ x ∈ s.allCrews, x.id = o.crew ∧
  (x.rings.getD o.ring Ring.blank).depth ≤ (x.rings.getD o.ring Ring.blank).res - (x.rings.getD o.ring Ring.blank).rel

/-- The warp's copies and neighbour-list operations that hold a fence back. -/
def CopiesOpen (s : State) : Prop :=
  (∃ w ∈ s.allCrews, ∃ r ∈ w.rings, ∃ g ∈ r.collectives, ∃ x ∈ g.slices, x.warp = s.w.id) ∨
    ∃ o ∈ s.nles, o.warp = s.w.id ∧ o.fault = none ∧ ¬ Streaming s o

/-- The warp's tasks and taps that hold a fence back. -/
def TasksOpen (s : State) : Prop :=
  (∃ t ∈ s.clus.tasks, t.warp = s.w.id) ∨ ∃ t ∈ s.ctx.taps, t.warp = s.w.id ∧ t.stage ≠ .done

/-- A fence's masks name something that is under way. -/
def FenceBlocked (s : State) (p q : BitVec 6) : Prop :=
  p ≠ 0 ∧ q ≠ 0 ∧ ((p.extractLsb' 2 2 ≠ 0 ∧ CopiesOpen s) ∨ (p.extractLsb' 4 2 ≠ 0 ∧ TasksOpen s))

theorem streamFull_iff {o : NleOp} : streamFull s o = true ↔ Streaming s o := by
  unfold streamFull Streaming
  simp only [Bool.and_eq_true, beq_iff_eq, List.any_eq_true, decide_eq_true_eq, and_assoc]

theorem copiesOpen_iff : copiesOpen s = true ↔ CopiesOpen s := by
  unfold copiesOpen CopiesOpen
  simp only [Bool.or_eq_true, List.any_eq_true, Bool.and_eq_true, beq_iff_eq, Option.isNone_iff_eq_none, Bool.not_eq_true',
    ← Bool.not_eq_true, streamFull_iff, and_assoc]

theorem tasksOpen_iff : tasksOpen s = true ↔ TasksOpen s := by
  unfold tasksOpen TasksOpen
  simp only [Bool.or_eq_true, List.any_eq_true, Bool.and_eq_true, beq_iff_eq, bne_iff_ne]

theorem fenceHolds_iff : fenceHolds s p q = true ↔ ¬ FenceBlocked s p q := by
  unfold fenceHolds FenceBlocked
  simp only [Bool.or_eq_true, Bool.not_eq_true', ← Bool.not_eq_true, Bool.and_eq_true, bne_iff_ne, decide_eq_true_eq,
    copiesOpen_iff, tasksOpen_iff]
  tauto

theorem fenceHolds_issued (i : Instr) (s : State) : fenceHolds (issued i s) p q = fenceHolds s p q := rfl

/-- FENCE's judgement, at its issue and after. -/
def fenceBody (p q c : BitVec 6) (again : Bool) (s : State) : Res :=
  if !again && !anyLane s then .ok s
  else if fenceHolds s p q then .ok (fenceMem s p.toNat q.toNat c.toNat)
  else .wait s

theorem fenceBody_idle (i : Instr) (h : anyLane s = false) : fenceBody p q c false (issued i s) = .ok (issued i s) := by
  unfold fenceBody
  rw [anyLane_issued, h]
  rfl

theorem fenceBody_ends (i : Instr) (h : anyLane s = true) (hb : ¬ FenceBlocked s p q) :
    fenceBody p q c false (issued i s) = .ok (fenceMem (issued i s) p.toNat q.toNat c.toNat) := by
  unfold fenceBody
  rw [anyLane_issued, h, fenceHolds_issued, fenceHolds_iff.mpr hb]
  rfl

theorem fenceBody_waits (i : Instr) (h : anyLane s = true) (hb : FenceBlocked s p q) :
    fenceBody p q c false (issued i s) = .wait (issued i s) := by
  unfold fenceBody
  rw [anyLane_issued, h, fenceHolds_issued, Bool.eq_false_iff.mpr (fun hh => fenceHolds_iff.mp hh hb)]
  rfl

theorem fence_ends {i : Instr} (he : exec i s = runW i (fenceBody p q c) s) (hb : ¬ FenceBlocked s p q) (hi : Issues i s) :
    exec i s = .next (retired (if anyLane s then fenceMem (issued i s) p.toNat q.toNat c.toNat else issued i s)) := by
  rw [he]
  cases h : anyLane s with
  | true =>
    refine runW_ok hi (fenceBody_ends i h hb) ?_ ?_
    · rw [fenceMem_eq]
      exact issued_stopDue hi.whole.1 hi.whole.2.1
    · rw [fenceMem_eq]
      exact hi.whole.2.2
  | false => exact runW_ok hi (fenceBody_idle i h) (issued_stopDue hi.whole.1 hi.whole.2.1) hi.whole.2.2

theorem fence_waits {i : Instr} (he : exec i s = runW i (fenceBody p q c) s) (hb : FenceBlocked s p q) (hi : Issues i s) :
    exec i s = .next (if anyLane s then waits i (issued i s) else retired (issued i s)) := by
  rw [he]
  cases h : anyLane s with
  | true => exact runW_wait hi (fenceBody_waits i h hb)
  | false => exact runW_ok hi (fenceBody_idle i h) (issued_stopDue hi.whole.1 hi.whole.2.1) hi.whole.2.2

theorem fence_goesOn {i : Instr} (he : exec i s = runW i (fenceBody p q c) s) (hb : ¬ FenceBlocked s p q) :
    JudgedEnds i s (goesOn (fenceMem s p.toNat q.toNat c.toNat)) := by
  refine judged_ends he ?_
  rw [fenceBody, fenceHolds_iff.mpr hb]
  rfl

end

/-! CINV (R183). -/

section
variable {s : State} {a b : BitVec 6}

theorem invalidateRange_late (s : State) (level base size : Nat) :
    ∃ l, invalidateRange s level base size = { s with late := l } ∧ (size = 0 → l = s.late) := by
  unfold invalidateRange
  split
  · exact ⟨s.late, rfl, fun _ => rfl⟩
  next h =>
    refine ⟨_, invalidateLines_eq .., fun h0 => absurd ?_ h⟩
    rw [h0]
    simp

theorem invalidateRange_lateOnly (s : State) (level base size : Nat) : LateOnly s (invalidateRange s level base size) := by
  obtain ⟨l, h, _⟩ := invalidateRange_late s level base size
  rw [LateOnly, h]

theorem cinv_ends {i : Instr} {level : Nat} (he : exec i s = run i (cinvBody level a b) s) : OnceEnds i s (fun u =>
    if 2 ^ 30 < (kget s b.toNat).toNat then trapped u cOperand (kget s b.toNat) s.sp.pc
    else if kget s b.toNat ≠ 0 ∧ 2 ^ 56 ≤ (kget s a.toNat).toNat then trapped u cProt (kget s a.toNat) s.sp.pc
    else retired (invalidateRange u level (kget s a.toNat).toNat (kget s b.toNat).toNat)) := by
  refine once_ends he (fun hi _ => ?_)
  rw [kget_issued, kget_issued]
  split
  · rfl
  · by_cases h : kget s b.toNat ≠ 0 ∧ 2 ^ 56 ≤ (kget s a.toNat).toNat
    · rw [if_pos h, if_pos (by simpa [canonical] using h)]
      rfl
    · rw [if_neg h, if_neg (by simpa [canonical] using h)]
      obtain ⟨hsp, hs, ho⟩ := (invalidateRange_lateOnly (issued i s) level (kget s a.toNat).toNat (kget s b.toNat).toNat).sameSplits
      exact finish_ok_of_splits hi hsp hs ho

end

/-- Settles O39: a fence ends unless its masks name something that is under way, and its end, like CINV's, changes only what is
known of the writes. -/
theorem fences : Obligations.Fences := by
  intro s p q c a b
  refine ⟨fence_ends rfl, fence_waits rfl, fence_goesOn rfl, fun j level hj => ?_, invalidateRange_late s⟩
  rcases hj with ⟨rfl, rfl⟩ | ⟨rfl, rfl⟩
  · exact cinv_ends rfl
  · exact cinv_ends rfl

end Sys2Proof.Machine
end

section
/-! PROOFS. Waits for a ring's slots, and their releases (R192 to R196, R399). -/

namespace Sys2Proof.Machine

/-! AWAITF's judgement (R192, R195, R196). -/

section
variable {s : State} {r j c : Nat} {chunk : Option Nat} {x : Ring} {f : HeldFault}

/-- The slot of a cursor, or a chunk of it, is filled. -/
def SlotFilled (x : Ring) (c : Nat) (chunk : Option Nat) : Prop :=
  c < x.fil ∨ (c = x.fil ∧ ∃ j, chunk = some j ∧ j ∈ x.chunks)

/-- No fault that has been delivered is held for the slot of a cursor. -/
def NoneDelivered (x : Ring) (c : Nat) : Prop := ∀ f, x.fault = some f → f.delivered = false ∨ f.slot ≠ c

/-- The cursor of the issuing warp in a ring. -/
def myCursor (s : State) (r : Nat) : Nat := (ringAt s r).cursor s.w.id

theorem awaitBad_unbound (h : x.bound = false) : awaitBad x chunk = some 1 := by
  rw [awaitBad, h]
  rfl

theorem awaitBad_noChunk (h : x.bound = true) (hj : x.chunkCount ≤ j) : awaitBad x (some j) = some 7 := by
  rw [awaitBad, h, Option.map_some, decide_eq_true hj]
  rfl

theorem awaitBad_eq_none (h : x.bound = true) (hj : ∀ j, chunk = some j → j < x.chunkCount) : awaitBad x chunk = none := by
  rw [awaitBad, h]
  cases chunk with
  | none => rfl
  | some j =>
    rw [Option.map_some, decide_eq_false (Nat.not_le.mpr (hj j rfl))]
    rfl

theorem awaitTry_bad {v : Nat} (h : awaitBad (ringAt s r) chunk = some v) :
    awaitTry r chunk s = trapHere s cOperand v := by
  rw [awaitTry, h]

theorem awaitTry_filled (h : awaitBad (ringAt s r) chunk = none) (hf : SlotFilled (ringAt s r) (myCursor s r) chunk) :
    awaitTry r chunk s = .ok (awaitDone r chunk s) := by
  rw [awaitTry, h]
  rcases hf with hlt | ⟨heq, j, rfl, hj⟩
  · exact if_pos hlt
  · refine (if_neg (show ¬ myCursor s r < _ by omega)).trans (if_pos ?_)
    rw [Bool.and_eq_true, decide_eq_true_iff]
    exact ⟨heq, List.contains_iff_mem.mpr hj⟩

theorem awaitTry_unfilled (h : awaitBad (ringAt s r) chunk = none) (hf : ¬ SlotFilled (ringAt s r) (myCursor s r) chunk) :
    awaitTry r chunk s = match (ringAt s r).fault with
      | some f => if f.slot = myCursor s r then awaitFault s r f else .wait s
      | none => .wait s := by
  have hchunk : ¬ (decide (myCursor s r = (ringAt s r).fil) &&
      (chunk.map (fun j => (ringAt s r).chunks.contains j)).getD false) = true := by
    rw [Bool.and_eq_true, decide_eq_true_iff]
    rintro ⟨heq, hj⟩
    cases chunk with
    | none => cases hj
    | some j => exact hf (.inr ⟨heq, j, rfl, List.contains_iff_mem.mp hj⟩)
  rw [awaitTry, h]
  exact (if_neg (fun hlt => hf (.inl hlt))).trans (if_neg hchunk)

theorem awaitTry_waits (h : awaitBad (ringAt s r) chunk = none) (hf : ¬ SlotFilled (ringAt s r) (myCursor s r) chunk)
    (hnone : (ringAt s r).fault = none) : awaitTry r chunk s = .wait s := by
  rw [awaitTry_unfilled h hf, hnone]

theorem awaitTry_faulted (h : awaitBad (ringAt s r) chunk = none) (hf : ¬ SlotFilled (ringAt s r) (myCursor s r) chunk)
    (hfault : (ringAt s r).fault = some f) (hslot : f.slot = myCursor s r) : awaitTry r chunk s = awaitFault s r f := by
  rw [awaitTry_unfilled h hf, hfault]
  exact if_pos hslot

theorem awaitIssue_calm (h : NoneDelivered (ringAt s r) (myCursor s r)) : awaitIssue r chunk s = awaitTry r chunk s := by
  unfold awaitIssue
  split
  next f hf =>
    refine if_neg ?_
    rw [Bool.and_eq_true, Bool.and_eq_true, beq_iff_eq]
    rintro ⟨⟨hd, hs⟩, _⟩
    rcases h f hf with hn | hn
    · exact Bool.false_ne_true (hn.symm.trans hd)
    · exact hn hs
  · rfl

theorem awaitIssue_bad {v : Nat} (h : awaitBad (ringAt s r) chunk = some v) :
    awaitIssue r chunk s = trapHere s cOperand v := by
  rw [← awaitTry_bad h]
  unfold awaitIssue
  split
  · refine if_neg ?_
    rw [h, Option.isNone_some, Bool.and_false]
    exact Bool.false_ne_true
  · rfl

theorem awaitIssue_delivered (h : awaitBad (ringAt s r) chunk = none) (hfault : (ringAt s r).fault = some f)
    (hslot : f.slot = myCursor s r) (hd : f.delivered = true) : awaitIssue r chunk s =
      if stillMissing s f then awaitFault s r { f with delivered := false } else awaitTry r chunk (restartCommand s r) := by
  unfold awaitIssue
  rw [hfault]
  refine if_pos ?_
  rw [h, hd, hslot]
  show (true && myCursor s r == myCursor s r && true) = true
  rw [beq_self_eq_true]
  rfl

theorem awaitFault_raises (h : f.delivered = false) : awaitFault s r f = .trap f.cause f.addr s.sp.pc
    (if f.cause = cPage && deliverable s then onRing s r (fun x => { x with fault := some { f with delivered := true } })
     else s) := if_neg (h ▸ Bool.false_ne_true)

theorem ringAt_onRing {g : Ring → Ring} (h : r < s.crew.rings.length) : ringAt (onRing s r g) r = g (ringAt s r) := by
  show (Crew.withRing _ r g).rings.getD r Ring.blank = g (s.crew.rings.getD r Ring.blank)
  rw [List.getD_eq_getElem?_getD, getElem?_withRing, List.getElem?_eq_getElem h, List.getD_eq_getElem?_getD,
    List.getElem?_eq_getElem h, Option.map_some, if_pos rfl]
  rfl

theorem length_of_bound (h : (ringAt s r).bound = true) : r < s.crew.rings.length := by
  by_contra hlen
  rw [ringAt, List.getD_eq_default _ _ (Nat.not_lt.mp hlen)] at h
  cases h

theorem ringAt_restartCommand (h : r < s.crew.rings.length) :
    ringAt (restartCommand s r) r = { ringAt s r with fault := none } :=
  ringAt_onRing (s := s) (g := fun x => { x with fault := none }) h

/-- A ring that goes on has no stalled command of its own. -/
theorem restartCommand_copies : ∀ d ∈ (restartCommand s r).clus.copies, d.crew = s.crew.id → d.ring = r →
    d.stalled = false := by
  intro d hd hcrew hring
  obtain ⟨o, _, rfl⟩ := List.mem_map.mp hd
  by_cases h : (o.crew = s.crew.id && o.ring = r) = true
  · rw [if_pos h]
  · rw [if_neg h] at hcrew hring
    exact absurd (by simp [hcrew, hring]) h

end

/-! How an AWAITF ends at its issue. -/

section
variable {i : Instr} {s : State} {r : Nat} {chunk : Option Nat} {vs : List DWord} {f : HeldFault}

theorem trapped_keepArgs (u : State) (c : Byte) (v pc : DWord) : trapped (keepArgs u vs) c v pc = trapped u c v pc := rfl

theorem trapped_onRing_keepArgs (u : State) (g : Ring → Ring) (c : Byte) (v pc : DWord) :
    trapped (onRing (keepArgs u vs) r g) c v pc = trapped (onRing u r g) c v pc := rfl

theorem ringAt_kept (i : Instr) (s : State) (r : Nat) : ringAt (keepArgs (issued i s) vs) r = ringAt s r := rfl
theorem myCursor_kept (i : Instr) (s : State) (r : Nat) : myCursor (keepArgs (issued i s) vs) r = myCursor s r := rfl
theorem deliverable_kept (u : State) : deliverable (keepArgs u vs) = deliverable u := rfl
theorem deliverable_issued (i : Instr) (s : State) : deliverable (issued i s) = deliverable s := rfl

theorem walk_sp (s : State) (p : Split) (va : Nat) (lvs : List WalkLevel) (table : Nat) :
    walk { s with sp := p } va lvs table = walk s va lvs table := by
  induction lvs generalizing table with
  | nil => rfl
  | cons lv rest ih =>
    simp only [walk, ih]
    rfl

theorem translate_sp (s : State) (p : Split) (va : Nat) : translate { s with sp := p } va = translate s va := by
  simp only [translate, walk_sp]

theorem stillMissing_kept (i : Instr) (s : State) : stillMissing (keepArgs (issued i s) vs) f = stillMissing s f := by
  unfold stillMissing keepArgs
  rw [translate_sp, translate_issued]

/-- What an AWAITF's return for the warp's slot of a ring orders before what its lanes read next. -/
def awaitOrdered (s : State) (r : Nat) (chunk : Option Nat) (u : State) : State :=
  awaitMem u r (myCursor s r) chunk
    (((ringAt s r).pasts.filter (fun y => y.1 + (ringAt s r).depth == myCursor s r)).map (fun y => y.2))

theorem awaitOrdered_keepArgs (u : State) :
    awaitOrdered s r chunk (keepArgs u vs) = keepArgs (awaitOrdered s r chunk u) vs := rfl

theorem retired_awaitOrdered (u : State) :
    retired (awaitOrdered s r chunk (keepArgs u vs)) = retired (awaitOrdered s r chunk u) := by
  rw [awaitOrdered_keepArgs]
  rfl

theorem awaitDone_eq (t : State) (hx : (ringAt t r).pasts = (ringAt s r).pasts) (hd : (ringAt t r).depth = (ringAt s r).depth)
    (hc : myCursor t r = myCursor s r) : awaitDone r chunk t = awaitOrdered s r chunk t := by
  show awaitMem t r (myCursor t r) chunk (((ringAt t r).pasts.filter (fun q =>
    q.1 + (ringAt t r).depth == myCursor t r)).map (fun q => q.2)) = _
  rw [hx, hd, hc]
  rfl

theorem finish_awaitOrdered {t : State} (hi : Issues i s) (hsp : t.sp = (keepArgs (issued i s) vs).sp)
    (hw : t.w = s.w) : finish i false (.ok (awaitOrdered s r chunk t)) = retired (awaitOrdered s r chunk t) := by
  have hlate : LateOnly t (awaitOrdered s r chunk t) := awaitMem_eq t ..
  obtain ⟨hsp', hs, ho⟩ := hlate.sameSplits
  exact finish_ok (by rw [hsp', hsp]; exact issued_stopDue hi.whole.1 hi.whole.2.1)
    (by rw [hs, ho, hw]; exact hi.whole.2.2)

/-- AWAITF where some lane passes the guard: with a chunk, and what it keeps. -/
def awaitBody (r : Nat) (chunk : State → Option Nat) (ops : State → List DWord) (s : State) : Res :=
  if s.crew.dispatch then trapOpen s cProt else awaitIssue r (chunk s) (keepArgs s (ops s))

/-- An AWAITF ends as its judgement at the issue does. -/
def AwaitsAt (i : Instr) (s : State) (r : Nat) (chunk : Option Nat) (vs : List DWord) : Prop :=
  ∀ ends : State → State,
    (Issues i s → finish i false (awaitIssue r chunk (keepArgs (issued i s) vs)) = ends (issued i s)) → OnceEnds i s ends

theorem awaitsAt {more : State → Res} {ch : State → Option Nat} {ops : State → List DWord}
    (he : exec i s = runW i (fun again s => if again then more s else once s (awaitBody r ch ops)) s)
    (hd : s.crew.dispatch = false) (hch : ∀ j, ch (issued j s) = chunk) (hops : ∀ j, ops (issued j s) = vs) :
    AwaitsAt i s r chunk vs := by
  intro ends h
  refine once_endsW he (fun hi _ => ?_)
  rw [awaitBody, if_neg (show ¬ (issued i s).crew.dispatch = true from hd ▸ Bool.false_ne_true), hch, hops]
  exact h hi

variable (ha : AwaitsAt i s r chunk vs)
include ha

theorem await_bad {v : Nat} (h : awaitBad (ringAt s r) chunk = some v) :
    OnceEnds i s (fun u => trapped u cOperand (BitVec.ofNat 64 v) s.sp.pc) :=
  ha _ (fun _ => by rw [awaitIssue_bad (s := keepArgs (issued i s) vs) h]; rfl)

theorem await_filled (h : awaitBad (ringAt s r) chunk = none) (hcalm : NoneDelivered (ringAt s r) (myCursor s r))
    (hf : SlotFilled (ringAt s r) (myCursor s r) chunk) : OnceEnds i s (fun u => retired (awaitOrdered s r chunk u)) :=
  ha _ (fun hi => by
    rw [awaitIssue_calm (s := keepArgs (issued i s) vs) hcalm, awaitTry_filled (s := keepArgs (issued i s) vs) h hf, awaitDone_eq (s := s) (keepArgs (issued i s) vs) rfl rfl rfl,
      finish_awaitOrdered (vs := vs) hi rfl rfl,
      retired_awaitOrdered])

theorem await_waits (h : awaitBad (ringAt s r) chunk = none) (hnone : (ringAt s r).fault = none)
    (hf : ¬ SlotFilled (ringAt s r) (myCursor s r) chunk) : OnceEnds i s (fun u => waits i (keepArgs u vs)) :=
  ha _ (fun hi => by
    rw [awaitIssue_calm (s := keepArgs (issued i s) vs) (fun f hh => by rw [ringAt_kept, hnone] at hh; cases hh), awaitTry_waits (s := keepArgs (issued i s) vs) h hf hnone]
    rfl)

/-- A held fault is raised, and delivering one that can be restarted keeps its record (R196). -/
theorem await_raises (h : awaitBad (ringAt s r) chunk = none) (hfault : (ringAt s r).fault = some f)
    (hslot : f.slot = myCursor s r) (hd : f.delivered = false) (hf : ¬ SlotFilled (ringAt s r) (myCursor s r) chunk) :
    OnceEnds i s (fun u => if f.cause = cPage ∧ deliverable u = true then
      trapped (onRing u r (fun y => { y with fault := some { f with delivered := true } })) f.cause f.addr s.sp.pc
      else trapped u f.cause f.addr s.sp.pc) :=
  ha _ (fun hi => by
    rw [awaitIssue_calm (s := keepArgs (issued i s) vs) (fun g hg => .inl (by rw [ringAt_kept, hfault] at hg; cases hg; exact hd)),
      awaitTry_faulted (s := keepArgs (issued i s) vs) h hf hfault hslot, awaitFault_raises hd, finish_trap, deliverable_kept]
    simp only [Bool.and_eq_true, decide_eq_true_eq]
    split
    · exact trapped_onRing_keepArgs ..
    · exact trapped_keepArgs ..)

/-- The next AWAITF issued on the slot sets the engine going before it is judged (R399). -/
theorem await_restarts (h : awaitBad (ringAt s r) chunk = none) (hb : (ringAt s r).bound = true)
    (hfault : (ringAt s r).fault = some f) (hslot : f.slot = myCursor s r) (hd : f.delivered = true)
    (hm : stillMissing s f = false) (hf : ¬ SlotFilled (ringAt s r) (myCursor s r) chunk) :
    OnceEnds i s (fun u => waits i (restartCommand (keepArgs u vs) r)) :=
  ha _ (fun hi => by
    have hring := ringAt_restartCommand (s := keepArgs (issued i s) vs) (r := r) (length_of_bound hb)
    have hcur : myCursor (restartCommand (keepArgs (issued i s) vs) r) r = myCursor s r := by
      rw [myCursor, hring]
      rfl
    rw [awaitIssue_delivered (s := keepArgs (issued i s) vs) h hfault hslot hd, stillMissing_kept, hm, if_neg Bool.false_ne_true,
      awaitTry_waits (s := restartCommand (keepArgs (issued i s) vs) r) (by rw [hring]; exact h) (by rw [hring, hcur]; exact hf) (by rw [hring])]
    rfl)

theorem await_restartsFilled (h : awaitBad (ringAt s r) chunk = none) (hb : (ringAt s r).bound = true)
    (hfault : (ringAt s r).fault = some f) (hslot : f.slot = myCursor s r) (hd : f.delivered = true)
    (hm : stillMissing s f = false) (hf : SlotFilled (ringAt s r) (myCursor s r) chunk) :
    OnceEnds i s (fun u => retired (awaitOrdered s r chunk (restartCommand u r))) :=
  ha _ (fun hi => by
    have hring := ringAt_restartCommand (s := keepArgs (issued i s) vs) (r := r) (length_of_bound hb)
    have hcur : myCursor (restartCommand (keepArgs (issued i s) vs) r) r = myCursor s r := by
      rw [myCursor, hring]
      rfl
    rw [awaitIssue_delivered (s := keepArgs (issued i s) vs) h hfault hslot hd, stillMissing_kept, hm, if_neg Bool.false_ne_true,
      awaitTry_filled (s := restartCommand (keepArgs (issued i s) vs) r) (by rw [hring]; exact h) (by rw [hring, hcur]; exact hf),
      awaitDone_eq (s := s) (restartCommand (keepArgs (issued i s) vs) r) (by rw [hring]; rfl) (by rw [hring]; rfl) hcur,
      finish_awaitOrdered (vs := vs) (t := restartCommand (keepArgs (issued i s) vs) r) hi rfl rfl]
    rfl)

/-- Where the mapping is still missing, the AWAITF raises the fault itself (R399). -/
theorem await_missing (h : awaitBad (ringAt s r) chunk = none) (hfault : (ringAt s r).fault = some f)
    (hslot : f.slot = myCursor s r) (hd : f.delivered = true) (hm : stillMissing s f = true) (hpage : f.cause = cPage)
    (hdeliver : deliverable s = true) : OnceEnds i s (fun u =>
      trapped (onRing u r (fun y => { y with fault := some { f with delivered := true } })) f.cause f.addr s.sp.pc) :=
  ha _ (fun hi => by
    rw [awaitIssue_delivered (s := keepArgs (issued i s) vs) h hfault hslot hd, stillMissing_kept, hm, if_pos rfl, awaitFault_raises rfl, finish_trap,
      deliverable_kept, deliverable_issued, hdeliver, if_pos (by simp [hpage])]
    exact trapped_onRing_keepArgs ..)

end

/-! RELS (R193, R197). -/

section
variable {x z : Ring} {w n k : Nat} {p : Past}

/-- What freeing the released slots of a ring leaves: the slots from REL on whose count is NREL are free, their counts 0, up to
FIL or the first with another count. -/
structure SlotsFreed (x z : Ring) : Prop where
  frame : z = { x with counts := z.counts, rel := z.rel }
  low : x.rel ≤ z.rel
  high : x.rel ≤ x.fil → z.rel ≤ x.fil
  released : ∀ n, x.rel ≤ n → n < z.rel → sget 0 x.counts n = x.nrel
  counts : ∀ n, sget 0 z.counts n = if x.rel ≤ n ∧ n < z.rel then 0 else sget 0 x.counts n

theorem slotsFreed_refl (x : Ring) : SlotsFreed x x where
  frame := rfl
  low := le_refl _
  high h := h
  released n h h' := by omega
  counts n := by rw [if_neg (by omega)]

/-- The ring with its lowest slot freed. -/
def lowestFreed (x : Ring) : Ring := { x with counts := sset 0 x.counts x.rel 0, rel := x.rel + 1 }

theorem count_lowestFreed (x : Ring) (n : Nat) :
    sget 0 (lowestFreed x).counts n = if n = x.rel then 0 else sget 0 x.counts n := sget_sset 0 x.counts x.rel n 0

theorem slotsFreed_succ (hfil : x.rel < x.fil) (hcount : sget 0 x.counts x.rel = x.nrel) (h : SlotsFreed (lowestFreed x) z) :
    SlotsFreed x z := by
  have hlow : x.rel + 1 ≤ z.rel := h.low
  refine ⟨by rw [h.frame]; rfl, by omega, fun _ => h.high hfil, fun n hn hz => ?_, fun n => ?_⟩
  · by_cases heq : n = x.rel
    · rw [heq, hcount]
    · have hr := h.released n (show x.rel + 1 ≤ n by omega) hz
      rwa [count_lowestFreed, if_neg heq] at hr
  · rw [h.counts, count_lowestFreed]
    by_cases heq : n = x.rel
    · rw [if_pos heq, ite_self, if_pos ⟨by omega, by omega⟩]
    · rw [if_neg heq]
      refine if_congr ?_ rfl rfl
      show x.rel + 1 ≤ n ∧ n < z.rel ↔ _
      omega

/-- Freeing stops at the first slot whose count is another, or at FIL. -/
theorem freeSlots_spec (x : Ring) (k : Nat) : SlotsFreed x (freeSlots x k) ∧
    (x.fil ≤ x.rel + k → (freeSlots x k).rel < x.fil → sget 0 x.counts (freeSlots x k).rel ≠ x.nrel) := by
  induction k generalizing x with
  | zero => exact ⟨slotsFreed_refl x, fun h h' => absurd h' (Nat.not_lt.mpr h)⟩
  | succ k ih =>
    rw [freeSlots]
    by_cases h : (x.rel < x.fil && sget 0 x.counts x.rel == x.nrel) = true
    · rw [if_pos h]
      obtain ⟨hfil, hcount⟩ : x.rel < x.fil ∧ sget 0 x.counts x.rel = x.nrel := by simpa using h
      obtain ⟨hfreed, hstop⟩ := ih (lowestFreed x)
      have hlow : x.rel + 1 ≤ (freeSlots (lowestFreed x) k).rel := hfreed.low
      refine ⟨slotsFreed_succ hfil hcount hfreed, fun hk hlt => ?_⟩
      have hne := hstop (show x.fil ≤ x.rel + 1 + k by omega) hlt
      rw [count_lowestFreed, if_neg (by omega)] at hne
      exact hne
    · rw [if_neg h]
      refine ⟨slotsFreed_refl x, fun _ hlt hcount => h ?_⟩
      rw [hcount]
      simpa using hlt

/-- A ring in which a warp has counted its slot released, before any slot is freed. -/
def slotCounted (y : Ring) (w : Nat) (p : Past) : Ring :=
  { y with
    counts := sset 0 y.counts (y.cursor w) (sget 0 y.counts (y.cursor w) + 1)
    cursors := sset 0 y.cursors w (y.cursor w + 1)
    pasts := (y.cursor w, p) :: y.pasts.filter (fun q => decide (y.rel ≤ q.1 + y.depth)) }

theorem releaseSlot_eq (y : Ring) (w : Nat) (p : Past) : releaseSlot y w p = freeSlots (slotCounted y w p) (y.fil - y.rel) := rfl

theorem count_slotCounted (y : Ring) (w : Nat) (p : Past) (n : Nat) :
    sget 0 (slotCounted y w p).counts n = sget 0 y.counts n + (if n = y.cursor w then 1 else 0) := by
  refine (sget_sset 0 y.counts (y.cursor w) n (sget 0 y.counts (y.cursor w) + 1)).trans ?_
  split
  next h => rw [h]
  next => rfl

/-- A release (R193): one more for the slot's count and the warp's cursor, then the slots that are wholly released are
freed. -/
theorem releaseSlot_spec (y : Ring) (w : Nat) (p : Past) :
    let z := releaseSlot y w p
    let count : Nat → Nat := fun n => sget 0 y.counts n + (if n = y.cursor w then 1 else 0)
    z = { y with counts := z.counts, cursors := z.cursors, rel := z.rel, pasts := z.pasts } ∧ (y.cursor w, p) ∈ z.pasts ∧
    z.cursor w = y.cursor w + 1 ∧
    (∀ v, v ≠ w → z.cursor v = y.cursor v) ∧ y.rel ≤ z.rel ∧ (y.rel ≤ y.fil → z.rel ≤ y.fil) ∧
    (∀ n, y.rel ≤ n → n < z.rel → count n = y.nrel) ∧ (z.rel < y.fil → count z.rel ≠ y.nrel) ∧
    (∀ n, sget 0 z.counts n = if y.rel ≤ n ∧ n < z.rel then 0 else count n) := by
  intro z count
  obtain ⟨hfreed, hstop⟩ := freeSlots_spec (slotCounted y w p) (y.fil - y.rel)
  have hz : freeSlots (slotCounted y w p) (y.fil - y.rel) = z := rfl
  rw [hz] at hfreed hstop
  have hcursor (v : Nat) : z.cursor v = (slotCounted y w p).cursor v := by rw [hfreed.frame]; rfl
  have hput (v : Nat) : (slotCounted y w p).cursor v = if v = w then y.cursor w + 1 else y.cursor v :=
    sget_sset 0 y.cursors w v (y.cursor w + 1)
  refine ⟨by rw [hfreed.frame]; rfl, by rw [hfreed.frame]; exact List.mem_cons_self .., ?_, fun v hv => ?_, hfreed.low,
    hfreed.high, fun n hn hn' => ?_, fun hlt => ?_, fun n => ?_⟩
  · rw [hcursor, hput, if_pos rfl]
  · rw [hcursor, hput, if_neg hv]
  · exact (count_slotCounted y w p n).symm.trans (hfreed.released n hn hn')
  · have hne := hstop (show y.fil ≤ y.rel + (y.fil - y.rel) by omega) hlt
    rwa [count_slotCounted] at hne
  · rw [hfreed.counts, count_slotCounted]
    rfl

end

section
variable {i : Instr} {s : State} {r d : BitVec 6}

/-- RELS where some lane passes the guard. -/
def relsBody (r : BitVec 6) (s : State) : Res :=
  if s.crew.dispatch then trapOpen s cProt
  else if !(ringAt s r.toNat).bound then trapHere s cOperand 1
  else if (ringAt s r.toNat).fil ≤ myCursor s r.toNat then trapHere s cOperand 6
  else .ok (onRing (takePast s).2 r.toNat (fun y => releaseSlot y s.w.id (takePast s).1))

/-- The machine after a release of the issuing warp's slot of a ring. -/
def relsDone (s : State) (r : Nat) (u : State) : State :=
  { u with writes := u.writes + 1, crew := { u.crew with
    rings := u.crew.rings.mapIdx (fun n y => if n = r then releaseSlot y s.w.id (pastNow s) else y) } }

/-- RNGST's word (R194). -/
theorem ringWord_eq (s : State) (r : Nat) : ringWord s r =
    if (ringAt s r).bound then BitVec.ofNat 64 ((if (ringAt s r).faulted then 2 ^ 58 else 0) +
      (if s.crew.mcast.getLsbD r then 2 ^ 57 else 0) + 2 ^ 56 + (ringAt s r).skips * 2 ^ 48 + (ringAt s r).rel % 2 ^ 16 * 2 ^ 32 +
      (ringAt s r).fil % 2 ^ 16 * 2 ^ 16 + myCursor s r % 2 ^ 16)
    else 0 := by
  unfold ringWord
  cases h : (ringAt s r).bound with
  | false => exact (if_pos (by rw [h]; rfl)).trans (if_neg Bool.false_ne_true).symm
  | true => exact (if_neg (by rw [h]; exact Bool.false_ne_true)).trans (if_pos rfl).symm

theorem ringWord_issued (i : Instr) (r : Nat) : ringWord (issued i s) r = ringWord s r := rfl

variable (hd : s.crew.dispatch = false)
include hd

theorem relsBody_issued (i : Instr) : relsBody r (issued i s) =
    if !(ringAt s r.toNat).bound then .trap cOperand 1 s.sp.pc (issued i s)
    else if (ringAt s r.toNat).fil ≤ myCursor s r.toNat then .trap cOperand 6 s.sp.pc (issued i s)
    else .ok (relsDone s r.toNat (issued i s)) :=
  if_neg (show ¬ (issued i s).crew.dispatch = true from hd ▸ Bool.false_ne_true)

theorem rels_unbound (he : exec i s = run i (fun s => once s (relsBody r)) s) (hb : (ringAt s r.toNat).bound = false) :
    OnceEnds i s (fun u => trapped u cOperand 1 s.sp.pc) :=
  once_trap he (by rw [relsBody_issued hd, hb]; rfl)

theorem rels_unfilled (he : exec i s = run i (fun s => once s (relsBody r)) s) (hb : (ringAt s r.toNat).bound = true)
    (hc : (ringAt s r.toNat).fil ≤ myCursor s r.toNat) : OnceEnds i s (fun u => trapped u cOperand 6 s.sp.pc) :=
  once_trap he (by rw [relsBody_issued hd, hb, if_pos hc]; rfl)

theorem rels_releases (he : exec i s = run i (fun s => once s (relsBody r)) s) (hb : (ringAt s r.toNat).bound = true)
    (hc : myCursor s r.toNat < (ringAt s r.toNat).fil) : OnceResult i s (relsDone s r.toNat) :=
  once_result _ he (by rw [relsBody_issued hd, hb, if_neg (Nat.not_le.mpr hc)]; rfl) ⟨rfl, rfl, rfl⟩

theorem rngst_result (he : exec i s = run i (fun s => once s (fun s =>
    if s.crew.dispatch then trapOpen s cProt else .ok (kset s d.toNat (ringWord s r.toNat)))) s) :
    OnceResult i s (fun u => kset u d.toNat (ringWord s r.toNat)) :=
  once_result_kset _ he (if_neg (show ¬ (issued i s).crew.dispatch = true from hd ▸ Bool.false_ne_true))

end

/-- Settles O37: an AWAITF is judged against the warp's slot of the ring, a release frees the slots that are wholly released,
and RNGST reads the ring. -/
theorem ringWaitsAndReleases : Obligations.RingWaitsAndReleases := by
  refine ⟨fun s r b hd => ?_, fun s d r hd => ⟨rels_unbound hd rfl, rels_unfilled hd rfl, rels_releases hd rfl,
    releaseSlot_spec, ?_⟩, fun d r => ?_⟩
  · intro x c j both done filled calm
    have hw : AwaitsAt (.awaitf r) s r.toNat none [] :=
      awaitsAt (ch := fun _ => none) (ops := fun _ => []) (more := awaitTry r.toNat none) rfl hd (fun _ => rfl) (fun _ => rfl)
    have hc : AwaitsAt (.awaitfC r b) s r.toNat (some j) [kget s b.toNat] :=
      awaitsAt (ch := fun s => some (kget s b.toNat).toNat) (ops := fun s => [kget s b.toNat])
        (more := fun s => awaitTry r.toNat (some (argN s 0).toNat) s) rfl hd (fun _ => rfl) (fun _ => rfl)
    have hnone (hb : x.bound = true) : awaitBad x none = none := awaitBad_eq_none hb (fun _ h => nomatch h)
    have hsome (hb : x.bound = true) (hj : j < x.chunkCount) : awaitBad x (some j) = none :=
      awaitBad_eq_none hb (fun _ h => Option.some.inj h ▸ hj)
    have hslot (hc : x.fil ≤ c) : ¬ SlotFilled x c none := fun h => h.elim (Nat.not_lt.mpr hc) (fun h => nomatch h.2)
    have hchunk (hc : x.fil ≤ c) (hn : ¬ (c = x.fil ∧ j ∈ x.chunks)) : ¬ SlotFilled x c (some j) := fun h =>
      h.elim (Nat.not_lt.mpr hc) (fun ⟨heq, k, hk, hmem⟩ => hn ⟨heq, Option.some.inj hk ▸ hmem⟩)
    refine ⟨fun hb => ⟨await_bad hw (awaitBad_unbound hb), await_bad hc (awaitBad_unbound hb)⟩,
      fun hb hj => await_bad hc (awaitBad_noChunk hb hj),
      fun hb hcalm hlt => ⟨await_filled hw (hnone hb) hcalm (.inl hlt), fun hj => await_filled hc (hsome hb hj) hcalm (.inl hlt)⟩,
      fun hb hcalm heq hj hmem => await_filled hc (hsome hb hj) hcalm (.inr ⟨heq, j, rfl, hmem⟩),
      fun hb hle hfault => ⟨await_waits hw (hnone hb) hfault (hslot hle),
        fun hj hn => await_waits hc (hsome hb hj) hfault (hchunk hle hn)⟩,
      fun hb hle f hfault hs hd => ⟨await_raises hw (hnone hb) hfault hs hd (hslot hle),
        fun hj hn => await_raises hc (hsome hb hj) hfault hs hd (hchunk hle hn)⟩,
      fun hb f hfault hs hd => ⟨fun hle hm => await_restarts hw (hnone hb) hb hfault hs hd hm (hslot hle),
        fun hm heq hj hmem => await_restartsFilled hc (hsome hb hj) hb hfault hs hd hm (.inr ⟨heq, j, rfl, hmem⟩),
        fun hm hpage hrun hheld hbusy hlevel => ?_⟩,
      fun u n => ⟨restartCommand_copies, fun hn => by rw [ringAt_restartCommand hn]⟩,
      fun hb hlt => ?_⟩
    · have hdeliver : deliverable s = true := by
        rw [deliverable, hrun, hheld, hbusy, hlevel]
        rfl
      exact ⟨await_missing hw (hnone hb) hfault hs hd hm hpage hdeliver,
        fun hj => await_missing hc (hsome hb hj) hfault hs hd hm hpage hdeliver⟩
    · refine judged_ends rfl (?_ : finish _ true (awaitTry r.toNat none s) = _)
      rw [awaitTry_filled (hnone hb) (.inl hlt), awaitDone_eq (s := s) s rfl rfl rfl]
      rfl
  · have hword := rngst_result (i := .rngst d r) (d := d) (r := r) hd rfl
    rw [ringWord_eq] at hword
    exact hword
  · constructor
    all_goals
      refine encode_append rfl ?_
      simp only [encodeNat, toNat_append_add, -Nat.reduceAdd, BitVec.toNat_ofNat]
      omega

end Sys2Proof.Machine
end

section
/-! PROOFS. The slices of collective copies (R188, R189, R191). -/

namespace Sys2Proof.Machine

/-! The slices of CPY and CPYM at their issue (R188, R189, R191). -/

section
variable {i : Instr} {s : State} {m r b : BitVec 6} {q : BitVec 2} {mk : Option Nat} {bs : List Byte} {args : List DWord}

/-- How a slice ends at its issue: its checks' trap, its place in a collective, the trap of another mask, or a wait. -/
def slicePlaced (s : State) (r : Nat) (q : BitVec 2) (i : Instr) (mk : Option Nat) (args : List DWord) (bs : List Byte)
    (u0 : State) : State :=
  let u1 := keepArgs u0 args
  match checkSlice u1 r q.toNat bs with
  | .error v => trapped u1 cOperand (BitVec.ofNat 64 v) s.sp.pc
  | .ok x =>
    let u := { u1 with sp := { u1.sp with slice := some x } }
    match openFor u r with
    | some g => if g.mask = mk then stopSteps (retired (joinSlice u r g.slot x)) else trapped u cOperand 8 s.sp.pc
    | none =>
      if mustWait u r mk s.cycle.toNat then waits i u
      else match openCollective u r mk with
        | none => waits i u
        | some t => stopSteps (retired (joinSlice t r (ringAt u r).res x))

theorem finish_placeSlice {u : State} {n since : Nat} {x : Slice} : finish i false (placeSlice u n mk x since) =
    match openFor u n with
    | some g => if g.mask = mk then stopSteps (retired (joinSlice u n g.slot x)) else trapped u cOperand 8 u.sp.pc
    | none =>
      if mustWait u n mk since then waits i u
      else match openCollective u n mk with
        | none => waits i u
        | some t => stopSteps (retired (joinSlice t n (ringAt u n).res x)) := by
  unfold placeSlice
  cases openFor u n with
  | some g =>
    dsimp only
    by_cases h : g.mask = mk
    · rw [if_pos h, if_neg (not_not.mpr h)]
      rfl
    · rw [if_neg h, if_pos h]
      rfl
  | none =>
    dsimp only
    split
    · rfl
    · cases openCollective u n mk <;> rfl

/-- A slice that is not kept yet is checked against its ring, and then placed. -/
theorem sliceTry_new {t : State} {n since : Nat} (h : t.sp.slice = none) : sliceTry n q mk bs since t =
    match checkSlice t n q.toNat bs with
    | .error v => trapHere t cOperand v
    | .ok x => placeSlice { t with sp := { t.sp with slice := some x } } n mk x since := by
  unfold sliceTry
  cases checkSlice t n q.toNat bs with
  | error v => rw [h]
  | ok x => rw [h]

theorem finish_sliceTry (i : Instr) (s : State) (n : Nat) :
    finish i false (sliceTry n q mk bs s.cycle.toNat (keepArgs (issued i s) args)) =
      slicePlaced s n q i mk args bs (issued i s) := by
  rw [sliceTry_new (t := keepArgs (issued i s) args) rfl, slicePlaced]
  cases checkSlice (keepArgs (issued i s) args) n q.toNat bs with
  | error v => rfl
  | ok x => exact finish_placeSlice

/-- CPY where some lane passes the guard. -/
def cpyBody (r b : BitVec 6) (q : BitVec 2) (s : State) : Res :=
  if s.crew.dispatch then trapOpen s cProt
  else match readRecord s needRec 64 (kget s b.toNat).toNat 64 with
    | .error (c, v) => trapHere s c v
    | .ok bs =>
      if recByte bs 0 = 1 then
        (if growBad bs then trapHere s cOperand 3
         else if q ≠ 0 then trapHere s cOperand 5
         else growTry b (growIssue bs s))
      else sliceTry r.toNat q none bs s.cycle.toNat (keepArgs s (0 :: descArgs bs))

/-- CPYM where some lane passes the guard. -/
def cpymBody (m r b : BitVec 6) (q : BitVec 2) (s : State) : Res :=
  let mask := kget s m.toNat
  if s.crew.dispatch then trapOpen s cProt
  else if 256 ≤ mask.toNat then .trap cMcast mask s.sp.pc s
  else match readRecord s needRec 64 (kget s b.toNat).toNat 64 with
    | .error (c, v) => trapHere s c v
    | .ok bs => sliceTry r.toNat q (some mask.toNat) bs s.cycle.toNat (keepArgs s (0 :: mask :: descArgs bs))

theorem cpyBody_unread (hd : s.crew.dispatch = false) (i : Instr) {c : Byte} {v : Nat}
    (h : readRecord s needRec 64 (kget s b.toNat).toNat 64 = .error (c, v)) :
    cpyBody r b q (issued i s) = .trap c (BitVec.ofNat 64 v) s.sp.pc (issued i s) := by
  rw [cpyBody, if_neg (show ¬ (issued i s).crew.dispatch = true from hd ▸ Bool.false_ne_true), readRecord_issued, kget_issued, h]
  rfl

theorem cpyBody_read (hd : s.crew.dispatch = false) (i : Instr)
    (h : readRecord s needRec 64 (kget s b.toNat).toNat 64 = .ok bs) : cpyBody r b q (issued i s) =
      if recByte bs 0 = 1 then
        (if growBad bs then .trap cOperand 3 s.sp.pc (issued i s)
         else if q ≠ 0 then .trap cOperand 5 s.sp.pc (issued i s)
         else growTry b (growIssue bs (issued i s)))
      else sliceTry r.toNat q none bs s.cycle.toNat (keepArgs (issued i s) (0 :: descArgs bs)) := by
  rw [cpyBody, if_neg (show ¬ (issued i s).crew.dispatch = true from hd ▸ Bool.false_ne_true), readRecord_issued, kget_issued, h]
  rfl

theorem cpymBody_far (hd : s.crew.dispatch = false) (i : Instr) (hm : 256 ≤ (kget s m.toNat).toNat) :
    cpymBody m r b q (issued i s) = .trap cMcast (kget s m.toNat) s.sp.pc (issued i s) :=
  (if_neg (show ¬ (issued i s).crew.dispatch = true from hd ▸ Bool.false_ne_true)).trans (if_pos hm)

theorem cpymBody_near (hd : s.crew.dispatch = false) (i : Instr) (hm : (kget s m.toNat).toNat < 256) :
    cpymBody m r b q (issued i s) = match readRecord s needRec 64 (kget s b.toNat).toNat 64 with
      | .error (c, v) => .trap c (BitVec.ofNat 64 v) s.sp.pc (issued i s)
      | .ok bs => sliceTry r.toNat q (some (kget s m.toNat).toNat) bs s.cycle.toNat
          (keepArgs (issued i s) (0 :: kget s m.toNat :: descArgs bs)) := by
  rw [← readRecord_issued i]
  exact (if_neg (show ¬ (issued i s).crew.dispatch = true from hd ▸ Bool.false_ne_true)).trans (if_neg (Nat.not_le.mpr hm))

variable {more : State → Res}

theorem cpy_unread (he : exec i s = runW i (fun again s => if again then more s else once s (cpyBody r b q)) s)
    (hd : s.crew.dispatch = false) {c : Byte} {v : Nat}
    (h : readRecord s needRec 64 (kget s b.toNat).toNat 64 = .error (c, v)) :
    OnceEnds i s (fun u => trapped u c (BitVec.ofNat 64 v) s.sp.pc) :=
  once_endsW he (fun _ _ => by rw [cpyBody_unread hd i h]; rfl)

theorem cpy_slice (he : exec i s = runW i (fun again s => if again then more s else once s (cpyBody r b q)) s)
    (hd : s.crew.dispatch = false) (h : readRecord s needRec 64 (kget s b.toNat).toNat 64 = .ok bs) (hk : recByte bs 0 ≠ 1) :
    OnceEnds i s (slicePlaced s r.toNat q i none (0 :: descArgs bs) bs) :=
  once_endsW he (fun _ _ => by rw [cpyBody_read hd i h, if_neg hk, finish_sliceTry])

theorem cpym_far (he : exec i s = runW i (fun again s => if again then more s else once s (cpymBody m r b q)) s)
    (hd : s.crew.dispatch = false) (hm : 256 ≤ (kget s m.toNat).toNat) :
    OnceEnds i s (fun u => trapped u cMcast (kget s m.toNat) s.sp.pc) :=
  once_endsW he (fun _ _ => by rw [cpymBody_far hd i hm]; rfl)

theorem cpym_unread (he : exec i s = runW i (fun again s => if again then more s else once s (cpymBody m r b q)) s)
    (hd : s.crew.dispatch = false) {c : Byte} {v : Nat} (hm : (kget s m.toNat).toNat < 256)
    (h : readRecord s needRec 64 (kget s b.toNat).toNat 64 = .error (c, v)) :
    OnceEnds i s (fun u => trapped u c (BitVec.ofNat 64 v) s.sp.pc) :=
  once_endsW he (fun _ _ => by rw [cpymBody_near hd i hm, h]; rfl)

theorem cpym_slice (he : exec i s = runW i (fun again s => if again then more s else once s (cpymBody m r b q)) s)
    (hd : s.crew.dispatch = false) (hm : (kget s m.toNat).toNat < 256)
    (h : readRecord s needRec 64 (kget s b.toNat).toNat 64 = .ok bs) :
    OnceEnds i s (slicePlaced s r.toNat q i (some (kget s m.toNat).toNat) (0 :: kget s m.toNat :: descArgs bs) bs) :=
  once_endsW he (fun _ _ => by
    rw [cpymBody_near hd i hm, h]
    exact finish_sliceTry i s r.toNat)

end

/-! A slice that waits, judged again. -/

section
variable {i : Instr} {s : State} {r b : BitVec 6} {q : BitVec 2} {x : Slice}

/-- A split that goes on waiting. -/
theorem finish_waitAgain (h : s.sp.wait = some i) : finish i true (.wait s) =
    { s with sp := { s.sp with state := if s.sp.state = .ready then .waiting else s.sp.state } } := by
  rw [finish, ← h]
  rfl

/-- CPY's further judgements. -/
def cpyAgain (r b : BitVec 6) (q : BitVec 2) (s : State) : Res :=
  if argN s 0 ≠ 0 then growTry b s else sliceTry r.toNat q none (argDesc s 1) s.sp.since s

theorem cpyAgain_slice (ha : argN s 0 = 0) (hx : s.sp.slice = some x) (ho : openFor s r.toNat = none) :
    cpyAgain r b q s = if mustWait s r.toNat none s.sp.since then .wait s
      else match openCollective s r.toNat none with
        | none => .wait s
        | some t => .ok (joinSlice t r.toNat (ringAt s r.toNat).res x) := by
  have htry : sliceTry r.toNat q none (argDesc s 1) s.sp.since s = placeSlice s r.toNat none x s.sp.since := by
    rw [sliceTry, hx]
  rw [cpyAgain, if_neg (not_not.mpr ha), htry, placeSlice]
  cases hopen : openCollective s r.toNat none with
  | none => rw [ho]
  | some t => rw [ho]

theorem cpyAgain_waits (ha : argN s 0 = 0) (hx : s.sp.slice = some x) (ho : openFor s r.toNat = none)
    (h : mustWait s r.toNat none s.sp.since = true ∨ openCollective s r.toNat none = none) : cpyAgain r b q s = .wait s := by
  rw [cpyAgain_slice ha hx ho]
  rcases h with h | h
  · exact if_pos h
  · rw [h]
    exact ite_self _

theorem cpyAgain_joins {t : State} (ha : argN s 0 = 0) (hx : s.sp.slice = some x) (ho : openFor s r.toNat = none)
    (hm : mustWait s r.toNat none s.sp.since = false) (h : openCollective s r.toNat none = some t) :
    cpyAgain r b q s = .ok (joinSlice t r.toNat (ringAt s r.toNat).res x) := by
  rw [cpyAgain_slice ha hx ho, hm, h]
  exact if_neg Bool.false_ne_true

/-- A collective is opened only where a slot of the ring is free (R186). -/
theorem openCollective_hasRoom {n : Nat} {mk : Option Nat} (h : (openCollective s n mk).isSome = true) :
    (ringAt s n).hasRoom = true := by
  by_contra hfull
  rw [Bool.not_eq_true] at hfull
  unfold openCollective at h
  rw [hfull] at h
  cases h

/-- A collective of no other crew opened: one slot more of its ring is reserved. -/
theorem openCollective_none {n : Nat} {t : State} (hn : n < s.crew.rings.length) (h : openCollective s n none = some t) :
    t = { s with crew := t.crew } ∧ ringAt t n = { ringAt s n with
      res := (ringAt s n).res + 1, skips := min 255 (ringAt s n).skips
      collectives := (ringAt s n).collectives ++
        [{ slot := (ringAt s n).res, mask := none, slices := [], opened := s.cycle.toNat, complete := false
           queued := false, receivers := [] }] } := by
  have hroom := openCollective_hasRoom (h ▸ rfl : (openCollective s n none).isSome = true)
  unfold openCollective at h
  rw [hroom] at h
  cases h
  exact ⟨rfl, ringAt_onRing hn⟩

end

/-- Settles O35: the two instructions' bodies are their checks and the placing of a slice, which the judgement of a waiting
slice runs again. -/
theorem copySlices : Obligations.CopySlices := by
  intro s m r b q hd
  refine ⟨fun c v => cpy_unread (more := cpyAgain r b q) rfl hd, fun bs => cpy_slice (more := cpyAgain r b q) rfl hd,
    cpym_far (more := fun s => sliceTry r.toNat q (some (argN s 1).toNat) (argDesc s 2) s.sp.since s) rfl hd,
    fun c v => cpym_unread (more := fun s => sliceTry r.toNat q (some (argN s 1).toNat) (argDesc s 2) s.sp.since s) rfl hd,
    fun bs => cpym_slice (more := fun s => sliceTry r.toNat q (some (argN s 1).toNat) (argDesc s 2) s.sp.since s) rfl hd,
    fun x i hi hw ha hx ho => ?_, fun n mk h => of_decide_eq_true (openCollective_hasRoom h), fun n t => openCollective_none⟩
  have hagain : exec i s = runW i (fun again s => if again then cpyAgain r b q s else once s (cpyBody r b q)) s := by
    rw [hi]
    rfl
  refine ⟨fun h => judged_ends hagain ?_, fun t hm h => judged_ends hagain ?_⟩
  · exact (congrArg (finish i true) (cpyAgain_waits ha hx ho h)).trans (finish_waitAgain hw)
  · exact congrArg (finish i true) (cpyAgain_joins ha hx ho hm h)

end Sys2Proof.Machine
end

section
/-! PROOFS. Crew memory growth (R188, R199, R200, R380). -/

namespace Sys2Proof.Machine

/-! How grow requests are decided (R200, R380). -/

section
variable {s t : State} {a b c g : Grow} {gs : List Grow}

theorem moreRecent_iff : moreRecent a b = true ↔
    b.since < a.since ∨ (a.since = b.since ∧ (b.rank < a.rank ∨ (a.rank = b.rank ∧ b.number < a.number))) := by
  simp only [moreRecent, Bool.or_eq_true, Bool.and_eq_true, decide_eq_true_eq, beq_iff_eq]

/-- Of three requests, one not more recent than another that is not more recent than the third is not more recent than it. -/
theorem not_moreRecent_trans (h : moreRecent a b = false) (h' : moreRecent b c = false) : moreRecent a c = false := by
  rw [← Bool.not_eq_true, moreRecent_iff] at h h' ⊢
  omega

theorem not_moreRecent_self : moreRecent a a = false := by
  rw [← Bool.not_eq_true, moreRecent_iff]
  omega

theorem not_moreRecent_of (h : moreRecent a b = true) : moreRecent b a = false := by
  rw [← Bool.not_eq_true]
  rw [moreRecent_iff] at h ⊢
  omega

/-- The most recent of some requests is one of them, and none of them is more recent. -/
theorem mostRecent_spec : mostRecent g gs ∈ g :: gs ∧ ∀ a ∈ g :: gs, moreRecent a (mostRecent g gs) = false := by
  induction gs generalizing g with
  | nil => exact ⟨List.mem_cons_self .., fun a ha => by rw [List.mem_singleton.mp ha]; exact not_moreRecent_self⟩
  | cons h gs ih =>
    rw [mostRecent]
    by_cases hh : moreRecent h g = true
    · rw [if_pos hh]
      obtain ⟨hmem, hall⟩ := ih (g := h)
      refine ⟨List.mem_cons_of_mem _ hmem, fun a ha => ?_⟩
      rcases List.mem_cons.mp ha with rfl | ha
      · exact not_moreRecent_trans (not_moreRecent_of hh) (hall h (List.mem_cons_self ..))
      · exact hall a ha
    · rw [if_neg hh]
      obtain ⟨hmem, hall⟩ := ih (g := g)
      refine ⟨?_, fun a ha => ?_⟩
      · rcases List.mem_cons.mp hmem with heq | hmem
        · exact List.mem_cons.mpr (.inl heq)
        · exact List.mem_cons_of_mem _ (List.mem_cons_of_mem _ hmem)
      · rcases List.mem_cons.mp ha with rfl | ha
        · exact hall a (List.mem_cons_self ..)
        · rcases List.mem_cons.mp ha with rfl | ha
          · exact not_moreRecent_trans (Bool.not_eq_true _ ▸ hh) (hall g (List.mem_cons_self ..))
          · exact hall a (List.mem_cons_of_mem _ ha)

theorem growLate_iff : growLate s g = true ↔ g.result = none ∧ g.limit ≠ 0xFFFFFFFF ∧ g.since + g.limit ≤ s.cycle.toNat := by
  simp only [growLate, Bool.and_eq_true, Option.isNone_iff_eq_none, bne_iff_ne, decide_eq_true_eq, and_assoc]

/-- The holders of the range that a crew's request asks for. -/
def growHolders (s : State) (c : Crew) (g : Grow) : List Crew := holdersOf s c.id (growRange c g).1 (growRange c g).2

section
variable {c : Crew} (hc : crewAt s g.crew = some c)
include hc

theorem judgeGrow_eq : judgeGrow s g =
    if growImpossible c g then some (setResult s g.id 0)
    else if (growHolders s c g).isEmpty then some (grantGrow s c g)
    else if g.limit = 0 then some (setResult s g.id 0)
    else if (growHolders s c g).all (fun h => (waitingGrow s h).isSome) then
      some (setResult s (mostRecent g ((growHolders s c g).filterMap (waitingGrow s))).id 0)
    else none := by
  unfold judgeGrow
  rw [hc]
  rfl

theorem judgeGrow_impossible (h : growImpossible c g = true) : judgeGrow s g = some (setResult s g.id 0) := by
  rw [judgeGrow_eq hc, if_pos h]

variable (hp : growImpossible c g = false)
include hp

theorem judgeGrow_free (h : growHolders s c g = []) : judgeGrow s g = some (grantGrow s c g) := by
  rw [judgeGrow_eq hc, hp, h]
  rfl

theorem judgeGrow_held (h : growHolders s c g ≠ []) : judgeGrow s g =
    if g.limit = 0 then some (setResult s g.id 0)
    else if (growHolders s c g).all (fun h => (waitingGrow s h).isSome) then
      some (setResult s (mostRecent g ((growHolders s c g).filterMap (waitingGrow s))).id 0)
    else none := by
  rw [judgeGrow_eq hc, hp, if_neg Bool.false_ne_true, if_neg (fun he => h (List.isEmpty_iff.mp he))]

theorem judgeGrow_atOnce (hl : g.limit = 0) (h : growHolders s c g ≠ []) : judgeGrow s g = some (setResult s g.id 0) := by
  rw [judgeGrow_held hc hp h, if_pos hl]

theorem judgeGrow_broken (hl : g.limit ≠ 0) (h : growHolders s c g ≠ [])
    (hall : ∀ h ∈ growHolders s c g, (waitingGrow s h).isSome = true) :
    ∃ m ∈ g :: (growHolders s c g).filterMap (waitingGrow s), judgeGrow s g = some (setResult s m.id 0) ∧
      ∀ a ∈ g :: (growHolders s c g).filterMap (waitingGrow s), moreRecent a m = false :=
  ⟨_, mostRecent_spec.1, by rw [judgeGrow_held hc hp h, if_neg hl, if_pos (List.all_eq_true.mpr hall)], mostRecent_spec.2⟩

theorem judgeGrow_waits (hl : g.limit ≠ 0) (h : growHolders s c g ≠ [])
    (hall : ¬ ∀ h ∈ growHolders s c g, (waitingGrow s h).isSome = true) : judgeGrow s g = none := by
  rw [judgeGrow_held hc hp h, if_neg hl, if_neg (fun ha => hall (List.all_eq_true.mp ha))]

end

/-- A request kept among others unless one of its crew is there. -/
def firstOfCrew (acc : List Grow) (g : Grow) : List Grow := if acc.any (fun h => h.crew == g.crew) then acc else acc ++ [g]

theorem openGrows_eq (s : State) : openGrows s = (s.clus.grows.filter (fun g => g.result.isNone)).foldl firstOfCrew [] := rfl

theorem mem_openGrows (h : g ∈ openGrows s) : g ∈ s.clus.grows ∧ g.result = none := by
  have hstep (acc : List Grow) (gs : List Grow) : ∀ x ∈ gs.foldl firstOfCrew acc, x ∈ acc ∨ x ∈ gs := by
    induction gs generalizing acc with
    | nil => exact fun x hx => .inl hx
    | cons y gs ih =>
      intro x hx
      rcases ih _ x hx with hx | hx
      · unfold firstOfCrew at hx
        split at hx
        · exact .inl hx
        · rcases List.mem_append.mp hx with hx | hx
          · exact .inl hx
          · exact .inr (List.mem_singleton.mp hx ▸ List.mem_cons_self ..)
      · exact .inr (List.mem_cons_of_mem _ hx)
  rcases hstep _ _ g h with h | h
  · cases h
  · obtain ⟨hmem, hnone⟩ := List.mem_filter.mp h
    exact ⟨hmem, Option.isNone_iff_eq_none.mp hnone⟩

theorem waitingGrow_some {h : Crew} (hw : waitingGrow s h = some g) :
    h.state = .running ∧ g ∈ s.clus.grows ∧ g.result = none ∧ g.crew = h.id := by
  unfold waitingGrow at hw
  split at hw
  next hrun =>
    obtain ⟨hmem, hnone⟩ := mem_openGrows (List.mem_of_find?_eq_some hw)
    exact ⟨hrun, hmem, hnone, by simpa using List.find?_some hw⟩
  next => cases hw

theorem growStep_some : growStep s gs = some t ↔
    ∃ a g b, gs = a ++ g :: b ∧ (∀ x ∈ a, judgeGrow s x = none) ∧ judgeGrow s g = some t := by
  induction gs with
  | nil =>
    refine ⟨fun h => (nomatch h), fun ⟨a, g, b, h, _⟩ => ?_⟩
    cases a <;> cases h
  | cons x gs ih =>
    rw [growStep]
    cases hx : judgeGrow s x with
    | some u =>
      refine ⟨fun h => ⟨[], x, gs, rfl, fun _ h => (nomatch h), hx.trans h⟩, fun ⟨a, g, b, h, hnone, hg⟩ => ?_⟩
      cases a with
      | nil =>
        obtain ⟨rfl, rfl⟩ := List.cons.inj h
        exact hx.symm.trans hg
      | cons y a =>
        obtain ⟨rfl, _⟩ := List.cons.inj h
        rw [hnone x (List.mem_cons_self ..)] at hx
        cases hx
    | none =>
      refine ih.trans ⟨fun ⟨a, g, b, h, hnone, hg⟩ => ⟨x :: a, g, b, congrArg (x :: ·) h,
        List.forall_mem_cons.mpr ⟨hx, hnone⟩, hg⟩, fun ⟨a, g, b, h, hnone, hg⟩ => ?_⟩
      cases a with
      | nil =>
        obtain ⟨rfl, _⟩ := List.cons.inj h
        rw [hx] at hg
        cases hg
      | cons y a =>
        obtain ⟨rfl, hgs⟩ := List.cons.inj h
        exact ⟨a, g, b, hgs, (List.forall_mem_cons.mp hnone).2, hg⟩

/-- The first cluster in which a change can be made is changed. -/
theorem firstCluster_some {f : State → Option State} {cs ds : List Cluster} {k : Cluster}
    (hnone : ∀ d ∈ cs, f (focusOn s 0 0 d.id) = none) (h : f (focusOn s 0 0 k.id) = some t) :
    firstCluster s f (cs ++ k :: ds) = some t := by
  induction cs with
  | nil => rw [List.nil_append, firstCluster, h]
  | cons d cs ih =>
    rw [List.forall_mem_cons] at hnone
    rw [List.cons_append, firstCluster, hnone.1]
    exact ih hnone.2

end

/-! A grow request at its issue (R188, R199). -/

section
variable {s : State} {bs : List Byte} {i : Instr} {r b : BitVec 6} {q : BitVec 2}

/-- A decided request's result taken by its split. -/
theorem growTry_some {g : Grow} {v : Nat} (h : s.clus.grows.find? (fun x => x.id == (argN s 0).toNat) = some g)
    (hv : g.result = some v) : growTry b s = .ok (kset { s with clus := { s.clus with
      grows := s.clus.grows.filter (fun x => x.id != (argN s 0).toNat) } } b.toNat (BitVec.ofNat 64 v)) := by
  simp only [growTry, h, hv]

theorem growTry_none {g : Grow} (h : s.clus.grows.find? (fun x => x.id == (argN s 0).toNat) = some g)
    (hv : g.result = none) : growTry b s = .wait s := by
  simp only [growTry, h, hv]

/-- A grow descriptor's fields are in range. -/
def GrowGood (bs : List Byte) : Prop :=
  recNat bs 1 3 = 0 ∧ recNat bs 12 52 = 0 ∧ 0 < recNat bs 4 4 ∧ recNat bs 4 4 % 4096 = 0

theorem growBad_eq_true (h : ¬ GrowGood bs) : growBad bs = true := by
  by_contra hb
  refine h ?_
  simp only [growBad, Bool.or_eq_true, bne_iff_ne, beq_iff_eq, not_or, not_not] at hb
  obtain ⟨⟨⟨h1, h2⟩, h3⟩, h4⟩ := hb
  exact ⟨h1, h2, Nat.pos_of_ne_zero h3, h4⟩

theorem growBad_eq_false (h : GrowGood bs) : growBad bs = false := by
  obtain ⟨h1, h2, h3, h4⟩ := h
  simp [growBad, h1, h2, h4, Nat.pos_iff_ne_zero.mp h3]

/-- The request that a descriptor makes in a machine. -/
def requestOf (s : State) (bs : List Byte) : Grow :=
  { id := s.nextId, crew := s.crew.id, size := recNat bs 4 4, limit := recNat bs 8 4, since := s.cycle.toNat
    rank := s.w.core * 4 + s.w.quad, number := s.crew.number.toNat, result := none }

/-- A request among the cluster's, its split keeping its number. -/
def requested (s : State) (bs : List Byte) (u : State) : State :=
  keepArgs { u with nextId := s.nextId + 1, clus := { s.clus with grows := s.clus.grows ++ [requestOf s bs] } }
    [BitVec.ofNat 64 s.nextId]

theorem growIssue_eq (i : Instr) : growIssue bs (issued i s) =
    match (openGrows (requested s bs (issued i s))).find? (fun h => h.id == s.nextId) with
    | some h => (judgeGrow (requested s bs (issued i s)) h).getD (requested s bs (issued i s))
    | none => requested s bs (issued i s) := rfl

/-- The request is the only one of its crew, which is the crew in focus in its own cluster. -/
structure GrowsAlone (s : State) : Prop where
  live : s.crew.live = true
  home : s.clus.id = s.crew.clus
  bound : s.nextId < 2 ^ 64
  older : ∀ g ∈ s.clus.grows, g.id < s.nextId
  only : ∀ g ∈ s.clus.grows, g.crew ≠ s.crew.id

variable (ha : GrowsAlone s)
include ha

/-- The crew's request is judged as soon as it is made. -/
theorem openGrows_requested (i : Instr) : openGrows (requested s bs (issued i s)) = openGrows s ++ [requestOf s bs] := by
  have hgrows : (requested s bs (issued i s)).clus.grows = s.clus.grows ++ [requestOf s bs] := rfl
  have hnew : [requestOf s bs].filter (fun g => g.result.isNone) = [requestOf s bs] := rfl
  rw [openGrows_eq, hgrows, List.filter_append, hnew, List.foldl_append, ← openGrows_eq]
  show firstOfCrew (openGrows s) (requestOf s bs) = _
  refine if_neg (fun h => ?_)
  obtain ⟨g, hg, hcrew⟩ := List.any_eq_true.mp h
  exact ha.only g (mem_openGrows hg).1 (beq_iff_eq.mp hcrew)

theorem find_requested (i : Instr) :
    (openGrows (requested s bs (issued i s))).find? (fun h => h.id == s.nextId) = some (requestOf s bs) := by
  rw [openGrows_requested ha, List.find?_append, List.find?_eq_none.mpr, Option.none_or]
  · exact List.find?_cons_of_pos (beq_self_eq_true _)
  · intro g hg
    have := ha.older g (mem_openGrows hg).1
    rw [beq_iff_eq]
    omega

theorem growIssue_judges (i : Instr) : growIssue bs (issued i s) =
    (judgeGrow (requested s bs (issued i s)) (requestOf s bs)).getD (requested s bs (issued i s)) := by
  rw [growIssue_eq, find_requested ha]

theorem crewAt_requested (i : Instr) : crewAt (requested s bs (issued i s)) (requestOf s bs).crew = some s.crew := by
  have hcrews : (requested s bs (issued i s)).allCrews = s.crew :: s.crews := by
    show (if s.crew.live then [s.crew] else []) ++ s.crews = _
    rw [ha.live]
    rfl
  rw [crewAt, hcrews]
  exact List.find?_cons_of_pos (beq_self_eq_true _)

theorem argN_requested {u : State} (i : Instr) (hsp : u.sp = (requested s bs (issued i s)).sp) : (argN u 0).toNat = s.nextId := by
  have harg : argN u 0 = BitVec.ofNat 64 s.nextId := by
    rw [argN, hsp]
    rfl
  rw [harg, BitVec.toNat_ofNat, Nat.mod_eq_of_lt ha.bound]

theorem older_ne {g : Grow} (hg : g ∈ s.clus.grows) : g.id ≠ s.nextId := Nat.ne_of_lt (ha.older g hg)

/-- The request is the one that its split finds by its number. -/
theorem find_request {x : Grow} (hx : x.id = s.nextId) :
    (s.clus.grows ++ [x]).find? (fun g => g.id == s.nextId) = some x := by
  rw [List.find?_append, List.find?_eq_none.mpr (fun g hg => by rw [beq_iff_eq]; exact older_ne ha hg), Option.none_or]
  exact List.find?_cons_of_pos (beq_iff_eq.mpr hx)

theorem filter_request {x : Grow} (hx : x.id = s.nextId) :
    (s.clus.grows ++ [x]).filter (fun g => g.id != s.nextId) = s.clus.grows := by
  rw [List.filter_append, List.filter_eq_self.mpr (fun g hg => bne_iff_ne.mpr (older_ne ha hg)),
    List.filter_cons_of_neg (by simp [hx]), List.filter_nil, List.append_nil]

/-- A request's result, among the requests. -/
theorem map_request (v : Nat) : (s.clus.grows ++ [requestOf s bs]).map
    (fun g => if g.id = s.nextId then { g with result := some v } else g) =
      s.clus.grows ++ [{ requestOf s bs with result := some v }] := by
  rw [List.map_append]
  congr 1
  · exact (List.map_congr_left (fun g hg => if_neg (older_ne ha hg))).trans (List.map_id' _)
  · rw [List.map_singleton, if_pos (show (requestOf s bs).id = s.nextId from rfl)]

theorem growTry_decided (i : Instr) (v : Nat) {u : State} (hsp : u.sp = (requested s bs (issued i s)).sp)
    (hgrows : u.clus.grows = s.clus.grows ++ [{ requestOf s bs with result := some v }]) :
    growTry b u = .ok (kset { u with clus := { u.clus with grows := s.clus.grows } } b.toNat (BitVec.ofNat 64 v)) := by
  have harg := argN_requested ha i hsp
  have hfind : u.clus.grows.find? (fun x => x.id == (argN u 0).toNat) = some { requestOf s bs with result := some v } := by
    rw [harg, hgrows]
    exact find_request ha rfl
  have hfilter : u.clus.grows.filter (fun x => x.id != (argN u 0).toNat) = s.clus.grows := by
    rw [harg, hgrows]
    exact filter_request ha rfl
  rw [growTry_some hfind rfl, hfilter]

theorem growTry_waits (i : Instr) : growTry b (requested s bs (issued i s)) = .wait (requested s bs (issued i s)) := by
  refine growTry_none (g := requestOf s bs) ?_ rfl
  rw [argN_requested ha i rfl]
  exact find_request ha rfl

end

section
variable {s : State} {bs : List Byte} {i : Instr} {r b : BitVec 6} {q : BitVec 2} {c : Crew} {g : Grow} {v : Nat}

/-- Bytes of some keys dropped read zero, and the others as before. -/
theorem sget_filter {α : Type} (d : α) (p : Nat → Bool) (m : Sparse α) (a : Nat) :
    sget d (m.filter (fun e => p e.1)) a = if p a then sget d m a else d := by
  induction m with
  | nil => simp [sget]
  | cons e m ih =>
    obtain ⟨k, x⟩ := e
    by_cases hk : p k = true
    · rw [List.filter_cons_of_pos (p := fun e : Nat × α => p e.1) hk, sget, ih, sget]
      by_cases ha : k = a
      · rw [if_pos ha, if_pos ha, if_pos (ha ▸ hk)]
      · rw [if_neg ha, if_neg ha]
    · rw [List.filter_cons_of_neg (p := fun e : Nat × α => p e.1) hk, ih, sget]
      by_cases ha : k = a
      · rw [if_neg (ha ▸ hk), if_neg (ha ▸ hk)]
      · rw [if_neg ha]

/-- What a grant changes: CMSIZE, the request's result, and the bytes of the added range (R199). -/
theorem grantGrow_spec (hlive : s.crew.live = true) : (grantGrow s s.crew g).sp = s.sp ∧ (grantGrow s s.crew g).w = s.w ∧
    (grantGrow s s.crew g).ctx = s.ctx ∧ (grantGrow s s.crew g).crew = { s.crew with cmsize := s.crew.cmsize + g.size } ∧
    (grantGrow s s.crew g).clus = { s.clus with grows := s.clus.grows.map (fun h =>
      if h.id = g.id then { h with result := some (s.crew.cmsize + g.size) } else h) } ∧
    ∀ a, byteAt (grantGrow s s.crew g).mem a =
      if (growRange s.crew g).1 ≤ a ∧ a < (growRange s.crew g).2 then 0 else byteAt s.mem a := by
  have hcrew : onCrew s s.crew.id (fun x => { x with cmsize := x.cmsize + g.size }) =
      { s with crew := { s.crew with cmsize := s.crew.cmsize + g.size } } :=
    if_pos (by rw [hlive, beq_self_eq_true]; rfl)
  unfold grantGrow
  rw [hcrew]
  refine ⟨rfl, rfl, rfl, rfl, rfl, fun a => ?_⟩
  refine (sget_filter 0 (fun k => !(decide ((growRange s.crew g).1 ≤ k) && decide (k < (growRange s.crew g).2))) s.mem a).trans ?_
  by_cases h : (growRange s.crew g).1 ≤ a ∧ a < (growRange s.crew g).2
  · rw [if_pos h, if_neg (by simpa using h)]
  · rw [if_neg h, if_pos (by simpa [imp_iff_not_or] using h)]
    rfl

end

/-! The three ends of a request that is judged at once. -/

section
variable {s : State} {bs : List Byte} {i : Instr} {r b : BitVec 6} {q : BitVec 2} {more : State → Res}

/-- Where the range that a request asks for begins. -/
def growLow (s : State) : Nat := s.crew.cmbase + s.crew.cmsize

/-- A request for some bytes can be granted at all (R200). -/
def GrowPossible (s : State) (size : Nat) : Prop :=
  growLow s + size ≤ sliceBase s.crew.clus + 0x400000 ∧ s.crew.cmsize + size ≤ 0x400000

theorem growImpossible_iff : growImpossible s.crew (requestOf s bs) = false ↔ GrowPossible s (recNat bs 4 4) := by
  simp only [growImpossible, Bool.or_eq_false_iff, decide_eq_false_iff_not, Nat.not_lt]
  rfl

/-- No other crew's memory stands in the way of a range. -/
def RangeFree (s : State) (size : Nat) : Prop :=
  ∀ c ∈ s.allCrews, c.clus = s.crew.clus → c.dispatch = false → c.id ≠ s.crew.id → c.cmsize ≠ 0 →
    ¬ (c.cmbase < growLow s + size ∧ growLow s < c.cmbase + c.cmsize)

theorem growHolders_requested (i : Instr) : growHolders (requested s bs (issued i s)) s.crew (requestOf s bs) =
    holdersOf s s.crew.id (growLow s) (growLow s + recNat bs 4 4) := rfl

theorem holdersOf_eq_nil (hhome : s.clus.id = s.crew.clus) (h : RangeFree s (recNat bs 4 4)) :
    holdersOf s s.crew.id (growLow s) (growLow s + recNat bs 4 4) = [] := by
  refine List.filter_eq_nil_iff.mpr (fun c hc => ?_)
  simp only [Bool.and_eq_true, beq_iff_eq, Bool.not_eq_true', bne_iff_ne, decide_eq_true_eq]
  rintro ⟨⟨⟨⟨⟨hclus, hdispatch⟩, hid⟩, hsize⟩, hbase⟩, htop⟩
  exact h c hc (hclus.trans hhome) hdispatch hid hsize ⟨hbase, htop⟩

theorem mem_holdersOf_id {lo hi : Nat} {c : Crew} (h : c ∈ holdersOf s s.crew.id lo hi) : c.id ≠ s.crew.id := by
  have hp := (List.mem_filter.mp h).2
  simp only [Bool.and_eq_true, bne_iff_ne] at hp
  exact hp.1.1.1.2

/-- A request that CPY hands over, once its descriptor is good. -/
theorem cpyBody_request (hd : s.crew.dispatch = false) (hread : readRecord s needRec 64 (kget s b.toNat).toNat 64 = .ok bs)
    (hkind : recByte bs 0 = 1) (hgood : GrowGood bs) (hq : q = 0) :
    cpyBody r b q (issued i s) = growTry b (growIssue bs (issued i s)) := by
  rw [cpyBody_read hd i hread, if_pos hkind, growBad_eq_false hgood, if_neg Bool.false_ne_true, if_neg (not_not.mpr hq)]

theorem exec_cpy (he : exec i s = runW i (fun again s => if again then more s else once s (cpyBody r b q)) s)
    (hlane : anyLane s = true) (hi : Issues i s) {u : State} (hb : cpyBody r b q (issued i s) = .ok u)
    (hu : u.sp.stopDue = false) (hw : u.w.splits = s.w.splits ∧ u.w.overflow = s.w.overflow) :
    exec i s = .next (retired u) := by
  rw [he]
  refine runW_ok hi ((if_pos hlane).trans hb) hu ?_
  rw [hw.1, hw.2]
  exact hi.whole.2.2

theorem exec_cpy_waits (he : exec i s = runW i (fun again s => if again then more s else once s (cpyBody r b q)) s)
    (hlane : anyLane s = true) (hi : Issues i s) {u : State} (hb : cpyBody r b q (issued i s) = .wait u) :
    exec i s = .next (waits i u) := by
  rw [he]
  exact runW_wait hi ((if_pos hlane).trans hb)

variable (ha : GrowsAlone s)
include ha

theorem growIssue_impossible (hp : ¬ GrowPossible s (recNat bs 4 4)) (i : Instr) :
    growIssue bs (issued i s) = setResult (requested s bs (issued i s)) s.nextId 0 := by
  rw [growIssue_judges ha, judgeGrow_impossible (crewAt_requested ha i)]
  · rfl
  · rw [← Bool.not_eq_false, growImpossible_iff]
    exact hp

theorem growTry_impossible (hp : ¬ GrowPossible s (recNat bs 4 4)) (i : Instr) :
    growTry b (growIssue bs (issued i s)) = .ok (kset { requested s bs (issued i s) with clus := s.clus } b.toNat 0) := by
  rw [growIssue_impossible ha hp]
  exact growTry_decided (bs := bs) (u := setResult (requested s bs (issued i s)) s.nextId 0) ha i 0 rfl (map_request ha 0)

theorem growIssue_granted (hp : GrowPossible s (recNat bs 4 4)) (hf : RangeFree s (recNat bs 4 4)) (i : Instr) :
    growIssue bs (issued i s) = grantGrow (requested s bs (issued i s)) s.crew (requestOf s bs) := by
  rw [growIssue_judges ha, judgeGrow_free (crewAt_requested ha i) (growImpossible_iff.mpr hp)]
  · rfl
  · rw [growHolders_requested, holdersOf_eq_nil ha.home hf]

/-- The machine in which a request has been granted and its result taken. -/
def grownTo (s : State) (bs : List Byte) (b : BitVec 6) (i : Instr) : State :=
  let u := grantGrow (requested s bs (issued i s)) s.crew (requestOf s bs)
  kset { u with clus := { u.clus with grows := s.clus.grows } } b.toNat (BitVec.ofNat 64 (s.crew.cmsize + recNat bs 4 4))

theorem growTry_granted (hp : GrowPossible s (recNat bs 4 4)) (hf : RangeFree s (recNat bs 4 4)) (i : Instr) :
    growTry b (growIssue bs (issued i s)) = .ok (grownTo s bs b i) := by
  obtain ⟨hsp, -, -, -, hclus, -⟩ := grantGrow_spec (s := requested s bs (issued i s)) (g := requestOf s bs) ha.live
  rw [growIssue_granted ha hp hf]
  refine growTry_decided (bs := bs) ha i _ hsp ?_
  refine (congrArg Cluster.grows hclus).trans ?_
  exact map_request ha (s.crew.cmsize + recNat bs 4 4)

/-- While another crew that stands in the way is not waiting, the request is not decided. -/
theorem growIssue_undecided (hp : GrowPossible s (recNat bs 4 4)) (hl : recNat bs 8 4 ≠ 0)
    (hh : ∃ h ∈ holdersOf s s.crew.id (growLow s) (growLow s + recNat bs 4 4), waitingGrow s h = none) (i : Instr) :
    growIssue bs (issued i s) = requested s bs (issued i s) := by
  obtain ⟨h, hmem, hnone⟩ := hh
  have hwait : waitingGrow (requested s bs (issued i s)) h = none := by
    unfold waitingGrow at hnone ⊢
    split
    next hrun =>
      rw [if_pos hrun] at hnone
      rw [openGrows_requested ha, List.find?_append, hnone, Option.none_or]
      refine List.find?_cons_of_neg (by
        rw [beq_iff_eq]
        exact fun heq => mem_holdersOf_id hmem heq.symm) |>.trans rfl
    next => rfl
  rw [growIssue_judges ha, judgeGrow_waits (crewAt_requested ha i) (growImpossible_iff.mpr hp) hl]
  · rfl
  · rw [growHolders_requested]
    exact List.ne_nil_of_mem hmem
  · rw [growHolders_requested]
    intro hall
    have hsome := hall h hmem
    rw [hwait] at hsome
    cases hsome

omit ha in
theorem kset_w_of {u : State} {n : Nat} {v : DWord} {w : Warp} (hw : u.w = w) :
    (kset u n v).w = { w with k := (kset u n v).w.k } := by
  rw [← hw]
  exact congrArg State.w (kset_eq u n v)

omit ha in
theorem kset_frame (u : State) (n : Nat) (v : DWord) :
    (kset u n v).ctx = u.ctx ∧ (kset u n v).crew = u.crew ∧ (kset u n v).clus = u.clus := by
  unfold kset
  split <;> exact ⟨rfl, rfl, rfl⟩

/-- What a granted request has changed (R199). -/
theorem grownTo_spec (i : Instr) : (grownTo s bs b i).sp = (requested s bs (issued i s)).sp ∧
    (grownTo s bs b i).w = { s.w with k := (grownTo s bs b i).w.k } ∧ (grownTo s bs b i).ctx = s.ctx ∧
    (grownTo s bs b i).crew.cmsize = s.crew.cmsize + recNat bs 4 4 ∧ (grownTo s bs b i).clus.grows = s.clus.grows ∧
    (∀ a, byteAt (grownTo s bs b i).mem a =
      if growLow s ≤ a ∧ a < growLow s + recNat bs 4 4 then 0 else byteAt s.mem a) ∧
    kget (grownTo s bs b i) b.toNat = if b = 0 then 0 else BitVec.ofNat 64 (s.crew.cmsize + recNat bs 4 4) := by
  obtain ⟨hsp, hw, hctx, hcrew, hclus, hmem⟩ :=
    grantGrow_spec (s := requested s bs (issued i s)) (g := requestOf s bs) ha.live
  rw [grownTo]
  refine ⟨(kset_sp ..).trans hsp, ?_, ?_, ?_, ?_, fun a => ?_, ?_⟩
  · exact kset_w_of hw
  · exact (kset_frame ..).1.trans hctx
  · exact (congrArg Crew.cmsize (kset_frame ..).2.1).trans (congrArg Crew.cmsize hcrew)
  · rw [(kset_frame _ _ _).2.2]
  · rw [kset_mem]
    exact hmem a
  · by_cases hb : b = 0
    · rw [if_pos hb, hb]
      rfl
    · rw [if_neg hb, kget_kset _ _ _ (fun h => hb (BitVec.eq_of_toNat_eq h)), if_pos rfl]

theorem cpy_granted (he : exec i s = runW i (fun again s => if again then more s else once s (cpyBody r b q)) s)
    (hlane : anyLane s = true) (hi : Issues i s) (hbody : cpyBody r b q (issued i s) = growTry b (growIssue bs (issued i s)))
    (hp : GrowPossible s (recNat bs 4 4)) (hf : RangeFree s (recNat bs 4 4)) :
    ∃ t, exec i s = .next t ∧ t.crew.cmsize = s.crew.cmsize + recNat bs 4 4 ∧
      kget t b.toNat = (if b = 0 then 0 else BitVec.ofNat 64 (s.crew.cmsize + recNat bs 4 4)) ∧
      (∀ a, growLow s ≤ a → a < growLow s + recNat bs 4 4 → byteAt t.mem a = 0) ∧
      (∀ a, a < growLow s ∨ growLow s + recNat bs 4 4 ≤ a → byteAt t.mem a = byteAt s.mem a) ∧
      t.clus.grows = s.clus.grows ∧ t.w = { s.w with k := t.w.k } ∧ t.ctx = s.ctx := by
  obtain ⟨hsp, hw, hctx, hsize, hgrows, hmem, hk⟩ := grownTo_spec (bs := bs) (b := b) ha i
  refine ⟨_, exec_cpy he hlane hi (hbody.trans (growTry_granted ha hp hf i)) ?_ ?_, hsize, hk, fun a h h' => ?_,
    fun a h => ?_, hgrows, hw, hctx⟩
  · rw [hsp]
    exact issued_stopDue hi.whole.1 hi.whole.2.1
  · rw [hw]
    exact ⟨rfl, rfl⟩
  · exact (hmem a).trans (if_pos ⟨h, h'⟩)
  · exact (hmem a).trans (if_neg (by omega))

theorem cpy_impossible (he : exec i s = runW i (fun again s => if again then more s else once s (cpyBody r b q)) s)
    (hlane : anyLane s = true) (hi : Issues i s) (hbody : cpyBody r b q (issued i s) = growTry b (growIssue bs (issued i s)))
    (hp : ¬ GrowPossible s (recNat bs 4 4)) :
    exec i s = .next (retired { kset (issued i s) b.toNat 0 with nextId := s.nextId + 1 }) := by
  rw [exec_cpy he hlane hi (hbody.trans (growTry_impossible ha hp i))]
  · unfold kset
    split <;> rfl
  · rw [kset_sp]
    exact issued_stopDue hi.whole.1 hi.whole.2.1
  · exact kset_sameSplits ..

theorem cpy_undecided (he : exec i s = runW i (fun again s => if again then more s else once s (cpyBody r b q)) s)
    (hlane : anyLane s = true) (hi : Issues i s) (hbody : cpyBody r b q (issued i s) = growTry b (growIssue bs (issued i s)))
    (hp : GrowPossible s (recNat bs 4 4)) (hl : recNat bs 8 4 ≠ 0)
    (hh : ∃ h ∈ holdersOf s s.crew.id (growLow s) (growLow s + recNat bs 4 4), waitingGrow s h = none) :
    exec i s = .next (waits i (requested s bs (issued i s))) :=
  exec_cpy_waits he hlane hi (hbody.trans ((congrArg (growTry b) (growIssue_undecided ha hp hl hh i)).trans (growTry_waits ha i)))

end

section
variable {s : State} {bs : List Byte} {i : Instr} {r b : BitVec 6} {q : BitVec 2} {more : State → Res}

theorem cpy_growBad (he : exec i s = runW i (fun again s => if again then more s else once s (cpyBody r b q)) s)
    (hd : s.crew.dispatch = false) (h : readRecord s needRec 64 (kget s b.toNat).toNat 64 = .ok bs) (hk : recByte bs 0 = 1)
    (hbad : ¬ GrowGood bs) : OnceEnds i s (fun u => trapped u cOperand 3 s.sp.pc) :=
  once_endsW he (fun _ _ => by rw [cpyBody_read hd i h, if_pos hk, growBad_eq_true hbad, if_pos rfl]; rfl)

theorem cpy_qualified (he : exec i s = runW i (fun again s => if again then more s else once s (cpyBody r b q)) s)
    (hd : s.crew.dispatch = false) (h : readRecord s needRec 64 (kget s b.toNat).toNat 64 = .ok bs) (hk : recByte bs 0 = 1)
    (hgood : GrowGood bs) (hq : q ≠ 0) : OnceEnds i s (fun u => trapped u cOperand 5 s.sp.pc) :=
  once_endsW he (fun _ _ => by
    rw [cpyBody_read hd i h, if_pos hk, growBad_eq_false hgood, if_neg Bool.false_ne_true, if_pos hq]
    rfl)

variable {g : Grow} (hne : argN s 0 ≠ 0) (hfind : s.clus.grows.find? (fun x => x.id == (argN s 0).toNat) = some g)
include hne hfind

theorem cpy_stillWaits (he : exec i s = runW i (fun again s => if again then cpyAgain r b q s else once s (cpyBody r b q)) s)
    (h : g.result = none) : JudgedEnds i s { s with sp := { s.sp with
      state := if s.sp.state = .ready then .waiting else s.sp.state } } := by
  intro hw
  refine judged_ends he ?_ hw
  have hagain : cpyAgain r b q s = .wait s := (if_pos hne).trans (growTry_none hfind h)
  exact (congrArg (finish i true) hagain).trans (finish_waitAgain hw)

theorem cpy_takesResult (he : exec i s = runW i (fun again s => if again then cpyAgain r b q s else once s (cpyBody r b q)) s)
    {v : Nat} (h : g.result = some v) : JudgedEnds i s (goesOn (kset { s with clus := { s.clus with
      grows := s.clus.grows.filter (fun x => x.id != (argN s 0).toNat) } } b.toNat (BitVec.ofNat 64 v))) := by
  refine judged_ends he ?_
  have hagain : cpyAgain r b q s = .ok _ := (if_pos hne).trans (growTry_some hfind h)
  exact congrArg (finish i true) hagain

end

/-- A cluster in which a request has waited as long as it may: that one fails. -/
theorem growTimeout_next {s : State} {cs ds : List Cluster} {c : Cluster} {g : Grow} (hp : (pack s).cluss = cs ++ c :: ds)
    (hnone : ∀ d ∈ cs, ∀ x ∈ (focusOn s 0 0 d.id).clus.grows, growLate (focusOn s 0 0 d.id) x = false)
    (hfind : (focusOn s 0 0 c.id).clus.grows.find? (growLate (focusOn s 0 0 c.id)) = some g) :
    exec .growTimeout s = .next (setResult (focusOn s 0 0 c.id) g.id 0) := by
  refine event_some ?_
  rw [growTimeoutEvent, hp]
  refine firstCluster_some (fun d hd => ?_) ?_
  · rw [List.find?_eq_none.mpr (fun x hx => by rw [hnone d hd x hx]; exact Bool.false_ne_true)]
    rfl
  · rw [hfind]
    rfl

theorem growDecided_next {s t : State} {cs ds : List Cluster} {c : Cluster} (hp : (pack s).cluss = cs ++ c :: ds)
    (hnone : ∀ d ∈ cs, growStep (focusOn s 0 0 d.id) (openGrows (focusOn s 0 0 d.id)) = none)
    (h : growStep (focusOn s 0 0 c.id) (openGrows (focusOn s 0 0 c.id)) = some t) : exec .growDecided s = .next t := by
  refine event_some ?_
  rw [growDecidedEvent, hp]
  exact firstCluster_some hnone h

/-- Settles O36: a request is judged as its CPY issues and by the events after, against the memory of the other crews of its
cluster, and its split takes the result. -/
theorem crewMemoryGrowth : Obligations.CrewMemoryGrowth := by
  refine ⟨fun s r b q bs hd hread hkind => ?_, fun s r b q g hne hfind => ⟨cpy_stillWaits hne hfind rfl,
    fun v => cpy_takesResult hne hfind rfl⟩, fun s => ⟨fun cs c ds t => growDecided_next, fun cs c ds g => growTimeout_next,
      fun id v => rfl, fun g c => judgeGrow_impossible, fun g c => judgeGrow_free, fun g c => judgeGrow_atOnce,
      fun g => growLate_iff, fun g c hc hp hl => fun hne => ⟨judgeGrow_broken hc hp hl hne, judgeGrow_waits hc hp hl hne⟩,
      fun a b => moreRecent_iff, fun h g => waitingGrow_some, fun gs t => growStep_some⟩⟩
  intro size good lo alone possible free
  have hrequest (hgood : good) (hq : q = 0) (i : Instr) : cpyBody r b q (issued i s) = growTry b (growIssue bs (issued i s)) :=
    cpyBody_request hd hread hkind hgood hq
  have halone (h : alone) : GrowsAlone s := ⟨h.1, h.2.1, h.2.2.1, h.2.2.2.1, h.2.2.2.2⟩
  exact ⟨cpy_growBad (more := cpyAgain r b q) rfl hd hread hkind, cpy_qualified (more := cpyAgain r b q) rfl hd hread hkind,
    fun hgood hq ha hp hf _ hlane hi =>
      cpy_granted (more := cpyAgain r b q) (halone ha) rfl hlane hi (hrequest hgood hq _) hp hf,
    fun hgood hq ha hp hl hlane hi hh =>
      cpy_undecided (more := cpyAgain r b q) (halone ha) rfl hlane hi (hrequest hgood hq _) hp hl hh,
    fun hgood hq ha hp hlane hi =>
      cpy_impossible (more := cpyAgain r b q) (halone ha) rfl hlane hi (hrequest hgood hq _) hp⟩

end Sys2Proof.Machine
end

section
/-! PROOFS. The copy engine (R189, R190, R196, R377). -/

namespace Sys2Proof.Machine

/-! The copy engine's events (R189, R190, R196, R377). -/

section
variable {s t u v : State} {c d : Command} {g : Collective} {j k m n cl r : Nat} {x : Ring}

/-- The first of some values that something is made of. -/
theorem findSome?_append_cons {α β : Type} {f : α → Option β} {cs ds : List α} {a : α} {b : β}
    (hnone : ∀ d ∈ cs, f d = none) (h : f a = some b) : (cs ++ a :: ds).findSome? f = some b := by
  rw [List.findSome?_append, List.findSome?_eq_none_iff.mpr hnone, Option.none_or, List.findSome?_cons, h]

theorem copyCommandStart_next {cs ds : List Cluster} {a : Cluster} (hp : (pack s).cluss = cs ++ a :: ds)
    (hnone : ∀ d ∈ cs, startCopy s d.id = none) (h : startCopy s a.id = some t) : exec .copyCommandStart s = .next t := by
  refine event_some ?_
  rw [copyCommandStartEvent, hp]
  exact findSome?_append_cons (f := fun k : Cluster => startCopy s k.id) hnone h

theorem startable_iff_not (h : startable s c = true) : c.running = false ∧ c.stalled = false := by
  unfold startable at h
  rw [Bool.and_eq_true, Bool.and_eq_true, Bool.not_eq_true', Bool.not_eq_true'] at h
  exact h.1

/-- What starts is the oldest command that may, where fewer than four run. -/
theorem startCopy_some (h : startCopy s k = some t) :
    ((findCluster (pack s).cluss k).copies.filter (fun c => c.running)).length < 4 ∧
      ∃ c, (findCluster (pack s).cluss k).copies.find? (startable s) = some c ∧ c.running = false ∧ c.stalled = false ∧
        t = beginCommand (focusCrew s c.crew) c := by
  unfold startCopy at h
  dsimp only at h
  by_cases hlen : 4 ≤ ((findCluster (pack s).cluss k).copies.filter (fun c => c.running)).length
  · rw [if_pos hlen] at h
    cases h
  · rw [if_neg hlen] at h
    obtain ⟨c, hc, rfl⟩ := Option.map_eq_some_iff.mp h
    obtain ⟨hrun, hstall⟩ := startable_iff_not (List.find?_some hc)
    exact ⟨Nat.not_le.mp hlen, c, hc, hrun, hstall, rfl⟩

/-- A command once it runs. -/
def started (c : Command) : Command := { c with running := true }

theorem beginCommand_some (h : collectiveOf u (started c) = some g) : beginCommand u c =
    endCommand (fillChunks (setCommand u c (started c)) (started c) g (idleChunks (setCommand u c (started c)) (started c) g))
      (started c) := by
  have hc : collectiveOf (setCommand u c { c with running := true }) { c with running := true } = some g := h
  unfold beginCommand
  dsimp only
  rw [hc]
  rfl

/-- The chunks that a command fills as it starts are those that no slice writes. -/
theorem mem_idleChunks : j ∈ idleChunks s c g ↔ j < (ringAt s c.ring).chunkCount ∧ chunkWrites g j = [] := by
  have hused : ((g.slices.flatMap Slice.writes).map (fun x => x.off / 4096)).contains j = true ↔ chunkWrites g j ≠ [] := by
    rw [List.contains_iff_mem, List.mem_map, chunkWrites, Ne, List.filter_eq_nil_iff]
    simp only [beq_iff_eq, not_forall, not_not, exists_prop]
  unfold idleChunks
  rw [List.mem_filter, List.mem_range, Bool.not_eq_true', ← Bool.not_eq_true, hused, not_not]

variable (hfocus : focusCommand s cl n = some (u, c)) (hg : collectiveOf u c = some g) (hrun : c.running = true)
  (hstall : c.stalled = false)
include hfocus hg hrun hstall

theorem chunkFilled_next (h : workChunk u c g = (v, k, none)) :
    exec (.chunkFilled cl n) s = .next (endCommand
      (fillChunks (setCommand v c { c with chunk := none, pos := 0 }) { c with chunk := none, pos := 0 } g [nextChunk u c])
      { c with chunk := none, pos := 0 }) := by
  refine event_some ?_
  simp only [chunkFilledEvent, hfocus, hg, hrun, hstall, h, Bool.not_true, Bool.or_self, Bool.false_eq_true, if_false]

/-- A fault met is recorded in the ring of the command's issuer. -/
theorem copyFault_next {cause : Byte} {addr : Nat} (h : workChunk u c g = (v, k, some (cause, addr))) :
    exec (.copyFault cl n) s = .next (onRing
      (setCommand v c { c with running := false, stalled := true, chunk := some (nextChunk u c), pos := k }) c.ring
      (fun x => { x with fault := some { cause := cause, addr := BitVec.ofNat 64 addr, slot := c.slot, delivered := false } })) := by
  refine event_some ?_
  simp only [copyFaultEvent, hfocus, hg, hrun, hstall, h, Bool.not_true, Bool.or_self, Bool.false_eq_true, if_false]

end

section
variable {s : State} {j m r slot : Nat} {x : Ring} {ns : List Nat} {f : Ring → Ring}

theorem ringAt_onRing_ne (h : m ≠ r) : ringAt (onRing s r f) m = ringAt s m := by
  show (Crew.withRing _ r f).rings.getD m Ring.blank = s.crew.rings.getD m Ring.blank
  rw [List.getD_eq_getElem?_getD, getElem?_withRing, List.getD_eq_getElem?_getD]
  simp only [if_neg h, Option.map_id']

theorem mem_ninsert_iff : m ∈ ninsert j ns ↔ m = j ∨ m ∈ ns := by
  induction ns with
  | nil => exact List.mem_singleton.trans (by simp)
  | cons a ns ih =>
    rw [ninsert]
    split
    · exact List.mem_cons
    next =>
      split
      next h =>
        rw [List.mem_cons, h]
        tauto
      next =>
        rw [List.mem_cons, ih, List.mem_cons]
        tauto

theorem pairwise_ninsert (h : ns.Pairwise (· < ·)) : (ninsert j ns).Pairwise (· < ·) := by
  induction ns with
  | nil => exact List.pairwise_singleton _ _
  | cons a ns ih =>
    obtain ⟨hall, hrest⟩ := List.pairwise_cons.mp h
    rw [ninsert]
    split
    next hlt =>
      refine List.pairwise_cons.mpr ⟨fun b hb => ?_, h⟩
      rcases List.mem_cons.mp hb with rfl | hb
      · exact hlt
      · exact lt_trans hlt (hall b hb)
    next hnlt =>
      split
      next => exact h
      next hne =>
        refine List.pairwise_cons.mpr ⟨fun b hb => ?_, ih hrest⟩
        rcases mem_ninsert_iff.mp hb with rfl | hb
        · omega
        · exact hall b hb

/-- Numbers below a bound, each once, are as many as the bound exactly where all of them are there. -/
theorem length_eq_iff_all {n : Nat} (h : ns.Nodup) (hlt : ∀ m ∈ ns, m < n) : ns.length = n ↔ ∀ m < n, m ∈ ns := by
  have hsub : ns ⊆ List.range n := fun m hm => List.mem_range.mpr (hlt m hm)
  refine ⟨fun hlen m hm => ?_, fun hall => ?_⟩
  · have hperm := (List.subperm_of_subset h hsub).perm_of_length_le (by rw [List.length_range, hlen])
    exact hperm.mem_iff.mpr (List.mem_range.mpr hm)
  · refine Nat.le_antisymm ?_ ?_
    · simpa using (List.subperm_of_subset h hsub).length_le
    · simpa using (List.subperm_of_subset List.nodup_range (fun m hm => hall m (List.mem_range.mp hm))).length_le

/-- A chunk of slot FIL that is filled. -/
theorem fillChunk_open (hfil : x.fil = slot) (hres : slot < x.res) : fillChunk j slot x =
    if (ninsert j x.chunks).length = x.chunkCount then { x with fil := x.fil + 1, chunks := [] }
    else { x with chunks := ninsert j x.chunks } := by
  unfold fillChunk
  rw [if_neg (by simp only [hfil, ne_eq, not_true_eq_false, decide_false, Bool.false_or, decide_eq_true_eq]; omega)]

theorem fillChunk_spec (hfil : x.fil = slot) (hres : slot < x.res) (hsorted : x.chunks.Pairwise (· < ·))
    (hlt : ∀ m ∈ x.chunks, m < x.chunkCount) (hj : j < x.chunkCount) :
    ((∀ m < x.chunkCount, m = j ∨ m ∈ x.chunks) → (fillChunk j slot x).fil = slot + 1 ∧ (fillChunk j slot x).chunks = []) ∧
    (¬ (∀ m < x.chunkCount, m = j ∨ m ∈ x.chunks) →
      (fillChunk j slot x).fil = slot ∧ ∀ m, m ∈ (fillChunk j slot x).chunks ↔ m = j ∨ m ∈ x.chunks) := by
  have hnodup : (ninsert j x.chunks).Nodup := (pairwise_ninsert hsorted).imp (fun h => Nat.ne_of_lt h)
  have hbound : ∀ m ∈ ninsert j x.chunks, m < x.chunkCount := fun m hm =>
    (mem_ninsert_iff.mp hm).elim (fun h => h ▸ hj) (hlt m)
  have hlen := length_eq_iff_all hnodup hbound
  simp only [mem_ninsert_iff] at hlen
  rw [fillChunk_open hfil hres]
  refine ⟨fun hall => ?_, fun hnot => ?_⟩
  · rw [if_pos (hlen.mpr hall)]
    exact ⟨congrArg (· + 1) hfil, rfl⟩
  · rw [if_neg (fun h => hnot (hlen.mp h))]
    exact ⟨hfil, fun m => mem_ninsert_iff⟩

end

/-- Settles O38: each event of the copy engine is its meaning's event, and a chunk filled advances FIL exactly where it is the
slot's last. -/
theorem copyEngine : Obligations.CopyEngine := by
  refine fun s => ⟨fun cs k ds t => copyCommandStart_next, fun k t => startCopy_some,
    fun u c g hg => ⟨beginCommand_some hg, fun j => mem_idleChunks⟩,
    fun cl n u c g hfocus hg hrun hstall => ⟨fun v k => chunkFilled_next hfocus hg hrun hstall,
      fun v k cause addr hwork => ⟨_, copyFault_next hfocus hg hrun hstall hwork, rfl, fun hlen => ?_,
        fun m hm => ringAt_onRing_ne hm⟩⟩,
    fun j slot x => fillChunk_spec, fun u j x hout => if_pos ?_, fun u j x ks hin hrun => ?_⟩
  · exact congrArg Ring.fault (ringAt_onRing (s := setCommand v c { c with
      running := false, stalled := true, chunk := some (nextChunk u c), pos := k }) hlen)
  · rw [hout]
    rfl
  · have hneg : ¬ (!x.src.inside x.from_) = true := by
      rw [hin]
      exact Bool.false_ne_true
    unfold copySource
    rw [if_neg hneg, hrun]

end Sys2Proof.Machine
end

section
/-! PROOFS. Service operations, repairs, and stacks that leave and return (R176, R341, R344, R345, R374 to R376). -/

namespace Sys2Proof.Machine

/-! What a service operation's issue and its further course are (R176, R341, R344, R345). -/

section
variable {s t u : State} {core cell : Nat} {x : ServiceOp} {b : Bool} {v : Payload}

/-- A service core's operation on a cell. -/
def serviceOf (s : State) (core cell : Nat) (kind : ServiceKind) (e : DWord) (p : Payload) : ServiceOp :=
  { core := some core, wid := 0xF00 + core, cell := cell, kind := kind, expect := e, payload := p
    since := s.cycle.toNat, tag := none, past := none }

/-- The machine in which a service operation has been issued and gone on with. -/
def serviceIssued (s : State) (x : ServiceOp) : State := advanceService { s with services := s.services ++ [x] } x

/-- A core and a cell of a service operation are in range (R341). -/
theorem service_inRange (hcore : core < 32) (hcell : majBase + 32 * cell < majEnd s.shape) :
    ¬ (32 ≤ core || majEnd s.shape ≤ majBase + 32 * cell) = true := by
  simp only [Bool.or_eq_true, decide_eq_true_eq]
  omega

theorem serviceOp_some (hcore : core < 32) (hcell : majBase + 32 * cell < majEnd s.shape) (kind : ServiceKind) (e : DWord)
    (p : Payload) : serviceOp s core cell kind e p = some (serviceIssued s (serviceOf s core cell kind e p)) :=
  if_neg (service_inRange hcore hcell)

/-- A kernel that has run within its budget is left alone (R344). -/
theorem watchdog_within {ran : Nat} {budget : Option Nat} (h : ran ≤ budget.getD 200000) :
    serviceKernelWatchdogEvent core cell (some ran) budget s = none := by
  unfold serviceKernelWatchdogEvent
  split
  · rfl
  · exact if_pos (decide_eq_true h)

theorem watchdog_over (hcore : core < 32) (hcell : majBase + 32 * cell < majEnd s.shape) {ran budget : Option Nat}
    (h : ∀ n, ran = some n → budget.getD 200000 < n) : serviceKernelWatchdogEvent core cell ran budget s =
      some { serviceIssued s (serviceOf s core cell .hold 0 0) with dev := {
        (serviceIssued s (serviceOf s core cell .hold 0 0)).dev with serviceLog :=
          (serviceIssued s (serviceOf s core cell .hold 0 0)).dev.serviceLog ++ [(cell, ran.isSome)] } } := by
  have hover : ¬ (ran.map (fun n => decide (n ≤ budget.getD kernelBudget))).getD false = true := by
    cases ran with
    | none => exact Bool.false_ne_true
    | some n => exact fun hd => absurd (of_decide_eq_true hd) (Nat.not_le.mpr (h n rfl))
  unfold serviceKernelWatchdogEvent
  rw [if_neg (service_inRange hcore hcell), if_neg hover, serviceOp_some hcore hcell]
  rfl

/-- A service operation that cannot have a majority ends without one. -/
theorem advanceService_tooFew (h : tooFew u x.cell = true) :
    advanceService u x = endService u x (x.stores u) false false 0 := if_pos h

theorem advanceService_busy (h : tooFew u x.cell = false) (hb : serviceBusy u x = true) : advanceService u x = u :=
  (if_neg (h ▸ Bool.false_ne_true)).trans (if_pos hb)

section
variable (h : tooFew u x.cell = false) (hb : serviceBusy u x = false) (hi : holdIdle u x = false)
include h hb hi

/-- The course of an operation that may act. -/
theorem advanceService_acts : advanceService u x = match serviceWork u x with
    | .done b v t => if b || !x.kind.repeats then endService (serviceOrder t x b) x (x.stores u) true b v
      else serviceOrder t x b
    | .fail => endService u x (x.stores u) false false 0
    | .wait => if x.since + majLimit ≤ u.cycle.toNat then endService u x (x.stores u) false false 0 else u :=
  (if_neg (h ▸ Bool.false_ne_true)).trans ((if_neg (hb ▸ Bool.false_ne_true)).trans (if_neg (hi ▸ Bool.false_ne_true)))

theorem advanceService_done (hw : serviceWork u x = .done b v t) : advanceService u x =
    if b = true ∨ x.kind.repeats = false then endService (serviceOrder t x b) x (x.stores u) true b v
    else serviceOrder t x b := by
  rw [advanceService_acts h hb hi, hw]
  simp only [Bool.or_eq_true, Bool.not_eq_true']

theorem advanceService_fail (hw : serviceWork u x = .fail) :
    advanceService u x = endService u x (x.stores u) false false 0 := by
  rw [advanceService_acts h hb hi, hw]

theorem advanceService_wait (hw : serviceWork u x = .wait) : advanceService u x =
    if x.since + 65536 ≤ u.cycle.toNat then endService u x (x.stores u) false false 0 else u := by
  rw [advanceService_acts h hb hi, hw, majLimit]

end

theorem stores_of_store (h : x.kind = .mst ∨ x.kind = .mcas ∨ x.kind = .hold) : x.stores u = true := by
  unfold ServiceOp.stores
  rcases h with h | h | h <;> rw [h]

theorem stores_of_load (h : x.kind = .mld) : x.stores u = false := by
  unfold ServiceOp.stores
  rw [h]

theorem stores_of_trsig (h : x.kind = .trsig) {w : Payload} (hw : cellValue u x.cell = some w) :
    x.stores u = decide ((w.extractLsb' 0 64).toNat < (x.payload.extractLsb' 0 64).toNat) := by
  unfold ServiceOp.stores
  rw [h, hw]
  rfl

theorem serviceWork_mld (h : x.kind = .mld) : serviceWork u x = majLoad u x.cell := by
  unfold serviceWork
  rw [h]

theorem serviceWork_mst (h : x.kind = .mst) (ht : x.tag = none) :
    serviceWork u x = majStore u x.cell x.wid x.payload := by
  unfold serviceWork
  rw [h, ht]

theorem serviceWork_mcas (h : x.kind = .mcas) (ht : x.tag = none) :
    serviceWork u x = majCas u x.cell x.wid x.expect x.payload := by
  unfold serviceWork
  rw [h, ht]

theorem serviceWork_trsig (h : x.kind = .trsig) :
    serviceWork u x = raiseReady u x.cell x.wid (x.payload.extractLsb' 0 64) (x.before u) := by
  unfold serviceWork
  rw [h]

/-- The core of an operation hears how it ended. -/
def heardBy (u : State) (x : ServiceOp) (c : Nat) (a b : Bool) (v : Payload) : State :=
  { u with services := u.services.erase x, dev := { u.dev with serviceReplies :=
    u.dev.serviceReplies ++ [{ core := c, cell := x.cell, kind := x.kind, answered := a, outcome := b, payload := v }] } }

theorem endService_some {c : Nat} (h : x.core = some c) (stores a b : Bool) (v : Payload) :
    endService u x stores a b v = if stores then
      captureAll (heardBy u x c a b v) 3 (storeRecord x.cell (if x.kind.repeats then v else x.payload) b)
      else heardBy u x c a b v := by
  unfold endService
  rw [h]
  rfl

/-- An update that finds READY no lower than its value ends with its load (R243). -/
theorem raiseReady_reached {w : DWord} {wid : Nat} {p : Past} (h : majLoad s cell = .done b v t)
    (hle : w.toNat ≤ (v.extractLsb' 0 64).toNat) : raiseReady s cell wid w p = .done true v t := by
  unfold raiseReady
  rw [h]
  exact if_pos hle

end

/-! The majority units' updates, and late replies (R176, R243). -/

section
variable {s t : State} {id slot cell k : Nat} {line : CopyLine} {ks : List Nat}

theorem majorityTimeout_next {i : Instr} {rest : List (Nat × Nat)}
    (h : splitsWhere s (fun _ p => majorityLate s.cycle.toNat p) = (id, slot) :: rest)
    (hlive : (focusSplit s id slot).w.live = true) (halive : (focusSplit s id slot).sp.alive = true)
    (hw : (focusSplit s id slot).sp.wait = some i) : exec .majorityTimeout s =
      .next (goesOnTrapped (focusSplit s id slot) cMajfail (argN (focusSplit s id slot) 0) (focusSplit s id slot).sp.pc) := by
  refine event_some ?_
  have hon : onWaiting s id slot (fun t => t.sp.wait.map (fun i => finish i true (majFail t))) =
      (focusSplit s id slot).sp.wait.map (fun i => finish i true (majFail (focusSplit s id slot))) :=
    if_neg (by rw [hlive, halive]; exact Bool.false_ne_true)
  unfold majorityTimeoutEvent
  rw [h]
  refine hon.trans ?_
  rw [hw]
  rfl

theorem trwaitRetry_next {a b : BitVec 6} (hlive : (focusSplit s id slot).w.live = true)
    (halive : (focusSplit s id slot).sp.alive = true) (hw : (focusSplit s id slot).sp.wait = some (.trwait a b)) :
    exec (.trwaitRetry id slot) s = .next (finish (.trwait a b) true (trwaitAgain (focusSplit s id slot))) := by
  refine event_some ((if_neg (by rw [hlive, halive]; exact Bool.false_ne_true)).trans ?_)
  rw [hw]

/-! A log update leaves the majority units' updates as they were. -/

theorem sendLine_trsigs : (sendLine s cell line k).trsigs = s.trsigs := by
  unfold sendLine
  split
  · split <;> rfl
  · rfl

theorem sendAll_trsigs : (sendAll s cell line ks).trsigs = s.trsigs := by
  induction ks generalizing s with
  | nil => rfl
  | cons k ks ih => exact ih.trans sendLine_trsigs

theorem majLoad_trsigs {b : Bool} {v : Payload} (h : majLoad s cell = .done b v t) : t.trsigs = s.trsigs := by
  obtain ⟨_, _, _, _, _, _, rfl⟩ := majLoad_done h
  exact sendAll_trsigs.trans sendAll_trsigs

theorem storePhase_trsigs {wid : Nat} {read : BitVec 64} {p v : Payload} {b : Bool}
    (h : storePhase s cell wid read p = .done b v t) : t.trsigs = s.trsigs := by
  unfold storePhase at h
  split at h
  · cases h
  · split at h
    · cases h
    · dsimp only at h
      split at h
      · cases h
        exact sendAll_trsigs
      · split at h <;> cases h <;> exact sendAll_trsigs

theorem majCas_trsigs {wid : Nat} {e : DWord} {p v : Payload} {b : Bool} (h : majCas s cell wid e p = .done b v t) :
    t.trsigs = s.trsigs := by
  cases hfew : tooFew s cell with
  | true =>
    rw [majCas, hfew] at h
    cases h
  | false =>
    rw [majCas_eq hfew] at h
    split at h
    · cases h
    · split at h
      · cases h
        exact sendAll_trsigs.trans sendAll_trsigs
      · exact storePhase_trsigs h

theorem writeRun_trsigs {n : Need} {va : Nat} {bs : List Byte} (h : writeRun s n va bs = .ok t) : t.trsigs = s.trsigs := by
  unfold writeRun at h
  split at h
  · cases h
  · cases h
    rw [storeKeys_eq]

theorem claim_trsigs {wid size n : Nat} {loss : Bool} {mk : Nat → List Byte} :
    (claim s wid cell loss size mk n).trsigs = s.trsigs := by
  induction n generalizing s with
  | zero => rfl
  | succ n ih =>
    unfold claim
    split
    next b root u hload =>
      have hu := majLoad_trsigs hload
      extract_lets v lo cap base h v'
      split
      · exact hu
      · split
        next hcas =>
          have hv := (majCas_trsigs hcas).trans hu
          split
          next hrun => exact (writeRun_trsigs hrun).trans hv
          next => exact hv
        next hcas => exact ih.trans ((majCas_trsigs hcas).trans hu)
        next => exact hu
    next => rfl

theorem logRecord_trsigs {flog : DWord} {w : Warp} {loss : Bool} {record : List Byte} :
    (logRecord s flog w loss record).trsigs = s.trsigs := by
  unfold logRecord
  split
  · rfl
  · split
    · rfl
    · dsimp only
      split
      · rfl
      · exact claim_trsigs

theorem onAll_trsigs {f : State → State} (hf : ∀ u, (f u).trsigs = u.trsigs) : (onAll s f).trsigs = s.trsigs := by
  unfold onAll retake
  split <;> exact hf (pack s)

theorem trsigAbandon_next {u : TrsigUpdate} (h : s.trsigs.find? (fun u => decide (u.since + 65536 ≤ s.cycle.toNat)) = some u) :
    ∃ t, exec .trsigAbandon s = .next t ∧ t.trsigs = s.trsigs.erase u := by
  have hfind : s.trsigs.find? (fun u => decide (u.since + majLimit ≤ s.cycle.toNat)) = some u := h
  refine ⟨_, event_some (by unfold trsigAbandonEvent; rw [hfind]), ?_⟩
  exact onAll_trsigs (s := { s with trsigs := s.trsigs.erase u }) (fun _ => logRecord_trsigs)

end

/-! Visits of a set's scrubber and of its rebuild pass (R374, R376). -/

section
variable {s t u : State} {cell set k m n : Nat} {line : CopyLine} {ks : List Nat}

theorem sendLine_scrubbed : (sendLine s cell line k).scrubbed = s.scrubbed := by
  unfold sendLine
  split
  · split <;> rfl
  · rfl

theorem sendAll_scrubbed : (sendAll s cell line ks).scrubbed = s.scrubbed := by
  induction ks generalizing s with
  | nil => rfl
  | cons k ks ih => exact ih.trans sendLine_scrubbed

/-- The stacks whose copies of a cell hold a value. -/
def holders (s : State) (cell : Nat) : List Nat := (serving s cell).filter (fun k => (lineAt s k cell).holds)

/-- A repair sends the newest of the lines held to every serving stack, and does nothing where no line is held (R376). -/
theorem repairCell_eq : repairCell s cell =
    if holders s cell = [] then s else sendAll s cell (highestLine s cell (holders s cell)) (serving s cell) := by
  show (match holders s cell with
    | [] => s
    | ks => sendAll s cell (highestLine s cell ks) (serving s cell)) = _
  cases holders s cell with
  | nil => rfl
  | cons k ks => rfl

theorem repairCell_scrubbed : (repairCell s cell).scrubbed = s.scrubbed := by
  rw [repairCell_eq]
  split
  · rfl
  · exact sendAll_scrubbed

theorem repairCell_shape : (repairCell s cell).shape = s.shape := by
  rw [repairCell_eq]
  split
  · rfl
  · exact sendAll_places.2.2

theorem mem_holders : k ∈ holders s cell ↔ k ∈ serving s cell ∧ (lineAt s k cell).holds = true := List.mem_filter

/-- After a repair every serving stack's copy is as new as any that was held (R376). -/
theorem repairCell_newest (hk : k ∈ serving s cell) (hm : m ∈ serving s cell) (hold : (lineAt s m cell).holds = true) :
    tagRank (lineAt s m cell).tag ≤ tagRank (lineAt (repairCell s cell) k cell).tag := by
  have hmem : m ∈ holders s cell := mem_holders.mpr ⟨hm, hold⟩
  have hne : holders s cell ≠ [] := List.ne_nil_of_mem hmem
  obtain ⟨⟨x, hx, hline⟩, hall⟩ := highestLine_spec (s := s) (cell := cell) hne
  have hholds : (highestLine s cell (holders s cell)).holds = true := by
    rw [hline]
    exact (mem_holders.mp hx).2
  rw [repairCell_eq, if_neg hne]
  exact le_trans (hall m hmem) (asNew_sendAll hholds hk).2

/-- A set's scrubber visits the next cell, round and round (R376). -/
theorem scrubVisit_some (h : set < setCount s.shape) : ∃ t, scrubVisitEvent set s = some t ∧
    t = { repairCell s (sget 0 s.scrub set * setCount s.shape + set) with
      scrub := t.scrub, scrubbed := t.scrubbed
      dev := { (repairCell s (sget 0 s.scrub set * setCount s.shape + set)).dev with scrubPasses := t.dev.scrubPasses } } ∧
    sget 0 t.scrub set = (sget 0 s.scrub set + 1) % 2 ^ 22 ∧ sget 0 t.scrubbed set = sget 0 s.scrubbed set + 1 ∧
    t.shape = s.shape := by
  have hcount : (repairCell s (sget 0 s.scrub set * setCount s.shape + set)).scrubbed = s.scrubbed := repairCell_scrubbed
  refine ⟨_, if_neg (Nat.not_le.mpr h), rfl, sget_sset_same .., ?_, repairCell_shape⟩
  dsimp only
  rw [sget_sset_same, hcount]

/-- Some scrubber visits in a row are counted one by one. -/
theorem scrubbed_foldl {ns : List Nat} (h : set < setCount s.shape) :
    sget 0 (ns.foldl (fun t _ => (scrubVisitEvent set t).getD t) s).scrubbed set = sget 0 s.scrubbed set + ns.length := by
  induction ns generalizing s with
  | nil => rfl
  | cons n ns ih =>
    obtain ⟨t, ht, _, _, hcount, hshape⟩ := scrubVisit_some h
    rw [List.foldl_cons, ht, Option.getD_some, ih (hshape ▸ h), hcount, List.length_cons]
    omega

theorem scrubSet_scrubbed (h : set < setCount s.shape) :
    sget 0 (scrubSet s set).scrubbed set = max (sget 0 s.scrubbed set) ((s.cycle.toNat + 4 - set) / 256) := by
  unfold scrubSet scrubsDue
  rw [scrubbed_foldl h, List.length_range]
  omega

theorem rebuildVisit_some (h : set < setCount s.shape) (hr : rebuildingIn s set ≠ []) : ∃ t, rebuildVisitEvent set s = some t ∧
    t.majority = (repairCell s (sget 0 s.rebuild set * setCount s.shape + set)).majority := by
  have hguard : ¬ (setCount s.shape ≤ set || (rebuildingIn s set).isEmpty) = true := by
    rw [Bool.or_eq_true, decide_eq_true_eq, List.isEmpty_iff, not_or]
    exact ⟨Nat.not_le.mpr h, hr⟩
  unfold rebuildVisitEvent
  rw [if_neg hguard]
  dsimp only
  split
  · exact ⟨_, rfl, rfl⟩
  · exact ⟨_, rfl, rfl⟩

end

/-! Stacks that leave and return (R374, R375). -/

section
variable {s t u v : State} {cell set k place tap key : Nat}

theorem dropLines_one : dropLines s [k] = { s with flying := s.flying.filter (fun f => f.1 != k) } := by
  unfold dropLines
  congr 1
  refine List.filter_congr (fun f _ => ?_)
  rw [List.contains_cons, List.contains_nil, Bool.or_false]
  rfl

theorem stackRetire_some (h : s.hbm[k]? = some .inService ∨ s.hbm[k]? = some .rebuilding ∨ s.hbm[k]? = some .spare)
    (ht : t = doomSplits { s with hbm := s.hbm.set k .retired, flying := s.flying.filter (fun f => f.1 != k) }) :
    stackRetireEvent k s = some ((t.allCtxs.flatMap (fun c => c.taps.map (fun x => x.id))).foldl failRoot t) := by
  have hdrop : doomSplits (dropLines { s with hbm := s.hbm.set k .retired } [k]) = t := by rw [dropLines_one, ht]
  unfold stackRetireEvent
  rw [hdrop]
  rcases h with h | h | h <;> rw [h]

/-- A tap's read of its root fails where its set is left with too few stacks (R235, R375). -/
theorem failRoot_tooFew {x : Tap} (h : focusTap u tap = some (v, x)) (hstage : x.stage = .root) (hroot : x.root = none)
    (hkey : checkCell v needR x.desc.ruleroot.toNat = .ok key) (hfew : tooFew v (cellOf key) = true) :
    failRoot u tap = holdTap v x cMajfail x.desc.ruleroot.toNat := by
  have hguard : ¬ (decide (x.stage ≠ .root) || x.root.isSome) = true := by
    rw [hstage, hroot]
    exact Bool.false_ne_true
  unfold failRoot
  rw [h]
  refine (if_neg hguard).trans ?_
  rw [hkey]
  exact if_pos hfew

/-- What becomes of a split when stacks leave. -/
def doomed (u : State) (p : Split) : Split :=
  if p.alive && awaitsMajority p && tooFew u (p.args.getD 2 0).toNat then { p with doomed := true } else p

theorem doomed_pos {p : Split} (ha : p.alive = true) (hw : awaitsMajority p = true)
    (hfew : tooFew u (p.args.getD 2 0).toNat = true) : doomed u p = { p with doomed := true } :=
  if_pos (by rw [ha, hw, hfew]; rfl)

theorem doomed_neg {p : Split} (hfew : tooFew u (p.args.getD 2 0).toNat = false) : doomed u p = p :=
  if_neg (by rw [hfew, Bool.and_false]; exact Bool.false_ne_true)

theorem doomSplits_mem {w : Warp} (hw : w ∈ u.warps) :
    { w with splits := w.splits.map (doomed u), overflow := w.overflow.map (doomed u) } ∈ (doomSplits u).warps :=
  List.mem_map_of_mem hw

theorem setOfStack_congr (h : t.spares = s.spares) (hs : t.shape = s.shape) : setOfStack t k = setOfStack s k := by
  unfold setOfStack
  rw [hs]
  refine congrArg (fun p => List.find? p _) (funext fun set => ?_)
  rw [setStacks_congr h hs]

/-- A cell's copy lines lie in the set's lines of their stack (R373). -/
theorem lineKey_stack (h : majBase + 32 * cell < majEnd s.shape) : lineKey s k cell / setLines = k := by
  have hrow : cell / setCount s.shape < 2 ^ 22 := by
    unfold majEnd majBase at h
    unfold setCount
    split at h
    next hshape =>
      rw [if_pos hshape]
      omega
    next hshape =>
      rw [if_neg hshape]
      omega
  unfold lineKey setLines
  generalize cell / setCount s.shape = row at hrow
  omega

/-- A stack that goes into service is rebuilding, and its copy lines read VALID = 0 (R374). -/
theorem serveStack_hbm (h : k < s.hbm.length) : (serveStack s k).hbm[k]? = some .rebuilding :=
  List.getElem?_set_self h

theorem lineAt_serveStack (h : majBase + 32 * cell < majEnd s.shape) :
    lineAt (serveStack s k) k cell = { tag := 0, payload := 0 } := by
  have hblank : blankLine (serveStack s k) k = { tag := 0, payload := 0 } :=
    if_pos (List.contains_iff_mem.mpr (mem_ninsert_iff.mpr (.inl rfl)))
  have hkey : lineKey (serveStack s k) k cell = lineKey s k cell := rfl
  unfold lineAt
  rw [hblank, hkey]
  refine (sget_filter _ (fun a => a / setLines != k) s.majority _).trans (if_neg ?_)
  rw [lineKey_stack h, bne_self_eq_false]
  exact Bool.false_ne_true

/-- The machine in which the spares that stood in for a stack have gone back (R374). -/
def sparesBack (s : State) (k : Nat) : State :=
  dropLines { s with
    hbm := s.hbm.zipIdx.map (fun x => if (standChain s 12 k).any (fun p => p.2 == x.2) && x.1 != .retired then .spare else x.1)
    spares := s.spares.filter (fun p => !(standChain s 12 k).contains p) } ((standChain s 12 k).map (fun p => p.2))

theorem sparesBack_length : (sparesBack s k).hbm.length = s.hbm.length :=
  (List.length_map _).trans List.length_zipIdx

theorem stackReturn_own (h : s.hbm[k]? = some .retired) : stackReturnEvent k k s =
    some (if (setOfStack (sparesBack s k) k).isSome then serveStack (sparesBack s k) k
      else { sparesBack s k with hbm := (sparesBack s k).hbm.set k .spare }) := by
  unfold stackReturnEvent
  rw [h]
  exact if_neg (fun hne => hne rfl)

theorem stackReturn_own_spec (h : s.hbm[k]? = some .retired) (hcell : majBase + 32 * cell < majEnd s.shape) :
    ∃ t, exec (.stackReturn ⟨k, k⟩) s = .next t ∧
      t.hbm[k]? = some (if (setOfStack t k).isSome then .rebuilding else .spare) ∧
      ((setOfStack t k).isSome = true → lineAt t k cell = { tag := 0, payload := 0 }) := by
  have hlen : k < (sparesBack s k).hbm.length := lt_of_lt_of_eq (List.getElem?_eq_some_iff.mp h).1 sparesBack_length.symm
  refine ⟨_, event_some (stackReturn_own h), ?_⟩
  cases hset : (setOfStack (sparesBack s k) k).isSome with
  | true =>
    have hof : setOfStack (serveStack (sparesBack s k) k) k = setOfStack (sparesBack s k) k := setOfStack_congr rfl rfl
    rw [if_pos rfl, hof, hset]
    exact ⟨serveStack_hbm hlen, fun _ => lineAt_serveStack hcell⟩
  | false =>
    have hof : setOfStack { sparesBack s k with hbm := (sparesBack s k).hbm.set k .spare } k =
        setOfStack (sparesBack s k) k := setOfStack_congr rfl rfl
    rw [if_neg Bool.false_ne_true, hof, hset]
    exact ⟨List.getElem?_set_self hlen, fun h => absurd h Bool.false_ne_true⟩

/-- The machine in which a spare stands in for a stack (R374). -/
def standsIn (s : State) (place k : Nat) : State := serveStack { s with spares := s.spares ++ [(place, k)] } k

theorem stackReturn_spare (h : s.hbm[k]? = some .spare) (hp : s.hbm[place]? = some .retired)
    (hset : (setOfStack s place).isSome = true) : exec (.stackReturn ⟨k, place⟩) s = .next (standsIn s place k) := by
  refine event_some ?_
  unfold stackReturnEvent
  rw [h]
  refine if_pos ?_
  rw [hp, hset]
  rfl

end

section
variable {s : State} {core cell : Nat} (hcore : core < 32) (hcell : majBase + 32 * cell < majEnd s.shape)
include hcore hcell

/-- What the service cores' operations do as they are issued (R341, R344, R345). -/
theorem serviceOps_exec :
    exec (.serviceMld core cell) s = .next (serviceIssued s (serviceOf s core cell .mld 0 0)) ∧
    (∀ p, exec (.serviceMst core cell p) s = .next (serviceIssued s (serviceOf s core cell .mst 0 p))) ∧
    (∀ e p, exec (.serviceMcas core cell e p) s = .next (serviceIssued s (serviceOf s core cell .mcas e p))) ∧
    (∀ x : BitVec 64, exec (.serviceTrsigUpdate core cell x) s =
      .next (serviceIssued s (serviceOf s core cell .trsig 0 (x.setWidth 256)))) :=
  ⟨event_some (serviceOp_some hcore hcell ..), fun _ => event_some (serviceOp_some hcore hcell ..),
    fun _ _ => event_some (serviceOp_some hcore hcell ..), fun _ => event_some (serviceOp_some hcore hcell ..)⟩

end

section
variable (u : State) (x : ServiceOp)

/-- What ends a service operation, and how its core hears of it (R176, R341). -/
theorem endService_record {c : Nat} (a b : Bool) (v : Payload) (h : x.core = some c) :
    endService u x false a b v = heardBy u x c a b v ∧ endService u x true a b v =
      captureAll (heardBy u x c a b v) 3 (natLE (majBase + 32 * x.cell) 8 ++
        natLE (if x.kind.repeats then v else x.payload).toNat 32 ++ [if b then 1 else 0]) :=
  ⟨(endService_some h ..).trans (if_neg Bool.false_ne_true), (endService_some h ..).trans (if_pos rfl)⟩

end

/-- Settles O51: an equation for each event, from the course of a service operation, the copies a repair sends to, and the
places of the stacks. -/
theorem majorityEvents : Obligations.MajorityEvents := by
  unfold Obligations.MajorityEvents
  intro s core cell hcore hcell
  obtain ⟨hmld, hmst, hmcas, htrsig⟩ := serviceOps_exec hcore hcell
  refine ⟨⟨hmld, hmst, hmcas, htrsig, fun ran budget h => ?_, fun ran budget h => event_some (watchdog_over hcore hcell h)⟩,
    fun u x => ⟨advanceService_tooFew, advanceService_busy, fun h hb hi => ⟨fun b v t => advanceService_done h hb hi,
      advanceService_fail h hb hi, advanceService_wait h hb hi⟩, stores_of_store, stores_of_load,
      fun h w => stores_of_trsig h, serviceWork_mld, serviceWork_mst, serviceWork_mcas, serviceWork_trsig,
      fun c a b v => endService_record u x a b v⟩,
    fun b v t x p => raiseReady_reached, fun id slot rest i => majorityTimeout_next, fun id slot a b => trwaitRetry_next,
    fun t => event_some, fun u => trsigAbandon_next, fun set hset => ⟨?_, fun hr => ?_, scrubSet_scrubbed hset⟩,
    fun _ k hk m hm => repairCell_newest hk hm, fun k h => event_some (stackRetire_some h rfl),
    fun u tap v x key => failRoot_tooFew, fun u w hw p hp => ?_, fun k h => stackReturn_own_spec h hcell,
    fun k place h hp hset => ?_⟩
  case refine_1 =>
    show event _ s = _
    rw [watchdog_within h]
    rfl
  case refine_2 =>
    obtain ⟨t, hsome, ht, hscrub, _⟩ := scrubVisit_some hset
    exact ⟨t, event_some hsome, ht, hscrub⟩
  case refine_3 =>
    obtain ⟨t, hsome, ht⟩ := rebuildVisit_some hset hr
    exact ⟨t, event_some hsome, ht⟩
  case refine_4 =>
    refine ⟨_, doomSplits_mem hw, rfl, fun ha hwait hfew => ?_, fun hfew => ?_⟩
    · exact List.mem_map.mpr ⟨p, hp, doomed_pos ha hwait hfew⟩
    · exact List.mem_map.mpr ⟨p, hp, doomed_neg hfew⟩
  case refine_5 =>
    have hin : k < s.hbm.length := (List.getElem?_eq_some_iff.mp h).1
    exact ⟨_, stackReturn_spare h hp hset, serveStack_hbm hin, List.mem_append_right _ (List.mem_singleton_self _),
      lineAt_serveStack (s := { s with spares := s.spares ++ [(place, k)] }) hcell⟩

end Sys2Proof.Machine

end
